-- ==== Sys2Proof/Word.lean ====
section
/-! DEFINITION. Word types (R4, R67, R365), and the sparse table type used for every keyed store. -/

namespace Sys2Proof

/-- One byte of a packet, record or frame. -/
abbrev Byte := BitVec 8
/-- A register word (R4). -/
abbrev W32 := BitVec 32
/-- A queue word or a point value (R69, R365). -/
abbrev W64 := BitVec 64
/-- A point timestamp, 48-bit µs (R74). -/
abbrev Stamp := BitVec 48

/-- A keyed store in one canonical form: keys strictly rising, no entry equal to what an unlisted key
reads as. The operations on it stand in `Machine/Ops.lean`. -/
abbrev Sparse (α : Type) := List (Nat × α)

end Sys2Proof
end

