-- ==== Sys2Proof/Machine/Records.lean ====
section
/-! DEFINITION. The records of the configuration store and of the retentive state: pending writes, forces, loop contexts, images and their
tasks, checkpoints, cost entries, quotas, BACnet/SC nodes. The state holds them, and a joining member of a pair receives them (R408). -/

namespace Sys2Proof.Machine

/-- Task state (R143). -/
inductive TaskState where
  | empty
  | running
  | stoppedCmd
  | stoppedOverrun
  | stoppedFault
  | retired
  | suspendedPeriod
  deriving DecidableEq, Repr

/-- A shadowed write to one register, pending for a boundary (R44, R45). `sel` is the entry a selector window had
selected, `mask` the bits written, `due` the first boundary it may apply at. -/
structure Shadow where
  off : Nat
  sel : Nat := 0
  mask : W32
  val : W32
  due : Nat
  deriving DecidableEq, Repr, Inhabited

/-- A force-table entry (R87). -/
structure Force where
  point : Nat
  value : W64
  live : W64
  setter : Byte
  stamp : Stamp
  orphan : Bool
  deriving DecidableEq, Repr, Inhabited

/-- A loop context (R99): its 64 words, and the engine state the words do not name: the initialisation pending
(R115), the IACC re-initialisation of R114, the output implied by the last proposal (none when it needed no
move), whether that move found no room (R66), the stage counts, SPOT_PERMIT and whether a session of the loop's own booth set it
(R121), and the injection of an ended OUT_CLOSED test that the output still carries (R125). -/
structure LoopCtx where
  words : List W32 := []
  initNext : Bool := true
  reinit : Bool := false
  proposed : Option W64 := none
  notEntered : Bool := false
  stage : Nat := 0
  stageProp : Nat := 0
  permit : Bool := false
  permitOwn : Bool := false
  stateBad : Bool := false
  undo : Int := 0
  deriving DecidableEq, Repr, Inhabited

/-- A symbol of an image with its Juggler, the offset in its SRAM and its retained value (R134, R135, R138): a variable's words, a timer's ET, IN_PREV, Q
and LAST_CALL, an edge detector's previous input (`fresh` until its first call). -/
structure Sym where
  ident : W64
  kind : Nat
  typ : Nat
  count : Nat
  task : Nat
  jug : Nat := 0
  sram : Nat := 0
  words : List W64 := []
  et : Int := 0
  inPrev : Bool := false
  q : Bool := false
  lastCall : Nat := 0
  fresh : Bool := true
  deriving DecidableEq, Repr, Inhabited

/-- A task-table entry (R134, R143) with the run times of PRG_TASK_TIME. -/
structure Task where
  booth : Nat := 0
  number : Nat := 0
  image : W64 := 0
  jug : Nat := 0
  period : Nat := 1
  offset : Nat := 0
  prio : Nat := 0
  cls : Nat := 3
  wcet : Nat := 0
  pages : Nat := 0
  codeOff : Nat := 0
  codeSize : Nat := 0
  dataOff : Nat := 0
  dataSize : Nat := 0
  state : TaskState := .empty
  lastRun : Nat := 0
  maxRun : Nat := 0
  safeOut : Bool := false
  deriving DecidableEq, Repr, Inhabited

/-- A release-list entry: HOLD or SAFE (R134, R159). -/
structure Release where
  point : Nat
  safe : Bool
  deriving DecidableEq, Repr, Inhabited

/-- An Olinko image (R131–R135). -/
structure Image where
  booth : Nat := 0
  period : Nat := 0
  ident : W64 := 0
  build : W32 := 0
  tasks : List Task := []
  syms : List Sym := []
  writers : List (Nat × Nat) := []
  releases : List Release := []
  initial : List Sym := []
  length : Nat := 0
  deriving DecidableEq, Repr, Inhabited

/-- A snapshot of the retentive state (R147), with the CRC-32 of its commit record. -/
structure Retentive where
  seq : Nat := 0
  rev : Nat := 0
  images : List (Nat × W64) := []
  syms : List (Nat × List Sym) := []
  ctx : Sparse LoopCtx := []
  forces : Sparse Force := []
  counts : Sparse W32 := []
  pages : Nat := 0
  crc : W32 := 0
  deriving DecidableEq, Repr, Inhabited

/-- A cost entry of the ledger (R228, TOKN_COST registers). -/
structure Cost where
  valid : Bool := false
  claw : Bool := false
  point : Nat := 0
  coef : W32 := 0
  clawVal : W32 := 0
  deriving DecidableEq, Repr, Inhabited

/-- A booth's quota (R235, TOKN_QUOTA). -/
structure Quota where
  weight : Nat := 1
  cap : Nat := 0
  deriving DecidableEq, Repr, Inhabited

/-- A BACnet/SC node (R341): hubs, retry interval and the hub tried next. -/
structure ScNode where
  primary : List Byte
  failover : List Byte
  interval : Nat := 1
  second : Bool := false
  connected : Bool := false
  deriving DecidableEq, Repr, Inhabited

end Sys2Proof.Machine
end

