-- ==== Sys2Proof/Syntax.lean ====
section
/-! DEFINITION. The commands of the block: one constructor of `Instr` per row of the table of operations and
events. A row's operands are what its rule takes from outside the module: the path and offset of a register
access, the fields of a Trelton command, the content of a received frame, a measured quantity. -/

namespace Sys2Proof

/-- A path into the registers, with latches of its own (R360): the host port, or one Trelton session. -/
inductive Path where
  | host
  | session (n : Fin 8)
  deriving DecidableEq, Repr

/-- The header of a Trelton command as the command service sees it (R375, R376): its session, tag, booth and
sequence, the effective time when EFF is set (R377), and the two checks a packet can fail: `badHeader` (order 2
of R384) and `badPayload` (PCRC set and failing, order 7). -/
structure Hdr where
  session : Fin 8
  tag : Byte
  booth : Byte
  sseq : W32
  eff : Option W64
  badHeader : Bool
  badPayload : Bool
  deriving DecidableEq, Repr, Inhabited

/-- One point write of a POINT_WRITE or of a BACnet request (R387, R340). -/
structure PWrite where
  point : Nat
  value : W64
  deriving DecidableEq, Repr, Inhabited

/-- The request fields of SPOT_START (R388). -/
structure SpotParams where
  signal : Nat
  target : Nat
  queue : Nat
  order : Nat
  samples : Nat
  pre : Nat
  hold : Nat
  amp : W32
  f0 : W32
  f1 : W32
  abortLo : W32
  abortHi : W32
  deriving DecidableEq, Repr, Inhabited

/-- A CAN frame on a bus (R298, R314). -/
structure CanFrame where
  ide : Bool
  fdf : Bool
  brs : Bool
  remote : Bool
  dlc : Nat
  ident : BitVec 29
  data : List Byte
  deriving DecidableEq, Repr, Inhabited

/-- A received Ethernet frame (R324): its bytes from the destination address on without the FCS, the FCS result, the port's
receive-buffer fill in percent with it, above 100 where it finds no room (R329, R347), the receive timestamp, the plain bytes of the
tunnelled session's record that it completes, where it does (R342), whether the client's receive window is open with it, and the
tunnelled connection that it ends, by a close or a reset of the client's (R344). -/
structure EthFrame where
  data : List Byte
  fcsOk : Bool
  fill : Nat
  stamp : Stamp
  record : Option (Fin 4 × List Byte)
  window : Bool := true
  ends : Option (Fin 4) := none
  deriving DecidableEq, Repr

/-- The confirmed services of R340 by their treatment. -/
inductive BacnetOp where
  | read (point : Nat)
  | readMany (points : List Nat)
  | whoHas (point : Nat)
  | write (writes : List PWrite)
  | writeNull (point : Nat)
  | writeOther (point : Nat)
  | subscribe (point : Nat)
  | whoIs
  | unrecognised
  deriving DecidableEq, Repr

/-- How a PTP message came (R332): its domain, whether over UDP, and its VID, 0 for an untagged frame. -/
structure PtpVia where
  domain : Nat := 0
  udp : Bool := false
  vid : Nat := 0
  deriving DecidableEq, Repr, Inhabited

/-- The dataset of an Announce message in the order the best-master comparison takes it (R333), and how the message came. -/
structure Announce where
  priority1 : Nat
  clockClass : Nat
  accuracy : Nat
  variance : Nat
  priority2 : Nat
  identity : W64
  stepsRemoved : Nat
  via : PtpVia := {}
  deriving DecidableEq, Repr, Inhabited

/-- A Sync message as measured by the slave (R48–R53, R332): its log interval, the boundary offset in ns, the
PTP time of the boundary in ns, the mean path delay, how it came, and the logMinDelayReqInterval of the master's last Delay_Resp. -/
structure SyncMsg where
  logInterval : Int
  offsetNs : Int
  ptpNs : Nat
  pathDelayNs : Nat
  via : PtpVia := {}
  minDelayReq : Int := 0
  deriving DecidableEq, Repr, Inhabited

/-- A heartbeat payload (R405) with the results of its FCS and CRC checks. -/
structure Heartbeat where
  checkOk : Bool
  source : BitVec 48
  pairId : BitVec 16
  member : Bool
  role : Nat
  ctrlOk : Bool
  relinquish : Bool
  unfit : Bool
  epoch : W32
  pairRev : W64
  syncSent : W32
  syncReceived : W32
  deriving DecidableEq, Repr, Inhabited

/-- A witness reply (R412): bus 0–3 or 4 for the ring, the node, and the reply's fields. -/
structure WitnessRep where
  bus : Nat
  node : Nat
  epoch : W32
  member : Nat
  silence : Nat
  deriving DecidableEq, Repr, Inhabited

/-- One point record carried by a sync packet (R407). -/
structure SyncRec where
  point : Nat
  value : W64
  quality : Byte
  stamp : Stamp
  deriving DecidableEq, Repr, Inhabited

/-- One committed move carried by a sync packet (R407): the committed value and the deferral state. -/
structure SyncMove where
  point : Nat
  value : W64
  deferred : Bool
  deriving DecidableEq, Repr, Inhabited

/-- A health report (R411). -/
structure HealthRep where
  passed : Nat
  failed : Nat
  lag : Nat
  power : Nat
  unfit : Bool
  house : Nat
  tj : Nat
  mc : Nat
  deriving DecidableEq, Repr, Inhabited

/-- A ledger request carried by a sync packet (R242). -/
structure SyncReq where
  point : Nat
  value : W64
  age : Nat
  cls : Nat
  deriving DecidableEq, Repr, Inhabited

/-- A HELD entry carried by a sync packet (R242): cost and age in revolutions. -/
structure SyncHeld where
  cost : Int
  age : Nat
  deriving DecidableEq, Repr, Inhabited

/-- A force entry applied at a boundary, carried by a sync packet: `value` none where it was cleared (R407). -/
structure SyncForce where
  point : Nat
  value : Option W64
  setter : Byte
  deriving DecidableEq, Repr, Inhabited

/-- An image stage carried by a sync packet (R407). -/
structure SyncStage where
  booth : Nat
  slot : Nat
  off : Nat
  bytes : List Byte
  deriving DecidableEq, Repr, Inhabited

/-- The configuration of a point record that a config access sets (R82). -/
structure SyncConf where
  point : Nat
  owner : Byte
  typ : BitVec 4
  src : BitVec 4
  share : BitVec 16
  unit : BitVec 16
  deriving DecidableEq, Repr, Inhabited

/-- The force entries, configuration writes and image stages applied at a boundary (R407): register writes, config accesses, loads and
modes of loops, BACnet/SC hubs, images put into effect and staged parts of images. -/
structure SyncChange where
  forces : List SyncForce := []
  writes : List Machine.Shadow := []
  confs : List SyncConf := []
  loads : List (Nat × List W32) := []
  modes : List (Nat × Nat × W32) := []
  hubs : List (Nat × Machine.ScNode) := []
  images : List (Nat × Machine.Image) := []
  stages : List SyncStage := []
  deriving DecidableEq, Repr, Inhabited

/-- What a primary sends a joining member (R408 step 2): its configuration store (registers, booth map, ledger tables, frame entries,
interfaces, hubs, the configuration of points), its active images with their tasks, and a snapshot of the retentive state. -/
structure SyncJoin where
  regs : Sparse W32
  maps : Sparse W32
  cost : Sparse Machine.Cost
  quota : Sparse Machine.Quota
  entries : Sparse (List W32)
  ifs : Sparse (List W32)
  hubs : Sparse Machine.ScNode
  confs : List SyncConf
  images : Sparse Machine.Image
  tasks : Sparse Machine.Task
  retentive : Machine.Retentive
  deriving DecidableEq, Repr, Inhabited

/-- A sync packet (R407); `join` is what R408 step 2 sends with the packet of its boundary. -/
structure SyncPacket where
  seq : W32
  pairRev : W64
  records : List SyncRec
  moves : List SyncMove
  requests : List SyncReq
  held : List SyncHeld
  protections : List SyncHeld
  protPoints : List Nat
  limit : Int
  limitEff : Int
  shed : Nat
  demand : Int
  demandValid : Bool
  demandAgeMs : Nat
  changes : SyncChange
  join : Option SyncJoin
  health : Option HealthRep
  deriving DecidableEq, Repr, Inhabited

/-- The request fields of KEY_GENERATE (R463). -/
structure KeyGenReq where
  toBlob : Bool
  target : Nat
  kind : Nat
  owner : Byte
  usage : W32
  replaces : Nat
  parent : Nat
  deriving DecidableEq, Repr, Inhabited

/-- The request fields of KEY_IMPORT into a slot (R463). -/
structure KeyImpReq where
  slot : Nat
  kind : Nat
  owner : Byte
  usage : W32
  unwrap : Nat
  replaces : Nat
  parent : Nat
  material : List Byte
  deriving DecidableEq, Repr, Inhabited

/-- An event arriving for handling (R492): its class is the row's. -/
structure FaultEv where
  source : Nat
  code : Nat
  booth : Byte
  data : W64
  deriving DecidableEq, Repr, Inhabited

/-- The result of the BIST of step 2 and of the later steps of a cold start (R483, R488); `jrnA` and `jrnB` say that a copy of the key
journal is found damaged (R446). -/
structure StartRes where
  sv0Fail : Bool
  sv1Fail : Bool
  ringmasterFail : Bool
  jugglerFail : BitVec 16
  ioeFail : BitVec 4
  sharedFail : Bool
  rootFail : Bool
  imageFail : Bool
  clockFail : Bool
  timebaseNs : Nat
  jrnA : Bool := false
  jrnB : Bool := false
  deriving DecidableEq, Repr, Inhabited

/-- The two hard phases (R36). -/
inductive HardPhase where
  | intake
  | commit
  deriving DecidableEq, Repr

/-- The condition a witness of R279 reports for a UI channel. -/
inductive UiBad where
  | wireBreak
  | sensor
  deriving DecidableEq, Repr

/-- How the frame offered to arbitration ends a transmit attempt (R306). -/
inductive CanCand where
  | queueHead
  | express (e : Fin 4)
  | timeRef
  deriving DecidableEq, Repr

/-- The commands of the block, one constructor per row of the table. -/
inductive Instr where
  -- the Carousel (R36–R66)
  | revolutionBoundary
  | intakePhase (endT : Nat)
  | loopsPhase (endT : Nat) (busy : List Nat) (unreached : List Nat)
  | logicPhase (endT : Nat) (busy : List Nat) (runTimes : List Nat)
  | commitPhase (endT : Nat) (pMw : Nat) (tj10 : Int)
  | housekeepingPhase (endT : Nat) (pages : Nat) (bistFail jugFail : Bool)
  | loopLate
  | stoppedOverrun (task : Fin 256)
  | phaseLate (ph : HardPhase)
  | hardOvr (ph : HardPhase) (demand : Bool) (ledger : Bool) (ioe : BitVec 4)
  | housekeepingCarryOver
  | ckptLate
  | checkpointComplete (readBack : Bool)
  | earlyWarning (mv : Nat)
  | finalSaveComplete (readBack : Bool)
  | earlyWarningEnd
  | powerLoss
  -- starts and faults (R482–R496)
  | coldStart (cause : Fin 3) (res : StartRes)
  | warmStart (cause : Fin 4)
  | warmStartHoldExpiry
  | sysReset (p : Path) (v : W32)
  | jugglerStop (k : Fin 16) (cause : Fin 4)
  | sramUncorrectable (addr : W64)
  | lpddrUncorrectable (addr : W64)
  | faultHandling (ev : Option FaultEv)
  | criticalHandling (ev : Option FaultEv)
  | wdog
  | thermalStop (tj10 : Nat)
  | thermalClear (tj10 : Nat)
  | overP (mw : Nat)
  | holdupTest
  | holdupTestEnd (timeUs : Option Nat)
  -- time alignment (R48–R54, R74–R76)
  | syncMessageReceive (port : Fin 2) (m : SyncMsg)
  | syncTimeout
  | locked (ptpNs : Nat)
  | holdoverExpiry
  | announceReceive (port : Fin 2) (a : Announce)
  | tsWrap
  | uncertainStale (point : Fin 8192)
  -- register accesses (R348–R366)
  | pointWindowRead (p : Path) (off : Nat)
  | pointWindowWrite (p : Path) (off : Nat) (v : W32)
  | pntMapDataWrite (p : Path) (v : W32)
  | pntEpochWrite (p : Path) (upper : Bool) (v : W32)
  | loopCtxWrite (p : Path) (w : Fin 32) (v : W32)
  | crslPeriodWrite (p : Path) (v : W32)
  | highWaterClear (p : Path) (off : Nat) (v : W32)
  | lowWordReadLatch (p : Path) (off : Nat)
  | prsmLowWordRead (p : Path) (off : Nat)
  | prsmRingDataRead (p : Path)
  | statusRegisterRead (p : Path) (off : Nat)
  | sequenceClearWrite (p : Path) (off : Nat) (v : W32)
  | hostLockWrite (p : Path) (v : W32)
  | hostQcfgWrite (p : Path) (n : Fin 32) (v : W32)
  | hostShutterWrite (p : Path) (v : W32)
  | mark (q : Fin 32)
  | rewind (q : Fin 32)
  | release (q : Fin 32)
  | reset (q : Fin 32)
  | abort (q : Fin 32)
  | postedWrite (p : Path) (off : Nat) (v : W32)
  | postedWriteComplete (dom : Nat)
  | rtcCountWrite (p : Path) (r : Fin 8) (v : W32)
  | registerWrite (p : Path) (off : Nat) (v : W32)
  -- QSPI transactions (R348–R351, R371); `cut` says that HOST_CS_N rose inside a further word
  | regRd (addr : BitVec 16) (words : Nat) (cut : Bool)
  | regWr (addr : BitVec 16) (words : List W32) (cut : Bool)
  | qRd (addr : BitVec 16) (words : Nat) (cut : Bool)
  | qWr (addr : BitVec 16) (words : List W64) (cut : Bool)
  | qWrEnd (addr : BitVec 16) (words : List W64) (cut : Bool)
  | irqRd (addr : BitVec 16) (words : Nat) (cut : Bool)
  -- Trelton commands 01xxh–05xxh (R386–R390)
  | sessionChallenge (h : Hdr)
  | sessionOpen (h : Hdr) (proof : List Byte)
  | sessionClose (h : Hdr)
  | identify (h : Hdr)
  | regRead (h : Hdr) (off count : Nat)
  | regWrite (h : Hdr) (off : Nat) (words : List W32)
  | shutter (h : Hdr) (mask : W32)
  | echo (h : Hdr) (bytes : List Byte)
  | pointRead (h : Hdr) (first count : Nat)
  | pointWrite (h : Hdr) (writes : List PWrite)
  | forceSet (h : Hdr) (point : Nat) (value : W64)
  | forceClear (h : Hdr) (point : Nat)
  | pointConfig (h : Hdr) (point : Nat) (owner : Byte) (typ src : BitVec 4) (share unit : BitVec 16)
  | windowBind (h : Hdr)
  | windowUnbind (h : Hdr)
  | forceList (h : Hdr) (first count : Nat)
  | loopRead (h : Hdr) (c : Nat)
  | loopLoad (h : Hdr) (c : Nat) (words : List W32)
  | loopMode (h : Hdr) (c : Nat) (mode : Nat) (manOut : W32)
  | spotPermit (h : Hdr) (c : Nat) (permit : Nat)
  | spotStart (h : Hdr) (c : Nat) (sp : SpotParams)
  | spotStop (h : Hdr) (slot : Nat)
  | spotPacketForward (slot : Fin 4)
  | imageStage (h : Hdr) (booth slot off : Nat) (bytes : List Byte)
  | imageLoad (h : Hdr) (booth slot : Nat)
  | swbArm (h : Hdr) (booth slot : Nat) (b : W64)
  | swbDisarm (h : Hdr) (booth : Nat)
  | imageRelease (h : Hdr) (booth : Nat)
  | taskStop (h : Hdr) (task : Nat)
  | taskRestart (h : Hdr) (task : Nat)
  | varRead (h : Hdr) (booth : Nat) (ids : List W64)
  | limitSet (h : Hdr) (limit : W32) (level : Nat) (levelValid : Bool)
  | shedSet (h : Hdr) (level : Nat)
  | ledgerRead (h : Hdr)
  | requestList (h : Hdr) (first count : Nat)
  -- the ledger (R226–R247)
  | requestReserved (point : Fin 8192)
  | boundMiss (point : Fin 8192)
  | blind
  | houseStepShed
  | houseStepRestore
  -- Prism (R164–R225)
  | prismPropose (h : Hdr) (set : List Byte)
  | prismRead (h : Hdr) (meter : Nat)
  | prismSample (codes : List (BitVec 24)) (crc : BitVec 16)
  | feFault
  | feFaultExit
  | aggregationEnd
  | frequencyIntervalEnd
  | settleEnd (meter : Fin 16)
  | mirrorRefresh
  | mirrorLost
  | periodicSave
  | prismSaveComplete
  | residualSave
  | prismSupplyReturn
  | prismStart (metEn : Bool) (package : Option (List Byte))
  | blockClose (meter : Fin 16)
  | alignmentProposal (sample : W32)
  | proposalRead
  | ringForward
  -- field, analogue and fan channels (R249–R295)
  | fioRetry (h : Hdr) (ch : Nat) (cool : Bool)
  | fanRetry (h : Hdr) (ch : Nat)
  | fanLearn (h : Hdr) (ch days : Nat)
  | ioStatus (h : Hdr) (kind ch : Nat)
  | tightropeFrameSend (g : Fin 4) (cool : BitVec 8) (arrives : Bool)
  | tightropeFrameReceive (g : Fin 4) (noise : Option W64) (start : Int) (vsup : BitVec 9) (temp : Byte)
  | wdogSafe (g : Fin 4)
  | linkLost (g : Fin 4)
  | linkBack (g : Fin 4)
  | linkRetrain (g : Fin 4)
  | fioChannelWrite (p : Path) (k : Fin 32) (time : Bool) (v : W32)
  | debounceChange (k : Fin 32) (level : Bool)
  | wireBreak (k : Fin 32)
  | overload (k : Fin 32)
  | overtemp (k : Fin 32)
  | openWire (k : Fin 32)
  | supplyLow (g : Fin 4) (v10 : Nat)
  | rateGateEnd (k : Fin 32)
  | conversionFrame (raw : List (BitVec 24)) (crc : BitVec 16) (stamp : Stamp)
  | frameErr
  | uiBadCondition (k : Fin 16) (c : UiBad)
  | aoOverload (j : Fin 8)
  | aoOverloadClear (j : Fin 8)
  | pwmPeriodEnd (c : Fin 8)
  | speedControlUpdate (c : Fin 8)
  | tachTimeout (c : Fin 8)
  | kickEnd (c : Fin 8)
  | waitEnd (c : Fin 8)
  | tachRecovery (c : Fin 8)
  | learningWindowClose (c : Fin 8)
  | steadyPeriod (c : Fin 8) (speed current : Nat)
  | ageingStale (c : Fin 8)
  | hostSilent
  -- room buses (R298–R319)
  | canReception (b : Fin 4) (f : CanFrame) (stamp : Stamp) (rec : Fin 9)
  | canArbitrationOffer (b : Fin 4)
  | canTxComplete (b : Fin 4) (stamp : Stamp)
  | txFail (b : Fin 4)
  | expired (b : Fin 4) (c : CanCand)
  | trefFail (b : Fin 4)
  | busOff (b : Fin 4)
  | busOffRecovery (b : Fin 4)
  | busStuck (b : Fin 4)
  | busStuckRecovery (b : Fin 4)
  | canSend (h : Hdr) (bus : Nat) (f : CanFrame)
  | canCancel (h : Hdr) (bus : Nat) (byEntry : Bool) (key : Nat)
  -- Ethernet (R320–R346)
  | ethFrameReceive (port : Fin 3) (f : EthFrame)
  | pause (port : Fin 3) (time : BitVec 16) (busy : Bool)
  | pauseExpiry (port : Fin 3)
  | pauseLong (port : Fin 3)
  | linkChg (port : Fin 3) (link : Fin 3)
  | addressAgeing (source : BitVec 48)
  | lpiEntry (port : Fin 3)
  | lldpSend (port : Fin 2)
  | lldpduReceive (port : Fin 2) (frame : List Byte) (intact : Bool)
  | bacnetRequest (vid : Nat) (device : Nat) (op : BacnetOp)
  | covNotification (sub : Nat)
  | scHubRetry (booth : Byte) (connected : Bool)
  | tunnelConnect (vid : Nat) (profileOk : Bool) (cert : List Byte)
  | sessionIdleTimeout (s : Fin 4)
  | responseStallClose (s : Fin 4)
  | hostFrameTx
  | scHubs (h : Hdr) (booth : Nat) (primary failover : List Byte)
  | ifRead (h : Hdr) (idx : Nat)
  | neighbourRead (h : Hdr) (port : Nat)
  | sessionList (h : Hdr)
  | timeout (session : Fin 8) (tag : Byte)
  -- Trapeze (R400–R421)
  | heartbeatReceive (ring : Bool) (hb : Heartbeat)
  | hbLost (ring : Bool)
  | takeover
  | syncPacketReceive (sp : SyncPacket)
  | syncLoss
  | partnerStale
  | witnessReply (r : WitnessRep)
  | witnessRetry
  | witnessWaitExpiry
  | isolatedQuery
  | epochJournaled
  | claimReceive (pairId : BitVec 16) (member : Bool) (epoch : W32)
  | startingListenEnd
  | pairStatus (h : Hdr)
  | pairSwitch (h : Hdr)
  | witnessRead (h : Hdr)
  -- clock (R422–R438)
  | rtcIncrement (phaseUs : Int)
  | rtcSecRead (p : Path)
  | batSwitch (toBat : Bool)
  | batMeasurement (mv : Nat)
  | init
  | timeRead (h : Hdr)
  | timeSet (h : Hdr) (regs : List Byte)
  | hourShift (h : Hdr) (dir : Byte)
  -- keys and debug (R439–R465)
  | keyGenerate (h : Hdr) (r : KeyGenReq)
  | keyImport (h : Hdr) (r : KeyImpReq)
  | lifeCycleTransition (h : Hdr) (token : List Byte)
  | keyRevoke (h : Hdr) (slot : Nat)
  | blobLoad (h : Hdr) (blob : List Byte) (persist : Bool)
  | attest (h : Hdr) (subject : Nat) (ref : BitVec 16) (nonce : List Byte)
  | tamper
  | debugOpen (h : Hdr) (token : List Byte)
  | debugExpiry
  | traceStart (h : Hdr) (engines mask : W32)
  | traceStop (h : Hdr)
  -- update (R466–R481)
  | updManifest (h : Hdr) (replace : Nat) (manifest : List Byte)
  | updChunk (h : Hdr) (index part : Nat) (hash data : List Byte)
  | updateChunkPacket
  | verifyComplete
  | updStatus (h : Hdr) (first count : Nat)
  | updActivate (h : Hdr) (b : W64)
  | updConfirm (h : Hdr)
  | updLock (h : Hdr) (value : Byte) (sig : List Byte)
  | confirmed
  | fallback
  -- faults and log (R489–R504)
  | faultRead (h : Hdr)
  | logRead (h : Hdr) (first : W32) (count : Nat)
  | logStream (h : Hdr) (enable : Nat) (first : W32)
  | ctrlRestart (h : Hdr) (scope jug : Nat)
  -- remaining events
  | spareReady
  | errorFrame (b : Fin 4) (tec rec : Nat) (lec : Fin 8)
  | arbitrationLoss (b : Fin 4)
  | wireBreakEnd (k : Fin 32)
  | openWireClear (k : Fin 32)
  | fieldSupplyReturn (g : Fin 4) (v10 : Nat)
  | negFail (port : Fin 3)
  | endOfFrameInProgress (port : Fin 3)
  deriving DecidableEq, Repr

end Sys2Proof
end

