-- ==== Sys2Proof/Decode.lean ====
section
/-! DEFINITION. The table of commands gives none of its rows any bits (each row's fields are empty), so no word spells a command. -/

namespace Sys2Proof

/-- The command a word of the table spells: none, since the table gives no row bits. -/
def decodeTableWord (_nbits _w : Nat) : Option Instr := none

end Sys2Proof
end

