-- ==== Sys2Proof/Machine/State.lean ====
section
/-! DEFINITION. The state of the block: every register word, counter, status flag, queue, table and engine state
the spec gives the module, as plain data; the reasons a command can stop; the state right after reset. -/

namespace Sys2Proof.Machine

/-- The module variant (R1), set by fuse (R33). -/
inductive Variant where
  | mr
  | mn
  deriving DecidableEq, Repr

/-- SYS_STATUS.RUN_STATE (chapter 01). -/
inductive RunState where
  | starting
  | running
  | rescue
  | stopped
  deriving DecidableEq, Repr

/-- CRSL_STATUS.SYNC_STATE (R48). -/
inductive SyncState where
  | free
  | acquiring
  | locked
  | holdover
  deriving DecidableEq, Repr

/-- The place in the revolution (R36): the last phase begun; `guard` from the end of Housekeeping. -/
inductive PhasePos where
  | start
  | intake
  | loops
  | logic
  | commit
  | guard
  deriving DecidableEq, Repr

/-- TOKN_STATE.DEM_STATE (R227). -/
inductive DemState where
  | valid
  | holding
  | blind
  deriving DecidableEq, Repr

/-- FAN_CHc_STAT.STATE (R288). -/
inductive FanState where
  | stopped
  | kick
  | wait
  | run
  | openLoop
  | stall
  deriving DecidableEq, Repr

/-- CAN bus state (CAN_BUSb_STAT, R308, R309). -/
inductive CanState where
  | active
  | passive
  | busOff
  | stuck
  deriving DecidableEq, Repr

/-- Role of a pair member (R401). -/
inductive Role where
  | off
  | starting
  | primary
  | syncing
  | standby
  | deciding
  | catching
  | isolated
  deriving DecidableEq, Repr

/-- Event class (R492). -/
inductive EvClass where
  | note
  | warn
  | fault
  | critical
  deriving DecidableEq, Repr

/-- Life-cycle state (R439). -/
inductive LifeCycle where
  | manufacture
  | provisioned
  | deployed
  | returned
  | scrapped
  deriving DecidableEq, Repr

/-- Key-slot state (R444). -/
inductive SlotState where
  | empty
  | writing
  | valid
  | revoked
  deriving DecidableEq, Repr

/-- Update state (UPD_STATE.STATE). -/
inductive UpdState where
  | idle
  | downloading
  | verifying
  | verified
  | armed
  | trial
  deriving DecidableEq, Repr

/-- Session state (MBX_SESSs.STATE). -/
inductive SessState where
  | closed
  | challenged
  | opened
  | closing
  deriving DecidableEq, Repr

/-- A status register's events (R360): the internal sequence that does not wrap, STALE, and for each SQ field set
its bit number with the sequence recorded against it. -/
structure StatRec where
  seq : Nat := 0
  stale : Bool := false
  set : Sparse Nat := []
  deriving DecidableEq, Repr, Inhabited

/-- A posted write in flight in a slow domain (R362). -/
structure Posted where
  off : Nat
  val : W32
  deriving DecidableEq, Repr, Inhabited

/-- A hardware queue (R365–R373): depth exponent, positions counted without wrap, flags, and the words from RL to
WR with their END marks. -/
structure Queue where
  depthLog : Nat := 8
  rl : Nat := 0
  mark : Nat := 0
  cur : Nat := 0
  ps : Nat := 0
  wr : Nat := 0
  marked : Bool := false
  overrun : Bool := false
  discarding : Bool := false
  words : List (W64 × Bool) := []
  deriving DecidableEq, Repr, Inhabited

/-- A point-window latch: the record and its eight words (R90). -/
structure WinLatch where
  point : Nat
  words : List W32
  deriving DecidableEq, Repr, Inhabited

/-- The latches of one path (R360, R90, R427, PRSM_RING_DATA): read latches by block number holding the internal
sequence read, the point-window latch, the calendar latch with the instant it was loaded at, the half index. -/
structure PathRec where
  seqLatch : Sparse (Option Nat) := []
  win : Option WinLatch := none
  cal : Option (List Byte × Nat) := none
  half : Nat := 0
  deriving DecidableEq, Repr, Inhabited

/-- A point record (R67). -/
structure PRec where
  value : W64 := 0
  stamp : Stamp := 0
  owner : Byte := 0xFF
  quality : Byte := 0xC1
  orphan : Bool := false
  forced : Bool := false
  typ : BitVec 4 := 0
  src : BitVec 4 := 0
  share : BitVec 16 := 0
  chg : BitVec 16 := 0
  fidx : BitVec 10 := 0
  unit : BitVec 16 := 0
  crc : W32 := 0
  deriving DecidableEq, Repr, Inhabited

/-- A queued network write request (R42, R146): where it came from (a command slot, or an outside path), its
booth, its writes, latched whole in one Intake, and the revolution it was received in: an Intake takes only what came
before the start of its revolution (R39). -/
structure NetReq where
  slot : Option Nat
  window : Bool
  booth : Byte
  writes : List PWrite
  rev : Nat := 0
  held : Bool := false
  deriving DecidableEq, Repr, Inhabited

/-- A latched input sample waiting for Intake (R313, R275, R265): the decoded point writes of one reception. -/
structure CanRx where
  frame : CanFrame
  stamp : Stamp
  deriving DecidableEq, Repr, Inhabited

/-- A capture packet of a Spotlight test (R126), with the context, signal, target and queue of its test. -/
structure SpotBuf where
  ctx : Nat := 0
  signal : Nat := 0
  target : Nat := 0
  queue : Nat := 0
  dropping : Bool := false
  first : Nat := 0
  rev : Nat := 0
  samples : List (W32 × W32) := []
  deferred : List Bool := []
  clamped : List Bool := []
  deriving DecidableEq, Repr, Inhabited

/-- A Spotlight slot (R121–R127). `inject` is s(i), `carry` the injection of an OUT_CLOSED test that the output carries. `last` is the newest sample, whose fate is not known yet: PV, u, whether u was at a clamp limit,
revolution. `old` holds the last packets of ended tests with such a sample, placed after the next due evaluation. -/
structure Spot where
  state : Nat := 0
  cause : Nat := 0
  ctx : Nat := 0
  params : SpotParams := default
  count : Nat := 0
  lfsr : Nat := 0
  inject : Int := 0
  carry : Int := 0
  bias : W32 := 0
  cur : SpotBuf := {}
  full : List SpotBuf := []
  last : Option (W32 × W32 × Bool × Nat) := none
  old : List (SpotBuf × (W32 × W32 × Bool × Nat)) := []
  deriving DecidableEq, Repr, Inhabited

/-- An armed exchange (R153, R154). -/
structure Armed where
  slot : Nat
  image : Image
  boundary : Nat
  dropped : Nat
  deriving DecidableEq, Repr, Inhabited

/-- The checkpoint areas (R147–R151): two banks, the final-save area with the sequence of its base, the write in progress
(`writingFinal` for a final save), and a snapshot taken in b + 1 of an exchange that waits for that write (R154). -/
structure Ckpt where
  banks : List (Option Retentive) := [none, none]
  newest : Option Nat := none
  final : Option (Nat × Retentive) := none
  writing : Option Retentive := none
  writingFinal : Bool := false
  waiting : Option Retentive := none
  finalDue : Bool := false
  begun : Nat := 0
  again : Bool := false
  skipTo : Option Nat := none
  deriving DecidableEq, Repr, Inhabited

/-- The source of a committed move. -/
inductive Writer where
  | loop (c : Nat)
  | task (i : Nat)
  deriving DecidableEq, Repr

/-- An entry of the commit list (R38): the point, the proposed value, the class and the writer. -/
structure Move where
  point : Nat
  value : W64
  cls : Nat
  writer : Writer
  deriving DecidableEq, Repr

/-- A committed cost decaying in HELD (R230), by its revolution; one taken over from a primary may lie before this module's first
(R242). -/
structure Held where
  rev : Int
  cost : Int
  deriving DecidableEq, Repr, Inhabited

/-- A deferred request (R233, R234): the held value, its age, class, owner booth and writer, and whether the test
of R240 has held in every Commit since its creation. -/
structure Req where
  point : Nat
  value : W64
  age : Nat
  cls : Nat
  booth : Nat
  writer : Writer
  tested : Bool
  missed : Bool := false
  deriving DecidableEq, Repr

/-- A raising grant of a point (R236), of one stage for the output of a staged loop: its class, revolution and place in the grant
order. -/
structure Load where
  cls : Nat
  rev : Nat
  order : Nat
  deriving DecidableEq, Repr, Inhabited

/-- The ledger's arbitration state (R230, R233, R236, R242). `loads` holds the grants of each point that still run, newest first. -/
structure Arb where
  held : List Held := []
  reqs : List Req := []
  prots : List (Nat × Int) := []
  loads : Sparse (List Load) := []
  order : Nat := 0
  deriving DecidableEq, Repr

/-- The ledger (chapter 08). `limitEff` is L_eff in µW, so that the equal steps of R231 are exact; `demand` is D(n) and
`limit` the commanded limit in W. -/
structure Ledger where
  cost : Sparse Cost := []
  quota : Sparse Quota := []
  arb : Arb := {}
  demState : DemState := .blind
  seenValid : Bool := false
  demand : Int := 0
  latched : Int := 0
  latchedValid : Bool := false
  /-- The mirror's demand as latched at the boundary for the PRISM points (R70, R74). -/
  prismDem : Int := 0
  prismValid : Bool := false
  holdSince : Nat := 0
  partnerDemand : Int := 0
  partnerValid : Bool := false
  partnerFromNs : Int := 0
  limit : Int := 0x7FFFFFFF
  limitApplied : Bool := false
  limitEff : Int := 2147483647000000
  limitBoundary : Option Nat := none
  shed : Nat := 0
  house : Nat := 0
  throttling : Bool := false
  rampSetup : Bool := true
  deriving DecidableEq, Repr

/-- What a command in flight waits for (R385): a boundary, an Intake or an event; or, from `points` on, the earlier commands on its
object. -/
inductive Wait where
  | config (point : Nat) (owner : Byte) (typ src : BitVec 4) (share unit : BitVec 16) (due : Nat)
  | force (point : Nat) (value : W64)
  | unforce (point : Nat)
  | load (c : Nat) (words : List W32)
  | mode (c mode : Nat) (manOut : W32)
  | shutter (blocks : BitVec 22)
  | restart (b : Nat)
  | restartJug (k : Nat) (slices : Nat)
  | ledger (limit : Option Int) (level : Option Nat)
  | image (booth slot : Nat) (img : Image)
  | intake
  | prism
  | cancel (bus : Nat) (tag : Nat)
  | close
  | shift
  | timeSet (old : List Byte)
  | points (first count : Nat)
  | forces (first count : Nat)
  | loopRead (c : Nat)
  | vars (booth : Nat) (ids : List W64)
  | ledgerRead
  | requests (first count : Nat)
  | permit (c permit : Nat) (by_ : Byte)
  | spotStart (c : Nat) (p : SpotParams)
  | spotStop (slot : Nat)
  | stage (booth slot off : Nat) (bytes : List Byte)
  | arm (booth slot : Nat) (b : W64) (eff : Option W64)
  | disarm (booth : Nat)
  | releaseImage (booth : Nat)
  | taskStop (i : Nat)
  | taskRestart (i : Nat)
  | keyWrite (k : Nat) (data : List Byte)
  | lifeCycle
  deriving DecidableEq, Repr

/-- A command slot in use (R383). -/
structure Slot where
  ident : Nat
  session : Nat
  tag : Byte
  opcode : Nat
  booth : Byte
  sseq : W32
  accepted : Nat
  room : Nat
  discard : Bool := false
  wait : Wait
  deriving DecidableEq, Repr

/-- A session (R379–R382): state, booth, expected SSEQ, the nonce with its instant, the VID of a tunnelled
connection, the key slot its proof used, and for tunnelled sessions the certificate key. -/
structure Session where
  state : SessState := .closed
  booth : Byte := 0
  expected : W32 := 0
  nonce : Option (List Byte × Nat) := none
  vid : Nat := 0
  keySlot : Nat := 0
  cert : List Byte := []
  deriving DecidableEq, Repr, Inhabited

/-- The targets of scheduled commands (R377). -/
inductive Target where
  | limit (w : Int)
  | shed (level : Nat)
  | swb (booth : Nat)
  | pairSwitch
  | activation
  deriving DecidableEq, Repr

/-- A scheduled command (R377): the command it came from, one of its targets, and its boundary. -/
structure Sched where
  ident : Nat
  target : Target
  boundary : Nat
  late : Bool := false
  deriving DecidableEq, Repr

/-- A channel record VCHv or ICHc (R169). -/
structure ChanCfg where
  scale : Nat := 0
  sensor : Nat := 0
  range : Nat := 0
  phaseComp : Int := 0
  deriving DecidableEq, Repr, Inhabited

/-- A meter record MTRm (R174). -/
structure MeterCfg where
  wiring : Nat := 0
  cls : Nat := 0
  vsel : Nat := 0
  flags : Nat := 0
  ich : List Nat := [0xFF, 0xFF, 0xFF, 0xFF]
  un : Nat := 0
  rated : Nat := 0
  iSt : Nat := 0
  noload : Nat := 0
  reservedZero : Bool := true
  deriving DecidableEq, Repr, Inhabited

/-- A configuration set (R197): FNOM and the records. DESIGN CHOICE (log 160): the set of a partition as delivered has FNOM 50 and every
record unused; the spec states none. -/
structure PrismCfg where
  fnom : Nat := 50
  reservedZero : Bool := true
  vch : List ChanCfg := List.replicate 4 {}
  ich : List ChanCfg := List.replicate 32 {}
  mtr : List MeterCfg := List.replicate 16 {}
  deriving DecidableEq, Repr, Inhabited

/-- The block in progress of a meter (R209, R213). -/
structure Block where
  startCnt : Nat := 0
  startSample : Nat := 0
  base : List Nat := List.replicate 8 0
  length : Nat := 0
  target : Nat := 14400000
  gap : Nat := 0
  flags : Nat := 0
  deriving DecidableEq, Repr, Inhabited

/-- A meter of the partition (R184–R196, R200): total and per-phase registers with their remainders of 32 fraction
bits, the running state, the samples spent below the stop threshold, SETTLE, clip and voltage-loss marks of the last
aggregation interval, the block, its sequence, the last block's demands, the configuration-change counter, and per phase the sums of p and q over the aggregation interval. -/
structure Meter where
  reg : List Nat := List.replicate 8 0
  rem : List Nat := List.replicate 8 0
  preg : List Nat := List.replicate 6 0
  prem : List Nat := List.replicate 6 0
  run : Bool := false
  below : Nat := 0
  settle : Bool := false
  clip : Bool := false
  vLoss : Bool := false
  block : Block := {}
  blockSeq : Nat := 0
  demImp : Nat := 0
  demExp : Nat := 0
  cfgCnt : Nat := 0
  accP : List Int := [0, 0, 0]
  accQ : List Int := [0, 0, 0]
  deriving DecidableEq, Repr, Inhabited

/-- The three aligned signals of one sample index (R177): voltages L1 to L3, their quadrature, and the 32 currents. -/
structure Aligned where
  u : List Int
  uq : List Int
  i : List Int
  deriving DecidableEq, Repr, Inhabited

/-- Positive-going zero crossings counted over an interval (R180): cycles, and the instants of the first and the latest
crossing in samples / 65,536 of Prism time. -/
structure Cycles where
  n : Nat := 0
  first : Option Nat := none
  last : Nat := 0
  deriving DecidableEq, Repr, Inhabited

/-- A save record (R203). -/
structure Save where
  seq : Nat
  startCnt : Nat
  sample : Nat
  meters : List Meter
  deriving DecidableEq, Repr, Inhabited

/-- A seal entry (R217), with what its DATA is the digest of: firmware, calibration, and the test results or
configuration set. PREV is the hash of the entry before it. -/
structure SealEnt where
  number : Nat := 0
  kind : Nat := 1
  startCnt : Nat := 0
  sample : Nat := 0
  saveSeq : Nat := 0
  fw : List Byte := []
  cal : List Byte := []
  rest : List Byte := []
  deriving DecidableEq, Repr, Inhabited

/-- The Prism partition (chapters 06 and 07). It is delivered with one complete save of registers at 0 and seal entry 0
(R201, R217), so that the first periodic save goes to P1 (R204). Powers are held in units of 57,600 / 2^32 W, so that a sample's
energy is the power in 2^-32 mWh. Per Rogowski channel: y in 2^-40 of a code, the last input, the outputs newest first, and the samples
left of its settling (R171, R172); per channel of either kind CLIP of the interval in progress and of the last one (R195), numbered as
the frame is. A `propResult` of 4 says that no proposal was made yet: nothing is pending, and RESULT reads its reset value 0h (DEDUCED, log
161). -/
structure Prism where
  powered : Bool := false
  running : Bool := false
  saveLost : Bool := false
  restore : Nat := 0
  startCnt : Nat := 0
  sample : Nat := 0
  cfg : PrismCfg := {}
  cfgPrev : PrismCfg := {}
  adopting : Option PrismCfg := none
  frames : List (List Int) := []
  lastCodes : List (BitVec 24) := []
  aligned : List Aligned := []
  fast : Cycles := {}
  tenS : Cycles := {}
  fastMhz : Option Nat := none
  classS : Option Nat := none
  refLow : Bool := false
  refV : Nat := 0
  tick : Nat := 0
  badRun : Nat := 0
  goodRun : Nat := 0
  frameErrs : Nat := 0
  feFault : Bool := false
  rog : Sparse Int := []
  rogIn : Sparse Int := []
  rogOut : Sparse (List Int) := []
  chSettle : Sparse Nat := []
  chClipNow : List Nat := []
  chClip : List Nat := []
  tenTick : Nat := 0
  window : Nat := 320
  windowNext : Nat := 320
  meters : List Meter := List.replicate 16 {}
  demWindow : List Int := []
  demSince : Nat := 0
  aggSamples : Nat := 0
  saves : List (Option Save) := [some { seq := 0, startCnt := 0, sample := 0, meters := List.replicate 16 {} }, none, none, none]
  saveSeq : Nat := 0
  nextP : Nat := 1
  nextF : Nat := 2
  savePend : Option (Nat × Save) := none
  early : Bool := false
  ring : Sparse (List W64) := []
  ringCount : Nat := 0
  ringRead : Nat := 0
  fwMark : List Byte := []
  calMark : List Byte := []
  testMark : List Byte := []
  chain : List SealEnt := [{}]
  sealBrk : Nat := 0
  sealOk : Bool := false
  sealFull : Bool := false
  metEn : Bool := false
  proposal : Option (Sum (List Byte) W32) := none
  propSeq : Nat := 0
  propKind : Nat := 0
  propResult : Nat := 4
  propReason : Nat := 0
  alignSeen : Bool := false
  mval : Sparse W32 := []
  mirrorOk : Bool := false
  seen : Bool := false
  seenLog : Bool := false
  ageSince : Nat := 0
  deriving DecidableEq, Repr

/-- Per-group state of the field links (R263–R271), module side and far side. -/
structure FioGrp where
  link : Nat := 0
  badRun : Nat := 0
  goodRun : Nat := 0
  lostNs : Nat := 0
  outSeq : Nat := 0
  inSeq : Option Nat := none
  slot : Nat := 0
  half : Bool := false
  out : Byte := 0
  safeCmd : Bool := false
  safeDone : Bool := false
  safeWanted : Bool := false
  lastOut : W64 := 0
  newPending : Option Nat := none
  newSent : Bool := false
  wsafe : Bool := false
  latest : Option (W64 × Stamp) := none
  training : Bool := false
  farSafe : Bool := false
  farSeq : Nat := 0
  farSlot : Nat := 0
  farAck : Bool := false
  farFix : Bool := false
  outBad : Nat := 0
  supplyLow : Bool := false
  vsup : Nat := 0
  temp : Byte := 0
  deriving DecidableEq, Repr, Inhabited

/-- Per-channel field state (R250–R262): the far side's copies of the settings, its debounced and driven states,
diagnoses and 28-bit count, and the module's count and rate state. -/
structure FioCh where
  farCfg : W32 := 0
  farTime : W32 := 0x03E80BB8
  level : Bool := false
  driven : Bool := false
  shown : Bool := false
  cmd : Bool := false
  latched : Bool := false
  overload : Bool := false
  openWire : Bool := false
  overtemp : Bool := false
  wireBreak : Bool := false
  diagSeen : BitVec 4 := 0
  farCount : BitVec 28 := 0
  lastFar : Option (BitVec 28) := none
  count : W32 := 0
  countGap : Bool := false
  safeAct : Bool := false
  gateBase : W32 := 0
  lastEdge : Option Int := none
  lastIval : Option Int := none
  rate : W32 := 0
  deriving DecidableEq, Repr, Inhabited

/-- A UI channel (R277–R279): the newest cycle's code, value and range mark (`new…`), those of the cycle latched in the
last Intake with its quality, the bad codes that apply, the condition the newest cycle shows (0 none, 1 break, 2 sensor), the contact
state with the cycles its opposite has held, the last values for the mean of FILT, and whether a value has been formed in
the present setting. -/
structure UiCh where
  newRaw : BitVec 24 := 0
  newVal : W32 := 0
  newRange : Bool := false
  raw : BitVec 24 := 0
  val : W32 := 0
  range : Bool := false
  brk : Bool := false
  sensor : Bool := false
  cond : Nat := 0
  contact : Bool := false
  hold : Nat := 0
  qual : Byte := 0x42
  window : List Int := []
  good : Bool := false
  deriving DecidableEq, Repr, Inhabited

/-- An AO channel (R280–R283). -/
structure AoCh where
  code : Nat := 0
  clamp : Bool := false
  overload : Bool := false
  safeAct : Bool := false
  deriving DecidableEq, Repr, Inhabited

/-- A baseline bin of the ageing indicator (R293): samples, sums of speed and current. -/
structure Bin where
  n : Nat := 0
  speed : Nat := 0
  current : Nat := 0
  deriving DecidableEq, Repr, Inhabited

/-- A FAN channel (R284–R295). -/
structure FanCh where
  state : FanState := .stopped
  kicks : Nat := 0
  committed : Int := 0
  duty : Nat := 0
  target : Int := 0
  oper : Int := 0
  lastErr : Int := 0
  speed : Nat := 0
  current : Nat := 0
  curHigh : Bool := false
  safe : Bool := false
  safeReq : Bool := false
  watchdog : Bool := false
  full : Bool := false
  learning : Bool := false
  learnUntil : Nat := 0
  bins : List Bin := List.replicate 8 {}
  base : List Bin := List.replicate 8 {}
  ageing : Bool := false
  ratio : Nat := 0
  ratioSeen : Bool := false
  ratioStale : Bool := false
  deriving DecidableEq, Repr, Inhabited

/-- A frame waiting to be sent (R303–R307): its cancel tag, entry, frame, owner booth, the revolution it entered,
attempts after errors, and a cancel applied to it. -/
structure CanTx where
  tag : Nat
  entry : Option Nat
  owner : Byte
  frame : CanFrame
  entered : Nat
  errors : Nat := 0
  cancelled : Bool := false
  deriving DecidableEq, Repr, Inhabited

/-- An express buffer (R305). -/
structure Express where
  pend : Option CanTx := none
  active : Option CanTx := none
  result : Nat := 0
  repl : Nat := 0
  deriving DecidableEq, Repr, Inhabited

/-- What a SYNC brings into the time-reference slot (R315, R316): its SEQ, its boundary, whether a TOD is owed and the calendar bytes
that one carries. -/
structure TrefSync where
  seq : Nat := 0
  boundary : Nat := 0
  tod : Bool := false
  todRegs : List Byte := []
  deriving DecidableEq, Repr, Inhabited

/-- The time-reference slot (R315): the message waiting (1 SYNC, 2 FOLLOW, 3 TOD, 0 none), the sequence, the
boundary of its SYNC, the instant captured, retries, whether a TOD is owed, the calendar bytes it will carry, the
minute of the last one, whether the timebase was stepped since the last FOLLOW, and the SYNC that waits for a message on the bus
to end. -/
structure TrefSlot where
  kind : Nat := 0
  seq : Nat := 0
  boundary : Nat := 0
  stamp : Stamp := 0
  errors : Nat := 0
  tod : Bool := false
  todRegs : List Byte := []
  minute : Option (List Byte) := none
  step : Bool := false
  after : Option TrefSync := none
  deriving DecidableEq, Repr, Inhabited

/-- A room bus (R298–R319). -/
structure CanBus where
  state : CanState := .active
  tecCnt : Nat := 0
  recCnt : Nat := 0
  lec : Nat := 0
  recov : Nat := 0
  rxLost : Nat := 0
  store : List CanRx := []
  active : Option CanCand := none
  express : List Express := List.replicate 4 {}
  queue : List CanTx := []
  tref : TrefSlot := {}
  txOff : Bool := false
  wasOff : Bool := false
  sent : Option CanFrame := none
  pairSent : Option CanFrame := none
  deriving DecidableEq, Repr, Inhabited

/-- A transmit entry's refresh state (R303): revolution last sent, and the values last sent. -/
structure EntryTx where
  lastSent : Option Nat := none
  values : List W64 := []
  failed : Bool := false
  deriving DecidableEq, Repr, Inhabited

/-- The room-bus engine. -/
structure Can where
  bus : List CanBus := List.replicate 4 {}
  entries : Sparse (List W32) := []
  entryTx : Sparse EntryTx := []
  nextTag : Nat := 1
  trefSeq : Nat := 0
  deriving DecidableEq, Repr

/-- A backbone port (R320–R331). -/
structure NetPort where
  link : Nat := 0
  lpiTx : Bool := false
  paused : Bool := false
  pauseRem : Nat := 0
  pausePend : Option Nat := none
  pausedRev : Option Nat := none
  egress : List (List Byte × BitVec 32) := []
  rxFill : Nat := 0
  pauseSent : Bool := false
  lldp : List Byte := []
  twReq : Option Nat := none
  twPend : Option Nat := none
  twTx : Nat := 0
  sent : List (List Byte) := []
  announce : Option Announce := none
  deriving DecidableEq, Repr, Inhabited

/-- A tunnelled connection (NET_SESSs). -/
structure Tunnel where
  state : Nat := 0
  vid : Nat := 0
  buf : List Byte := []
  deriving DecidableEq, Repr, Inhabited

/-- A COV subscription (R340). -/
structure CovSub where
  booth : Nat
  point : Nat
  chg : BitVec 16
  deriving DecidableEq, Repr, Inhabited

/-- The object types a point is presented as (R339). -/
inductive BacObject where
  | binaryInput
  | multiInput
  | analogInput
  | binaryOutput
  | multiOutput
  | analogOutput
  | binaryValue
  | multiValue
  | analogValue
  deriving DecidableEq, Repr

/-- The answer to a BACnet request (R340). A value read comes with the object's type, its Present_Value and the FAULT and
OVERRIDDEN bits of Status_Flags; the other two bits are 0 (R339). -/
inductive BacnetAns where
  | none
  | served
  | value (object : BacObject) (v : W64) (fault overridden : Bool)
  | values (l : List (Option (BacObject × W64 × Bool × Bool)))
  | queued
  | reject
  | errorDenied
  | errorUnknown
  deriving DecidableEq, Repr

/-- The network engine and services (chapter 12). -/
structure Net where
  ports : List NetPort := List.replicate 3 {}
  table : List (BitVec 48 × Nat) := []
  slavePort : Option Nat := none
  ifs : Sparse (List W32) := []
  tunnels : List Tunnel := List.replicate 4 {}
  subs : List CovSub := []
  notified : List (Nat × Nat × Nat) := []
  ptpMoved : Bool := false
  mpd : Nat := 0
  logSync : Int := 0
  sc : Sparse ScNode := []
  answer : BacnetAns := .none
  answerVid : Nat := 0
  reqSeq : Nat := 0
  reqNs : Option Nat := none
  deriving DecidableEq, Repr

/-- A move of this member's own Commit (R407, R409): its outcome, and the value and quality of the point before it. -/
structure OwnMove where
  move : SyncMove
  prev : W64
  prevQ : Byte
  deriving DecidableEq, Repr, Inhabited

/-- The pair (chapter 15). `inSync` holds sync packets received while the point table is frozen (R40), `out` what the next sync packet
carries, `moved` the outcomes of the moves of the last Commits by pair revolution (R407, R409). `based` says that the join data of R408
has been adopted, `joinSent` that it has been sent to the partner that joins; `syncSeen` is the sync sequence last received (R405), and
`lossDue` a packet that found no room in Q28. `passed` and `failed` count BIST slices since the start (R411). -/
structure Trap where
  role : Role := .off
  member : Bool := false
  epoch : W32 := 0
  delta : Int := 0
  partnerMac : Option (BitVec 48) := none
  unfit : Bool := false
  missP : Nat := 0
  missR : Nat := 0
  heardP : Bool := false
  heardR : Bool := false
  upP : Nat := 0
  upR : Nat := 0
  lostP : Bool := false
  lostR : Bool := false
  bothMissed : Nat := 0
  syncSent : Nat := 0
  syncApplied : Nat := 0
  joined : Nat := 0
  lastSyncRev : Nat := 0
  partner : Option Heartbeat := none
  replies : List WitnessRep := []
  barred : Bool := false
  founding : Bool := false
  journalled : Bool := false
  relinquish : Option Nat := none
  yieldDue : Bool := false
  claimed : Bool := false
  catchRev : Nat := 0
  partnerRev : Nat := 0
  listenRev : Nat := 0
  decideNs : Nat := 0
  healthNs : Nat := 0
  mcRuns : Sparse Nat := []
  mcTimes : List Nat := []
  mcFirst : Option Nat := none
  health : Option HealthRep := none
  lastSw : Option Nat := none
  bistNext : Nat := 0
  lastSync : Option SyncPacket := none
  inSync : List SyncPacket := []
  out : SyncChange := {}
  moved : List (Nat × List OwnMove) := []
  based : Bool := false
  joinSent : Bool := false
  syncSeen : Nat := 0
  lossDue : Bool := false
  passed : Nat := 0
  failed : Nat := 0
  deriving DecidableEq, Repr

/-- The backup domain's clock (chapter 16). `batRuns` counts the change-overs to BAT since the last start (R438); `lowDue` and `initDue` say that
LOW_BACKUP or an initialisation of a module without supply waits to be reported (R433, R434). -/
structure Rtc where
  cal : List Byte := [0x00, 0x00, 0x00, 0x06, 0x01, 0x01, 0x00, 0x20]
  halt : Bool := false
  lowBackup : Bool := true
  onBat : Bool := false
  swCount : Nat := 0
  fswValid : Bool := false
  fswLo : W32 := 0
  fswHi : W32 := 0
  batMv : Nat := 0
  batRuns : Nat := 0
  shift : Option Bool := none
  alignState : Nat := 0
  phase : Int := 0
  incRev : Nat := 0
  sinceRelease : Nat := 10
  lost : Bool := false
  lowDue : Bool := false
  initDue : Bool := false
  deriving DecidableEq, Repr

/-- A key slot (R444): its material as stored, a secret wrapped and public material in the clear; `made` is the state constant and EPOCH
under which it was written (R440), `seq` its write sequence, `crc` the record's CRC-32; `abandoned` the cause of R447. -/
structure KeySlot where
  state : SlotState := .empty
  kind : Nat := 0
  origin : Nat := 0
  owner : Byte := 0
  usage : BitVec 10 := 0
  parent : Option Nat := none
  replaces : Option Nat := none
  material : List Byte := []
  made : Nat × Nat := (0, 0)
  seq : Nat := 0
  crc : W32 := 0
  abandoned : Bool := false
  deriving DecidableEq, Repr, Inhabited

/-- A key-cache entry (R450). -/
structure CacheEnt where
  loaded : Bool := false
  gen : Nat := 0
  used : Nat := 0
  inUse : Bool := false
  kind : Nat := 0
  parent : Nat := 0
  owner : Byte := 0
  usage : BitVec 10 := 0
  blobId : W64 := 0
  material : List Byte := []
  made : Nat × Nat := (0, 0)
  deriving DecidableEq, Repr, Inhabited

/-- The security core (chapter 17). The two journal copies are held as slot tables with their sequences, none where a copy is damaged
(R446). `effectDue` is a transition whose fuses are blown and whose effect is not done (R442); `helper` says that the helper data of the
PUF stand, `check` is the recorded check value of Kst (R443). -/
structure Key where
  life : LifeCycle := .manufacture
  epoch : Nat := 0
  lcCount : Nat := 0
  ownerRoot : Nat := 1
  slots : Sparse KeySlot := []
  copyA : Option (Nat × Sparse KeySlot × Nat) := none
  copyB : Option (Nat × Sparse KeySlot × Nat) := none
  jrnSeq : Nat := 0
  cache : List CacheEnt := List.replicate 32 {}
  useCount : Nat := 0
  rk : List Byte := []
  helper : Bool := true
  check : Option (List Byte) := none
  effectDue : Option (LifeCycle × LifeCycle) := none
  tamperFuse : BitVec 8 := 0
  tamperLatch : Bool := false
  tamperDue : Bool := false
  tamperCal : List Byte := []
  tamperSeen : Bool := false
  rootLost : Bool := false
  level : Bool := true
  events : Nat := 0
  persisted : List (List Byte) := []
  deriving DecidableEq, Repr

/-- The debug port (R459–R462). -/
structure Dbg where
  port : Nat := 0
  rights : BitVec 5 := 0
  engines : BitVec 22 := 0
  nonce : W64 := 0
  expiry : Nat := 0
  signer : Option Nat := none
  traceOn : Bool := false
  traceSel : BitVec 22 := 0
  traceMask : W32 := 0
  traceShed : Bool := false
  dropped : Nat := 0
  deriving DecidableEq, Repr

/-- A parsed manifest (R468). -/
structure Manifest where
  target : Nat := 0
  signer : Nat := 0
  downconv : Bool := false
  version : Nat := 0
  rollback : Nat := 0
  length : Nat := 0
  chunks : Nat := 0
  cfgFmt : Nat := 0
  chunkRoot : List Byte := []
  digest : List Byte := []
  deriving DecidableEq, Repr, Inhabited

/-- Firmware and configuration update (chapter 18): the boot record's state and manifest, the stored chunks with their hashes,
a half chunk held (index, part, hash, data), the active image and the verified image of the other slot by version and digest,
the trial's time and criteria as they stood at b, and what a configuration package changed, for a fall-back. -/
structure Upd where
  state : UpdState := .idle
  manifest : Manifest := {}
  lock : Bool := false
  activeSlot : Nat := 0
  activeDigest : List Byte := []
  verActive : Nat := 0
  other : Option (Nat × List Byte) := none
  lastDetail : Nat := 0
  chunkHash : Sparse (List Byte) := []
  chunkData : Sparse (List Byte) := []
  parts : Option (Nat × Nat × List Byte × List Byte) := none
  rollback : Nat := 0
  rollbackCfg : Nat := 0
  armedAt : Option Nat := none
  spareNew : Bool := false
  switched : Bool := false
  backDue : Bool := false
  trialNs : Nat := 0
  nonce : W64 := 0
  heldNs : Nat := 0
  linksAtB : List Bool := []
  runAtB : Bool := false
  lockedAtB : Bool := false
  workBad : Bool := false
  overrunsAtB : Nat := 0
  critAtB : Nat := 0
  cfgFmt : Nat := 0
  undo : List Shadow := []
  saved : Bool := false
  deriving DecidableEq, Repr

/-- An event-log entry (R498). -/
structure LogEnt where
  seq : Nat
  cls : EvClass
  source : Nat
  code : Nat
  booth : Byte
  rep : Nat
  rev : Nat
  data : W64
  start : Nat
  deriving DecidableEq, Repr

/-- A folded triple of R500: when its last entry was written, and the occurrences folded since. -/
structure Fold where
  source : Nat
  code : Nat
  booth : Byte
  atNs : Nat
  rep : Nat
  deriving DecidableEq, Repr, Inhabited

/-- Fault handling and the event log (chapter 19). -/
structure Flt where
  first : Option LogEnt := none
  firstHeld : Bool := false
  nest : Bool := false
  handling : Option FaultEv := none
  suspended : Bool := false
  critical : Option FaultEv := none
  queue : List FaultEv := []
  log : Sparse LogEnt := []
  slotNext : Nat := 0
  logSeq : Nat := 0
  wraps : Nat := 0
  buffer : List LogEnt := []
  folds : List Fold := []
  stream : Option Nat := none
  tjMax : Nat := 0
  faultsSince : Nat := 0
  criticalSince : Bool := false
  deriving DecidableEq, Repr

/-- The supply (chapter 20): early warning, the hold-up test, backup measurement. -/
structure Pwr where
  early : Bool := false
  ewN : Bool := true
  testing : Bool := false
  holdValid : Bool := false
  holdUf : Nat := 0
  holdPct : Nat := 0
  atNs : Nat := 0
  pMw : Nat := 0
  tj10 : Int := 0
  /-- The supply monitor has measured since the start: until then its fields stand at their Reset column (R6). -/
  measured : Bool := false
  deriving DecidableEq, Repr

/-- The module as a whole (chapters 01 and 19). -/
structure Sys where
  powered : Bool := true
  run : RunState := .starting
  compat : Bool := false
  cmdOk : Bool := false
  spareReady : Bool := false
  activeSv : Bool := false
  cause : Nat := 0
  warm : Bool := false
  rescue : Bool := false
  failedRec : List Nat := []
  fallbackImg : Bool := false
  /-- Neither slot holds a verified image: the ROM loader alone answers (R487). -/
  romOnly : Bool := false
  /-- One Ringmaster core failed the BIST of this cold start: no spare (R488). -/
  coreBad : Bool := false
  failStep : Nat := 0
  coldCnt : Nat := 0
  warmCnt : Nat := 0
  failedRow : Nat := 0
  runNs : Nat := 0
  thermalHold : Bool := false
  outHold : Bool := false
  coreDue : Bool := false
  ioeBad : BitVec 4 := 0
  startReq : Option Nat := none
  jugState : List Nat := List.replicate 16 0
  parityHold : BitVec 22 := 0
  parityDue : BitVec 22 := 0
  deriving DecidableEq, Repr

/-- What HARD_OVR restores (R62): the ledger's arbitration state and the point table at the start of the Commit, with the writers'
latest values that wait for a Commit, and of the TOKN block the counters, the words of headroom and CLAW. -/
structure PreCommit where
  arb : Arb
  points : Sparse PRec
  forces : Sparse Force
  unforced : List (Nat × Option W64) := []
  heldBack : Sparse W64 := []
  safeNow : List Nat := []
  cnt : Sparse Nat := []
  words : List W32 := []
  claw : Bool := false
  deriving DecidableEq, Repr

/-- The Carousel (chapter 02). -/
structure Crsl where
  absNs : Int := 0
  upNs : Nat := 0
  period : Nat := 2
  phase : PhasePos := .start
  sync : SyncState := .free
  slewNs : Nat := 0
  slewing : Bool := false
  holdNs : Nat := 0
  /-- A hard-phase overrun has stopped the phase engines in this Guard; RUN_STATE and HARD_OVR follow at the boundary (R62). -/
  ovrDue : Bool := false
  moves : List Move := []
  pre : Option PreCommit := none
  late : List Nat := []
  /-- Points whose task's move found no room in the commit list of this revolution (R66). -/
  noRoom : List Nat := []
  releaseSafe : List Nat := []
  deriving DecidableEq, Repr

/-- The point table and its tables (chapter 03). `unforced` lists points whose force or watchdog has ended and whose next Intake
or Commit takes the live value; `heldBack` the latest move of each output whose Commit a safe value overrode; `safeNow` the outputs that
stand at their safe value. -/
structure Pnt where
  points : Sparse PRec := []
  forces : Sparse Force := []
  fresh : Sparse Nat := []
  netq : List NetReq := []
  maps : Sparse W32 := []
  winSession : Option Nat := none
  winStage : Option (Nat × W32) := none
  verifyNext : Nat := 0
  crcFound : List Nat := []
  unforced : List (Nat × Option W64) := []
  heldBack : Sparse W64 := []
  safeNow : List Nat := []
  deriving DecidableEq, Repr

/-- The loop engine (chapter 04). -/
structure Loop where
  ctx : Sparse LoopCtx := []
  spots : List Spot := List.replicate 4 {}
  deriving DecidableEq, Repr

/-- Programs and retention (chapter 05). `retired` lists the images kept until their release, with their booths (R158). -/
structure Prg where
  tasks : Sparse Task := []
  active : Sparse Image := []
  retired : List (Nat × Image) := []
  durable : Sparse Bool := []
  staged : Sparse (List Byte) := []
  armed : Sparse Armed := []
  ckpt : Ckpt := {}
  deriving DecidableEq, Repr

/-- The host port and queues (chapter 13). -/
structure HostPort where
  queues : List Queue := []
  paths : Sparse PathRec := []
  dout : List W32 := []
  irqLow : Bool := false
  shutMask : BitVec 22 := 0
  shutDue : Nat := 0
  hiLatch : Sparse (W32 × Nat) := []
  prsmLatch : Option (Nat × W32) := none
  deriving DecidableEq, Repr

/-- The command service (chapter 14). -/
structure Mbx where
  sessions : List Session := List.replicate 8 {}
  slots : List Slot := []
  slotsMax : Nat := 0
  nextIdent : Nat := 1
  turn : Nat := 0
  sched : List Sched := []
  resp : Sparse (List (List W64)) := []
  deriving DecidableEq, Repr

/-- What fuses hold from manufacture (R33, KEY_SERIAL, NET_MAC, KEY_CONFIG.ROOT_SRC): nothing writes it. -/
structure Fuse where
  variant : Variant := .mr
  serial : W64 := 0
  mac : BitVec 48 := 0
  rootSrc : Bool := false
  deriving DecidableEq, Repr, Inhabited

/-- The whole state of the block, with the queue of commands that wait. `free` is the model's own counter of free
values drawn so far: the spec's open values are opaque constants of `Config` applied to it. `image` lists the registers whose
parity bit stands in mismatch, each with the word its image in Ringmaster SRAM holds (R358). -/
structure State where
  pending : List Instr
  rev : Nat
  fuse : Fuse
  sys : Sys
  crsl : Crsl
  ledger : Ledger
  pnt : Pnt
  loop : Loop
  prg : Prg
  prsm : Prism
  fioGrp : List FioGrp
  fioCh : List FioCh
  ui : List UiCh
  uiBad : Nat
  uiHeld : List (Nat × Byte)
  uiStamp : Stamp
  ao : List AoCh
  fan : List FanCh
  fanSilent : Bool
  can : Can
  net : Net
  hostp : HostPort
  mbx : Mbx
  trap : Trap
  rtc : Rtc
  key : Key
  upd : Upd
  flt : Flt
  dbg : Dbg
  pwr : Pwr
  regs : Sparse W32
  image : Sparse W32
  cnt : Sparse Nat
  stat : Sparse StatRec
  shadow : List Shadow
  posted : Sparse (Option Posted)
  free : Nat
  deriving DecidableEq, Repr

/-- The reasons a command could stop the block. No command of the table stops it: every row of the spec's table has
an effect, so this type is empty; a reader of a statement may rely on that. Safe. -/
inductive Fault where
  deriving DecidableEq, Repr

/-- The reasons a command is refused by the model. -/
inductive Refusal where
  /-- Raised by an arm of `exec` whose row has no meaning yet, naming the row. Safe: nothing can be proved of it. -/
  | notModelled (mnemonic : String)
  deriving DecidableEq, Repr

/-- The queues after a cold start, at the default depths of R365. -/
def Queue.defaultDepths : List Nat :=
  [8, 8, 8, 8, 8, 8, 8, 8, 10, 10, 10, 10, 8, 8, 8, 8, 8, 8, 8, 8, 8, 8, 8, 8, 10, 10, 9, 10, 10, 10, 9, 10]

/-- The block right after reset: every register at its Reset column (R6), nothing configured, no work loaded, the
revolution counter at 0 (R47), RUN_STATE 0h. -/
def State.reset : State where
  pending := []
  rev := 0
  fuse := {}
  sys := {}
  crsl := {}
  ledger := {}
  pnt := {}
  loop := {}
  prg := {}
  prsm := {}
  fioGrp := List.replicate 4 {}
  fioCh := List.replicate 32 {}
  ui := List.replicate 16 {}
  uiBad := 0
  uiHeld := []
  uiStamp := 0
  ao := List.replicate 8 {}
  fan := List.replicate 8 {}
  fanSilent := false
  can := {}
  net := {}
  hostp := { queues := Queue.defaultDepths.map fun d => { depthLog := d } }
  mbx := {}
  trap := {}
  rtc := {}
  key := {}
  upd := {}
  flt := {}
  dbg := {}
  pwr := {}
  regs := []
  image := []
  cnt := []
  stat := []
  shadow := []
  posted := []
  free := 0

end Sys2Proof.Machine
end

