-- ==== Sys2Proof/Config.lean ====
section
/-! DEFINITION. What the spec leaves open: opaque values with no body, so that nothing can be proved of the number
the hardware produces. Each is named in an assumption-log entry. -/

namespace Sys2Proof.Config

/-- A value the spec leaves open, by the number of values drawn before it (`State.free`) and by the object it belongs to
where one command needs several. -/
opaque freeValue : Nat → Nat → W64

/-- Whether a quotient the spec gives without its rounding is shown rounded up; of the two nearest whole numbers the
spec names neither. -/
opaque roundsUp : Int → Int → Bool

/-- SHA-256, a function the spec names and does not define. -/
opaque sha256Digest : List Byte → Vector Byte 32

/-- The 32 bytes of a SHA-256 digest. -/
def sha256 (l : List Byte) : List Byte := (sha256Digest l).toList

/-- A 32-byte entry of the task table of an Olinko image, but for the plainest one. The spec gives what an entry holds and not
where (R134). -/
opaque taskEntryOf : List Byte → Machine.Task

/-- The entry of the plainest task: number 0 on Juggler 0, period 1, class 3, no code, no data, no run time. -/
opaque plainTaskEntry : Vector Byte 32

/-- What an entry of the task table holds. -/
def taskEntry (b : List Byte) : Machine.Task := if b = plainTaskEntry.toList then {} else taskEntryOf b

/-- The bytes of a commit record of R147 before its CRC-32, of the checkpoint sequence, the snapshot revolution and the booths with
their IMAGE_IDs. The spec gives what it holds and not where. -/
opaque commitRecord : Nat → Nat → List (Nat × W64) → List Byte

/-- A 32-byte entry of the symbol table, its initial value taken from the image (R134, R155). -/
opaque symEntry : List Byte → List Byte → Machine.Sym

/-- Entry k of a writer map: point and task number (R134). The spec gives no entry size. -/
opaque writerEntry : List Byte → Nat → Nat × Nat

/-- Entry k of a release list (R134). The spec gives no entry size. -/
opaque releaseEntry : List Byte → Nat → Machine.Release

/-- The code of a symbol kind in the answer to VAR_READ: the spec names the kinds and not their codes (R135, R389). -/
opaque kindCode : Nat → Byte

/-- The points a run of a task's compiled code reads: by image, task number, revolution and variables. -/
opaque taskReads : W64 → Nat → Nat → List Machine.Sym → List Nat

/-- The standard-block calls of a run in order: symbol identifier, input, preset in µs. -/
opaque taskCalls : W64 → Nat → Nat → List Machine.Sym → List Machine.PRec → List (W64 × Bool × Int)

/-- The variables a run leaves changed, given the blocks as its calls left them. -/
opaque taskVars : W64 → Nat → Nat → List Machine.Sym → List Machine.PRec → List (W64 × List W64)

/-- The output requests of a run in order: point and value. -/
opaque taskRequests : W64 → Nat → Nat → List Machine.Sym → List Machine.PRec → List (Nat × W64)

/-- Pages of the retentive state changed since a bank was last written: the spec gives no page layout. -/
opaque pagesChanged : Nat → Nat

/-- The initial value of the CRC-16 of a converter frame, by converter: 0 the analogue one, 1 Prism's. The spec gives the polynomial alone
(R194, R276). -/
opaque crcInit : Nat → BitVec 16

/-- The final exclusive-OR of that CRC. -/
opaque crcFinal : Nat → BitVec 16

/-- Whether that CRC is reflected: codes and result least significant bit first. -/
opaque crcReflected : Nat → Bool

/-- What a universal-input code stands for, by channel and mode, in the resolution of R277: 10 µV, 0.1 µA or 1 mΩ. The spec gives no scale
of the codes. -/
opaque uiInput : Nat → Nat → BitVec 24 → Int

/-- The IEC 60751 temperature of a Pt1000 resistance in mΩ, in units of 0.001 °C: a function the spec names and does not
define. -/
opaque pt1000 : Int → Int

/-- The voltage of a current-sense code in µV. -/
opaque senseUv : BitVec 24 → Int

/-- The speed in rpm of a tach measurement, by pulses per revolution. -/
opaque tachRpm : BitVec 24 → Nat → Nat

/-- The steps of the 16-bit output converter at full scale: 65,536, or 65,535 where not (R280: 0.153 mV per step). -/
opaque aoSteps : Bool

/-- Whether an egress queue that holds so many frames is full: the spec gives no size. -/
opaque egressFull : Nat → Bool

/-- The reply to an ARP request, an ICMP or ICMPv6 echo request or a neighbour solicitation, from the interface entry, the
module's address and the request: R336 names the answers and lays out none. -/
opaque hostReply : List W32 → Nat → List Byte → List Byte

/-- The Delay_Req of the slave by its domain, sequence, the module's address and, over UDP, the interface entry: R332 names it and gives no
bytes. -/
opaque delayReq : Nat → Nat → Nat → List W32 → List Byte

/-- The chassis ID and port ID of an LLDPDU of a port, by the module's address: the spec names them and gives no contents (R331). -/
opaque lldpIds : Nat → Nat → List Byte

/-- The code a Rogowski channel's normalised outputs give at FNOM, newest first in 2^-40 of a code, their lead removed: the fixed
correction's form is not given (R171). -/
opaque unled : Nat → List Int → Int

/-- A channel's sample between two of its samples: so many parts of so many beyond the sample of an index, towards the older one, of the
samples newest first. The interpolation of R170 is not given, nor a signal before a start. -/
opaque between : Nat → Nat → Nat → List Int → Int

/-- The quadrature voltage of a phase input against the N-reference, each with its PHASE_COMP, at FNOM: the 127 taps of the
Hilbert filter are not given (R177). -/
opaque quadrature : Int → Int → Nat → List Int → List Int → Int

/-- The part of a sample, in 65,536ths and read modulo them, by which a crossing lies before the second of two values of which the first is
below zero and the second above (R180). -/
opaque crossBack : Int → Int → Nat

/-- The end value of register q (0 to 7 the totals, 8 to 13 the per-phase registers) that a meter's intact interval records imply, oldest
first: the spec gives no way from their advances to it (R208). -/
opaque impliedEnd : List (List (BitVec 64)) → Nat → Nat

/-- Whether a metrology package's signature verifies against the key in PE ROM (R218). -/
opaque metrologyOk : List Byte → Bool

/-- What a metrology package does: changes firmware or calibration, re-seals, rebuilds the registers (R208, R218, R219). -/
opaque metrologyDoes : List Byte → Bool × Bool × Bool

/-- The firmware and the calibration after a package is applied. -/
opaque metrologyApplied : List Byte → List Byte → List Byte → List Byte × List Byte

/-- The words of a sync packet in Q28 and Q29 (R407): the spec gives no layout. DESIGN CHOICE (log 99). -/
opaque syncWords : SyncPacket → List W64

/-- The frames a member sends on an interface when it takes over: gratuitous ARP and unsolicited neighbour advertisement
(R415), which the spec names and does not lay out. -/
opaque takeoverFrames : List W32 → List (List Byte)

/-- The I-Am of a virtual device (R415), which the spec names and does not lay out. -/
opaque iAmFrame : List W32 → List Byte

/-- Bytes of the random generator of the security core (SP 800-90A), by the number of values drawn before them. -/
opaque drbgOutput : Nat → (n : Nat) → Vector Byte n

/-- `n` bytes of the random generator. -/
def drbg (k n : Nat) : List Byte := (drbgOutput k n).toList

/-- A signature (r ‖ s) over a hash that verifies under a public key: every P-256 public key has a private one. -/
opaque ecdsaSome : List Byte → List Byte → Vector Byte 64

/-- The other signatures that verify. -/
opaque ecdsaOther : List Byte → List Byte → List Byte → Bool

/-- ECDSA P-256 verification of a signature (r ‖ s) over a hash by a public key, a function the spec names. -/
def ecdsaOk (pub hash sig : List Byte) : Bool := decide (sig = (ecdsaSome pub hash).toList) || ecdsaOther pub hash sig

/-- An ECDSA P-256 signature over a hash by a private key. -/
opaque ecdsaSignature : List Byte → List Byte → Vector Byte 64

/-- The 64 bytes r ‖ s of a signature. -/
def ecdsaSign (key hash : List Byte) : List Byte := (ecdsaSignature key hash).toList

/-- The public key X ‖ Y of a private key. -/
opaque publicPoint : List Byte → Vector Byte 64

/-- The 64 bytes X ‖ Y of a public key. -/
def publicOf (key : List Byte) : List Byte := (publicPoint key).toList

/-- HKDF-SHA-256 (RFC 5869) of a salt, a key and its info. -/
opaque hkdfOutput : List Byte → List Byte → List Byte → Vector Byte 32

/-- The 32 bytes of a derived key. -/
def hkdf (salt key info : List Byte) : List Byte := (hkdfOutput salt key info).toList

/-- The root that the SRAM PUF regenerates with the device's helper data (R443). -/
opaque pufRoot : List Byte

/-- The info of the check value of the state root (R443), which the spec does not give. -/
opaque checkInfo : List Byte

/-- The permutation of `n` bytes under a key that AES key wrap (SP 800-38F) is made of. -/
opaque wrapPerm : List Byte → (n : Nat) → Equiv.Perm (Vector Byte n)

/-- The eight check bytes that AES key wrap places before what it wraps. -/
def wrapCheck : List Byte := List.replicate 8 0xA6

/-- AES key wrap, 8 bytes longer than what it wraps. -/
def aesWrap (key d : List Byte) : List Byte :=
  let x := wrapCheck ++ d
  (wrapPerm key x.length ⟨x.toArray, rfl⟩).toList

/-- AES key unwrap: none where the check fails. -/
def aesUnwrap (key d : List Byte) : Option (List Byte) :=
  let x := ((wrapPerm key d.length).symm ⟨d.toArray, rfl⟩).toList
  if x.take 8 = wrapCheck then some (x.drop 8) else none

/-- The public service key in SC ROM. -/
opaque serviceKey : List Byte

/-- The public key of a client certificate. -/
opaque certKey : List Byte → List Byte

/-- A certificate whose chain rests on a public key: its holder can sign one. -/
opaque certSome : List Byte → List Byte

/-- The other certificates whose chain rests on a public key. -/
opaque certOther : List Byte → List Byte → Bool

/-- Whether a certificate's chain rests on a public key. -/
def certRests (cert key : List Byte) : Bool := decide (cert = certSome key) || certOther cert key

/-- Whether the internal headers of update content are well formed for its TARGET (R472). The spec lays out neither. -/
opaque contentOk : Nat → List Byte → Bool

/-- The register writes a configuration package makes: offset, entry of a selector window, value (R466, R473). The spec does
not lay out the configuration store. -/
opaque packageWrites : List Byte → List (Nat × Nat × W32)

end Sys2Proof.Config
end

