-- ==== Sys2Proof/Machine/Ops.lean ====
section
/-! DEFINITION. The named operations over keyed stores, bits, bytes, register words, counters, queues and point
records that every meaning is written in. -/

namespace Sys2Proof.Machine

/-! ### Keyed stores in canonical form -/

/-- The value at a key, `d` where none is listed. -/
def sget {α : Type} (d : α) : Sparse α → Nat → α
  | [], _ => d
  | (k', v) :: t, k => if k' = k then v else sget d t k

/-- The store without a key. -/
def serase {α : Type} : Sparse α → Nat → Sparse α
  | [], _ => []
  | (k', v) :: t, k => if k' = k then serase t k else (k', v) :: serase t k

/-- The store with a key listed at a value, keys rising. -/
def sput {α : Type} : Sparse α → Nat → α → Sparse α
  | [], k, v => [(k, v)]
  | (k', v') :: t, k, v =>
    if k < k' then (k, v) :: (k', v') :: t
    else if k = k' then (k, v) :: t
    else (k', v') :: sput t k v

/-- A write to a store whose unlisted keys read `d`: writing `d` unlists the key. -/
def sset {α : Type} [DecidableEq α] (d : α) (m : Sparse α) (k : Nat) (v : α) : Sparse α :=
  if v = d then serase m k else sput m k v

/-- Keys strictly rising from `lo` on, and no entry equal to what an unlisted key reads as. -/
def swfFrom {α : Type} [DecidableEq α] (d : α) : Nat → Sparse α → Bool
  | _, [] => true
  | lo, (k, v) :: t => decide (lo ≤ k) && decide (v ≠ d) && swfFrom d (k + 1) t

/-- The canonical form of a store whose unlisted keys read `d`. -/
def swf {α : Type} [DecidableEq α] (d : α) (m : Sparse α) : Bool := swfFrom d 0 m

/-- A list with the element at `i` replaced by its image. -/
def lmod {α : Type} (l : List α) (i : Nat) (f : α → α) : List α :=
  match l, i with
  | [], _ => []
  | x :: t, 0 => f x :: t
  | x :: t, i + 1 => x :: lmod t i f

/-! ### Bits and bytes -/

/-- Bits [hi:lo] of a word as a number (R4). -/
def bits (w : W32) (hi lo : Nat) : Nat := w.toNat / 2 ^ lo % 2 ^ (hi + 1 - lo)

/-- Bit i of a word. -/
def bitAt (w : W32) (i : Nat) : Bool := w.getLsbD i

/-- The mask of bits [hi:lo]. -/
def fieldMask (hi lo : Nat) : W32 := BitVec.ofNat 32 ((2 ^ (hi + 1 - lo) - 1) * 2 ^ lo)

/-- A number placed at bit lo. -/
def place (v lo : Nat) : W32 := BitVec.ofNat 32 (v * 2 ^ lo)

/-- A flag placed at bit i. -/
def flagAt (b : Bool) (i : Nat) : W32 := if b then place 1 i else 0

/-- A word with bits [hi:lo] replaced. -/
def setBits (w : W32) (hi lo v : Nat) : W32 :=
  (w &&& ~~~ (fieldMask hi lo)) ||| (place v lo &&& fieldMask hi lo)

/-- A merge of the masked bits of `v` into `w`. -/
def mergeBits (w mask v : W32) : W32 := (w &&& ~~~ mask) ||| (v &&& mask)

/-- A word read as two's complement. -/
def s32 (w : W32) : Int := w.toInt

/-- A 64-bit value read as two's complement. -/
def s64 (w : W64) : Int := w.toInt

/-- The value nearest to `x` that a signed 32-bit word holds. -/
def clip32 (x : Int) : Int := if x > 2147483647 then 2147483647 else if x < -2147483648 then -2147483648 else x

/-- `x` held within [lo, hi]. -/
def clampInt (lo hi x : Int) : Int := if x < lo then lo else if x > hi then hi else x

/-- A number that stays at its largest value. -/
def satNat (top x : Nat) : Nat := if x > top then top else x

/-- `n` bytes of a number, least significant first (R375). -/
def leBytes : Nat → Nat → List Byte
  | 0, _ => []
  | n + 1, v => BitVec.ofNat 8 v :: leBytes n (v / 256)

/-- The number that bytes spell, least significant first. -/
def leNat : List Byte → Nat
  | [] => 0
  | b :: t => b.toNat + 256 * leNat t

/-- The number that bytes spell, most significant first. -/
def beNat (l : List Byte) : Nat := l.foldl (fun a b => a * 256 + b.toNat) 0

/-- `n` bytes of a number, most significant first. -/
def beBytes (n v : Nat) : List Byte := (leBytes n v).reverse

/-- Bytes `off` to `off + n - 1` of a payload as a little-endian number. -/
def leAt (l : List Byte) (off n : Nat) : Nat := leNat ((l.drop off).take n)

/-- Bytes padded with 00h to whole 64-bit words and laid in words, at most `fuel` of them (R375). -/
def wordsOf : Nat → List Byte → List W64
  | 0, _ => []
  | _ + 1, [] => []
  | fuel + 1, l => BitVec.ofNat 64 (leNat (l.take 8)) :: wordsOf fuel (l.drop 8)

/-- The bytes of 64-bit words, least significant first. -/
def bytesOf (ws : List W64) : List Byte := ws.flatMap fun w => leBytes 8 w.toNat

/-- The bytes of 32-bit words, least significant first. -/
def bytesOf32 (ws : List W32) : List Byte := ws.flatMap fun w => leBytes 4 w.toNat

/-- One bit step of the reflected CRC-32 (R68). -/
def crc32Bit (c : Nat) : Nat := if c % 2 = 1 then Nat.xor (c / 2) 0xEDB88320 else c / 2

/-- One byte step of the CRC-32 of R68. -/
def crc32Byte (c : Nat) (b : Byte) : Nat :=
  crc32Bit (crc32Bit (crc32Bit (crc32Bit (crc32Bit (crc32Bit (crc32Bit (crc32Bit (Nat.xor c b.toNat))))))))

/-- The CRC-32 of R68 over bytes in ascending order. -/
def crc32 (l : List Byte) : W32 := BitVec.ofNat 32 (Nat.xor (l.foldl crc32Byte 0xFFFFFFFF) 0xFFFFFFFF)

/-! ### Register words, counters, time -/

/-- The reset words that are not zero (the Reset columns of the register tables). -/
def resetWord (off : Nat) : W32 :=
  if off = 0x0800 then 0x00010202
  else if off = 0x0818 then 0x0000003C
  else if off = 0x1000 then 0x00000008
  else if off = 0x1010 then 0x7FFFFFFF
  else if off = 0x1018 then 0x00004E20
  else if off = 0x1028 then 0x000028FA
  else if off = 0x102C then 0x000007D0
  else if off = 0x181C then 0x00000BB8
  else if off = 0x2800 then 0x00000001
  else if off = 0x3000 then 0x00000001
  else if 0x40C0 ≤ off ∧ off ≤ 0x413C then 0x03E80BB8
  else if 0x4880 ≤ off ∧ off ≤ 0x48FC ∧ off % 8 = 4 then 0x00640000
  else if 0x49A0 ≤ off ∧ off ≤ 0x49DC ∧ off % 8 = 4 then 0x00640000
  else if 0x5010 ≤ off ∧ off ≤ 0x502C then 0x00000001
  else if 0x5030 ≤ off ∧ off ≤ 0x504C then 0x07080000
  else if 0x5050 ≤ off ∧ off ≤ 0x506C then 0x100400A0
  else if 0x5070 ≤ off ∧ off ≤ 0x508C then 0x03E83214
  else if off = 0x5808 then 0x80000064
  else if off = 0x5840 ∨ off = 0x5880 ∨ off = 0x58C0 ∨ off = 0x5900 then 0x013F1010
  else if off = 0x5844 ∨ off = 0x5884 ∨ off = 0x58C4 ∨ off = 0x5904 then 0x001DAA9E
  else if off = 0x5848 ∨ off = 0x5888 ∨ off = 0x58C8 ∨ off = 0x5908 then 0x31902A00
  else if off = 0x6000 then 0x00000002
  else if off = 0x6010 ∨ off = 0x6014 then 0x9032FFFF
  else if off = 0x6018 then 0x8032FFFF
  else if off = 0x6030 ∨ off = 0x6034 then 0x00000011
  else if off = 0x6050 then 0x00400000
  else if off = 0x60A0 then 0x145A3C00
  else if 0x6840 ≤ off ∧ off ≤ 0x68BC then
    0x80000000#32 ||| place (Queue.defaultDepths.getD ((off - 0x6840) / 4) 8) 24
  else if off = 0x7000 then 0x0000000F
  else if off = 0x7818 then 0x01F4012C
  else if off = 0x8020 then 0x00000004
  else if off = 0x8800 then 0x00000001
  else if off = 0x8824 then 0x0000000A
  else if off = 0x9000 then 0x0000001E
  else if off = 0x9800 then 0x00010064
  else if off = 0xA800 then 0x00000001
  else 0

/-- The word in effect at an offset. -/
def State.reg (s : State) (off : Nat) : W32 := sget (resetWord off) s.regs off

/-- A register word set. -/
def State.setReg (s : State) (off : Nat) (w : W32) : State := { s with regs := sset (resetWord off) s.regs off w }

/-- A register with an LK or SH field applied, its parity bit recomputed (R358). -/
def State.applyReg (s : State) (off : Nat) (w : W32) : State := { s.setReg off w with image := serase s.image off }

/-- Bits [hi:lo] of the word in effect at an offset. -/
def State.fld (s : State) (off hi lo : Nat) : Nat := bits (s.reg off) hi lo

/-- Bit i of the word in effect at an offset. -/
def State.flag (s : State) (off i : Nat) : Bool := bitAt (s.reg off) i

/-- A field of a register set. -/
def State.setFld (s : State) (off hi lo v : Nat) : State := s.setReg off (setBits (s.reg off) hi lo v)

/-- LOCK of a block (R356). -/
def State.locked (s : State) (blk : Nat) : Bool := s.flag 0x6808 blk

/-- A live counter's total, E × 2^32 + COUNT (R363). -/
def State.total (s : State) (off : Nat) : Nat := sget 0 s.cnt off

/-- A live counter advanced (R363, R364). -/
def State.count (s : State) (off n : Nat) : State := { s with cnt := sset 0 s.cnt off (s.total off + n) }

/-- An 8- or 16-bit count held in a register field, advanced modulo its width. -/
def State.bumpMod (s : State) (off hi lo : Nat) : State := s.setFld off hi lo (s.fld off hi lo + 1)

/-- A count held in a register field, advanced to its largest value and no further. -/
def State.bumpSat (s : State) (off hi lo : Nat) : State :=
  s.setFld off hi lo (satNat (2 ^ (hi + 1 - lo) - 1) (s.fld off hi lo + 1))

/-- A number written over two words, lower word first (R4). -/
def State.setPair (s : State) (off v : Nat) : State :=
  (s.setReg off (BitVec.ofNat 32 v)).setReg (off + 4) (BitVec.ofNat 32 (v / 2 ^ 32))

/-- A free value drawn: the spec states no value here. -/
def State.drawn (s : State) : W64 := Config.freeValue s.free 0

/-- A free value for one of several objects of the same command. -/
def State.drawnFor (s : State) (key : Nat) : W64 := Config.freeValue s.free (key + 1)

/-- The count of free values after one has been drawn. -/
def State.draw (s : State) : State := { s with free := s.free + 1 }

/-- The revolution period in ns (R36). -/
def State.periodNs (s : State) : Nat := 250000 * 2 ^ s.crsl.period

/-- Revolutions in a number of ms at the period in effect, rounded up. -/
def State.revsOfMs (s : State) (ms : Nat) : Nat := (ms * 1000000 + s.periodNs - 1) / s.periodNs

/-- The number of a place in the revolution. -/
def PhasePos.num : PhasePos → Nat
  | .start => 0
  | .intake => 1
  | .loops => 2
  | .logic => 3
  | .commit => 4
  | .guard => 5

/-- The instant of the model's clock that latch lifetimes are measured on: six places a revolution (R36). -/
def State.instant (s : State) : Nat := s.rev * 6 + s.crsl.phase.num

/-- The point timestamp at `us` from the start of the revolution in progress (R74). -/
def State.stampAt (s : State) (us : Int) : Stamp :=
  BitVec.ofInt 48 (s.crsl.absNs / 1000 + us
    - ((s.reg 0x1810).toNat + 2 ^ 32 * (s.reg 0x1814).toNat : Nat) * 1000000)

/-- The start of the phase in progress, in µs from the start of the revolution (R36). -/
def State.phaseUs (s : State) : Nat :=
  match s.crsl.phase with
  | .start => 0
  | .intake => 0
  | .loops => 75 * 2 ^ s.crsl.period / 2
  | .logic => 225 * 2 ^ s.crsl.period / 2
  | .commit => 200 * 2 ^ s.crsl.period
  | .guard => 245 * 2 ^ s.crsl.period

/-- The timestamp of the start of the phase in progress, which a change of quality alone takes (R74). -/
def State.phaseStamp (s : State) : Stamp := s.stampAt s.phaseUs

/-- The point table is not frozen: not during Loops or Logic (R40). -/
def State.tableFree (s : State) : Bool := decide (s.crsl.phase ≠ .loops ∧ s.crsl.phase ≠ .logic)

/-- Sources write records in Intake (R39, R40). -/
def State.inIntake (s : State) : Bool := decide (s.crsl.phase = .intake)

/-- Output records are written in Commit (R39, R40). -/
def State.inCommit (s : State) : Bool := decide (s.crsl.phase = .commit)

/-- The PTP-grid time of the start of the revolution in progress (R49): the multiple of the period nearest to its measured
time. -/
def State.gridNs (s : State) : Int :=
  let p : Int := s.periodNs
  Int.ediv (2 * s.crsl.absNs + p) (2 * p) * p

/-- The timestamp of the start of Intake. -/
def State.intakeStamp (s : State) : Stamp := s.stampAt 0

/-- The timestamp of the start of Commit (R36: 80 % of the period). -/
def State.commitStamp (s : State) : Stamp := s.stampAt (200 * 2 ^ s.crsl.period)

/-- The control domain runs phase work. -/
def State.running (s : State) : Bool := decide (s.sys.run = .running)

/-- The shared parity safe state of a block (R358, R359). -/
def State.parityHeld (s : State) (blk : Nat) : Bool := s.sys.parityHold.getLsbD blk

/-- The settings of FLT and PWR as they act: in the parity safe state of their block, at their reset values (R359). -/
def State.setting19 (s : State) (off : Nat) : W32 := if s.parityHeld (off / 0x800) then resetWord off else s.reg off

/-- The revolution number that schedules, timers and Spotlight use: the pair revolution number in a pair (R402). -/
def State.pairRev (s : State) : Nat := if s.trap.role = .off then s.rev else ((s.rev : Int) + s.trap.delta).toNat

/-- Metering hardware present (R1, R33). -/
def State.isMr (s : State) : Bool := decide (s.fuse.variant = .mr)

/-! ### Status events and the event log -/

/-- The record of a block's status register. -/
def State.statOf (s : State) (blk : Nat) : StatRec := sget {} s.stat blk

/-- An SQ field set: the sequence advances and is recorded against the field (R360). -/
def State.setSQ (s : State) (blk bit : Nat) : State :=
  let r := s.statOf blk
  { s with stat := sset {} s.stat blk { r with seq := r.seq + 1, set := sput r.set bit (r.seq + 1) } }

/-- An SQ field reads 1. -/
def State.sq (s : State) (blk bit : Nat) : Bool := (s.statOf blk).set.any fun e => e.1 == bit

/-- The number of a class in the log (R498). -/
def EvClass.num : EvClass → Nat
  | .note => 0
  | .warn => 1
  | .fault => 2
  | .critical => 3

/-- The start number of R498. -/
def State.startNumber (s : State) : Nat := (s.sys.coldCnt + s.sys.warmCnt) % 65536

/-- The first FAULT or CRITICAL held until FIRST is cleared (R493). -/
def State.captureFirst (s : State) (e : LogEnt) : State :=
  if s.flt.firstHeld then s
  else { s with flt := { s.flt with first := some e, firstHeld := true } }.setSQ 19 7

/-- A fold record of a triple (R500). -/
def foldOf (fs : List Fold) (src code : Nat) (booth : Byte) : Option Fold :=
  fs.find? fun f => f.source == src && f.code == code && f.booth == booth

/-- The fold records with one replaced. -/
def putFold (fs : List Fold) (n : Fold) : List Fold :=
  n :: fs.filter fun f => !(f.source == n.source && f.code == n.code && f.booth == n.booth)

/-- An entry placed in the 256-place buffer, 16 places kept for FAULT and CRITICAL (R500). -/
def State.bufferEntry (s : State) (e : LogEnt) : State :=
  let room := if e.cls.num < 2 then 240 else 256
  if s.flt.buffer.length < room then
    { s with flt := { s.flt with
        buffer := s.flt.buffer ++ [e]
        folds := if e.cls = .critical then s.flt.folds
                 else putFold s.flt.folds
                   { source := e.source, code := e.code, booth := e.booth, atNs := s.crsl.upNs, rep := 0 } } }
  else (s.setSQ 19 1).count 0x9858 1

/-- An event entered in the log (R492, R493, R500): counted by class, captured when it is the first fault, folded
into REPEAT when an entry of its triple is younger than RATE, else buffered. -/
def State.logEvent (s : State) (cls : EvClass) (src code : Nat) (booth : Byte) (data : W64) : State :=
  let e : LogEnt := { seq := 0, cls, source := src, code, booth, rep := 0, rev := s.rev, data,
                      start := s.startNumber }
  let s := s.count (0x9840 + 4 * cls.num) 1
  let s := if cls.num ≥ 2 then s.captureFirst e else s
  if cls = .note ∧ bitAt (s.setting19 0x9800) 16 = false then s
  else match foldOf s.flt.folds src code booth with
    | some f =>
      if cls ≠ .critical ∧ s.crsl.upNs < f.atNs + bits (s.setting19 0x9800) 15 0 * 1000000 then
        { s with flt := { s.flt with folds := putFold s.flt.folds { f with rep := f.rep + 1 } } }.count 0x9850 1
      else s.bufferEntry { e with rep := if cls = .critical then 0 else satNat 255 f.rep }
    | none => s.bufferEntry e

/-- A FAULT arriving for handling (R494). -/
def State.faultArrives (s : State) (ev : FaultEv) : State :=
  if s.flt.handling.isNone ∧ s.flt.critical.isNone then { s with flt := { s.flt with handling := some ev } }
  else if s.flt.queue.length < 8 then { s with flt := { s.flt with queue := s.flt.queue ++ [ev] } }
  else ((s.setSQ 19 6).logEvent .warn 19 0x29 0xFF (BitVec.ofNat 64 (ev.source * 256 + ev.code))).count 0x9854 1

/-- A CRITICAL arriving for handling (R495): a second one sets CRIT_NEST and asks for the warm start. -/
def State.criticalArrives (s : State) (ev : FaultEv) : State :=
  if s.flt.critical.isNone then
    { s with flt := { s.flt with critical := some ev, suspended := s.flt.handling.isSome } }
  else
    let s := (s.setSQ 19 5).logEvent .critical 19 0x28 0xFF (BitVec.ofNat 64 (ev.source * 256 + ev.code))
    { s with flt := { s.flt with nest := true } }

/-- An event of a class, logged and, for a FAULT or CRITICAL, passed on for handling (R492). -/
def State.raise (s : State) (cls : EvClass) (src code : Nat) (booth : Byte) (data : Nat) : State :=
  let ev : FaultEv := { source := src, code, booth, data := BitVec.ofNat 64 data }
  let s := s.logEvent cls src code booth ev.data
  match cls with
  | .note => s
  | .warn => s
  | .fault => { s with flt := { s.flt with faultsSince := s.flt.faultsSince + 1 } }.faultArrives ev
  | .critical => { s with flt := { s.flt with criticalSince := true } }.criticalArrives ev

/-- A status event that sets an SQ field and is logged under that bit's code (R498). -/
def State.report (s : State) (cls : EvClass) (blk bit : Nat) (booth : Byte) (data : Nat) : State :=
  (s.setSQ blk bit).raise cls blk bit booth data

/-- A status event whose rule names no offset, point, channel or value for DATA (R498): DATA is a free value. -/
def State.reportBare (s : State) (cls : EvClass) (blk bit : Nat) (booth : Byte) : State :=
  s.report cls blk bit booth (s.drawnFor (0xE000 + 32 * blk + bit)).toNat

/-! ### Queues -/

/-- The depth of a queue in words. -/
def Queue.depth (q : Queue) : Nat := 2 ^ q.depthLog

/-- FREE (R367). -/
def Queue.free (q : Queue) : Nat := q.depth - (q.wr - q.rl)

/-- PKT_COUNT (R367): complete packets between RL and PS. -/
def Queue.packets (q : Queue) : Nat := ((q.words.take (q.ps - q.rl)).filter (·.2)).length

/-- The complete words from CUR on. -/
def Queue.ahead (q : Queue) : List (W64 × Bool) := (q.words.take (q.ps - q.rl)).drop (q.cur - q.rl)

/-- UNREAD (R367). -/
def Queue.unread (q : Queue) : Nat := (q.ahead.filter (·.2)).length

/-- Words up to and including the first END, 0 when there is none. -/
def lenToEnd : List (W64 × Bool) → Nat
  | [] => 0
  | (_, true) :: _ => 1
  | (_, false) :: t => match lenToEnd t with
    | 0 => 0
    | n + 1 => n + 2

/-- LEN (R367). -/
def Queue.len (q : Queue) : Nat := lenToEnd q.ahead

/-- The position order of R367, and the stored words matching the positions. -/
def Queue.ok (q : Queue) : Bool :=
  (if q.marked then decide (q.rl ≤ q.mark ∧ q.mark ≤ q.cur) else decide (q.rl ≤ q.cur)) &&
  decide (q.cur ≤ q.ps) && decide (q.ps ≤ q.wr) && decide (q.words.length = q.wr - q.rl) &&
  decide (q.wr - q.rl ≤ q.depth)

/-- One word written by the host (R368): the queue after it, and whether an overrun started. -/
def Queue.writeWord (q : Queue) (w : W64) (last : Bool) : Queue × Bool :=
  if q.discarding then ({ q with discarding := !last }, false)
  else if q.free = 0 then
    ({ q with overrun := true, discarding := !last, words := q.words.take (q.ps - q.rl), wr := q.ps }, true)
  else if last then ({ q with words := q.words ++ [(w, true)], wr := q.wr + 1, ps := q.wr + 1 }, false)
  else ({ q with words := q.words ++ [(w, false)], wr := q.wr + 1 }, false)

/-- Words with END on the last. -/
def withEnd (ws : List W64) : List (W64 × Bool) :=
  ws.dropLast.map (fun w => (w, false)) ++ (ws.getLast?.toList.map fun w => (w, true))

/-- A whole packet written by a module producer, or nothing when it has no room (R369). -/
def Queue.push (q : Queue) (ws : List W64) : Queue :=
  { q with words := q.words ++ withEnd ws, wr := q.wr + ws.length, ps := q.wr + ws.length }

/-- Position after the last END at or before CUR (R370). -/
def releasePoint (l : List (W64 × Bool)) : Nat :=
  l.length - (l.reverse.takeWhile fun e => !e.2).length

/-- RELEASE (R370). -/
def Queue.release (q : Queue) : Queue :=
  let n := releasePoint (q.words.take (q.cur - q.rl))
  { q with rl := q.rl + n, words := q.words.drop n, marked := q.marked && decide (q.rl + n ≤ q.mark) }

/-- RESET (R370): everything discarded, all positions equal. -/
def Queue.clear (q : Queue) : Queue :=
  { q with rl := q.wr, mark := q.wr, cur := q.wr, ps := q.wr, words := [], marked := false, overrun := false,
           discarding := false }

/-- The first packet of a queue, for an internal reader. -/
def Queue.headPacket (q : Queue) : List W64 :=
  (((q.words.take (q.ps - q.rl)).take (lenToEnd (q.words.take (q.ps - q.rl)))).map (·.1))

/-- A queue whose first packet has been read and released by an internal reader. -/
def Queue.dropHead (q : Queue) : Queue :=
  let n := lenToEnd (q.words.take (q.ps - q.rl))
  { q with rl := q.rl + n, words := q.words.drop n, cur := Nat.max q.cur (q.rl + n),
           marked := q.marked && decide (q.rl + n ≤ q.mark) }

/-- Queue n. -/
def State.q (s : State) (n : Nat) : Queue := s.hostp.queues.getD n {}

/-- EN of queue n in effect (R366). -/
def State.qEn (s : State) (n : Nat) : Bool := s.flag (0x6840 + 4 * n) 31

/-- Queue n replaced. -/
def State.setQ (s : State) (n : Nat) (q : Queue) : State :=
  { s with hostp := { s.hostp with queues := lmod s.hostp.queues n fun _ => q } }

/-- Room for a packet of a module producer in queue n (R369, R366). -/
def State.qRoom (s : State) (n len : Nat) : Bool := s.qEn n && decide (len ≤ (s.q n).free)

/-- A packet written whole by a module producer, or dropped whole (R369). -/
def State.produce (s : State) (n : Nat) (ws : List W64) : State :=
  if s.qRoom n ws.length then s.setQ n ((s.q n).push ws) else s

/-- NOTICE of a queue (R373): complete unread packets on a host-read queue; credit of THRESH on a host-written one. -/
def hostRead (n : Nat) : Bool := decide ((4 ≤ n ∧ n ≤ 11) ∨ (20 ≤ n ∧ n ≤ 23) ∨ n = 25 ∨ n = 26 ∨ n = 27 ∨ n = 30)

/-- Queues the host writes (R365). -/
def hostWritten (n : Nat) : Bool := decide (n ≤ 3 ∨ n = 24 ∨ n = 31)

/-- The least depths of R365. -/
def leastDepth (n : Nat) : Nat :=
  if 8 ≤ n ∧ n ≤ 11 then 64 else if n = 24 ∨ n = 25 ∨ n = 28 ∨ n = 29 then 256 else if n = 31 then 1024 else 16

/-- NOTICE of queue n (R373). -/
def State.notice (s : State) (n : Nat) : Bool :=
  if hostWritten n then
    let th := s.fld (0x6840 + 4 * n) 12 0
    decide (th ≠ 0 ∧ th ≤ (s.q n).free)
  else decide (1 ≤ (s.q n).unread)

/-! ### Point records -/

/-- Bytes 0–27 of a record (R67). -/
def PRec.body (r : PRec) : List Byte :=
  leBytes 8 r.value.toNat ++ leBytes 6 r.stamp.toNat ++ [r.quality, r.owner] ++ leBytes 2 r.share.toNat ++
  [r.typ ++ r.src, BitVec.ofNat 8 (r.forced.toNat + 2 * r.orphan.toNat)] ++ leBytes 2 r.fidx.toNat ++
  leBytes 2 r.chg.toNat ++ leBytes 2 r.unit.toNat ++ leBytes 2 0

/-- The CRC a record's content calls for (R68). -/
def PRec.crcOf (r : PRec) : W32 := crc32 r.body

/-- A record with its CRC recomputed (R92). -/
def PRec.sealed (r : PRec) : PRec := { r with crc := r.crcOf }

/-- The eight words of a record (R67). -/
def PRec.words (r : PRec) : List W32 :=
  [r.value.setWidth 32, (r.value >>> 32).setWidth 32, r.stamp.setWidth 32,
   r.owner ++ r.quality ++ ((r.stamp >>> 32).setWidth 16 : BitVec 16),
   place (r.forced.toNat + 2 * r.orphan.toNat) 24 ||| place (r.typ.toNat * 16 + r.src.toNat) 16 |||
     place r.share.toNat 0,
   r.chg ++ (r.fidx.setWidth 16 : BitVec 16), r.unit.setWidth 32, r.crc]

/-- The record of a point the configuration leaves unused, or of a system point not yet written (R71). -/
def defaultRec (p : Nat) : PRec :=
  if p ≥ 8064 then ({ src := 7 } : PRec).sealed else ({} : PRec).sealed

/-- The record of a point. -/
def State.point (s : State) (p : Nat) : PRec := sget (defaultRec p) s.pnt.points p

/-- A record stored as it stands, its CRC included. -/
def State.storeRec (s : State) (p : Nat) (r : PRec) : State :=
  { s with pnt := { s.pnt with points := sset (defaultRec p) s.pnt.points p r } }

/-- A record written by an engine: CHG advances when VALUE or QUALITY alters, and the CRC is recomputed (R67, R92). -/
def State.writeRec (s : State) (p : Nat) (r : PRec) : State :=
  let o := s.point p
  let r := if r.value ≠ o.value ∨ r.quality ≠ o.quality then { r with chg := o.chg + 1 } else { r with chg := o.chg }
  s.storeRec p r.sealed

/-- The live code of a forced output kept, else the quality of a write. -/
def isOutput (src : BitVec 4) : Bool := decide (8 ≤ src.toNat ∧ src.toNat ≤ 12)

/-- Classes the commit list may write (R70). -/
def commitSrc (src : BitVec 4) : Bool := decide (src.toNat = 0) || isOutput src

/-- The force entry of index i. -/
def State.force (s : State) (i : Nat) : Option Force := (s.pnt.forces.find? fun e => e.1 == i).map (·.2)

/-- The forced value kept and the live value of the entry replaced (R88). -/
def State.setLive (s : State) (i : Nat) (v : W64) : State :=
  match s.force i with
  | some f => { s with pnt := { s.pnt with forces := sput s.pnt.forces i { f with live := v } } }
  | none => s

/-- A mismatch of the record's CRC altered (R93), met now or found by a read since: VALUE kept, QUALITY 85h, the CRC computed anew;
nothing else of the record changes. -/
def State.badRecord (s : State) (p : Nat) : State :=
  let r := s.point p
  if r.crc = r.crcOf ∧ p ∉ s.pnt.crcFound then s
  else
    let s : State := { s with pnt := { s.pnt with crcFound := s.pnt.crcFound.filter fun q => q != p } }
    ((s.storeRec p ({ r with quality := 0x85 } : PRec).sealed).report .warn 3 2 0xFF p).count 0x18B0 1

/-- A record's CRC verified by a read (R92): a mismatch found in Intake or Commit is altered at once, one found in another phase is
left for Housekeeping (R93). -/
def State.verifyRead (s : State) (p : Nat) : State :=
  if (s.point p).crc = (s.point p).crcOf ∧ p ∉ s.pnt.crcFound then s
  else if s.crsl.phase = .intake ∨ s.crsl.phase = .commit then s.badRecord p
  else if p ∈ s.pnt.crcFound then s
  else { s with pnt := { s.pnt with crcFound := p :: s.pnt.crcFound } }

/-- A record as a read returns it: a mismatch shows 85h over a fresh CRC (R93). -/
def State.readRec (s : State) (p : Nat) : PRec :=
  let r := s.point p
  if r.crc = r.crcOf then r else ({ r with quality := 0x85 }).sealed

/-- A fresh value from a point's source (R88, R73): into VALUE, or into the live value of a force entry, with the
quality the source reports and the time it was produced. A force keeps TS but for a change of quality, which takes the
start of the phase `phase`. -/
def State.supply (s : State) (p : Nat) (v : W64) (q : Byte) (ts phase : Stamp) : State :=
  let s := s.verifyRead p
  let r := s.point p
  let s := { s with pnt := { s.pnt with fresh := sput s.pnt.fresh p s.rev } }
  if r.forced then
    let s := s.setLive r.fidx.toNat v
    if r.quality = q then s else s.writeRec p { r with quality := q, stamp := phase }
  else s.writeRec p { r with value := v, quality := q, stamp := ts }

/-- A change of quality alone: TS is the start of the phase that applied it (R74). The record is verified by the read (R92), and one
in state 85h keeps it, since a change of quality alone is no write by its source (R93). DEDUCED (log entry 151). -/
def State.setQuality (s : State) (p : Nat) (q : Byte) (ts : Stamp) : State :=
  let s := s.verifyRead p
  let r := s.readRec p
  if r.quality = q ∨ r.quality = 0x85 then s else s.writeRec p { r with quality := q, stamp := ts }

/-! ### CRC-16 (R194, R265, R276) -/

/-- One bit of a CRC-16 taken most significant bit first. -/
def crc16Bit (poly c : Nat) (b : Bool) : Nat :=
  let top := (decide (c / 32768 % 2 = 1)) != b
  let c' := c * 2 % 65536
  if top then Nat.xor c' poly else c'

/-- The low `n` bits of a number, most significant first. -/
def bitsDown : Nat → Nat → List Bool
  | 0, _ => []
  | n + 1, v => (decide (v / 2 ^ n % 2 = 1)) :: bitsDown n v

/-- The number that bits make, least significant first. -/
def ofBitsUp (l : List Bool) : Nat := l.foldr (fun b n => b.toNat + 2 * n) 0

/-- The CRC-16 with polynomial 8005h of a frame of converter `k` (R194, R276), in the order, from the initial value and with the final
exclusive-OR that the spec leaves open. -/
def frameCheck (k : Nat) (codes : List (BitVec 24)) : BitVec 16 :=
  let rev := Config.crcReflected k
  let feed := codes.flatMap fun (c : BitVec 24) => let l := bitsDown 24 c.toNat; if rev then l.reverse else l
  let c := feed.foldl (crc16Bit 0x8005) (Config.crcInit k).toNat
  BitVec.ofNat 16 (if rev then ofBitsUp (bitsDown 16 c) else c) ^^^ Config.crcFinal k

/-! ### Values by TYPE (R69) -/

/-- The quotient `n / d` as a whole number where the spec states no rounding: one of the two nearest, which one left
open. -/
def roundOpen (n d : Int) : Int :=
  if Int.emod n d = 0 then Int.ediv n d
  else if Config.roundsUp n d then Int.ediv n d + 1 else Int.ediv n d

/-- The quotient rounded away from zero (R229). -/
def roundAway (n d : Int) : Int := if n < 0 then -Int.ediv (-n + d - 1) d else Int.ediv (n + d - 1) d

/-- The quotient rounded to nearest, halves to even (IEEE 754). -/
def roundEven (n d : Nat) : Nat :=
  let q := n / d
  let r := n % d
  if 2 * r < d then q else if 2 * r > d then q + 1 else if q % 2 = 0 then q else q + 1

/-- The value of an IEEE 754 number with `m` fraction bits and exponent bias `bias`: (i, k) for i / 2^k, none where it
is no finite number. -/
def floatVal (m eb : Nat) (w : Nat) : Option (Int × Nat) :=
  let frac := w % 2 ^ m
  let e := w / 2 ^ m % 2 ^ eb
  let sign : Int := if w / 2 ^ (m + eb) % 2 = 1 then -1 else 1
  let off := 2 ^ (eb - 1) - 2 + m
  if e = 2 ^ eb - 1 then none
  else if e = 0 then some (sign * frac, off)
  else if e - 1 ≥ off then some (sign * ((2 ^ m + frac) * 2 ^ (e - 1 - off) : Nat), 0)
  else some (sign * (2 ^ m + frac : Nat), off - (e - 1))

/-- The quotient rounded half up, for magnitudes: half away from zero (R102). -/
def roundHalf (n d : Nat) : Nat := (2 * n + d) / (2 * d)

/-- The IEEE 754 number nearest to i / 2^k with `m` fraction bits and `eb` exponent bits, halves by `rnd`. -/
def floatBy (rnd : Nat → Nat → Nat) (m eb : Nat) (i : Int) (k : Nat) : Nat :=
  let a := i.natAbs
  let sign := if i < 0 then 2 ^ (m + eb) else 0
  let off := 2 ^ (eb - 1) - 2 + m
  if a = 0 then 0
  else
    let len := Nat.log2 a + 1
    if len + off < k + m + 1 then sign + rnd (a * 2 ^ off) (2 ^ k)
    else
      let e := len + off - k - m
      let man := if len ≤ m + 1 then a * 2 ^ (m + 1 - len) else rnd a (2 ^ (len - m - 1))
      let v := e * 2 ^ m + (man - 2 ^ m)
      if v ≥ (2 ^ eb - 1) * 2 ^ m then sign + (2 ^ eb - 1) * 2 ^ m else sign + v

/-- The IEEE 754 number nearest to i / 2^k, halves to even. -/
def floatOf (m eb : Nat) (i : Int) (k : Nat) : Nat := floatBy roundEven m eb i k

/-- The quotient rounded half away from zero (R102). -/
def roundQ (n : Int) (d : Nat) : Int := if n < 0 then -(roundHalf n.natAbs d : Int) else (roundHalf n.natAbs d : Int)

/-- A point value as i / 2^k (R69), none where a REAL or LREAL is no finite number. -/
def numOf (typ : BitVec 4) (v : W64) : Option (Int × Nat) :=
  match typ.toNat with
  | 0 => some ((v.toNat % 2 : Nat), 0)
  | 1 => some (s64 v, 0)
  | 2 => some (v.toNat, 0)
  | 3 => some (s64 v, 0)
  | 4 => some (s64 v, 16)
  | 5 => floatVal 23 8 (v.toNat % 2 ^ 32)
  | 6 => floatVal 52 11 v.toNat
  | 7 => some (v.toNat, 0)
  | _ => some (v.toNat, 0)

/-- A number i / 2^k in the encoding of a TYPE (R69). -/
def ofNum (typ : BitVec 4) (i : Int) (k : Nat) : W64 :=
  match typ.toNat with
  | 0 => if i = 0 then 0 else 1
  | 4 => BitVec.ofInt 64 (clip32 (roundOpen (i * 65536) (2 ^ k)))
  | 5 => BitVec.ofNat 64 (floatOf 23 8 i k)
  | 6 => BitVec.ofNat 64 (floatOf 52 11 i k)
  | 1 => BitVec.ofInt 64 (clip32 (roundOpen i (2 ^ k)))
  | 2 => BitVec.ofInt 64 (clampInt 0 4294967295 (roundOpen i (2 ^ k)))
  | 7 => BitVec.ofInt 64 (clampInt 0 4294967295 (roundOpen i (2 ^ k)))
  | _ => BitVec.ofInt 64 (roundOpen i (2 ^ k))

/-- A Q16.16 signal in the encoding of a TYPE by the rounding of R102 (R108). -/
def ofQ (typ : BitVec 4) (u : Int) : W64 :=
  match typ.toNat with
  | 0 => if roundQ u 65536 = 0 then 0 else 1
  | 4 => BitVec.ofInt 64 (clip32 u)
  | 5 => BitVec.ofNat 64 (floatBy roundHalf 23 8 u 16)
  | 6 => BitVec.ofNat 64 (floatBy roundHalf 52 11 u 16)
  | 2 => BitVec.ofInt 64 (clampInt 0 4294967295 (roundQ u 65536))
  | 7 => BitVec.ofInt 64 (clampInt 0 4294967295 (roundQ u 65536))
  | _ => BitVec.ofInt 64 (roundQ u 65536)

/-- A point value as a Q16.16 signal, saturated (R102); none where it is a NaN or an infinity (R117). -/
def toQ (typ : BitVec 4) (v : W64) : Option Int :=
  (numOf typ v).map fun x => clip32 (roundQ (x.1 * 65536) (2 ^ x.2))

/-! ### The access check (R79) -/

/-- Kinds of access (R79). -/
inductive Kind where
  | read
  | write
  | force
  | config
  deriving DecidableEq, Repr

/-- Results of the check (R79). -/
inductive Verdict where
  | allow
  | deny
  | denySource
  deriving DecidableEq, Repr

/-- GROUPS[b] of the booth map (R78). -/
def State.groups (s : State) (b : Nat) : W32 := sget 0 s.pnt.maps b &&& 0xFFFF

/-- The check of R79 for booth `b` on point `p`, the record verified by the read (R92). `path` says that the path is the commit list; `others` that a config
access would change a field other than SHARE. -/
def State.check (s : State) (b : Nat) (k : Kind) (p : Nat) (path others : Bool) : Verdict :=
  let r := s.readRec p
  let mayWrite := if path then commitSrc r.src else decide (r.src = 1)
  let shared := r.share.setWidth 32 &&& s.groups b
  if k = .write ∧ mayWrite = false then .denySource
  else if k = .config ∧ p ≥ 8064 ∧ others then .deny
  else if b = 255 then .allow
  else if r.quality = 0xC1 ∧ k ≠ .config then .deny
  else match k with
    | .read => if b = 0 ∨ b = r.owner.toNat ∨ shared ≠ 0 then .allow else .deny
    | .write =>
      if b = r.owner.toNat ∨ (r.src = 1 ∧ shared &&& s.reg 0x1800 ≠ 0) then .allow else .deny
    | .force =>
      if b = 0 ∨ (b = r.owner.toNat ∧ ¬ (r.forced ∧ (s.force r.fidx.toNat).map (·.setter) = some 0)) then .allow
      else .deny
    | .config => if b = 0 then .allow else .deny

/-- The number of a kind (PNT_DENY_LAST). -/
def Kind.num : Kind → Nat
  | .read => 0
  | .write => 1
  | .force => 2
  | .config => 3

/-- What a denial records (R80). -/
def State.noteDenial (s : State) (b : Nat) (k : Kind) (p : Nat) (v : Verdict) : State :=
  let last := place (b % 256) 24 ||| place k.num 22 ||| place (p % 8192) 0
  match v with
  | .allow => s
  | .deny => ((s.count (0x1880 + 4 * k.num) 1).setReg 0x1824 last).setSQ 3 7
  | .denySource => ((s.count 0x1890 1).setReg 0x1824 (last ||| place 1 21)).setSQ 3 7

/-- The substitute record of R80. -/
def substitute : PRec :=
  ({ owner := 0, quality := 0xC0 } : PRec).sealed

/-- A read of a point by a booth: the record or its substitute, with the denial recorded (R79, R80). -/
def State.readPoint (s : State) (b p : Nat) : State × PRec :=
  match s.check b .read p false false with
  | .allow => (s.verifyRead p, s.readRec p)
  | v => (s.noteDenial b .read p v, substitute)

/-- The writer of a point, with its booth (R24, R77): a loop context in use, or a task of an active image. -/
def LoopCtx.outPoint (c : LoopCtx) : Nat := bits (c.words.getD 4 0) 12 0

end Sys2Proof.Machine
end

