-- ==== Sys2Proof/Machine/Operands.lean ====
section
/-! DEFINITION. The operand forms of a register access: the writable fields of every register with their access codes
(R5, R355) and accepted ranges (R357), the register map of R520 and R521, shadowed writes (R44, R45) and posted
writes (R362). -/

namespace Sys2Proof.Machine

/-- A writable field: its bits, its codes, and the values accepted (R355, R357). -/
structure Fld where
  hi : Nat
  lo : Nat
  lk : Bool := false
  sh : Bool := false
  min : Nat := 0
  max : Nat := 0xFFFFFFFF
  deriving DecidableEq, Repr

/-- A field with code RW. -/
def rw (hi lo : Nat) : Fld := { hi, lo }
/-- A field with code RW LK. -/
def rwLk (hi lo : Nat) : Fld := { hi, lo, lk := true }
/-- A field with code RW SH. -/
def rwSh (hi lo : Nat) : Fld := { hi, lo, sh := true }
/-- A field with code RW LK SH. -/
def rwLkSh (hi lo : Nat) (min : Nat := 0) (max : Nat := 0xFFFFFFFF) : Fld :=
  { hi, lo, lk := true, sh := true, min, max }

/-- An offset inside a family of `n` registers at `base + step × k`. -/
def inFam (off base step n : Nat) : Bool :=
  decide (base ≤ off ∧ off < base + step * n ∧ (off - base) % step = 0)

/-- The fields of the SYS, CRSL, TOKN and PNT blocks a plain write may change. -/
def fieldsLow (off : Nat) : List Fld :=
  match off with
  | 0x0008 => [rwLkSh 0 0]
  | 0x0800 => [rwLkSh 19 10 1, rwLkSh 9 9, rwLk 1 0]
  | 0x0818 => [rwLkSh 9 0 1 600]
  | 0x1000 => [rwLkSh 3 3, rwLkSh 1 0 0 2]
  | 0x1010 => [rwLk 31 0]
  | 0x1018 => [rwLkSh 23 0]
  | 0x1028 => [rwLkSh 31 19, rwLkSh 18 10 1, rwLkSh 9 0 10 1000]
  | 0x102C => [rwLkSh 19 0]
  | 0x1038 => [rw 10 0]
  | 0x103C => [rwLkSh 31 31, rwLkSh 30 30, rwLkSh 12 0]
  | 0x1040 => [rwLkSh 31 0 0 0x7FFFFFFF]
  | 0x1044 => [rwLkSh 31 0]
  | 0x1048 => [rw 7 0]
  | 0x104C => [rwLkSh 31 24, rwLkSh 23 0]
  | 0x1800 => [rwLkSh 15 0]
  | 0x1808 => [rw 3 0]
  | 0x1810 => [rwLk 31 0]
  | 0x1814 => [rwLk 31 0]
  | 0x181C => [rwLkSh 31 16, rwLkSh 15 0 1]
  | 0x1828 => [rw 31 28, rw 11 0]
  | 0x182C => [rwLkSh 31 0]
  | 0x2800 => [rwLkSh 0 0]
  | 0x2808 => [rw 16 16, rw 8 0]
  | 0x3000 => [rwLkSh 0 0]
  | 0x3020 => [rw 7 0]
  | 0x302C => [rw 7 0]
  | 0x3880 => [rw 8 8, rw 5 4, rw 3 0]
  | _ => if inFam off 0x2940 4 32 then [rwLkSh 31 0] else []

/-- The fields of the FIO, ANA, FAN and CAN blocks a plain write may change. -/
def fieldsMid (off : Nat) : List Fld :=
  if off = 0x4000 then [rwLkSh 3 0]
  else if inFam off 0x4040 4 32 then
    [rwLkSh 31 19, rwLkSh 15 14, rwLkSh 13 12 0 2, rwLkSh 11 11, rwLkSh 10 10, rwLkSh 9 9, rwLkSh 8 8,
     rwLkSh 7 6 0 2, rwLkSh 5 5, rwLkSh 4 4]
  else if inFam off 0x40C0 4 32 then [rwLkSh 31 16 10, rwLkSh 15 0]
  else if off = 0x4800 then [rwLkSh 23 16, rwLkSh 15 0]
  else if inFam off 0x4840 4 16 then [rwLkSh 31 19, rwLkSh 18 16, rwLkSh 15 15, rwLkSh 14 14, rwLkSh 12 0]
  else if inFam off 0x4880 4 32 then [rwLkSh 31 0]
  else if inFam off 0x4980 4 8 then [rwLkSh 31 19, rwLkSh 17 16 0 2, rwLkSh 15 0 0 10000]
  else if inFam off 0x49A0 4 16 then [rwLkSh 31 0]
  else if off = 0x5000 then [rwLkSh 7 0]
  else if off = 0x5008 then [rwLkSh 15 8, rwLkSh 7 0]
  else if inFam off 0x5010 4 8 then [rwLkSh 31 19, rwLkSh 18 6, rwLkSh 5 5, rwLkSh 4 3 0 2, rwLkSh 2 0]
  else if inFam off 0x5030 4 8 then [rwLkSh 31 16 100 30000, rwLkSh 15 0 0 10000]
  else if inFam off 0x5050 4 8 then [rwLkSh 31 24, rwLkSh 23 16, rwLkSh 15 4, rwLkSh 3 3, rwLkSh 2 2]
  else if inFam off 0x5070 4 8 then [rwLkSh 31 16, rwLkSh 15 8 10, rwLkSh 7 0]
  else if inFam off 0x5100 4 32 then [rwLkSh 31 16, rwLkSh 15 0]
  else if off = 0x5800 then [rwLkSh 11 8, rwLkSh 7 4, rwLkSh 3 0]
  else if off = 0x5808 then [rwLkSh 31 31, rwLkSh 15 0 10 10000]
  else if off = 0x5810 then [rw 8 0]
  else if off = 0x5814 then [rwLkSh 31 8]
  else if inFam off 0x5818 4 2 then [rwLkSh 28 0]
  else if inFam off 0x5820 4 4 then [rwLkSh 31 22, rwLkSh 12 0]
  else if inFam off 0x5840 0x40 4 then [rwLkSh 31 24, rwLkSh 23 16, rwLkSh 15 8, rwLkSh 7 0]
  else if inFam off 0x5844 0x40 4 then
    [rwLkSh 31 24, rwLkSh 23 16, rwLkSh 15 12, rwLkSh 11 8, rwLkSh 7 7, rwLkSh 6 0]
  else if inFam off 0x5848 0x40 4 then [rwLkSh 31 28, rwLkSh 27 18 1, rwLkSh 17 10 1, rwLkSh 9 9, rwLkSh 8 8]
  else []

/-- The fields of the NET to PWR blocks a plain write may change. HOST_LOCK, HOST_QCMD, HOST_SHUTTER, HOST_QCFG, the
posted registers of RTC, KEY and PWR, and SYS_RESET have operations of their own. -/
def fieldsHigh (off : Nat) : List Fld :=
  match off with
  | 0x6000 => [rwLkSh 2 2, rwLkSh 1 1, rwLkSh 0 0]
  | 0x6030 => [rwLkSh 15 0]
  | 0x6034 => [rwLkSh 15 0]
  | 0x6048 => [rwLkSh 31 0]
  | 0x604C => [rwLkSh 31 0]
  | 0x6050 => [rwLkSh 31 24 0 127, rwLkSh 23 23, rwLkSh 22 22, rwLkSh 11 0]
  | 0x6058 => [rwLkSh 31 16, rwLkSh 15 0]
  | 0x6070 => [rw 7 0]
  | 0x60A0 => [rwLkSh 31 16, rwLkSh 15 8 1, rwLkSh 0 0]
  | 0x6800 => [rw 0 0]
  | 0x680C => [rw 21 0]
  | 0x6810 => [rw 31 0]
  | 0x7000 => [rwLkSh 3 0]
  | 0x7800 => [rwLkSh 31 16, rwLkSh 12 1, rwLk 0 0]
  | 0x7808 => [rwLk 27 27]
  | 0x7818 => [rwLkSh 31 16 50, rwLkSh 15 0]
  | 0x8020 => [rwLkSh 2 2]
  | 0x8800 => [rwLkSh 0 0]
  | 0x881C => [rw 5 0]
  | 0x9000 => [rwLkSh 12 12, rwLkSh 10 0 1 1440]
  | 0x9800 => [rwLkSh 16 16, rwLkSh 15 0 10 10000]
  | 0xA800 => [rwLkSh 0 0]
  | _ =>
    if inFam off 0x6010 4 3 then
      [rwLkSh 31 31, rwLkSh 30 29 0 2, rwLkSh 28 28, rwLkSh 27 27, rwLkSh 26 26, rwLkSh 25 16 1, rwLkSh 15 0]
    else if off = 0x6074 then [rwLkSh 31 28, rwLkSh 11 0]
    else if off = 0x607C then [rwLkSh 31 24, rwLkSh 15 0]
    else if inFam off 0x6074 4 8 then [rwLkSh 31 0]
    else if inFam off 0x6840 4 32 then [rwLkSh 31 31, rwLk 27 24, rwSh 12 0]
    else []

/-- The writable fields of the register at an offset. -/
def fieldsOf (off : Nat) : List Fld :=
  if off < 0x4000 then fieldsLow off else if off < 0x6000 then fieldsMid off else fieldsHigh off

/-- The bits of a register that its writable fields name: the others read 0 whatever brings the word (R7). -/
def namedBits (off : Nat) : W32 := (fieldsOf off).foldl (fun m f => m ||| fieldMask f.hi f.lo) 0

/-- High-water fields that any write sets to 0 (CRSL_PHASE_HW, CRSL_JG_HW, PRG_TASK_TIME, MBX_SLOTS). -/
def highWater (off : Nat) : Bool :=
  inFam off 0x0820 4 5 || inFam off 0x0840 4 16 || decide (off = 0x3028 ∨ off = 0x7008)

/-- The status register of each block with SQ fields: at +4, but PRSM_STATUS at 3800h and RTC_STATUS at 8024h; JUG
and DBG have none. -/
def statusOff (blk : Nat) : Nat := if blk = 7 then 0x3800 else if blk = 16 then 0x8024 else blk * 0x800 + 4

/-- An offset holds a status register with SQ fields (R360). -/
def statusReg (off : Nat) : Bool :=
  decide (off / 0x800 < 22) && decide (off / 0x800 ≠ 4 ∧ off / 0x800 ≠ 20) && decide (off = statusOff (off / 0x800))

/-- The number of registers of each block (R520). -/
def blockRegs (blk : Nat) : Nat :=
  [64, 96, 128, 96, 160, 128, 192, 320, 224, 160, 128, 256, 256, 160, 48, 96, 48, 64, 64, 80, 16, 32].getD blk 0

/-- An offset of a register or reserved place of a block (R520, R521). -/
def inBlock (off : Nat) : Bool := decide (off % 0x800 < 4 * blockRegs (off / 0x800))

/-- The counters' first holding word of each block with counters, with the counters' base and number (R363). -/
def holdMap : List (Nat × Nat × Nat × Nat) :=
  [(1, 0x0880, 0x08C0, 16), (2, 0x1080, 0x10C0, 16), (3, 0x1880, 0x18C0, 16), (4, 0x2100, 0x2140, 16),
   (5, 0x2880, 0x28C0, 16), (6, 0x3080, 0x30C0, 16), (8, 0x42C0, 0x4300, 16), (9, 0x4A00, 0x4A20, 8),
   (10, 0x5180, 0x51A0, 8), (11, 0x5A00, 0x5A80, 32), (12, 0x6100, 0x6180, 32), (13, 0x69C0, 0x6A00, 16),
   (14, 0x7060, 0x7080, 8), (15, 0x7880, 0x78C0, 16), (16, 0x8040, 0x8060, 6), (17, 0x8840, 0x8860, 8),
   (18, 0x9040, 0x9060, 8), (19, 0x9840, 0x9860, 8), (21, 0xA840, 0xA860, 4)]

/-- A live counter's offset (R363). -/
def isCounter (off : Nat) : Bool := holdMap.any fun e => inFam off e.2.1 4 e.2.2.2

/-! ### Shadowed writes (R44, R45) -/

/-- A revolution is in its Guard window: a write made now waits for boundary n+1 (R44). -/
def State.inGuard (s : State) : Bool := decide (s.crsl.phase = .guard)

/-- The boundary at which a write made now applies (R44). -/
def State.dueNow (s : State) : Nat := if s.inGuard then s.rev + 1 else s.rev

/-- A pending write and a later one to the same register, entry and boundary. -/
def Shadow.same (a b : Shadow) : Bool := decide (a.off = b.off ∧ a.sel = b.sel ∧ a.due = b.due)

/-- A shadowed write entered: fields of the same register, entry and boundary take the later value (R45), and the write stands in the
order of the later one (R94). -/
def putShadow (l : List Shadow) (n : Shadow) : List Shadow :=
  match l.find? fun h => h.same n with
  | none => l ++ [n]
  | some h => (l.filter fun x => !x.same n) ++
      [{ h with mask := h.mask ||| n.mask, val := mergeBits h.val n.mask n.val }]

/-- A shadowed write made. -/
def State.shadowWrite (s : State) (off sel : Nat) (mask v : W32) : State :=
  if mask = 0 then s
  else { s with shadow := putShadow s.shadow { off, sel, mask, val := v &&& mask, due := s.dueNow } }

/-- Registers that apply at a natural boundary of their own (R46): NET MAC settings, FAN and FIO channel settings. -/
def ownBoundary (off : Nat) : Bool :=
  inFam off 0x6010 4 3 || inFam off 0x6030 4 2 || (decide (0x5010 ≤ off) && decide (off < 0x5090)) ||
  inFam off 0x5100 4 32 || inFam off 0x4040 4 64

/-- APPLY_PENDING of a block (R44, R357): a shadowed write waits, among them a channel setting of a FIO group until the start of the
frame that carries it (R46, R271). -/
def State.applyPending (s : State) (blk : Nat) : Bool :=
  (s.shadow.any fun e => e.off / 0x800 == blk) || (decide (blk = 8) && s.fioGrp.any fun g => g.newPending.isSome)

/-! ### What one write writes -/

/-- Fields of a write judged one by one (R355 to R357): the mask written at once, the mask shadowed, and whether an LK
field was denied. -/
structure Judged where
  now : W32 := 0
  held : W32 := 0
  denied : Bool := false
  deriving DecidableEq, Repr

/-- One field judged: under LOCK, then for its range. -/
def judgeFld (locked : Bool) (v : W32) (j : Judged) (f : Fld) : Judged :=
  let x := bits v f.hi f.lo
  if f.lk && locked then { j with denied := true }
  else if x < f.min ∨ f.max < x then j
  else if f.sh then { j with held := j.held ||| fieldMask f.hi f.lo }
  else { j with now := j.now ||| fieldMask f.hi f.lo }

/-- The fields of a register judged for a write of `v`. -/
def judge (locked : Bool) (fs : List Fld) (v : W32) : Judged := fs.foldl (judgeFld locked v) {}

/-- A write to an LK field of a locked block (R356). -/
def State.lkDeny (s : State) : State := (s.setSQ 13 9).count 0x69D8 1

/-- A write ignored as a whole (R355). -/
def State.wrRo (s : State) : State := (s.setSQ 13 8).count 0x69D4 1

/-! ### Posted writes (R362) -/

/-- The post buffer of a register: its block, or its FIO group. -/
def domainOf (off : Nat) : Nat :=
  if 0x4040 ≤ off ∧ off < 0x40C0 then 100 + (off - 0x4040) / 32
  else if 0x40C0 ≤ off ∧ off < 0x4140 then 100 + (off - 0x40C0) / 32
  else off / 0x800

/-- BUSY of a post buffer. -/
def State.busyDom (s : State) (dom : Nat) : Bool := (sget none s.posted dom).isSome

/-- WR_LOST in the status register of each posted block (R362). -/
def lostBit (blk : Nat) : Nat := if blk = 8 then 8 else if blk = 17 then 8 else 0

/-- A write posted, or dropped whole while BUSY is 1 (R362). -/
def State.post (s : State) (off : Nat) (v : W32) : State :=
  let dom := domainOf off
  if s.busyDom dom then
    let s := (s.setSQ (off / 0x800) (lostBit (off / 0x800))).count 0x69DC 1
    if off / 0x800 = 16 then s.count 0x804C 1 else s
  else { s with posted := sset none s.posted dom (some { off, val := v }) }

end Sys2Proof.Machine
end

