-- ==== Sys2Proof/Machine/Flags.lean ====
section
/-! DEFINITION. The flag computations: sequence-clear of status registers (R360, R361), the domain-health fields and
DOMAIN_CHG (R34), pending sources and HOST_IRQ_N (R354). -/

namespace Sys2Proof.Machine

/-- The latches of a path: 0 the host port, 1 + n session n. -/
def Path.num : Path → Nat
  | .host => 0
  | .session n => n.val + 1

/-- The latches of a path. -/
def State.pathOf (s : State) (p : Path) : PathRec := sget {} s.hostp.paths (Path.num p)

/-- The latches of a path replaced. -/
def State.setPath (s : State) (p : Path) (r : PathRec) : State :=
  { s with hostp := { s.hostp with paths := sset {} s.hostp.paths (Path.num p) r } }

/-- The flags SEQ, STALE and SQ of a status word (R360). -/
def StatRec.word (r : StatRec) : W32 :=
  place (r.seq % 256) 24 ||| flagAt r.stale 17 ||| r.set.foldl (fun w e => w ||| place 1 e.1) 0

/-- A read of a status register loads the path's latch with the internal sequence (R360). -/
def State.latchSeq (s : State) (p : Path) (blk : Nat) : State :=
  let r := s.pathOf p
  s.setPath p { r with seqLatch := sset none r.seqLatch blk (some (s.statOf blk).seq) }

/-- What clearing fields frees beside them: the parity capture (R358), the first fault (R493), the first difference of mirror
compare with MC_FAULT (TRAP_MC); `old` is the record before. -/
def State.cleared (s : State) (blk : Nat) (old : StatRec) : State :=
  if blk = 15 ∧ (old.set.any fun e => e.1 == 6) ∧ s.sq 15 6 = false then { s with trap := { s.trap with mcFirst := none } }
  else if blk = 13 ∧ s.sq 13 7 = false then s.setFld 0x682C 31 31 0
  else if blk = 19 ∧ s.sq 19 7 = false then { s with flt := { s.flt with firstHeld := false } }
  else s

/-- A clearing write (R361). -/
def State.seqClear (s : State) (p : Path) (blk : Nat) (v : W32) : State :=
  let r := s.statOf blk
  match sget none (s.pathOf p).seqLatch blk with
  | some l =>
    if l % 256 = bits v 31 24 then
      { s with stat := sset {} s.stat blk { r with stale := false, set := r.set.filter fun e => l < e.2 } }.cleared blk r
    else { s with stat := sset {} s.stat blk { r with stale := true } }.count 0x69E0 1
  | none => { s with stat := sset {} s.stat blk { r with stale := true } }.count 0x69E0 1

/-- BACKUP_OK: the backup domain running with its cell at or above 2.5 V. -/
def State.backupOk (s : State) : Bool := !s.rtc.lost && decide (2500 ≤ s.rtc.batMv)

/-- PRISM_OK: the metering domain registering and its mirror refreshed within 250 ms; 0 on the LYF-8192-MN. -/
def State.prismOk (s : State) : Bool := s.isMr && s.prsm.running && !s.prsm.saveLost && s.prsm.mirrorOk

/-- CTRL_OK: the control domain running the Carousel; after a hard-phase overrun it falls at the boundary (R62 step 6). -/
def State.ctrlOk (s : State) : Bool := s.running || s.crsl.ovrDue

/-- The domain-health fields (R34). -/
def State.health (s : State) : List Bool := [s.backupOk, s.prismOk, s.ctrlOk, s.sys.cmdOk]

/-- DOMAIN_CHG for each domain-health field that has changed over a step (R34). -/
def noteDomains (s t : State) : State :=
  ((List.zip s.health t.health).filter fun e => e.1 != e.2).foldl (fun (t : State) _ => t.setSQ 0 16) t

/-- HOST_IRQ_BLK: blocks with an SQ field at 1 (R354). -/
def State.irqBlk (s : State) : W32 :=
  s.stat.foldl (fun w e => if e.2.set.isEmpty then w else w ||| place 1 e.1) 0

/-- HOST_IRQ_Q: NOTICE of each queue (R354, R373). -/
def State.irqQ (s : State) : W32 :=
  (List.range 32).foldl (fun w n => if s.notice n then w ||| place 1 n else w) 0

/-- A source is pending while IRQ_EN is 1 (R354). -/
def State.irqWanted (s : State) : Bool :=
  s.flag 0x6800 0 && (decide (s.irqBlk &&& s.reg 0x680C ≠ 0) || decide (s.irqQ &&& s.reg 0x6810 ≠ 0))

/-- HOST_IRQ_N driven by level; each assertion advances HOST_CNT15 (R354). -/
def State.driveIrq (s : State) : State :=
  let w := s.irqWanted
  let s' := { s with hostp := { s.hostp with irqLow := w } }
  if w && !s.hostp.irqLow then s'.count 0x69FC 1 else s'

/-- A module that a cold start begins with: every domain-health field at its reset value 0 (R34). -/
def State.atReset (s : State) : State :=
  { s with sys := { s.sys with run := .starting, cmdOk := false }, crsl := { s.crsl with ovrDue := false }
           prsm := { s.prsm with mirrorOk := false }, rtc := { s.rtc with lost := true } }

/-- What the hardware brings up to date by itself after an event: domain health and the interrupt line. -/
def settle (s t : State) : State := (noteDomains s t).driveIrq

end Sys2Proof.Machine
end

