-- ==== Sys2Proof/Machine/Trelton.lean ====
section
/-! DEFINITION. The command service (chapter 14): acceptance, the ordered checks of R384, responses, completion,
scheduled commands (R377) and sessions (R379 to R382). Every command of the 0100h to 0F00h groups is one call of
`runCmd` with what it checks and what it does. -/

namespace Sys2Proof.Machine

/-- What a command does once its checks have passed: completes now, or waits in its slot (R385). -/
inductive Res where
  | now (status detail : Nat) (data : List Byte) (flags : Nat) (s : State)
  | later (w : Wait) (s : State)

/-- Completed with OK and its response data. -/
def okRes (data : List Byte) (s : State) : Res := .now 0 0 data 0 s

/-- Refused with a DETAIL code (order 12). -/
def refusedRes (detail : Nat) (s : State) : Res := .now 0x0E detail [] 0 s

/-- What R384 judges of one command, in its order: E accepted (2), allowed before the open (3), the opcode undefined or its group
absent (8),
the booth denied or the proof failed (9), a locked block or a block in its safe state (10), a field out of range with
its payload offset (11), a resource held or the state forbidding it (12). `changes` marks the commands R404 refuses on a
member that is not primary. -/
structure CmdSpec where
  opcode : Nat
  effOk : Bool := false
  preOpen : Bool := false
  maxData : Nat := 0
  undef : Bool := false
  absent : Bool := false
  denied : Bool := false
  authFail : Bool := false
  lockBlk : Option Nat := none
  safeBlk : Option Nat := none
  bad : Option Nat := none
  busy : Option Nat := none
  refuse : Option Nat := none
  changes : Bool := false

/-- A session. -/
def State.sess (s : State) (n : Nat) : Session := s.mbx.sessions.getD n {}

/-- A session replaced. -/
def State.setSess (s : State) (n : Nat) (x : Session) : State :=
  { s with mbx := { s.mbx with sessions := lmod s.mbx.sessions n fun _ => x } }

/-- Commands of a session in flight. -/
def State.inFlight (s : State) (n : Nat) : Nat := (s.mbx.slots.filter fun x => x.session == n).length

/-- The booth a command's session is bound to. -/
def State.boothOf (s : State) (h : Hdr) : Nat := (s.sess h.session.val).booth.toNat

/-- The session's booth is 0 or 255, or the one named (the Booths columns of R386 to R395). -/
def State.boothIs (s : State) (h : Hdr) (own : Nat) : Bool :=
  let b := s.boothOf h
  decide (b = 0 ∨ b = 255 ∨ b = own)

/-- The session's booth is 0 or 255. -/
def State.landlord (s : State) (h : Hdr) : Bool := let b := s.boothOf h; decide (b = 0 ∨ b = 255)

/-- Words of a response with `n` bytes of data (R375, R378). -/
def respWords (n : Nat) : Nat := 2 + (4 + n + 7) / 8

/-- Words the response path of a session holds in all (R383). -/
def State.pathWords (s : State) (n : Nat) : Nat := if n < 4 then (s.q (4 + n)).depth else 512

/-- Words free on the response path of a session, those reserved for commands in flight taken off (R383). -/
def State.pathFree (s : State) (n : Nat) : Nat :=
  let reserved := ((s.mbx.slots.filter fun x => x.session == n).map (·.room)).sum
  let free := if n < 4 then (s.q (4 + n)).free
              else 512 - ((sget [] s.mbx.resp n).map List.length).sum
  free - reserved

/-- The packet of a response (R375, R376, R378). -/
def respPacket (opcode : Nat) (tag booth : Byte) (sseq : W32) (flags status detail : Nat) (data : List Byte) :
    List W64 :=
  let hdr := leBytes 2 opcode ++ [tag, booth] ++ leBytes 2 (0x8000 + flags) ++ leBytes 2 (4 + data.length) ++
    leBytes 4 sseq.toNat
  let bytes := hdr ++ leBytes 4 (crc32 hdr).toNat ++ leBytes 2 status ++ leBytes 2 detail ++ data
  wordsOf (bytes.length + 1) bytes

/-- A response written to its session's path: Q4–Q7, or the session's TLS buffer (R379). -/
def State.deliver (s : State) (n : Nat) (ws : List W64) : State :=
  if n < 4 then s.produce (4 + n) ws
  else { s with mbx := { s.mbx with resp := sset [] s.mbx.resp n (sget [] s.mbx.resp n ++ [ws]) } }

/-- A command's completion counted and its last refusal noted (R399, MBX_LAST_ERR, MBX_STATUS); AUTH_FAIL there is of opening proofs
alone. -/
def State.countDone (s : State) (n opcode status : Nat) : State :=
  let s := if status = 0 then s.count 0x7064 1
    else if status = 0x0F then (s.count 0x706C 1).setSQ 14 2
    else if status = 0x10 then s
    else s.count 0x7068 1
  let s := if status = 3 then (s.count 0x7074 1).setSQ 14 3 else s
  let s := if status = 0x12 ∧ opcode = 0x0102 then (s.count 0x707C 1).setSQ 14 5 else s
  if status = 0 then s
  else s.setReg 0x700C (place opcode 16 ||| place n 13 ||| place status 0)

/-- A command's one response (R378, R384). -/
def State.respond (s : State) (n : Nat) (opcode : Nat) (tag booth : Byte) (sseq : W32) (flags status detail : Nat)
    (data : List Byte) : State :=
  (s.countDone n opcode status).deliver n (respPacket opcode tag booth sseq flags status detail data)

/-- A command in flight completed: its slot freed and its response written with its flags, or discarded (R381). -/
def State.completeAs (s : State) (x : Slot) (flags status detail : Nat) (data : List Byte) : State :=
  let s := { s with mbx := { s.mbx with slots := s.mbx.slots.filter fun y => y.ident != x.ident } }
  if x.discard then s.countDone x.session x.opcode status
  else s.respond x.session x.opcode x.tag x.booth x.sseq flags status detail data

/-- A command in flight completed without response flags. -/
def State.complete (s : State) (x : Slot) (status detail : Nat) (data : List Byte) : State := s.completeAs x 0 status detail data

/-- A command in flight whose turn has come, with its result (R385): completed, or waiting on in its slot. -/
def State.finish (x : Slot) : Res → State
  | .now st de da fl s => s.completeAs x fl st de da
  | .later w s => { s with mbx := { s.mbx with slots := s.mbx.slots.map fun y => if y.ident = x.ident then { y with wait := w } else y } }

/-- Groups served in rescue (R487). -/
def rescueGroup (op : Nat) : Bool := decide (op / 256 = 1 ∨ op / 256 = 11 ∨ op / 256 = 13 ∨ op / 256 = 14)

/-- The block whose parity safe state refuses an opcode as a whole (R359): new sessions, calendar writes, key operations and
updates. -/
def safeState (op : Nat) : Option Nat :=
  if op = 0x0101 ∨ op = 0x0102 then some 14
  else if op = 0x0B02 ∨ op = 0x0B03 then some 16
  else if op / 256 = 12 then some 17
  else if op / 256 = 13 ∧ op ≠ 0x0D03 then some 18
  else if op / 256 = 15 then some 20
  else none

/-- Roles that refuse the commands of R404; a CATCHING member accepts them from its first Commit, which makes it PRIMARY. -/
def Role.refuses : Role → Bool
  | .starting => true
  | .syncing => true
  | .standby => true
  | .deciding => true
  | .isolated => true
  | .catching => true
  | .primary => false
  | .off => false

/-- The restrictions of R403 and R404 on CAN buses, interfaces and local outputs hold: a CATCHING member leaves them with its CLAIM
(R415 steps 2 to 4). -/
def State.bound (s : State) : Bool := if s.trap.role = .catching then !s.trap.claimed else s.trap.role.refuses

/-- A change that the next sync packet of a primary carries (R407). -/
def State.noteOut (s : State) (f : SyncChange → SyncChange) : State :=
  if s.trap.role = .primary then { s with trap := { s.trap with out := f s.trap.out } } else s

/-- A block whose configuration a standby does not adopt: TRAP and KEY (R408). -/
def ownBlock (off : Nat) : Bool := decide (off / 0x800 = 15 ∨ off / 0x800 = 17)

/-- Configuration writes applied, for the next sync packet. -/
def State.noteWrites (s : State) (l : List Shadow) : State :=
  s.noteOut fun (c : SyncChange) => { c with writes := c.writes ++ l.filter fun e => !ownBlock e.off }

/-- The check of BAD_HEADER fails: a header of the wrong form, or EFF on an opcode without E (R384 order 2). -/
def headerBad (h : Hdr) (c : CmdSpec) : Bool := h.badHeader || (h.eff.isSome && !c.effOk)

/-- The ROM loader answers an opcode: IDENTIFY and the 0D00h group, without a session (R487). -/
def State.romServes (s : State) (op : Nat) : Bool := s.sys.romOnly && decide (op = 0x0104 ∨ op / 256 = 13)

/-- The first check of R384 from order 2 on that fails: its status, DETAIL, response flags and data. -/
def State.firstFail (s : State) (h : Hdr) (c : CmdSpec) : Option (Nat × Nat × Nat × List Byte) :=
  let ss := s.sess h.session.val
  let isOpen := decide (ss.state = .opened)
  if headerBad h c then some (5, 0, 0, [])
  else if isOpen = false ∧ c.preOpen = false ∧ s.romServes c.opcode = false then some (1, 0, 0, [])
  else if isOpen ∧ h.sseq ≠ ss.expected then some (3, 0, 0, leBytes 4 ss.expected.toNat)
  else if isOpen ∧ h.booth ≠ ss.booth then some (2, 0, 0, [])
  else if s.mbx.slots.any (fun x => x.session == h.session.val && x.tag == h.tag && !x.discard) then some (4, 0, 0x0800, [])
  else if h.badPayload then some (6, 0, 0, [])
  else if c.undef then some (7, 0, 0, [])
  else if c.absent then some (0x0C, 0, 0, [])
  else if c.denied then some (9, 0, 0, [])
  else if c.authFail then some (0x12, 0, 0, [])
  else if (c.lockBlk.map s.locked).getD false then some (0x0B, c.lockBlk.getD 0, 0, [])
  else if (c.safeBlk.map s.parityHeld).getD false then some (0x14, c.safeBlk.getD 0, 0, [])
  else if ((safeState c.opcode).map s.parityHeld).getD false then some (0x14, (safeState c.opcode).getD 0, 0, [])
  else if c.bad.isSome then some (8, c.bad.getD 0, 0, [])
  else if s.pathWords h.session.val < respWords c.maxData then some (0x11, 0, 0, [])
  else if s.sys.run = .rescue ∧ (rescueGroup c.opcode = false ∨ (s.sys.romOnly ∧ s.romServes c.opcode = false)) then some (0x0E, 5, 0, [])
  else if c.changes ∧ s.trap.role.refuses then some (0x0E, 1, 0, [])
  else if c.busy.isSome then some (0x0D, c.busy.getD 0, 0, [])
  else if c.refuse.isSome then some (0x0E, c.refuse.getD 0, 0, [])
  else none

/-- A command that passes the check of SEQ_ERROR advances its session's expected SSEQ (R384). -/
def State.advanceSseq (s : State) (h : Hdr) (c : CmdSpec) : State :=
  let ss := s.sess h.session.val
  if ss.state = .opened ∧ headerBad h c = false ∧ h.sseq = ss.expected then
    s.setSess h.session.val { ss with expected := ss.expected + 1 }
  else s

/-- A command taken into a slot (R383): counted, with the most slots in use kept. -/
def State.accept (s : State) : State :=
  let n := s.mbx.slots.length + 1
  let s := s.count 0x7060 1
  let s := if n = 256 then s.setSQ 14 1 else s
  { s with mbx := { s.mbx with slotsMax := Nat.max s.mbx.slotsMax n, nextIdent := s.mbx.nextIdent + 1 } }

/-- A command can be taken: a Ringmaster core serves commands (R29), a slot is free and its response path has room, or its response
can never fit and there is room for the refusal RSP_TOO_LARGE (R383). -/
def State.canTake (s : State) (h : Hdr) (c : CmdSpec) : Bool :=
  s.sys.cmdOk && decide (s.mbx.slots.length < 256) &&
    (decide (respWords c.maxData ≤ s.pathFree h.session.val) ||
     (decide (s.pathWords h.session.val < respWords c.maxData) && decide (respWords 0 ≤ s.pathFree h.session.val)))

/-- A command of a session carried out (R383 to R385): not taken while no slot or response room is free, else the first
failing check or the command's own result decides the response. -/
def runCmd (h : Hdr) (c : CmdSpec) (body : State → Res) (s : State) : State :=
  if s.canTake h c = false then s
  else
    let fail := s.firstFail h c
    let t := (s.advanceSseq h c).accept
    match fail with
    | some (st, de, fl, da) => t.respond h.session.val c.opcode h.tag h.booth h.sseq fl st de da
    | none => match body t with
      | .now st de da fl u => u.respond h.session.val c.opcode h.tag h.booth h.sseq fl st de da
      | .later w u =>
        { u with mbx := { u.mbx with slots := u.mbx.slots ++
            [{ ident := t.mbx.nextIdent, session := h.session.val, tag := h.tag, opcode := c.opcode, booth := h.booth,
               sseq := h.sseq, accepted := u.crsl.upNs, room := respWords c.maxData, wait := w }] } }

/-! ### Scheduled commands (R54, R377) -/

/-- The 24 h limit of R377 in ns. -/
def dayNs : Nat := 86400000000000

/-- The boundary for an effective time, and whether it is late (R54, R377): the first of the PTP grid at or after the instant. The
command is taken to reach the module at the start of the phase in progress. -/
def State.boundaryFor (s : State) (e : W64) : Nat × Bool :=
  if e.getLsbD 63 then
    let b := e.toNat % 2 ^ 63
    if s.rev ≤ b then (b, false) else (s.rev, true)
  else
    let t : Int := e.toNat
    let ahead := t - s.gridNs
    if (s.crsl.sync = .locked ∨ s.crsl.sync = .holdover) ∧ 10000000 ≤ t - (s.crsl.absNs + s.phaseUs * 1000) then
      (s.rev + ((ahead.toNat + s.periodNs - 1) / s.periodNs - 1), false)
    else (s.rev, true)

/-- An effective time more than 24 h ahead (R377). -/
def State.effTooFar (s : State) (e : W64) : Bool :=
  if e.getLsbD 63 then decide (dayNs < (e.toNat % 2 ^ 63 - s.rev) * s.periodNs)
  else decide ((dayNs : Int) < (e.toNat : Int) - s.crsl.absNs)

/-- The key of a target: a command replaces one of the same key (R377). -/
def Target.key : Target → Nat × Nat
  | .limit _ => (0, 0)
  | .shed _ => (1, 0)
  | .swb b => (2, b)
  | .pairSwitch => (3, 0)
  | .activation => (4, 0)

/-- The commands a list of scheduled targets comes from, each once. -/
def schedIdents (l : List Sched) : List Nat := l.foldl (fun a x => if x.ident ∈ a then a else x.ident :: a) []

/-- A scheduled command exists for one of the targets. -/
def State.schedReplaces (s : State) (ts : List Target) : Bool :=
  s.mbx.sched.any fun x => ts.any fun t => t.key == x.target.key

/-- What stays scheduled when a command for the targets replaces the earlier ones. -/
def State.schedKept (s : State) (ts : List Target) : List Sched :=
  s.mbx.sched.filter fun x => !(ts.any fun t => t.key == x.target.key)

/-- A place for one more scheduled command, none needed when the count does not rise (R377). -/
def State.schedRoom (s : State) (ts : List Target) : Bool :=
  let now := (schedIdents s.mbx.sched).length
  let after := (schedIdents (s.schedKept ts)).length + 1
  decide (after ≤ 16 ∨ after ≤ now)

/-- A NOTE, WARN or FAULT of the log whose SOURCE the spec gives and whose CODE it does not: the code and DATA are free values. -/
def State.raiseUncoded (s : State) (cls : EvClass) (src : Nat) (booth : Byte) : State :=
  s.draw.raise cls src (s.drawn.toNat % 64) booth (s.drawnFor (0xE000 + 32 * src)).toNat

/-- A command scheduled for its targets at a boundary; the earlier command of a target is cancelled there with a NOTE
(R377). -/
def State.scheduleFor (s : State) (ident : Nat) (ts : List Target) (b : Nat) (late : Bool) : State :=
  let repl := s.schedReplaces ts
  let keep := s.schedKept ts
  let new := ts.map fun t => ({ ident, target := t, boundary := b, late } : Sched)
  let s := { s with mbx := { s.mbx with sched := keep ++ new } }
  if repl then s.raiseUncoded .note 14 0xFF else s

/-- The command being carried out scheduled for its targets at a boundary (R377). -/
def State.schedule (s : State) (ts : List Target) (b : Nat) (late : Bool) : State := s.scheduleFor s.mbx.nextIdent ts b late

/-! ### Sessions -/

/-- A session closed (R381): unaccepted commands discarded, the window unbound if it bound it, latches forgotten, and
the responses of its commands in flight discarded. A tunnelled session keeps its connection, with the responses already written; one
that was never opened has commands to discard alone. -/
def State.closeSession (s : State) (n : Nat) : State :=
  if (s.sess n).state = .closed then (if n < 4 then s else s.setQ (8 + n) (s.q (8 + n)).clear)
  else
    let s := s.setSess n (if n < 4 then {} else { vid := (s.sess n).vid, cert := (s.sess n).cert })
    let cq := if n < 4 then n else 8 + n
    let s := s.setQ cq (s.q cq).clear
    let s := { s with
      pnt := if s.pnt.winSession = some n then { s.pnt with winSession := none, winStage := none } else s.pnt
      hostp := { s.hostp with paths := serase s.hostp.paths (n + 1) }
      mbx := { s.mbx with
        slots := s.mbx.slots.map fun (x : Slot) => if x.session = n then { x with discard := true } else x } }
    s.setSQ 14 6

/-- SESSION_CLOSE waits for the earlier commands of its session (R381): the close slots whose turn has come complete. One whose session
has closed in another way meanwhile closes nothing more. -/
def State.finishCloses (s : State) : State :=
  s.mbx.slots.foldl (fun (s : State) (x : Slot) =>
    if x.wait = .close ∧ x.discard then s.complete x 0 0 []
    else if x.wait = .close ∧ s.inFlight x.session = 1 then
      let s := s.complete x 0 0 []
      s.closeSession x.session
    else s) s

/-- The network writes a command queued for Intake taken out again (R382, R385). -/
def State.withdrawWrites (s : State) (ident : Nat) : State :=
  { s with pnt := { s.pnt with netq := s.pnt.netq.filter fun r => decide (r.slot ≠ some ident) } }

/-- The blocks whose counters wait for a Shutter snapshot (R363): those a register write named and those of SHUTTER commands in
flight. -/
def State.shutPending (s : State) : BitVec 22 :=
  s.mbx.slots.foldl (fun m x => match x.wait with
    | .shutter b => m ||| b
    | _ => m) s.hostp.shutMask

/-- Every command in flight completes with RESTARTED; what it waited for is discarded (R382), an HOUR_SHIFT and a SHUTTER's blocks
with it. A session whose close waited is open again. -/
def State.restartAll (s : State) : State :=
  let s := if s.mbx.slots.isEmpty then s else s.setSQ 14 0
  s.mbx.slots.foldl (fun (s : State) (x : Slot) =>
    let s := s.withdrawWrites x.ident
    let ss := s.sess x.session
    let s := if x.wait = .shift then { s with rtc := { s.rtc with shift := none } } else s
    let s := if x.wait = .close ∧ ss.state = .closing then s.setSess x.session { ss with state := .opened } else s
    s.complete x 0x10 0 []) s

end Sys2Proof.Machine
end

