-- ==== Sys2Proof/Machine/Outputs.lean ====
section
/-! DEFINITION. Output points and their channels: which channel a point drives, its safe value (R262, R283, R290), the
quality its channel gives (R73, R261, R282), its writer (R24), and the outputs that stand at their safe value under
order 1 of R25. -/

namespace Sys2Proof.Machine

/-- Points of a list of indexes whose test holds. -/
def idxWhere (n : Nat) (f : Nat → Bool) : Option Nat := (List.range n).find? f

/-- Group of an FIO channel in use (R250). -/
def State.grpOn (s : State) (g : Nat) : Bool := s.flag 0x4000 g

/-- MODE of an FIO channel. -/
def State.fioMode (s : State) (k : Nat) : Nat := s.fld (0x4040 + 4 * k) 15 14

/-- POINT of an FIO channel. -/
def State.fioPoint (s : State) (k : Nat) : Nat := s.fld (0x4040 + 4 * k) 31 19

/-- The FIO output channel of a point. -/
def State.fioOut (s : State) (p : Nat) : Option Nat :=
  idxWhere 32 fun k => decide (s.fioMode k = 3) && decide (s.fioPoint k = p)

/-- The AO channel of a point. -/
def State.aoOf (s : State) (p : Nat) : Option Nat :=
  idxWhere 8 fun j => s.flag 0x4800 (16 + j) && decide (s.fld (0x4980 + 4 * j) 31 19 = p)

/-- The FAN channel of a point. -/
def State.fanOf (s : State) (p : Nat) : Option Nat :=
  idxWhere 8 fun c => s.flag 0x5000 c && decide (s.fld (0x5010 + 4 * c) 31 19 = p)

/-- Bit v of a field that lists channels. -/
def inMask (n i : Nat) : Bool := decide (n / 2 ^ i % 2 = 1)

/-- The words of a CAN frame entry (R318). -/
def State.canEntry (s : State) (i : Nat) : List W32 := sget [] s.can.entries i

/-- A word of a frame entry; an entry never written reads as 0. -/
def ew (e : List W32) (w : Nat) : W32 := e.getD w 0

/-- The entry is VALID. -/
def entValid (e : List W32) : Bool := bitAt (ew e 0) 31

/-- The entry transmits. -/
def entTx (e : List W32) : Bool := bitAt (ew e 0) 30

/-- The entry's bus. -/
def entBus (e : List W32) : Nat := bits (ew e 0) 29 28

/-- The slots of an entry in use (R301, R318). -/
def entSlots (e : List W32) : List W32 := ((e.drop 3).take 4).filter fun w => bitAt w 31

/-- The points an entry names. -/
def entPoints (e : List W32) : List Nat := (entSlots e).map fun w => bits w 12 0

/-- A bus record. -/
def State.cbus (s : State) (b : Nat) : CanBus := s.can.bus.getD b {}

/-- A bus in bus-off or STUCK, or all of them in the parity safe state of CAN, whose points take 80h (R308, R309, R359). -/
def State.busDead (s : State) (b : Nat) : Bool :=
  decide ((s.cbus b).state = .busOff ∨ (s.cbus b).state = .stuck) || s.parityHeld 11

/-- A CAN_OUT point of a dead bus, or of an entry whose last frame failed or expired (R306, R308, R309). -/
def State.canOutBad (s : State) (p : Nat) : Bool :=
  s.can.entries.any fun e => entValid e.2 && entTx e.2 && (entPoints e.2).contains p &&
    (s.busDead (entBus e.2) || (sget {} s.can.entryTx e.1).failed)

/-- An FIO channel's record. -/
def State.fch (s : State) (k : Nat) : FioCh := s.fioCh.getD k {}

/-- An FIO group's record. -/
def State.fgrp (s : State) (g : Nat) : FioGrp := s.fioGrp.getD g {}

/-- A diagnosis of R260 is present on an FIO output. -/
def FioCh.diag (c : FioCh) : Bool := c.diagSeen.getLsbD 3 || c.diagSeen.getLsbD 2 || c.diagSeen.getLsbD 1

/-- The quality an output's channel gives a committed value (R73, R261, R282). -/
def State.outQuality (s : State) (p : Nat) : Byte :=
  match s.fioOut p with
  | some k => if s.grpOn (k / 8) = false then 0xC1 else if (s.fch k).diag then 0x83 else 0x00
  | none => match s.aoOf p with
    | some j => if (s.ao.getD j {}).overload then 0x83 else 0x00
    | none => match s.fanOf p with
      | some c => if (s.fan.getD c {}).state = .stall ∨ (s.fan.getD c {}).state = .openLoop then 0x83 else 0x00
      | none => if (s.point p).src.toNat = 11 ∧ s.canOutBad p then 0x80 else 0x00

/-- ENG_LO and ENG_HI of an AO channel, Q16.16 (R280). -/
def State.aoEng (s : State) (j : Nat) : Int × Int := (s32 (s.reg (0x49A0 + 8 * j)), s32 (s.reg (0x49A4 + 8 * j)))

/-- The safe value of an output point: none where it holds its value (R262, R283, R290). An output without a channel of
the module keeps its value, under the hold behaviour of its station (R62). A FAN channel in speed mode at SAFE 1h has no
stated rpm: a free value stands for it. -/
def State.safeValue (s : State) (p : Nat) : Option W64 :=
  let r := s.point p
  match s.fioOut p with
  | some k => match s.fld (0x4040 + 4 * k) 13 12 with
    | 0 => some 0
    | 1 => some 1
    | _ => none
  | none => match s.aoOf p with
    | some j => match s.fld (0x4980 + 4 * j) 17 16 with
      | 2 => none
      | m =>
        let mv : Int := if m = 1 then s.fld (0x4980 + 4 * j) 15 0 else 0
        let (lo, hi) := s.aoEng j
        some (ofNum r.typ (roundOpen (lo * 10000 + mv * (hi - lo)) 10000) 16)
    | none => match s.fanOf p with
      | some c =>
        if (s.fan.getD c {}).watchdog then
          (if s.flag (0x5010 + 4 * c) 5 then some (s.drawnFor p) else some (ofNum r.typ 100 0))
        else match s.fld (0x5010 + 4 * c) 4 3 with
        | 0 => some 0
        | 1 => if s.flag (0x5010 + 4 * c) 5 then some (s.drawnFor p)
               else some (ofNum r.typ (roundOpen (s.fld (0x5030 + 4 * c) 15 0 * 65536) 100) 16)
        | _ => none
      | none => none

/-! ### Writers (R24, R77) -/

/-- A context that holds a loop (R96). -/
def LoopCtx.inUse (c : LoopCtx) : Bool := !c.words.isEmpty

/-- A word of a context; a context that holds no loop reads as 0 (R96). -/
def LoopCtx.w (c : LoopCtx) (i : Nat) : W32 := c.words.getD i 0

/-- MODE of a context (R100). -/
def LoopCtx.mode (c : LoopCtx) : Nat := bits (c.w 0) 31 30

/-- CLASS of a context's moves (R100). -/
def LoopCtx.cls (c : LoopCtx) : Nat := bits (c.w 0) 26 25

/-- OUT_KIND 1: a staged output (R100). -/
def LoopCtx.staged (c : LoopCtx) : Bool := bitAt (c.w 0) 24

/-- OWNER of a context (R100). -/
def LoopCtx.owner (c : LoopCtx) : Nat := bits (c.w 0) 7 0

/-- A loop context. -/
def State.ctx (s : State) (c : Nat) : LoopCtx := sget {} s.loop.ctx c

/-- A loop context replaced. -/
def State.setCtx (s : State) (c : Nat) (x : LoopCtx) : State :=
  { s with loop := { s.loop with ctx := sset {} s.loop.ctx c x } }

/-- The task-table index of a task of a booth's active image. -/
def State.taskIndex (s : State) (booth num : Nat) : Option Nat :=
  (s.prg.tasks.find? fun e => e.2.booth == booth && e.2.number == num && e.2.state != .retired).map (·.1)

/-- The task-table entry at an index; EMPTY where none is listed. -/
def State.task (s : State) (i : Nat) : Task := sget {} s.prg.tasks i

/-- A task-table entry replaced. -/
def State.setTask (s : State) (i : Nat) (t : Task) : State :=
  { s with prg := { s.prg with tasks := sset {} s.prg.tasks i t } }

/-- The points a task of the active images writes: its booth's image names it by task number (R134). -/
def State.taskPoints (s : State) (i : Nat) : List Nat :=
  let t := s.task i
  ((sget {} s.prg.active t.booth).writers.filter fun w => w.2 == t.number).map (·.1)

/-- The writer of a point among loop contexts and active images (R24). -/
def State.writerOf (s : State) (p : Nat) : Option Writer :=
  match s.loop.ctx.find? fun e => e.2.inUse && e.2.outPoint == p with
  | some e => some (.loop e.1)
  | none =>
    match s.prg.active.find? fun e => e.2.writers.any fun w => w.1 == p with
    | some e =>
      match e.2.writers.find? fun w => w.1 == p with
      | some w => (s.taskIndex e.1 w.2).map .task
      | none => none
    | none => none

/-- The ledger class of a writer (R88, R232). -/
def State.writerClass (s : State) : Writer → Nat
  | .loop c => (s.ctx c).cls
  | .task i => (s.task i).cls

/-! ### Outputs at their safe value under order 1 of R25 -/

/-- Tasks whose outputs are at safe values (R143). -/
def TaskState.safe : TaskState → Bool
  | .stoppedOverrun => true
  | .stoppedFault => true
  | .suspendedPeriod => true
  | .empty => false
  | .running => false
  | .stoppedCmd => false
  | .retired => false

/-- Output points a fault, an overrun, the host-silence watchdog or a parity safe state holds at their safe value (R25,
R60, R98, R143, R144, R159, R270, R295, R359). -/
def State.heldSafe (s : State) (p : Nat) : Bool :=
  (match s.writerOf p with
   | some (.loop c) => decide (s.sys.jugState.getD (c / 32) 0 = 2)
   | some (.task i) => (s.task i).state.safe || decide (s.sys.jugState.getD (s.task i).jug 0 = 2)
   | none => false) ||
  (match s.fioOut p with
   | some k => ((s.fgrp (k / 8)).safeWanted && decide (s.fld (0x4040 + 4 * k) 13 12 ≠ 2)) || s.parityHeld 8 ||
       s.sys.ioeBad.getLsbD 1
   | none => false) ||
  (match s.fanOf p with
   | some c => (s.fan.getD c {}).watchdog
   | none => false) ||
  decide (s.sys.run = .stopped ∨ s.sys.run = .rescue) ||
  (((s.aoOf p).isSome || (s.fanOf p).isSome) && s.sys.ioeBad.getLsbD 0) ||
  ((s.aoOf p).isSome && s.parityHeld 9) || ((s.fanOf p).isSome && s.parityHeld 10) ||
  decide (p ∈ s.crsl.releaseSafe)

/-- An output that stands at its safe value (R25 order 1, R62, R93), whatever bad code its QUALITY carries; and a local output of a
member that does not drive, whose record follows the primary (R403, R409). -/
def State.atSafe (s : State) (p : Nat) : Bool :=
  decide ((s.point p).quality = 0x84 ∨ p ∈ s.pnt.safeNow) ||
    (s.bound && ((s.fioOut p).isSome || (s.aoOf p).isSome || (s.fanOf p).isSome))

/-- The request of a point. -/
def State.reqOf (s : State) (p : Nat) : Option Req := s.ledger.arb.reqs.find? fun r => r.point == p

/-- The value the source or writer of an unforced point last supplied (R87): what waits after a force ended, the value of a deferred
move, the move an output's safe value overrode, or VALUE. -/
def State.lastSupplied (s : State) (p : Nat) : W64 :=
  match (s.pnt.unforced.find? fun e => e.1 == p).bind (·.2) with
  | some v => v
  | none => match s.reqOf p with
    | some q => q.value
    | none => ((s.pnt.heldBack.find? fun (x : Nat × W64) => x.1 == p).map fun (x : Nat × W64) => x.2).getD (s.point p).value

/-- An output's QUALITY brought to what its channel or bus gives (R73, R261, R282, R289, R306, R308): a present bad
code, and after it 84h, 43h or 00h. Output records are written in Commit alone (R39, R40): a change met in another phase shows from the
next one on. An unforced output at its safe value keeps 84h, which its writer must see (R109). -/
def State.refreshOut (s : State) (p : Nat) : State :=
  let r := s.point p
  let q := s.outQuality p
  if s.inCommit = false ∨ isOutput r.src = false ∨ r.quality = 0xC1 ∨ r.quality = 0x85 then s
  else if q ≠ 0 then (if r.quality = 0x84 ∧ r.forced = false then s else s.setQuality p q s.phaseStamp)
  else if r.quality = 0x83 ∨ r.quality = 0x80 then
    s.setQuality p (if s.heldSafe p ∨ p ∈ s.pnt.safeNow then 0x84 else if (s.reqOf p).isSome ∧ r.forced = false then 0x43 else 0)
      s.phaseStamp
  else s

/-- The points that a Commit considers: those with records other than the unused one. -/
def State.outPoints (s : State) : List Nat :=
  (s.pnt.points.filter fun e => isOutput e.2.src).map (·.1)

end Sys2Proof.Machine
end

