-- ==== Sys2Proof/Machine/Ledger.lean ====
section
/-! DEFINITION. The token ledger (chapter 08): demand latch, costs and HELD, requests, clawback and the arbitration of
one Commit (R226 to R247), and the commands of the 0500h group (R390). Amounts of headroom are in µW. -/

namespace Sys2Proof.Machine

/-- The counters of the TOKN block that the arbitration of a Commit advances (R238). -/
def commitCounts : List Nat := [0x1080, 0x1084, 0x1088, 0x108C, 0x1090, 0x1094, 0x10B8, 0x10BC]

/-- W as µW. -/
def uw (w : Int) : Int := w * 1000000

/-! ### Costs (R228 to R230) -/

/-- The valid cost entry of a point (R228). -/
def State.costOf (s : State) (p : Nat) : Option Cost :=
  (s.ledger.cost.find? fun e => e.2.valid && e.2.point == p).map (·.2)

/-- COEF × (v1 − v0), rounded away from zero to whole W (R229); none where a value is no finite number. -/
def costBetween (coef : W32) (typ : BitVec 4) (v0 v1 : W64) : Option Int :=
  match numOf typ v0, numOf typ v1 with
  | some (i0, k0), some (i1, k1) =>
    some (roundAway (s32 coef * (i1 * 2 ^ k0 - i0 * 2 ^ k1)) (2 ^ (16 + k0 + k1)))
  | _, _ => none

/-- The cost of a move of a point to `v` (R229): 0 without a cost entry; a free value where the value is no number. -/
def State.moveCost (s : State) (p : Nat) (v : W64) : Int :=
  match s.costOf p with
  | none => 0
  | some c => (costBetween c.coef (s.point p).typ (s.point p).value v).getD (s32 ((s.drawnFor p).setWidth 32))

/-- The tracked load of a point (R229). -/
def State.tracked (s : State) (p : Nat) : Int :=
  match s.costOf p with
  | none => 0
  | some c => (costBetween c.coef (s.point p).typ (ofNum (s.point p).typ 0 0) (s.point p).value).getD
      (s32 ((s.drawnFor p).setWidth 32))

/-- The contribution of a committed cost after `us` microseconds, in µW (R230). -/
def heldPart (cost : Int) (us : Nat) : Int :=
  if us ≤ 10000 then uw cost else if us ≤ 1010000 then cost * (1010000 - us : Nat) else 0

/-- The time since a committed cost, in µs (R230). -/
def State.heldUs (s : State) (h : Held) : Nat := ((s.rev : Int) - h.rev).toNat * (s.periodNs / 1000)

/-- HELD(n) in µW (R230). -/
def State.heldNow (s : State) : Int :=
  s.ledger.arb.held.foldl (fun a h => a + heldPart h.cost (s.heldUs h)) 0

/-- HELD entries that no longer contribute taken away. -/
def State.pruneHeld (s : State) : State :=
  { s with ledger := { s.ledger with arb := { s.ledger.arb with
      held := s.ledger.arb.held.filter fun h => decide (s.heldUs h ≤ 1010000) } } }

/-- A committed cost entered in HELD (R230). -/
def State.enterHeld (s : State) (c : Int) : State :=
  if c = 0 then s
  else { s with ledger := { s.ledger with arb := { s.ledger.arb with
          held := s.ledger.arb.held ++ [{ rev := s.rev, cost := c }] } } }

/-- A value committed to a point, with its cost in HELD (R230) and TS at the start of the Commit (R74); the record read is verified
(R92), and an output no longer stands at its safe value. -/
def State.commitTo (s : State) (p : Nat) (v : W64) (q : Byte) : State :=
  let s := (s.verifyRead p).enterHeld (s.moveCost p v)
  let s : State := { s with pnt := { s.pnt with safeNow := s.pnt.safeNow.filter fun q => q != p } }
  s.writeRec p { s.point p with value := v, quality := q, stamp := s.commitStamp }

/-! ### Demand (R226, R227, R231, R243) -/

/-- DEM_SRC in effect: 0h acts as 1h on the LYF-8192-MN (R226). -/
def State.demSrc (s : State) : Nat :=
  let d := s.fld 0x1000 1 0
  if d = 0 ∧ s.isMr = false then 1 else d

/-- The source's value and validity as they stand at a boundary (R226). -/
def State.demandSource (s : State) : Int × Bool :=
  match s.demSrc with
  | 0 => (s32 (s.reg 0x3808), s.flag 0x380C 31)
  | 1 =>
    let p := s.fld 0x1028 31 19
    let r := s.point p
    let age := (s.rev + 1 - sget 0 s.pnt.fresh p) * s.periodNs
    (s32 (r.value.setWidth 32),
     decide (r.src = 1 ∧ r.typ = 1 ∧ r.quality.toNat / 64 = 0 ∧ age ≤ s.fld 0x1028 9 0 * 1000000) &&
     s.pnt.fresh.any (fun e => e.1 == p))
  | _ => (s.ledger.partnerDemand,
          s.ledger.partnerValid &&
            decide ((s.crsl.upNs : Int) - s.ledger.partnerFromNs ≤ s.fld 0x1028 9 0 * 1000000))

/-- The mirror's demand and its validity (R226). -/
def State.mirrorDemand (s : State) : Int × Bool := (s32 (s.reg 0x3808), s.isMr && s.flag 0x380C 31)

/-- The source latched at the boundary, for the Intake of the next revolution (R22), and the mirror's demand for the PRISM points
(R70). -/
def State.latchSource (s : State) : State :=
  let (d, v) := s.demandSource
  let (pd, pv) := s.mirrorDemand
  { s with ledger := { s.ledger with latched := d, latchedValid := v, prismDem := pd, prismValid := pv } }

/-- The PRISM points written by the ledger latch (R70): the demand in the point's TYPE, TS the boundary at which it was latched, the
start of this revolution (R74). A demand that is not valid writes none. -/
def State.writePrism (s : State) : State :=
  if s.ledger.prismValid = false then s
  else
    let ps := (s.pnt.points.filter fun e => decide (e.1 < 8064 ∧ e.2.src = 6 ∧ e.2.quality ≠ 0xC1)).map (·.1)
    ps.foldl (fun (s : State) p => s.supply p (ofNum (s.point p).typ s.ledger.prismDem 0) 0x00 s.intakeStamp s.intakeStamp) s

/-- D(n) in µW: before the first valid value it is L_eff − HELD (R227). -/
def State.demandUw (s : State) : Int :=
  if s.ledger.seenValid then uw s.ledger.demand else s.ledger.limitEff - s.heldNow

/-- DEMAND_LATCH (R226, R227, R243). -/
def State.demandLatch (s : State) : State :=
  let l := s.ledger
  if l.latchedValid then
    let s := { s with ledger := { l with demand := l.latched, demState := .valid, seenValid := true } }
    if l.rampSetup then
      let e := uw l.latched + s.heldNow
      { s with ledger := { s.ledger with rampSetup := false, limitEff := if uw l.limit ≤ e then uw l.limit else e } }
    else s
  else match l.demState with
    | .valid =>
      ({ s with ledger := { l with demState := .holding, holdSince := s.crsl.upNs } }.reportBare .warn 2 4 0xFF).count
        0x10A4 1
    | .holding => s.count 0x10A4 1
    | .blind => s.count 0x10A8 1

/-- BLIND: HOLDING has lasted HOLD_MAX s, to the revolution (R227). -/
def State.goBlind (s : State) : State :=
  if s.ledger.demState = .holding ∧ s.ledger.holdSince + s.fld 0x1028 18 10 * 1000000000 ≤ s.crsl.upNs + s.periodNs then
    { s with ledger := { s.ledger with demState := .blind } }.reportBare .warn 2 3 0xFF
  else s

/-- LIMIT_RAMP_STEP (R231): one equal step per revolution towards a higher limit. Until a first valid demand is latched,
L_eff is the commanded limit (R227). -/
def State.rampStep (s : State) : State :=
  let l := s.ledger
  let top := uw l.limit
  let step : Int := s.fld 0x1018 23 0 * (s.periodNs / 1000)
  { s with ledger := { l with limitEff :=
      if l.rampSetup then top
      else if top ≤ l.limitEff then top
      else if step = 0 then top
      else if top ≤ l.limitEff + step then top else l.limitEff + step } }

/-- A commanded limit applied at a boundary (R231, R244). -/
def State.applyLimit (s : State) (w : Int) (b : Nat) : State :=
  let l := s.ledger
  let eff := if l.rampSetup ∨ uw w ≤ l.limitEff ∨ s.fld 0x1018 23 0 = 0 then uw w else l.limitEff
  ({ s with ledger := { l with limit := w, limitApplied := true, limitEff := eff, limitBoundary := some b } }.setSQ 2
    7).count 0x1098 1

/-- A shed level applied at a boundary (R245). -/
def State.applyShed (s : State) (level : Nat) : State :=
  if s.ledger.shed = level then s
  else ({ s with ledger := { s.ledger with shed := level } }.setSQ 2 6).count 0x10A0 1

/-! ### Requests (R233, R234) -/

/-- The requests replaced. -/
def State.setReqs (s : State) (l : List Req) : State :=
  { s with ledger := { s.ledger with arb := { s.ledger.arb with reqs := l } } }

/-- A request ended. -/
def State.endReq (s : State) (p : Nat) : State := s.setReqs (s.ledger.arb.reqs.filter fun r => r.point != p)

/-- A request dropped with its age (R233). -/
def State.dropReq (s : State) (p : Nat) : State :=
  if (s.reqOf p).isSome then (s.endReq p).count 0x1094 1 else s

/-- Requests of a writer dropped: it left AUTO or MAN, or its task left RUNNING (R233). -/
def State.dropWriter (s : State) (w : Writer) : State :=
  (s.ledger.arb.reqs.filter fun r => r.writer == w).foldl (fun s r => s.dropReq r.point) s

/-- Ages advance at every boundary, to 4,095 (R234). -/
def State.ageRequests (s : State) : State :=
  s.setReqs (s.ledger.arb.reqs.map fun r => { r with age := satNat 4095 (r.age + 1) })

/-- A request is reserved (R234): of age 3,840 or more, and its class not barred (R238). -/
def Req.reserved (r : Req) : Bool := decide (3840 ≤ r.age)

/-- A class barred by the shed level (R245) or by DEM_STATE (R227). -/
def State.barred (s : State) (cls : Nat) : Bool :=
  let l := s.ledger
  (decide (cls = 3) && (decide (1 ≤ l.shed) || decide (l.demState ≠ .valid))) ||
  (decide (cls = 2) && (decide (2 ≤ l.shed) || decide (l.demState = .blind)))

/-- Older first, then the lower point number (R238). -/
def Req.before (a b : Req) : Bool := decide (b.age < a.age) || (decide (a.age = b.age) && decide (a.point ≤ b.point))

/-- A request placed in order. -/
def insertReq (r : Req) : List Req → List Req
  | [] => [r]
  | h :: t => if r.before h then r :: h :: t else h :: insertReq r t

/-- Requests in the order of R238. -/
def sortReqs (l : List Req) : List Req := l.foldr insertReq []

/-! ### The arbitration of one Commit (R236 to R238) -/

/-- The run of one arbitration: the state, the headroom in µW, the clawbacks committed, the points granted to reserved
requests in it, and the points clawed in it. -/
structure ArbRun where
  s : State
  h : Int
  claws : Nat := 0
  served : List Nat := []
  clawed : List Nat := []

/-- The most recent raising grant of a point that still runs (R236). -/
def State.loadOf (s : State) (p : Nat) : Option Load := (sget [] s.ledger.arb.loads p).head?

/-- The output point of a staged loop (R100, R236). -/
def State.stagedOut (s : State) (p : Nat) : Bool :=
  match s.writerOf p with
  | some (.loop x) => (s.ctx x).staged
  | some (.task _) => false
  | none => false

/-- The whole stages of a value of a point (R108). -/
def State.stagesOf (s : State) (p : Nat) (v : W64) : Nat :=
  match numOf (s.point p).typ v with
  | some (i, k) => (Int.ediv i (2 ^ k)).toNat
  | none => 0

/-- A raising grant recorded, one for each stage it adds to a staged output: class and place in the grant order (R236). -/
def State.recordLoad (s : State) (p cls stages : Nat) : State :=
  let a := s.ledger.arb
  let l : Load := { cls, rev := s.rev, order := a.order }
  let old := if s.stagedOut p then sget [] a.loads p else []
  { s with ledger := { s.ledger with arb := { a with
      loads := sput a.loads p (List.replicate (Nat.max 1 stages) l ++ old), order := a.order + 1 } } }

/-- The newest grants of a staged output ended with its stages; any other output's stay, its load being what its cost entry tracks. -/
def State.dropLoad (s : State) (p stages : Nat) : State :=
  if s.stagedOut p then
    { s with ledger := { s.ledger with arb := { s.ledger.arb with
        loads := sset [] s.ledger.arb.loads p ((sget [] s.ledger.arb.loads p).drop stages) } } }
  else s

/-- A value that the arbitration commits: the grants of a point follow the stages it gains or loses (R236). -/
def State.commitMove (s : State) (p : Nat) (v : W64) (q : Byte) (cls : Nat) (cost : Int) : State :=
  let old := s.stagesOf p (s.point p).value
  let new := s.stagesOf p v
  let t := s.commitTo p v q
  if cost > 0 then t.recordLoad p cls (new - old) else t.dropLoad p (old - new)

/-- A load protected: granted as a reserved request in the last 4,096 revolutions (R236). -/
def State.protected (s : State) (p : Nat) : Bool :=
  s.ledger.arb.prots.any fun e => e.1 == p && decide ((s.rev : Int) < e.2 + 4096)

/-- A number, or 0 where it is negative. -/
def maxZero (x : Int) : Int := if x < 0 then 0 else x

/-- The class of a point's load: that of its writer, else the class of its last raising grant (R235, R236, R241). -/
def State.loadClass (s : State) (p : Nat) : Option Nat :=
  match s.writerOf p with
  | some w => some (s.writerClass w)
  | none => (s.loadOf p).map (·.cls)

/-- The points with a valid cost entry, whose loads the ledger tracks (R228, R229). -/
def State.loadPoints (s : State) : List Nat := ((s.ledger.cost.filter fun e => e.2.valid).map fun e => e.2.point).eraseDups

/-- The value a clawback sets: one stage down to stage 0 for the output of a staged loop, else CLAW_VAL (R236). -/
def State.clawValue (s : State) (p : Nat) (c : Cost) : W64 :=
  let r := s.point p
  match s.writerOf p with
  | some (.loop x) =>
    if (s.ctx x).staged then
      match numOf r.typ r.value with
      | some (i, k) => ofNum r.typ (maxZero (i - 2 ^ k)) k
      | none => s.drawnFor p
    else ofNum r.typ (s32 c.clawVal) 16
  | _ => ofNum r.typ (s32 c.clawVal) 16

/-- A point that a clawback may take: an output neither forced nor at its safe value, its load of the class, its entry with CLAW, the
move lowering demand (R236). -/
def State.clawable (s : State) (cls : Nat) (p : Nat) : Bool :=
  match s.costOf p, s.loadClass p with
  | some c, some l =>
    c.claw && commitSrc (s.point p).src && decide (l = cls) && !(s.point p).forced && decide ((s.point p).quality ≠ 0x84) &&
      decide (s.moveCost p (s.clawValue p c) < 0)
  | _, _ => false

/-- The order of clawback candidates within a class: unprotected first, then the most recent grant (R236). DESIGN CHOICE: loads that no
grant of this run is recorded for come last, in the order of their cost entries; the spec orders them nowhere. Unsafe (log entry 142). -/
def State.clawBefore (s : State) (a b : Nat) : Bool :=
  let pa := s.protected a
  let pb := s.protected b
  let place := fun (q : Nat) => ((s.loadOf q).map fun (l : Load) => l.order + 1).getD 0
  if pa = pb then decide (place b ≤ place a) else !pa

/-- A candidate placed in order. -/
def State.insertClaw (s : State) (p : Nat) : List Nat → List Nat
  | [] => [p]
  | h :: t => if s.clawBefore p h then p :: h :: t else h :: s.insertClaw p t

/-- The clawback candidates of a class in order, those granted to a reserved request in this Commit left out. -/
def State.clawList (s : State) (cls : Nat) (served : List Nat) : List Nat :=
  (s.loadPoints.filter fun p => s.clawable cls p && !served.contains p).foldr s.insertClaw []

/-- The quality of an output whose writer's move is deferred or clawed back: 43h, or the bad code of a present condition of its channel,
which prevails (R72, R261). -/
def State.deferQuality (s : State) (p : Nat) : Byte := if s.outQuality p ≠ 0 then s.outQuality p else 0x43

/-- One clawback committed (R236, R237): QUALITY 43h, its cost added to H and entered in HELD. -/
def ArbRun.claw (a : ArbRun) (p : Nat) : ArbRun :=
  if 128 ≤ a.claws then a
  else match a.s.costOf p with
    | none => a
    | some c =>
      let v := a.s.clawValue p c
      let cost := a.s.moveCost p v
      { a with s := ((a.s.commitMove p v (a.s.deferQuality p) 0 cost).setSQ 2 5).count 0x108C 1, h := a.h - uw cost, claws := a.claws + 1,
               clawed := p :: a.clawed }

/-- At most `fuel` clawbacks while the headroom is below `need` as the loads then stand, class 3 before class 2, each of the first
candidate: of a staged load one stage, whose grant it ends (R236, R238). -/
def ArbRun.clawSome : Nat → ArbRun → (State → Int) → ArbRun
  | 0, a, _ => a
  | fuel + 1, a, need =>
    if a.h < need a.s then
      match a.s.clawList 3 a.served ++ a.s.clawList 2 a.served with
      | p :: _ => ArbRun.clawSome fuel (a.claw p) need
      | [] => a
    else a

/-- Clawbacks while the headroom is below `need`, 128 in one Commit (R236, R238). -/
def ArbRun.clawUntil (a : ArbRun) (need : State → Int) : ArbRun :=
  if a.s.flag 0x1000 3 then ArbRun.clawSome (128 - a.claws) a need else a

/-- Every load of a class clawed: the shed level (R245). -/
def ArbRun.clawClass (a : ArbRun) (cls : Nat) : ArbRun :=
  if a.s.flag 0x1000 3 then (a.s.clawList cls []).foldl (fun a p => a.claw p) a else a

/-- A raising request committed (R238). -/
def ArbRun.grant (a : ArbRun) (r : Req) : ArbRun :=
  let c := a.s.moveCost r.point r.value
  let s := a.s.commitMove r.point r.value (a.s.outQuality r.point) r.cls c
  { a with s := (s.endReq r.point).count 0x1080 1, h := a.h - uw c }

/-- The tracked class-2 and class-3 load of a booth, in W (R235). -/
def State.boothLoad (s : State) (b : Nat) : Int :=
  s.loadPoints.foldl (fun a p =>
    if 2 ≤ (s.loadClass p).getD 0 ∧ (s.point p).owner.toNat = b then a + s.tracked p else a) 0

/-- WEIGHT and CAP of a booth (R235). -/
def State.quotaOf (s : State) (b : Nat) : Quota := sget {} s.ledger.quota b

/-- Within the booth's CAP, 0 meaning none (R235). -/
def State.withinCap (s : State) (b : Nat) (cost : Int) : Bool :=
  let c := (s.quotaOf b).cap
  decide (c = 0) || decide (s.boothLoad b + cost ≤ c * 100)

/-- A proposal that asks for another value than the committed one: only that is a move (R109, R229). -/
def State.moves (s : State) (m : Move) : Bool := decide ((s.point m.point).value ≠ m.value)

/-- A class-0 move committed (R232, R241): a raising one takes its cost off H. -/
def ArbRun.class0 (a : ArbRun) (m : Move) : ArbRun :=
  let c := a.s.moveCost m.point m.value
  let s := (a.s.dropReq m.point).commitMove m.point m.value (a.s.outQuality m.point) 0 c
  let s := if (a.s.costOf m.point).isSome ∧ a.s.moves m ∧ c ≤ 0 then s.count 0x10B8 1 else s
  { a with s := if a.s.moves m then s.count 0x1088 1 else s, h := if c > 0 then a.h - uw c else a.h }

/-- A lowering or demand-neutral move committed without tokens (R232); the writer's request is dropped (R233). -/
def ArbRun.lower (a : ArbRun) (m : Move) : ArbRun :=
  let s := (a.s.dropReq m.point).commitMove m.point m.value (a.s.outQuality m.point) 0 0
  { a with s := if (a.s.costOf m.point).isSome ∧ a.s.moves m then s.count 0x10B8 1 else s }

/-- A held request whose cost is no longer positive, committed as a lowering move (R233). -/
def ArbRun.lowerHeld (a : ArbRun) (r : Req) : ArbRun :=
  { a with s := ((a.s.commitMove r.point r.value (a.s.outQuality r.point) 0 0).endReq r.point).count 0x10B8 1 }

/-- A raising move that joins the requests for this Commit: a held request keeps its age, a new one has age 0 (R233). -/
def State.proposeReq (s : State) (m : Move) : State :=
  let b := (s.point m.point).owner.toNat
  match s.reqOf m.point with
  | some r =>
    s.setReqs (s.ledger.arb.reqs.map fun x =>
      if x.point = m.point then { r with value := m.value, cls := m.cls, booth := b, writer := m.writer } else x)
  | none =>
    s.setReqs (s.ledger.arb.reqs ++
      [{ point := m.point, value := m.value, age := 0, cls := m.cls, booth := b, writer := m.writer, tested := true }])

/-- The requests reserved in this Commit, oldest first (R234, R238). -/
def State.reservedReqs (s : State) : List Req :=
  sortReqs (s.ledger.arb.reqs.filter fun r => r.reserved && !s.barred r.cls)

/-- One reserved request served (R238). -/
def ArbRun.serve (a : ArbRun) (r : Req) : ArbRun :=
  let c := uw (a.s.moveCost r.point r.value)
  let a := if a.h < c then a.clawUntil (fun s => uw (s.moveCost r.point r.value)) else a
  let c := uw (a.s.moveCost r.point r.value)
  if c ≤ a.h then
    let a := a.grant r
    let s := { a.s with ledger := { a.s.ledger with arb := { a.s.ledger.arb with
        prots := (r.point, a.s.rev) :: a.s.ledger.arb.prots.filter fun e => e.1 != r.point } } }
    { a with s := s.count 0x1090 1, served := r.point :: a.served }
  else a

/-- One class-1 request tried (R238). -/
def ArbRun.tryFirst (a : ArbRun) (r : Req) : ArbRun :=
  if uw (a.s.moveCost r.point r.value) ≤ a.h then a.grant r else a

/-- One class-2 or class-3 request tried in pass 1, the booth's use in pass 1 kept beside the run (R238). -/
def tryShare (hs : Int) (weights : Int) (x : ArbRun × Sparse Int) (r : Req) : ArbRun × Sparse Int :=
  let a := x.1
  let c := a.s.moveCost r.point r.value
  let used := sget 0 x.2 r.booth
  let w : Int := (a.s.quotaOf r.booth).weight
  if uw c ≤ a.h ∧ (uw used + uw c) * weights ≤ hs * w ∧ weights > 0 ∧ a.s.withinCap r.booth c then
    (a.grant r, sset 0 x.2 r.booth (used + c))
  else x

/-- One request tried in pass 2 (R238). -/
def ArbRun.tryRest (a : ArbRun) (r : Req) : ArbRun :=
  let c := a.s.moveCost r.point r.value
  if uw c ≤ a.h ∧ a.s.withinCap r.booth c then a.grant r else a

/-- The sum of WEIGHT over booths with class-2 or class-3 requests (R238). -/
def State.weightSum (s : State) : Int :=
  let booths := s.ledger.arb.reqs.foldl (fun l r => if 2 ≤ r.cls ∧ r.booth ∉ l then r.booth :: l else l) []
  booths.foldl (fun a b => a + ((s.quotaOf b).weight : Int)) 0

/-- Requests of a class not barred, in order. -/
def State.classReqs (s : State) (cls : Nat) : List Req :=
  if s.barred cls then [] else sortReqs (s.ledger.arb.reqs.filter fun r => r.cls == cls)

/-- L01 in µW: E less the tracked load of every unprotected class-2 and class-3 point with CLAW 1 (R239). -/
def State.l01 (s : State) : Int :=
  s.demandUw + s.heldNow - s.loadPoints.foldl (fun a p =>
    if 2 ≤ (s.loadClass p).getD 0 ∧ ((s.costOf p).map (·.claw)).getD false ∧ s.protected p = false then a + uw (s.tracked p)
    else a) 0

/-- The test of R240 for a request in a Commit, `top` the largest cost of a request reserved in it. -/
def State.boundTest (s : State) (l01 top : Int) (r : Req) : Bool :=
  let c := uw (s.moveCost r.point r.value)
  s.flag 0x1000 3 && decide (s.ledger.demState = .valid) && !s.barred r.cls &&
    decide (l01 + (if c < top then top else c) < s.ledger.limitEff)

/-- Requests with the test of R240 of this Commit taken in. -/
def State.testRequests (s : State) : State :=
  let l := s.l01
  let top := s.reservedReqs.foldl (fun a r => let c := uw (s.moveCost r.point r.value); if a < c then c else a) 0
  s.setReqs (s.ledger.arb.reqs.map fun r => { r with tested := r.tested && s.boundTest l top r })

/-- Every request left is deferred and keeps its age; its point carries 43h (R72, R233, R238). -/
def State.deferRest (s : State) : State :=
  s.ledger.arb.reqs.foldl (fun s r => s.setQuality r.point (s.deferQuality r.point) s.commitStamp) s

/-- The booth of a writer (R23): the owner of its loop, or the booth of its task. -/
def State.writerBooth (s : State) : Writer → Nat
  | .loop c => (s.ctx c).owner
  | .task i => (s.task i).booth

/-- Requests whose point their writer may no longer write, a config access having changed it (R70, R79): denied and dropped. -/
def State.denyRequests (s : State) : State :=
  s.ledger.arb.reqs.foldl (fun (s : State) r =>
    let b := s.writerBooth r.writer
    match s.check b .write r.point true false with
    | .allow => s
    | v => (s.noteDenial b .write r.point v).dropReq r.point) s

/-- LEDGER_ARBITRATION (R238) over the moves of a Commit that orders 1 and 2 of R25 leave. -/
def State.arbitrate (s : State) (moves : List Move) : State :=
  let s := s.denyRequests
  let known := s.ledger.arb.reqs.map (·.point)
  let h0 := s.ledger.limitEff - (s.demandUw + s.heldNow)
  let held := s.heldNow
  let dem := s.demandUw
  let a : ArbRun := { s, h := h0 }
  let a : ArbRun := (moves.filter fun m => m.cls == 0).foldl ArbRun.class0 a
  let a : ArbRun := { a with s := ((a.s.setReg 0x101C (BitVec.ofInt 32 (roundOpen dem 1000000))).setReg 0x1020
      (BitVec.ofInt 32 (roundOpen held 1000000))).setReg 0x1024 (BitVec.ofInt 32 (roundOpen a.h 1000000)) }
  let a : ArbRun := if a.h < 0 then { a with s := a.s.count 0x10BC 1 } else a
  let rest := moves.filter fun m => m.cls != 0
  let lowers := rest.filter fun m => decide (a.s.moveCost m.point m.value ≤ 0)
  let raises := rest.filter fun m => decide (0 < a.s.moveCost m.point m.value)
  let a : ArbRun := lowers.foldl ArbRun.lower a
  let a : ArbRun := { a with s := raises.foldl State.proposeReq a.s }
  let a : ArbRun := (a.s.ledger.arb.reqs.filter fun r => decide (a.s.moveCost r.point r.value ≤ 0)).foldl ArbRun.lowerHeld a
  let a : ArbRun := { a with s := a.s.testRequests }
  let a : ArbRun := if 1 ≤ a.s.ledger.shed then a.clawClass 3 else a
  let a : ArbRun := if 2 ≤ a.s.ledger.shed then a.clawClass 2 else a
  let a : ArbRun := if a.h < - uw (a.s.fld 0x102C 19 0) then a.clawUntil (fun _ => 0) else a
  let a : ArbRun := a.s.reservedReqs.foldl ArbRun.serve a
  let a : ArbRun := (a.s.classReqs 1).foldl ArbRun.tryFirst a
  let hs := if a.h < 0 then 0 else a.h
  let ws := a.s.weightSum
  let x := (a.s.classReqs 2 ++ a.s.classReqs 3).foldl (tryShare hs ws) (a, [])
  let a : ArbRun := x.1
  let a : ArbRun := (a.s.classReqs 2 ++ a.s.classReqs 3).foldl ArbRun.tryRest a
  let made := (a.s.ledger.arb.reqs.filter fun r => !known.contains r.point).length
  (a.s.count 0x1084 made).deferRest.pruneHeld

/-! ### House tokens (R246, R247) -/

/-- The house budgets of a revolution and whether throttling applies (R246, R247). -/
def State.houseTokens (s : State) (pMw : Nat) (tj10 : Int) : State :=
  let pt : Int := 3900 - pMw
  let ht : Int := 1050 - tj10
  let s := s.setReg 0x1030 (place (BitVec.ofInt 16 pt).toNat 16 ||| place (BitVec.ofInt 16 ht).toNat 0)
  { s with ledger := { s.ledger with throttling := decide (pt ≤ 200 ∨ ht ≤ 100) }
           pwr := { s.pwr with pMw, tj10, measured := true } }

/-! ### The words of the TOKN block that the ledger holds -/

/-- TOKN_STATE. -/
def State.tokState (s : State) : W32 :=
  let l := s.ledger
  let d := match l.demState with
    | .valid => 0
    | .holding => 1
    | .blind => 2
  let oldest := l.arb.reqs.foldl (fun a r => Nat.max a r.age) 0
  place d 30 ||| place l.shed 28 ||| place l.house 25 |||
    flagAt (decide (l.limitEff < uw l.limit ∧ s.fld 0x1018 23 0 ≠ 0 ∧ l.rampSetup = false)) 24 ||| place oldest 0

/-- REQUEST_RESERVED (R234): a request is reserved by its age alone, so the step itself stores nothing; TOKN_DEFER counts it and
the next Commit serves it. -/
def requestReserved (_ : Nat) (s : State) : State := s

/-- BOUND_MISS (R240): the request of the point has reached age 4,095 ungranted, the test held in every Commit of its life. -/
def boundMiss (p : Nat) (s : State) : State :=
  match s.ledger.arb.reqs.find? fun (r : Req) => r.point == p && decide (4095 ≤ r.age) && r.tested && !r.missed with
  | none => s
  | some r =>
    let s := s.setReqs (s.ledger.arb.reqs.map fun (x : Req) => if x.point = p then { x with missed := true } else x)
    (s.report .fault 2 2 (BitVec.ofNat 8 r.booth) p).count 0x10AC 1

/-- TOKN_LIMIT. -/
def State.tokLimit (s : State) : W32 := BitVec.ofInt 32 s.ledger.limit

/-- TOKN_LIMIT_EFF. -/
def State.tokLimitEff (s : State) : W32 := BitVec.ofInt 32 (roundOpen s.ledger.limitEff 1000000)

/-- TOKN_DEFER. -/
def State.tokDefer (s : State) : W32 :=
  place s.ledger.arb.reqs.length 16 |||
    place (s.ledger.arb.reqs.filter fun r => r.reserved && !s.barred r.cls).length 0

end Sys2Proof.Machine
end

