-- ==== Sys2Proof/Machine/Loops.lean ====
section
/-! DEFINITION. The loop engine (chapter 04): arithmetic (R102, R103), the laws (R104 to R108), fates (R109, R110),
modes (R115), set-points (R118), Spotlight (R121 to R127), context integrity (R128) and context writes (R113, R129). -/

namespace Sys2Proof.Machine

/-! ### Arithmetic (R102) -/

/-- A product of two Q16.16 numbers, rounded and saturated. -/
def mulQ (a b : Int) : Int := clip32 (roundQ (a * b) 65536)

/-- A sum of Q16.16 numbers, saturated. -/
def addQ (a b : Int) : Int := clip32 (a + b)

/-- A product of a Q16.16 number and a time in µs, in Q16.16 per second units. -/
def mulT (a : Int) (us : Nat) : Int := clip32 (roundQ (a * us) 1000000)

/-- (KD/T) · x with T in µs, rounded once. -/
def derivQ (kd x : Int) (us : Nat) : Int := clip32 (roundQ (kd * x * 1000000) (65536 * us))

/-- IACC arithmetic modulo 2^32 (R103). -/
def wrap32 (x : Int) : Int := (BitVec.ofInt 32 x).toInt

/-- The integral increment of R103: (ΔI in Q16.16, the new IFRAC). -/
def integral (ki e : Int) (us : Nat) (ifrac : Nat) : Int × Nat :=
  let inc := roundQ (ki * e * 65536 * us) 1000000
  let low := (Int.emod inc (2 ^ 32)).toNat
  let sum := ifrac + low
  (clip32 (Int.ediv inc (2 ^ 32) + (sum / 2 ^ 32 : Nat)), sum % 2 ^ 32)

/-! ### Context words -/

/-- A word of a context as two's complement. -/
def LoopCtx.i (c : LoopCtx) (k : Nat) : Int := s32 (c.w k)

/-- A context with a word replaced. -/
def LoopCtx.set (c : LoopCtx) (k : Nat) (w : W32) : LoopCtx := { c with words := lmod c.words k fun _ => w }

/-- A context with a word set to a signed number. -/
def LoopCtx.setI (c : LoopCtx) (k : Nat) (x : Int) : LoopCtx := c.set k (BitVec.ofInt 32 x)

/-- The CRC of word 63 a context's content calls for (R99). -/
def LoopCtx.crcOf (c : LoopCtx) : W32 := crc32 (bytesOf32 (c.words.take 63))

/-- A context with its CRC recomputed (R128). -/
def LoopCtx.sealed (c : LoopCtx) : LoopCtx := c.set 63 c.crcOf

/-- STATUS (word 35) with a bit set or cleared. -/
def LoopCtx.status (c : LoopCtx) (bit : Nat) (b : Bool) : LoopCtx :=
  c.set 35 (setBits (c.w 35) bit bit b.toNat)

/-- A statistics word advanced, unless statistics are shed (R99, R247). -/
def LoopCtx.stat (c : LoopCtx) (k : Nat) (shed : Bool) : LoopCtx := if shed then c else c.set k (c.w k + 1)

/-- MODE replaced in CTRL, and MODE and FORM in STATUS, which holds the fields of LOOP_CTX_STAT (R99). -/
def LoopCtx.setMode (c : LoopCtx) (m : Nat) : LoopCtx :=
  (c.set 0 (setBits (c.w 0) 31 30 m)).set 35 (setBits (c.w 35) 31 29 (m % 4 * 2 + bits (c.w 0) 29 29))

/-- STAGES (R100). -/
def LoopCtx.stages (c : LoopCtx) : Nat := bits (c.w 0) 23 20 + 1

/-- The period N and OFFSET (R97). -/
def LoopCtx.period (c : LoopCtx) : Nat := bits (c.w 1) 19 10

/-- OFFSET (R97). -/
def LoopCtx.offset (c : LoopCtx) : Nat := bits (c.w 1) 9 0

/-- Class-3 loop laws run every 2N revolutions while house step 4 is shed (R247). -/
def State.loopStretch (s : State) (c : LoopCtx) : Nat := if 4 ≤ s.ledger.house ∧ c.cls = 3 then 2 else 1

/-- T in µs (R97, R247). -/
def State.loopUs (s : State) (c : LoopCtx) : Nat := c.period * s.loopStretch c * (s.periodNs / 1000)

/-- A loop is due (R97, R402). -/
def State.loopDue (s : State) (c : LoopCtx) : Bool :=
  let n := c.period * s.loopStretch c
  c.inUse && decide (n ≠ 0 ∧ s.pairRev % n = c.offset)

/-! ### Checks of a context (R101, R113) -/

/-- The first word that fails R101, with the schedule of R97. -/
def badWord (ws : List W32) : Option Nat :=
  let c : LoopCtx := { words := ws }
  if c.period = 0 ∨ 1000 < c.period ∨ c.period ≤ c.offset then some 1
  else if c.i 9 < c.i 8 then some 8
  else if c.i 12 < c.i 11 then some 11
  else if c.i 13 < 0 then some 13
  else if c.i 14 < 0 then some 14
  else if c.i 15 < 0 then some 15
  else if c.i 16 ≤ 0 ∨ 65536 < c.i 16 then some 16
  else if c.i 18 < c.i 17 then some 17
  else none

/-- The magnitude of a signed number. -/
def absI (x : Int) : Int := if x < 0 then -x else x

/-- The larger of two numbers. -/
def maxI (a b : Int) : Int := if a < b then b else a

/-- B < 32,768 for a positional context, T in µs (R113). -/
def boundOk (ws : List W32) (us : Nat) : Bool :=
  let c : LoopCtx := { words := ws }
  let outmax := maxI (absI (c.i 17)) (absI (c.i 18))
  let emax := maxI (absI (c.i 9 - c.i 11)) (absI (c.i 12 - c.i 8))
  let xspan := if bitAt (c.w 0) 27 then c.i 12 - c.i 11 else 2 * emax
  !bitAt (c.w 0) 29 ||
    decide ((outmax * 65536 + c.i 13 * emax) * us + c.i 15 * 1000000 * xspan < 32768 * 65536 * 65536 * us)

/-- A context passes R101 and R113 at the period in effect. -/
def State.ctxOk (s : State) (ws : List W32) : Bool :=
  (badWord ws).isNone && boundOk ws (({ words := ws } : LoopCtx).period * (s.periodNs / 1000))

/-! ### Writers and owners as they will stand (R77, R82) -/

/-- OWNER of a point once every config access already accepted has been applied (R77). -/
def State.ownerAfter (s : State) (p : Nat) : Nat :=
  s.mbx.slots.foldl (fun o x => match x.wait with
    | .config q own _ _ _ _ _ => if q = p then own.toNat else o
    | _ => o) (s.point p).owner.toNat

/-- A context once every LOOP_LOAD already accepted has taken effect. -/
def State.ctxAfter (s : State) (c : Nat) : LoopCtx :=
  s.mbx.slots.foldl (fun x y => match y.wait with
    | .load q ws => if q = c then { words := ws } else x
    | _ => x) (s.ctx c)

/-- The image of a booth once every load and armed exchange already accepted has taken effect. -/
def State.imageAfter (s : State) (b : Nat) : Option Image :=
  let now := (s.prg.active.find? fun e => e.1 == b).map (·.2)
  let armed := match s.prg.armed.find? fun e => e.1 == b with
    | some e => some e.2.image
    | none => now
  s.mbx.slots.foldl (fun x y => match y.wait with
    | .image q _ img => if q = b then some img else x
    | _ => x) armed

/-- The images whose tasks write points of a booth at some time once what is accepted takes effect: the one that runs from the next
boundary, and an armed one beside it, which runs from b alone or never (R24). -/
def State.imagesAfter (s : State) (b : Nat) : List Image :=
  let now := (s.prg.active.find? fun e => e.1 == b).map (·.2)
  let next := s.mbx.slots.foldl (fun x y => match y.wait with
    | .image q _ img => if q = b then some img else x
    | _ => x) now
  next.toList ++ ((s.prg.armed.find? fun e => e.1 == b).map fun (e : Nat × Armed) => e.2.image).toList

/-- Booths that have or will have an image. -/
def State.imageBooths (s : State) : List Nat :=
  s.prg.active.map (·.1) ++ s.prg.armed.map (·.1) ++ s.mbx.slots.filterMap fun y => match y.wait with
    | .image q _ _ => some q
    | _ => none

/-- Contexts that hold or will hold a loop. -/
def State.loopNumbers (s : State) : List Nat :=
  s.loop.ctx.map (·.1) ++ s.mbx.slots.filterMap fun y => match y.wait with
    | .load q _ => some q
    | _ => none

/-- The booths of the loops that will write a point, one context left out (R24). -/
def State.loopWriters (s : State) (p : Nat) (noCtx : Option Nat) : List Nat :=
  s.loopNumbers.filterMap fun c =>
    let x := s.ctxAfter c
    if some c ≠ noCtx ∧ x.inUse ∧ x.outPoint = p then some x.owner else none

/-- The booths of every writer that a point has at some time once what is accepted takes effect, one context and one booth's images left
out (R24). -/
def State.everWriters (s : State) (p : Nat) (noCtx noBooth : Option Nat) : List Nat :=
  s.loopWriters p noCtx ++
  s.imageBooths.filter fun b =>
    decide (some b ≠ noBooth) && (s.imagesAfter b).any fun img => img.writers.any fun w => w.1 == p

/-- The booths of the writers that a point will have after every exchange armed (R82). -/
def State.futureWriters (s : State) (p : Nat) (noCtx noBooth : Option Nat) : List Nat :=
  s.loopWriters p noCtx ++
  (s.imageBooths.filterMap fun b =>
    match s.imageAfter b with
    | some img => if some b ≠ noBooth ∧ (img.writers.any fun w => w.1 == p) then some b else none
    | none => none)

/-! ### Sources -/

/-- The quality of the UI cycle latched in the last Intake, whose VAL a loop reads (R276, R278, R279); C1h where the channel is not in
use. -/
def State.uiQuality (s : State) (k : Nat) : Byte :=
  if s.flag 0x4800 k = false ∨ s.fld (0x4840 + 4 * k) 18 16 = 0 then 0xC1 else (s.ui.getD k {}).qual

/-- A quality that R117 treats as failed. -/
def badQuality (q : Byte) : Bool := decide (2 ≤ q.toNat / 64) || decide (q = 0x40)

/-- A point read by a loop or task of a booth (R23, R79). -/
def State.boothRead (s : State) (b p : Nat) : State × PRec := s.readPoint b p

/-- A process value or set-point source: its kind 1 a point, 2 a UI channel; none where it has failed (R117, R119). DESIGN CHOICE:
of a UI index beyond the 16 channels only the low four bits count; the spec gives such an index no meaning. Unsafe (log entry 134). On a
member that does not drive, a channel takes no part in control and counts as failed (R403). DEDUCED (log entry 154). -/
def State.source (s : State) (b : Nat) (ui : Bool) (idx : Nat) : State × Option Int :=
  if ui then
    if s.bound ∨ badQuality (s.uiQuality (idx % 16)) then (s, none) else (s, some (s32 (s.ui.getD (idx % 16) {}).val))
  else
    let (s, r) := s.boothRead b idx
    (s, if badQuality r.quality then none else toQ r.typ r.value)

/-- The process value of a context (R99 word 2); kinds 2h–7h name no source and count as failed. -/
def State.pvOf (s : State) (c : LoopCtx) : State × Option Int :=
  match bits (c.w 2) 31 29 with
  | 0 => s.source c.owner false (bits (c.w 2) 12 0)
  | 1 => s.source c.owner true (bits (c.w 2) 12 0)
  | _ => (s, none)

/-- The set-point source of a context (R118); kinds 4h–7h name no source and count as failed. DESIGN CHOICE: of an FIO index beyond the
32 channels only the low five bits count. Unsafe (log entry 134). -/
def State.spSource (s : State) (c : LoopCtx) : State × Option Int :=
  match bits (c.w 3) 31 29 with
  | 0 => (s, some (c.i 5))
  | 1 => s.source c.owner false (bits (c.w 3) 12 0)
  | 2 => s.source c.owner true (bits (c.w 3) 12 0)
  | 3 => (s, if s.bound then none else some (s32 (s.fch (bits (c.w 3) 12 0 % 32)).rate))
  | _ => (s, none)

/-! ### Spotlight signals (R122, R123) -/

/-- The taps of the feedback polynomial of order m (R123). -/
def prbsTaps (m : Nat) : List Nat :=
  match m with
  | 5 => [5, 3]
  | 6 => [6, 5]
  | 7 => [7, 6]
  | 8 => [8, 6, 5, 4]
  | 9 => [9, 5]
  | 10 => [10, 7]
  | 11 => [11, 9]
  | _ => [12, 6, 4, 1]

/-- One step of the Fibonacci generator: stage 1 in bit 0, output in stage m (R123). -/
def prbsStep (m x : Nat) : Nat :=
  let fb := (prbsTaps m).foldl (fun a t => Nat.xor a (x / 2 ^ (t - 1) % 2)) 0
  (x * 2 + fb) % 2 ^ m

/-- Terms of the sine series, 2^64 units: `term` is x^(2i-1)/(2i-1)! with alternating sign. -/
def sinSeries : Nat → Nat → Int → Int → Int → Int
  | 0, _, _, _, acc => acc
  | n + 1, i, x2, term, acc =>
    let t := -(Int.ediv (Int.ediv (term * x2) (2 ^ 64)) ((2 * i) * (2 * i + 1)))
    sinSeries n (i + 1) x2 t (acc + t)

/-- sin(2π·p) in units of 2^-64 for a phase p in units of 2^-64 turns, by its series about the nearest quarter. -/
def sinTurn (p : Nat) : Int :=
  let q : Nat := p % 2 ^ 64
  let y : Int := if q < 2 ^ 62 then (q : Int) else if q < 3 * 2 ^ 62 then (2 : Int) ^ 63 - (q : Int) else (q : Int) - 2 ^ 64
  let x := Int.ediv (y * 115904311329233965478) (2 ^ 64)
  sinSeries 14 1 (Int.ediv (x * x) (2 ^ 64)) x x

/-- The chirp at t µs of Tc µs (R122), rounded under R102. -/
def chirp (a f0 f1 : Int) (t tc : Nat) : Int :=
  let num : Int := f0 * t * (2 * tc) + (f1 - f0) * t * t
  let den : Int := 65536 * 1000000 * (2 * tc)
  let phase := (Int.emod (Int.ediv (num * 2 ^ 64) den) (2 ^ 64)).toNat
  clip32 (roundQ (a * sinTurn phase) (2 ^ 64))

/-- The injection s(i) of a test (R122), the generator's bit taken from `lfsr`. -/
def Spot.signal (x : Spot) (i us : Nat) : Int :=
  if i < x.params.pre then 0
  else match x.params.signal with
    | 0 => s32 x.params.amp
    | 1 => if x.lfsr / 2 ^ (x.params.order - 1) % 2 = 1 then s32 x.params.amp else clip32 (-(s32 x.params.amp))
    | _ => chirp (s32 x.params.amp) (s32 x.params.f0) (s32 x.params.f1) ((i - x.params.pre) * us)
             ((x.params.samples - x.params.pre) * us)

/-- The slot running a test on a context. -/
def State.spotOf (s : State) (c : Nat) : Option Nat :=
  idxWhere 4 fun k => decide ((s.loop.spots.getD k {}).state = 1) && decide ((s.loop.spots.getD k {}).ctx = c)

/-- A Spotlight slot. -/
def State.spot (s : State) (k : Nat) : Spot := s.loop.spots.getD k {}

/-- A Spotlight slot replaced. -/
def State.setSpot (s : State) (k : Nat) (x : Spot) : State :=
  { s with loop := { s.loop with spots := lmod s.loop.spots k fun _ => x } }

/-- The packet the next sample goes to: the one in progress, or a new one, dropped while both staging buffers are full (R127). -/
def Spot.opened (x : Spot) (rev : Nat) : SpotBuf :=
  if x.cur.samples.isEmpty then
    { ctx := x.ctx, signal := x.params.signal, target := x.params.target, queue := x.params.queue, first := x.count - 1, rev
      dropping := decide (2 ≤ x.full.length + x.old.length) }
  else x.cur

/-- A packet with a sample added, with the fate of its move (R126, R127). -/
def SpotBuf.add (b : SpotBuf) (m : W32 × W32 × Bool × Nat) (deferred : Bool) : SpotBuf :=
  { b with samples := b.samples ++ [(m.1, m.2.1)], deferred := b.deferred ++ [deferred], clamped := b.clamped ++ [m.2.2.1] }

/-- A complete packet left in its staging buffer, or dropped (R127). -/
def State.keepPacket (s : State) (k : Nat) (b : SpotBuf) : State :=
  if b.samples.isEmpty then s
  else if b.dropping then (s.setSQ 5 1).count 0x28B8 1
  else s.setSpot k { s.spot k with full := (s.spot k).full ++ [b] }

/-- A test ended (R125): injection removed, STATE set, SPOT_END or SPOT_ABORT raised. An OUT_OPEN test leaves the loop
to initialise (R124). The last sample is placed after the next due evaluation (R127). -/
def State.endSpot (s : State) (k cause : Nat) : State :=
  let x := s.spot k
  if x.state ≠ 1 then s
  else
    let y : Spot := { x with state := if cause = 0 then 2 else 3, cause, inject := 0, carry := 0, cur := {}, last := none }
    let s := match x.last with
      | some m => s.setSpot k { y with old := x.old ++ [(x.opened m.2.2.2, m)] }
      | none => (s.setSpot k y).keepPacket k x.cur
    let c := s.ctx x.ctx
    let s := if x.params.target = 2 then s.setCtx x.ctx { c with initNext := true }
      else if x.params.target = 1 then s.setCtx x.ctx { c with undo := c.undo - x.carry } else s
    let s := s.setCtx x.ctx ((s.ctx x.ctx).status 9 false).sealed
    if cause = 0 then (s.setSQ 5 3).count 0x28AC 1 else (s.setSQ 5 2).count 0x28B0 1

/-- Every running test ended with a cause (R125, R247). -/
def State.endSpots (s : State) (cause : Nat) : State := (List.range 4).foldl (fun s k => s.endSpot k cause) s

/-- A sample placed in the staging buffer, with the fate of its move (R127). -/
def State.stageSample (s : State) (k : Nat) (m : W32 × W32 × Bool × Nat) (deferred : Bool) : State :=
  let x := s.spot k
  let b := (x.opened m.2.2.2).add m deferred
  if b.samples.length < 32 then s.setSpot k { x with cur := b, last := none }
  else (s.setSpot k { x with cur := {}, last := none }).keepPacket k b

/-- Words 40–51 of a context under test: Spotlight parameters and state, whose layout the spec does not give. -/
def State.spotWords (s : State) (c : LoopCtx) : LoopCtx :=
  (List.range 12).foldl (fun c i => c.set (40 + i) ((s.drawnFor (40 + i)).setWidth 32)) c

/-! ### The commit list (R38, R66) -/

/-- Entries of the commit list at the period in effect (R38). -/
def State.listSize (s : State) : Nat := 512 * 2 ^ s.crsl.period

/-- A move entered in the commit list, or not for want of room (R66): 64 entries are kept for class 0. DESIGN CHOICE: a class-0 move
is entered also where the list stands at its size (R38), since R66 refuses none for space. Unsafe (log entry 135). -/
def State.enterMove (s : State) (m : Move) : State × Bool :=
  let urgent := (s.crsl.moves.filter fun x => x.cls == 0).length
  let used := s.crsl.moves.length - urgent + (urgent - 64)
  if m.cls = 0 ∨ used < s.listSize - 64 then
    ({ s with crsl := { s.crsl with moves := s.crsl.moves ++ [m] } }, true)
  else (s.count 0x08BC 1, false)

/-! ### Fates (R109) -/

/-- The findings of R109. -/
inductive Fate where
  | none
  | committed
  | deferred
  | notCommitted
  deriving DecidableEq, Repr

/-- COMMIT_FATE (R109, R237): the fate of a context's previous proposal, by the record its booth reads of the output point. -/
def LoopCtx.fateOf (c : LoopCtx) (r : PRec) : Fate :=
  match c.proposed with
  | Option.none => .none
  | some v =>
    if r.forced then .committed
    else if r.quality = 0x84 ∨ r.quality = 0x85 then .notCommitted
    else if c.notEntered then .deferred
    else if r.value = v then .committed else .deferred

/-- The effect of a fate on the context (R109). -/
def LoopCtx.learn (c : LoopCtx) (f : Fate) (shed : Bool) : LoopCtx :=
  let c := { c with proposed := Option.none, notEntered := false }
  match f with
  | .none => c
  | .committed =>
    let iacc := wrap32 (c.i 32 + c.i 34)
    { (((c.set 31 (c.w 30)).setI 32 iacc).set 33 (c.w 37)).status 1 false with stage := c.stageProp }
  | .deferred => (c.status 1 true).stat 54 shed
  | .notCommitted => c.status 1 true

/-! ### One evaluation (R104 to R119) -/

/-- An output proposed for the context (R24, R38, R66, R109): a move is entered when it alters the committed value, the
force's live value, or a request held for the point; `r` is the output point as read in this evaluation. It passes the access check of the loop's booth (R23, R79); a denied one is
recorded and not entered (R80). -/
def State.propose (s : State) (n : Nat) (c : LoopCtx) (r : PRec) (u : Int) (shed : Bool) : State × LoopCtx :=
  let S := c.stages
  let span := c.i 18 - c.i 17
  let k : Int := c.stage
  let k' := if 2 * S * (u - c.i 17) ≥ (2 * k + 1) * span + S * c.i 21 ∧ c.stage < S then c.stage + 1
    else if 2 * S * (u - c.i 17) ≤ (2 * k - 1) * span - S * c.i 21 ∧ 0 < c.stage then c.stage - 1
    else c.stage
  let v := if c.staged then ofNum r.typ k' 0 else ofQ r.typ u
  let c := { c.setI 30 u with proposed := some v, stageProp := k' }
  if r.value = v ∧ r.forced = false ∧ (s.reqOf c.outPoint).isNone then (s, c)
  else
    let s := s.count 0x2884 1
    match s.check c.owner .write c.outPoint true false with
    | .allow =>
      let (s, ok) := s.enterMove { point := c.outPoint, value := v, cls := c.cls, writer := .loop n }
      (s, { c.stat 53 shed with notEntered := !ok })
    | d => (s.noteDenial c.owner .write c.outPoint d, c.stat 53 shed)

/-- The set-point of an evaluation (R116, R118, R119): the context with SP_W and SP_BAD, and whether it failed. DESIGN CHOICE: an
initialisation with SP_RAMP not 0 sets SP_W from the process value (R116) also where the source has failed, where R119 would leave its
last value. Unsafe (log entry 136). -/
def State.setpoint (s : State) (c : LoopCtx) (init : Bool) (pv : Option Int) (us : Nat) : State × LoopCtx × Bool :=
  let (s, src) := s.spSource c
  match src with
  | some x =>
    let target := clampInt (c.i 8) (c.i 9) (addQ (mulQ (c.i 6) x) (c.i 7))
    let ramp := c.i 10
    let w := if init then
        (if ramp = 0 then target else clampInt (c.i 8) (c.i 9) (pv.getD (c.i 24)))
      else if ramp = 0 then target
      else
        let d := mulT ramp us
        clampInt (c.i 24 - d) (c.i 24 + d) target
    (s, (c.setI 24 w).status 5 false, false)
  | none =>
    let was := bitAt (c.w 35) 5
    let c := if init ∧ c.i 10 ≠ 0 then c.setI 24 (clampInt (c.i 8) (c.i 9) (pv.getD (c.i 24))) else c
    let s := s.count 0x289C 1
    (if was then s else s.setSQ 5 4, c.status 5 true, true)

/-- The committed output of a context as a Q16.16 signal: OUT_LO + k·W for a staged output (R115). -/
def LoopCtx.committedOut (c : LoopCtx) (r : PRec) : Int × Nat :=
  let q := (toQ r.typ r.value).getD 0
  if c.staged then
    let k := (clampInt 0 c.stages (roundQ q 65536)).toNat
    (clip32 (c.i 17 + roundQ ((k : Int) * (c.i 18 - c.i 17)) c.stages), k)
  else (q, 0)

/-- A law's result: u before the clamp with and without the increment, as its form gives it (R105, R106). -/
def LoopCtx.raw (c : LoopCtx) (pTerm dTerm di : Int) : Int :=
  if bitAt (c.w 0) 29 then clip32 (pTerm + wrap32 (c.i 32 + di) + dTerm)
  else clip32 (c.i 31 + pTerm + di + dTerm)

/-- The clamp marks of an evaluation (R107): STATUS, counters and the clamp statistic. -/
def State.clampMarks (s : State) (c : LoopCtx) (u : Int) (held shed : Bool) : State × LoopCtx :=
  let hi := decide (c.i 18 ≤ u)
  let lo := decide (u ≤ c.i 17)
  let s := if hi then s.count 0x288C 1 else s
  let s := if lo then s.count 0x2890 1 else s
  let s := if held then s.count 0x2894 1 else s
  let c := ((c.status 2 hi).status 3 lo).status 4 held
  let c := if hi || lo then c.stat 55 shed else c
  (s, if held then c.stat 56 shed else c)

/-- A loop whose process value has failed (R117): integration is held; MAN proposes its clamped output with its clamp marks (R107), AUTO
FAIL_OUT or nothing, with none. A proposal carries no injection of an ended test (R125). -/
def State.evalFailed (s : State) (n : Nat) (c : LoopCtx) (r : PRec) (shed : Bool) : State × LoopCtx :=
  let was := bitAt (c.w 35) 6
  let s := s.count 0x2898 1
  let s := if was then s else s.setSQ 5 5
  let c : LoopCtx := { (c.status 6 true).stat 58 shed with initNext := true }
  let c : LoopCtx := (c.set 34 0).set 37 (c.w 33)
  if c.mode = 1 then
    let u := clampInt (c.i 17) (c.i 18) (c.i 23)
    let (s, c) := s.clampMarks c u true shed
    s.propose n { c with undo := 0 } r u shed
  else
    let s := s.count 0x2894 1
    let c := (((c.status 2 false).status 3 false).status 4 true).stat 56 shed
    if bitAt (c.w 0) 19 then s.propose n { c with undo := 0 } r (clip32 (c.i 22)) shed
    else (s, c)

/-- The injection of a running test at this evaluation (R122, R123): the slot with the sample counted, s(i), and
s(i) − s(i−1). -/
def Spot.advance (x : Spot) (us : Nat) : Spot × Int × Int :=
  let j := x.count - x.params.pre
  let x := if x.params.signal = 1 ∧ x.params.pre < x.count ∧ j % x.params.hold = 0 then
      { x with lfsr := prbsStep x.params.order x.lfsr } else x
  let v := x.signal x.count us
  ({ x with inject := v, count := x.count + 1 }, v, v - x.inject)

/-- The law on a good process value (R104 to R108, R115, R124), `r` the output point as read. DESIGN CHOICE: an OUT_OPEN evaluation, whose
u R124 does not clamp, sets CLAMP_HI and CLAMP_LO and their counts as R107 has them where u lies at or beyond a limit. Unsafe (log
entry 44). -/
def State.evalLaw (s : State) (n : Nat) (c : LoopCtx) (r : PRec) (pv : Int) (us : Nat) (shed : Bool) : State × LoopCtx :=
  let init := c.initNext
  let (s, c, spBad) := s.setpoint c init (some pv) us
  let c := if spBad then c.stat 59 shed else c
  let slot := s.spotOf n
  let sx := slot.map fun k => (s.spot k).advance us
  let inj := (sx.map (·.2.1)).getD 0
  let dinj := (sx.map (·.2.2)).getD 0
  let target := (slot.map fun k => (s.spot k).params.target).getD 9
  let spw := if target = 0 then clampInt (c.i 8) (c.i 9) (addQ (c.i 24) inj) else c.i 24
  let action := bitAt (c.w 0) 28
  let e0 := if action then addQ pv (-spw) else addQ spw (-pv)
  let e := if absI e0 ≤ c.i 20 then 0 else e0
  let x := if bitAt (c.w 0) 27 then (if action then pv else clip32 (-pv)) else e
  let (uc, kc) := c.committedOut r
  let c := if init then { (((c.setI 26 e).setI 27 e).setI 28 x).setI 29 x with stage := kc } else c
  let c := if init then c.setI 31 uc else c
  let pf := addQ (c.i 28) (mulQ (c.i 16) (addQ x (-(c.i 28))))
  let positional := bitAt (c.w 0) 29
  let pTerm := if positional then mulQ (c.i 13) e else mulQ (c.i 13) (addQ e (-(c.i 26)))
  let dTerm := if positional then derivQ (c.i 15) (addQ pf (-(c.i 28))) us
    else derivQ (c.i 15) (clip32 (pf - 2 * c.i 28 + c.i 29)) us
  let track := positional && (init || c.reinit || decide (c.mode = 1))
  let c := if track then c.setI 32 (wrap32 (c.i 31 - pTerm - dTerm)) else c
  let still := init || c.reinit || decide (c.mode = 1)
  let (di0, fr0) := if still then (0, (c.w 33).toNat) else integral (c.i 14) e us (c.w 33).toNat
  let r0 := c.raw pTerm dTerm di0
  let inc := if still then 0 else c.i 14 * e
  let held := (decide (c.i 18 < r0) && decide (0 < inc)) || (decide (r0 < c.i 17) && decide (inc < 0))
  let (di, fr) := if held then (0, (c.w 33).toNat) else (di0, fr0)
  let u1 := if held then c.raw pTerm dTerm 0 else r0
  let step := (if positional ∨ c.mode = 1 then 0 else c.undo) + (if target = 1 then dinj else 0)
  let u1 := if step = 0 then u1 else addQ u1 step
  let u2 := clampInt (c.i 17) (c.i 18) u1
  let lim := mulT (c.i 19) us
  let u3 := if c.i 19 = 0 then u2 else clampInt (c.i 31 - lim) (c.i 31 + lim) u2
  let u := if target = 2 then addQ (s32 ((slot.map fun k => (s.spot k).bias).getD 0)) inj
    else if c.mode = 1 then clampInt (c.i 17) (c.i 18) (if step = 0 then c.i 23 else addQ (c.i 23) step)
    else u3
  let open2 := decide (target = 2)
  let (di, fr) := if open2 then (0, (c.w 33).toNat) else (di, fr)
  let c := { ((((((c.setI 34 di).set 37 (BitVec.ofNat 32 fr)).setI 27 (c.i 26)).setI 26 e).setI 29 (c.i 28)).setI 28
    pf) with initNext := false, reinit := false, undo := 0 }
  let c := c.status 6 false
  let (s, c) := s.clampMarks c u (held && !open2) shed
  let (s, c) := s.propose n c r u shed
  match slot, sx with
  | some k, some y =>
    let carry := if positional ∨ c.mode = 1 then dinj else (s.spot k).carry + dinj
    let s := s.setSpot k { y.1 with carry, last := some (BitVec.ofInt 32 pv, BitVec.ofInt 32 u,
      decide (u ≤ c.i 17 ∨ c.i 18 ≤ u), s.pairRev) }
    (s, s.spotWords c)
  | _, _ => (s, c)

/-- The last samples of tests on a context that have ended, placed at its next due evaluation (R127). -/
def State.spotFinish (s : State) (n : Nat) (deferred : Bool) : State :=
  (List.range 4).foldl (fun (s : State) k =>
    let x := s.spot k
    (x.old.filter fun e => e.1.ctx == n).foldl (fun (s : State) e => s.keepPacket k (e.1.add e.2 deferred))
      (s.setSpot k { x with old := x.old.filter fun e => e.1.ctx != n })) s

/-- A test at the start of its loop's evaluation: the last sample's fate placed (R127). -/
def State.spotBegin (s : State) (n : Nat) (f : Fate) : State :=
  let s := s.spotFinish n (decide (f = .deferred))
  match s.spotOf n with
  | none => s
  | some k =>
    match (s.spot k).last with
    | some m => s.stageSample k m (decide (f = .deferred))
    | none => s

/-- A test whose L samples are captured ends (R125, cause 0h). -/
def State.spotDone (s : State) (n : Nat) : State :=
  match s.spotOf n with
  | some k => if (s.spot k).params.samples ≤ (s.spot k).count then s.endSpot k 0 else s
  | none => s

/-- PV outside the limits of the running test (R125, cause 3h). -/
def State.spotLimits (s : State) (n : Nat) (pv : Int) : State :=
  match s.spotOf n with
  | none => s
  | some k =>
    let x := s.spot k
    if pv < s32 x.params.abortLo ∨ s32 x.params.abortHi < pv then s.endSpot k 3 else s

/-- CTX_BAD (R128): a running test ends, the loop enters HOLD, which counts as a mode change, and its held request is dropped
(R233). -/
def State.ctxBad (s : State) (n : Nat) : State :=
  let s := match s.spotOf n with
    | some k => s.endSpot k 2
    | none => s
  let s := s.dropWriter (.loop n)
  let c := s.ctx n
  let s := if c.mode = 3 then s else s.count 0x28A0 1
  let c := { ((c.setMode 3).status 7 true).sealed with stateBad := true, proposed := none }
  ((s.setCtx n c).report .warn 5 7 (BitVec.ofNat 8 c.owner) n).count 0x28A4 1

/-- One due evaluation (R104): integrity, one read of the output point by the loop's booth (R23), fate, process value, law, proposal, and the end of a test that has its samples. DESIGN CHOICE:
STATUS.FORCED_OUT follows the output point at each evaluation, not when a force is set or cleared. Unsafe (log entry 137). -/
def State.evalLoop (s : State) (n : Nat) : State :=
  let c := s.ctx n
  if c.inUse = false ∨ s.sys.jugState.getD (n / 32) 0 = 2 then s
  else if c.w 63 ≠ c.crcOf then s.ctxBad n
  else if c.mode = 0 ∨ c.mode = 3 then s.spotFinish n false
  else
    let shed := decide (2 ≤ s.ledger.house)
    let us := s.loopUs c
    let (s, r) := s.boothRead c.owner c.outPoint
    let f := c.fateOf r
    let c := c.learn f shed
    let s := if f = .deferred then s.count 0x2888 1 else s
    let s := (s.count 0x2880 1).spotBegin n f
    let c := { c with initNext := c.initNext || (s.ctx n).initNext, undo := (s.ctx n).undo }
    let c := ((c.stat 52 shed).status 0 false).set 36 (BitVec.ofNat 32 s.rev)
    let c := c.status 8 r.forced
    let (s, pv0) := s.pvOf c
    match pv0 with
    | none =>
      let s := match s.spotOf n with
        | some k => s.endSpot k 2
        | none => s
      let c := { c with undo := (s.ctx n).undo }
      let (s, c, spBad) := s.setpoint c false none us
      let c := if spBad then c.stat 59 shed else c
      let (s, c) := s.evalFailed n c r shed
      s.setCtx n (c.status 9 (s.spotOf n).isSome).sealed
    | some pv =>
      let pv := clampInt (c.i 11) (c.i 12) pv
      let s := s.spotLimits n pv
      let c := { c.setI 25 pv with initNext := c.initNext || (s.ctx n).initNext, undo := (s.ctx n).undo }
      let (s, c) := s.evalLaw n c r pv us shed
      (s.setCtx n (c.status 9 (s.spotOf n).isSome).sealed).spotDone n

/-! ### Mode changes and loads applied at a boundary (R113 to R115, R64) -/

/-- MODE applied (R115, R233, R125). -/
def State.applyMode (s : State) (n m : Nat) (manOut : W32) : State :=
  let c := s.ctx n
  if c.inUse = false ∨ c.mode = 3 then s
  else
    let old := c.mode
    let c := (c.setMode m).set 23 manOut
    let c := { c with initNext := c.initNext || (decide (old = 0) && decide (m ≠ 0)),
                      proposed := if m = 0 then none else c.proposed }
    let s := s.setCtx n c.sealed
    let s := if old = m then s else s.count 0x28A0 1
    let s := if m = 0 then s.dropWriter (.loop n) else s
    let s := match s.spotOf n with
      | some k => if old = m then s else s.endSpot k 2
      | none => s
    if m = 0 then s.setCtx n { s.ctx n with undo := 0 } else s

/-- The bits of a configuration word of a context that R99 and R100 name. -/
def ctxBits (k : Nat) : W32 :=
  match k with
  | 0 => fieldMask 31 19 ||| fieldMask 7 0
  | 1 => fieldMask 19 0
  | 2 => fieldMask 31 29 ||| fieldMask 12 0
  | 3 => fieldMask 31 29 ||| fieldMask 12 0
  | 4 => fieldMask 12 0
  | _ => 0xFFFFFFFF

/-- Configuration words without their reserved bits, which read 0 (R7). -/
def ctxNamed (ws : List W32) : List W32 := ws.mapIdx fun k w => w &&& ctxBits k

/-- LOOP_LOAD applied: the context starts as for OFF to its mode (R388, R115). -/
def State.applyLoad (s : State) (n : Nat) (ws : List W32) : State :=
  let ws := ctxNamed (ws.take 24) ++ List.replicate 39 0
  let c : LoopCtx := { words := ws ++ [0], initNext := true, permit := false }
  let s := match s.spotOf n with
    | some k => s.endSpot k 2
    | none => s
  let old := s.ctx n
  let s := if old.inUse ∧ old.mode ≠ c.mode then s.count 0x28A0 1 else s
  let s := if old.inUse then s.dropWriter (.loop n) else s
  s.setCtx n (c.setMode (bits (c.w 0) 31 30)).sealed

/-- A context that holds no loop again: its test ends and its request is dropped. -/
def State.emptyCtx (s : State) (n : Nat) : State :=
  let s := match s.spotOf n with
    | some k => s.endSpot k 2
    | none => s
  (s.dropWriter (.loop n)).setCtx n {}

/-- The writes that R113 tests change FORM, a gain, DALPHA, a limit or a source: PV_SRC, SP_SRC, the constant set-point, DSRC. -/
def LoopCtx.testedChange (c new : LoopCtx) : Bool :=
  bitAt (c.w 0) 27 != bitAt (new.w 0) 27 || bitAt (c.w 0) 29 != bitAt (new.w 0) 29 || [2, 3, 5, 8, 9, 11, 12, 13, 14, 15, 16, 17, 18].any fun k => c.w k != new.w k

/-- Pending writes of one context applied together, or none of them (R113, R114, R129). Writes of a configuration bring a context that
holds no loop into use (R96), and leave it empty again where they give all its words the 0 it read as. A new OWNER has given no
SPOT_PERMIT (R121). DESIGN CHOICE: MODE 3h, which the module alone enters (R100), leaves MODE as it is, OFF in an empty context. Unsafe
(log entry 153). DESIGN CHOICE: LOOP_CNT15 advances once for the set of a context's pending words. Unsafe (log entry 45). -/
def State.applyCtxWrites (s : State) (n : Nat) (l : List Shadow) : State :=
  let c := s.ctx n
  let base : LoopCtx := if c.inUse then c else { c with words := List.replicate 64 0 }
  let new := l.foldl (fun (c : LoopCtx) e => c.set e.sel (mergeBits (c.w e.sel) (e.mask &&& ctxBits e.sel) e.val)) base
  let new := if new.mode = 3 then new.setMode base.mode else new
  if (new.words.take 24).all (· == 0) then (if c.inUse then s.emptyCtx n else s)
  else if c.inUse = false then
    if s.ctxOk new.words then (s.applyLoad n new.words).count 0x089C l.length else (s.setSQ 5 6).count 0x28BC 1
  else if c.testedChange new ∧ s.ctxOk (new.words) = false then (s.setSQ 5 6).count 0x28BC 1
  else
    let re := bitAt (new.w 0) 29 && (decide (bitAt (c.w 0) 29 ≠ bitAt (new.w 0) 29 ∨ c.w 13 ≠ new.w 13 ∨
      c.w 15 ≠ new.w 15))
    let kept := decide (new.owner = c.owner)
    let s := (s.setCtx n { new.setMode c.mode with
      reinit := c.reinit || re, permit := c.permit && kept, permitOwn := c.permitOwn && kept }.sealed).count 0x089C l.length
    if c.mode = new.mode then s else s.applyMode n new.mode (new.w 23)

/-! ### Late laws (R58) -/

/-- LOOP_LATE: the due laws left unevaluated report LATE and make no proposal (R58). -/
def State.loopsLate (s : State) : State :=
  let late := s.crsl.late
  if late.isEmpty then s
  else
    let shed := decide (2 ≤ s.ledger.house)
    let s := late.foldl (fun (s : State) n =>
      let c := s.ctx n
      s.setCtx n ((c.status 0 true).stat 57 shed).sealed) s
    let s := s.count 0x0890 late.length
    { s with crsl := { s.crsl with late := [] } }.reportBare .warn 1 13 0xFF

/-! ### JUG_STATE (chapter 04) -/

/-- Two schedules can fall due together. -/
def compatible (a b : Nat × Nat) : Bool := decide (a.2 % Nat.gcd a.1 b.1 = b.2 % Nat.gcd a.1 b.1)

/-- The most schedules of a list that fall due in one revolution beside those chosen (R97): schedules due together in
pairs are due together all at once. -/
def mostDue : List (Nat × Nat) → List (Nat × Nat) → Nat
  | [], chosen => chosen.length
  | x :: t, chosen =>
    if chosen.all (compatible x) then Nat.max (mostDue t (x :: chosen)) (mostDue t chosen) else mostDue t chosen

/-- JUG_STATEk. -/
def State.jugWord (s : State) (k : Nat) : W32 :=
  let loops := s.loop.ctx.filter fun e => e.2.inUse && e.1 / 32 == k
  let tasks := s.prg.tasks.filter fun e => e.2.jug == k && e.2.state != .empty && e.2.state != .retired
  let st := if s.sys.jugState.getD k 0 = 2 then 2 else if loops.isEmpty ∧ tasks.isEmpty then 0 else 1
  place st 30 ||| place loops.length 16 ||| place tasks.length 8 |||
    place (mostDue (loops.map fun e => (e.2.period, e.2.offset)) []) 0

/-- LOOP_SPOTs. -/
def State.spotWord (s : State) (k : Nat) : W32 :=
  let x := s.spot k
  place x.state 30 ||| place x.cause 27 ||| place x.params.queue 25 ||| place x.ctx 16 ||| place x.count 0

end Sys2Proof.Machine
end

