-- ==== Sys2Proof/Machine/Programs.lean ====
section
/-! DEFINITION. Cyclic programs, retention and Switchback (chapter 05): image checks (R136, R141), task runs (R138 to
R143, R156), overrun (R60), suspension (R144), checkpoints and final saves (R147 to R151), exchanges (R153 to R160). -/

namespace Sys2Proof.Machine

/-! ### Images (R131 to R136) -/

/-- A symbol as an image brings it: a timer with ET 0, Q FALSE and IN_PREV FALSE, an edge detector before its first call (R155,
R156). -/
def Sym.fromImage (x : Sym) : Sym := { x with et := 0, inPrev := false, q := false, lastCall := 0, fresh := true }

/-- An image read from its bytes (R133, R134); none when MAGIC, FORMAT, LENGTH or DIGEST is wrong (REASON 1h). -/
def parseImage (b : List Byte) : Option Image :=
  let len := leAt b 0x34 4
  let img := b.take len
  let zeroed := img.take 0x40 ++ List.replicate 32 0 ++ img.drop 0x60
  if leAt b 0 4 = 0x4F4C4B31 ∧ leAt b 4 2 = 3 ∧ len ≤ b.length ∧ 128 ≤ len ∧
      Config.sha256 zeroed = (img.drop 0x40).take 32 then
    let booth := leAt b 6 1
    let ident := BitVec.ofNat 64 (leAt b 8 8)
    let entry (base k : Nat) : List Byte := (img.drop (leAt b base 4 + 32 * k)).take 32
    let tasks := (List.range (leAt b 0x14 2)).map fun k =>
      let t := Config.taskEntry (entry 0x20 k)
      { t with booth, image := ident, jug := t.jug % 16, prio := t.prio % 16, cls := t.cls % 4, state := .running,
               lastRun := 0, maxRun := 0, safeOut := false }
    let syms := (List.range (Nat.min (leAt b 0x18 4) 65537)).map fun k => (Config.symEntry (entry 0x24 k) img).fromImage
    let writers := (List.range (Nat.min (leAt b 0x1C 4) len)).map (Config.writerEntry (img.drop (leAt b 0x28 4)))
    let releases := (List.range (leAt b 0x16 2)).map (Config.releaseEntry (img.drop (leAt b 0x2C 4)))
    some { booth, period := leAt b 7 1, ident, build := BitVec.ofNat 32 (leAt b 0x10 4), tasks, syms, initial := syms,
           writers, releases, length := len }
  else none

/-- Tasks that hold a place in Juggler memory beside a new image of a booth, retired ones and those of armed exchanges and
accepted loads among them; a retired copy of the new image itself is used again (R154, R158). -/
def State.tasksPresent (s : State) (booth : Nat) (ident : W64) : List Task :=
  ((s.prg.tasks.map (·.2)).filter fun t => !(t.booth == booth && t.state == .retired && t.image == ident)) ++
    (s.prg.armed.filter fun e => e.1 != booth).flatMap (fun e => e.2.image.tasks) ++
    s.mbx.slots.flatMap fun y => match y.wait with
      | .image q _ img => if q = booth then [] else img.tasks
      | _ => []

/-- The tasks the other booths run once boundary b has passed: those of an accepted load, of an exchange armed up to b, or of
the active image (R141). -/
def State.tasksBeside (s : State) (booth b : Nat) : List Task :=
  (s.imageBooths.eraseDups.filter fun q => q != booth).flatMap fun q =>
    let load := s.mbx.slots.findSome? fun y => match y.wait with
      | .image r _ img => if r = q then some img else none
      | _ => none
    let armed := (s.prg.armed.find? fun e => e.1 == q && decide (e.2.boundary ≤ b)).map (·.2.image)
    let now := (s.prg.active.find? fun e => e.1 == q).map (·.2)
    ((load.or (armed.or now)).map (·.tasks)).getD []

/-- Writable retentive pages in use (R132). -/
def State.pagesUsed (s : State) (tasks : List Task) : Nat :=
  128 + (s.loop.ctx.filter fun e => e.2.inUse).length + (tasks.map (·.pages)).sum

/-- The Logic window in 0.1 µs at CRSL_CONFIG.PERIOD (R36, R141). -/
def State.logicWindow (s : State) : Nat := 875 * 2 ^ s.fld 0x0800 1 0

/-- The Logic time of a Juggler in revolution n (R141). -/
def logicTime (tasks : List Task) (k n : Nat) : Nat :=
  40 + ((tasks.filter fun t => t.jug == k && t.period != 0 && n % t.period == t.offset).map (·.wcet)).sum

/-- The worst revolution of every Juggler fits its Logic window (R141). -/
def State.budgetOk (s : State) (tasks : List Task) : Bool :=
  (List.range 16).all fun k => (List.range 1000).all fun n => decide (logicTime tasks k n ≤ s.logicWindow)

/-- Code and data of all images fit every Juggler's 64 KiB (REASON 6h). -/
def sramOk (tasks : List Task) : Bool :=
  (List.range 16).all fun k =>
    decide (((tasks.filter fun t => t.jug == k).map fun t => t.codeSize + t.dataSize).sum ≤ 65536)

/-- The symbols handed over keep kind, type code and element count (REASON 8h). -/
def symsOk (old new : List Sym) : Bool :=
  new.all fun x => match old.find? fun y => y.ident == x.ident with
    | some y => y.kind == x.kind && y.typ == x.typ && y.count == x.count
    | none => true

/-- A switch-over in progress (R136 reason Ah, R470). -/
def State.switching (s : State) : Bool :=
  decide (s.trap.role = .syncing ∨ s.trap.role = .deciding ∨ s.trap.role = .catching) ||
    s.mbx.sched.any (fun x => decide (x.target = .pairSwitch)) || s.trap.relinquish.isSome

/-- The first check of R136 that fails, for a booth's image from a session's booth at boundary b; `swb` for an exchange. -/
def State.imageReason (s : State) (booth sessBooth b : Nat) (img : Option Image) (swb : Bool) : Option Nat :=
  match img with
  | none => some 1
  | some i =>
    let beside := s.tasksBeside booth b
    let present := s.tasksPresent booth i.ident
    let old := ((s.prg.active.find? fun e => e.1 == booth).map (·.2.syms)).getD []
    if i.booth ≠ booth ∨ (i.booth ≠ sessBooth ∧ sessBooth ≠ 0) then some 2
    else if i.period ≠ s.fld 0x0800 1 0 then some 3
    else if i.writers.any (fun w => (s.everWriters w.1 none (some booth)).length != 0 ||
        s.ownerAfter w.1 != booth || i.writers.any fun v => v.1 == w.1 && v.2 != w.2) then some 4
    else if i.tasks.any (fun t => t.period == 0 || 1000 % t.period != 0 || decide (t.period ≤ t.offset)) ∨
        i.tasks.isEmpty ∨ 64 < i.tasks.length ∨ 256 < (present ++ i.tasks).length ∨
        (List.range 16).any (fun k => decide (32 < ((present ++ i.tasks).filter fun t => t.jug == k).length)) ∨
        65536 < i.syms.length ∨ 1048576 < i.length ∨ 2048 < s.pagesUsed (beside ++ i.tasks) then some 5
    else if sramOk (present ++ i.tasks) = false then some 6
    else if s.budgetOk (beside ++ i.tasks) = false then some 7
    else if symsOk old i.syms = false then some 8
    else if (swb && !s.flag 0x3000 0) || (s.prg.armed.any fun e => e.1 == booth) then some 9
    else if s.switching ∨ s.key.tamperLatch then some 10
    else none

/-- A refusal shown (R136): REASON in PRG_SWB, SWB_REFUSED, PRG_CNT1. BOOTH stays that of the last exchange. -/
def State.imageRefused (s : State) (reason : Nat) : State :=
  ((s.setFld 0x3008 27 24 reason).setSQ 6 6).count 0x3084 1

/-- Free task-table indexes. -/
def State.freeIndexes (s : State) : List Nat := (List.range 256).filter fun i => decide ((s.task i).state = .empty)

/-- Tasks placed at free indexes of the task table (R132). -/
def State.placeTasks (s : State) (ts : List Task) : State :=
  (s.freeIndexes.zip ts).foldl (fun s e => s.setTask e.1 e.2) s

/-- A symbol with the retained state of the old image's symbol (R155, R156). -/
def Sym.takeFrom (x : Sym) (old : List Sym) : Sym :=
  match old.find? fun y => y.ident == x.ident with
  | some y => { x with words := y.words, et := y.et, inPrev := y.inPrev, q := y.q, lastCall := y.lastCall,
                       fresh := y.fresh }
  | none => x

/-- Symbols of the old image that the new one drops (R155). -/
def droppedSyms (old new : List Sym) : Nat := (old.filter fun y => !(new.any fun x => x.ident == y.ident)).length

/-- Symbols handed over (R155). -/
def handedSyms (old new : List Sym) : Nat := (old.filter fun y => new.any fun x => x.ident == y.ident).length

/-! ### Orphans (R160) -/

/-- The orphan flag of every force entry made to say whether its point, a software or output point, has a writer; a
force newly orphaned is reported. -/
def State.markOrphans (s : State) : State :=
  s.pnt.forces.foldl (fun (s : State) e =>
    let p := e.2.point
    let r := s.point p
    let orphan := commitSrc r.src && (s.writerOf p).isNone
    if orphan = e.2.orphan then s
    else
      let s := { s with pnt := { s.pnt with forces := sput s.pnt.forces e.1 { e.2 with orphan } } }
      let s := s.writeRec p { s.point p with orphan }
      if orphan then (s.report .note 6 4 0xFF p).count 0x3098 1 else s) s

/-! ### Activation and exchange (R144, R153 to R159) -/

/-- Points the old image wrote and the new one does not, with SAFE in the release list (R159). -/
def releaseSafe (old new : Image) : List Nat :=
  (old.writers.map (·.1)).filter fun p =>
    !(new.writers.any fun w => w.1 == p) && new.releases.any fun r => r.point == p && r.safe

/-- The old tasks of a booth retired (R143). -/
def State.retireTasks (s : State) (booth : Nat) : State :=
  { s with prg := { s.prg with tasks := s.prg.tasks.map fun e =>
      if e.2.booth = booth ∧ e.2.state ≠ .retired then (e.1, { e.2 with state := .retired }) else e } }

/-- A booth's image switched at a boundary: old tasks retired, new ones running, writer map switched, release actions
and orphan marking applied (R154 step 5, R144). A revert leaves no retired copy of the image it brings back (R158). -/
def State.switchImage (s : State) (booth : Nat) (new : Image) : State :=
  let old := (s.prg.active.find? fun e => e.1 == booth).map (·.2)
  let oldIdx := (s.prg.tasks.filter fun e => e.2.booth == booth && e.2.state != .retired).map (·.1)
  let s := oldIdx.foldl (fun (s : State) i => s.dropWriter (.task i)) s
  let s := { s with prg := { s.prg with tasks := s.prg.tasks.filter fun (e : Nat × Task) =>
    !(e.2.booth == booth && e.2.state == TaskState.retired && e.2.image == new.ident) } }
  let s := (s.retireTasks booth).placeTasks new.tasks
  let s := { s with prg := { s.prg with
      active := sput s.prg.active booth new
      retired := (s.prg.retired.filter fun (e : Nat × Image) => !(e.1 == booth && e.2.ident == new.ident)) ++
        (old.map fun o => (booth, o)).toList
      durable := sset false s.prg.durable booth old.isNone } }
  let s := match old with
    | some o => { s with crsl := { s.crsl with releaseSafe := s.crsl.releaseSafe ++ releaseSafe o new } }
    | none => s
  s.markOrphans.noteOut fun (c : SyncChange) => { c with images := c.images ++ [(booth, new)] }

/-- IMAGE_LOAD applied at its boundary (R389, R144): a suspended image hands its state over, its dropped symbols counted (R155). -/
def State.applyImage (s : State) (booth : Nat) (img : Image) : State :=
  let old := ((s.prg.active.find? fun e => e.1 == booth).map (·.2.syms)).getD []
  let img := { img with syms := img.syms.map fun x => x.takeFrom old }
  let t := ((s.switchImage booth img).count 0x3080 1).count 0x3094 (handedSyms old img.syms)
  if s.prg.active.any fun e => e.1 == booth then t.setFld 0x3008 15 0 (satNat 65535 (droppedSyms old img.syms)) else t

/-- SWB_SWITCH at boundary b (R154 step 5). -/
def State.swbSwitch (s : State) (booth : Nat) (a : Armed) : State :=
  let s := { s with prg := { s.prg with armed := serase s.prg.armed booth } }
  let s := s.switchImage booth a.image
  let s := (s.setReg 0x3008 (place 2 30 ||| place (s.fld 0x3008 27 24) 24 ||| place booth 16 |||
    place (satNat 65535 a.dropped) 0)).setPair 0x300C a.boundary
  (s.reportBare .note 6 7 (BitVec.ofNat 8 booth)).count 0x308C 1

/-- SWB_ABORT (R157): REASON Bh, the old image stays. -/
def State.swbAbort (s : State) (booth : Nat) : State :=
  if s.prg.armed.any fun e => e.1 == booth then
    let s := { s with prg := { s.prg with armed := serase s.prg.armed booth }
                      mbx := { s.mbx with sched := s.mbx.sched.filter fun (x : Sched) => x.target != Target.swb booth } }
    ((s.setReg 0x3008 (place 11 24 ||| place booth 16)).setSQ 6 6).count 0x3090 1
  else s

/-- Every armed exchange aborted: a Trapeze switch-over begins, and the catcher does not hold the staged images (R157). -/
def State.swbAbortAll (s : State) : State := s.prg.armed.foldl (fun (s : State) e => s.swbAbort e.1) s

/-- Exchanges whose boundary is b, copied in Housekeeping of b (R154 step 4, R155). -/
def State.swbCopy (s : State) : State :=
  (s.prg.armed.filter fun e => e.2.boundary == s.rev).foldl (fun (s : State) e =>
    let old := ((s.prg.active.find? fun x => x.1 == e.1).map (·.2.syms)).getD []
    let img := { e.2.image with syms := e.2.image.syms.map fun x => x.takeFrom old }
    let dropped := droppedSyms old img.syms
    ({ s with prg := { s.prg with armed := sput s.prg.armed e.1 { e.2 with image := img, dropped } } }).count 0x3094
      (handedSyms old img.syms)) s

/-! ### Suspension (R144) -/

/-- PERIOD_SUSPEND: images recorded for another period than CRSL_CONFIG.PERIOD suspended, and those recorded for this one resumed. -/
def State.periodCheck (s : State) : State :=
  s.prg.active.foldl (fun (s : State) e =>
    let bad := decide (e.2.period ≠ s.fld 0x0800 1 0)
    let idx := (s.prg.tasks.filter fun t => t.2.booth == e.1 && t.2.state != .retired).map (·.1)
    let s := idx.foldl (fun (s : State) i =>
      let t := s.task i
      if bad then
        if t.state = .suspendedPeriod then s
        else
          let s := if t.state = .running then s.setSQ 6 0 else s
          (s.dropWriter (.task i)).setTask i { t with state := .suspendedPeriod }
      else if t.state = .suspendedPeriod then s.setTask i { t with state := .running } else s) s
    if bad then s.reportBare .warn 6 8 (BitVec.ofNat 8 e.1) else s) s

/-! ### Task runs (R138 to R142, R156) -/

/-- TIMER_CALL and edge detectors (R138, R156): one call of a standard block in revolution n. Kinds 1 TON, 2 TOF, 3 TP,
4 R_TRIG, 5 F_TRIG (R135). -/
def Sym.call (x : Sym) (n : Nat) (us : Nat) (input : Bool) (pt : Int) : Sym :=
  let et := x.et + ((n - x.lastCall) * us : Nat)
  match x.kind with
  | 1 =>
    let et := if input then (if x.inPrev then et else 0) else 0
    let et := if pt < et then pt else et
    { x with et, q := input && decide (pt ≤ et), inPrev := input, lastCall := n, fresh := false }
  | 2 =>
    let et := if input then 0 else if x.inPrev then 0 else if x.q then et else x.et
    let q := input || ((x.q || x.inPrev) && decide (et < pt))
    { x with et := if pt < et then pt else et, q, inPrev := input, lastCall := n, fresh := false }
  | 3 =>
    let start := input && !x.inPrev && !x.q && decide (x.et = 0)
    let et := if start then 0 else if x.q then et else x.et
    let et := if pt < et then pt else et
    let q := if start then decide (0 < pt) else x.q && decide (et < pt)
    let et := if !q && !input && !start then 0 else et
    { x with et, q, inPrev := input, lastCall := n, fresh := false }
  | 4 =>
    let prev := if x.fresh then input else x.inPrev
    { x with q := input && !prev, inPrev := input, lastCall := n, fresh := false }
  | 5 =>
    let prev := if x.fresh then input else x.inPrev
    { x with q := !input && prev, inPrev := input, lastCall := n, fresh := false }
  | _ => x

/-- A symbol of a list replaced by identifier. -/
def symMap (l : List Sym) (id : W64) (f : Sym → Sym) : List Sym := l.map fun x => if x.ident = id then f x else x

/-- A due task's period, doubled for a stretched class-3 task (R140). -/
def State.taskDue (s : State) (t : Task) : Bool :=
  let m := if 4 ≤ s.ledger.house ∧ t.cls = 3 then 2 * t.period else t.period
  decide (t.state = .running ∧ m ≠ 0 ∧ s.pairRev % m = t.offset) && decide (s.sys.jugState.getD t.jug 0 ≠ 2)

/-- The points a task's run reads, each passing the access check of its booth (R23). -/
def State.taskReads (s : State) (b : Nat) : List Nat → State × List PRec
  | [] => (s, [])
  | p :: t =>
    let (s, r) := s.readPoint b p
    let (s, l) := s.taskReads b t
    (s, r :: l)

/-- An output request of a task: checked (R77, R79) and entered in the commit list (R38, R142); a later request for the
point in the run replaces it. DESIGN CHOICE: no field of PRG_TASK_STAT shows a deferral (R26); a deferred move, one that found no room
(R66) among them, shows as QUALITY 43h of its point, and a held request in the request list besides. Unsafe (log entry 138). -/
def State.request (s : State) (i : Nat) (t : Task) (pts : List Nat) (p : Nat) (v : W64) : State :=
  match s.check t.booth .write p true false with
  | .allow =>
    if p ∈ pts then
      let s := { s with crsl := { s.crsl with moves := s.crsl.moves.filter fun m => m.point != p } }
      let (s, ok) := s.enterMove { point := p, value := v, cls := t.cls, writer := .task i }
      if ok then s else { s with crsl := { s.crsl with noRoom := p :: s.crsl.noRoom } }
    else s
  | v => s.noteDenial t.booth .write p v

/-- TASK_RUN (R139): reads, block calls, variables, output requests; its run time and count. -/
def State.runTask (s : State) (i time : Nat) : State :=
  let t := s.task i
  match s.prg.active.find? fun e => e.1 == t.booth with
  | none => s
  | some e =>
    let img := e.2
    let pts := s.taskPoints i
    let (s, recs) := s.taskReads t.booth (Config.taskReads img.ident t.number s.pairRev img.syms)
    let syms := (Config.taskCalls img.ident t.number s.pairRev img.syms recs).foldl
      (fun l c => symMap l c.1 fun x => x.call s.pairRev (s.periodNs / 1000) c.2.1 c.2.2) img.syms
    let reqs := Config.taskRequests img.ident t.number s.pairRev syms recs
    let syms := (Config.taskVars img.ident t.number s.pairRev syms recs).foldl
      (fun l c => symMap l c.1 fun x => if x.kind = 0 then { x with words := c.2 } else x) syms
    let s := { s with prg := { s.prg with active := sput s.prg.active t.booth { img with syms } } }
    let s := reqs.foldl (fun (s : State) q => s.request i t pts q.1 q.2) s
    let s := if 2 ≤ s.ledger.house then s
      else s.setTask i { t with lastRun := time, maxRun := Nat.max t.maxRun time }
    s.count (0x2100 + 4 * t.jug) 1

/-- Due tasks of a Juggler in ascending priority number, then task-table index (R139). -/
def State.dueTasks (s : State) (k : Nat) : List Nat :=
  let l := s.prg.tasks.filter fun e => e.2.jug == k && s.taskDue e.2
  (List.range 16).flatMap fun p => (l.filter fun e => e.2.prio == p).map (·.1)

/-- Every due task run, Juggler by Juggler (R139). -/
def State.runTasks (s : State) (times : List Nat) : State :=
  (List.range 16).foldl (fun (s : State) k =>
    (s.dueTasks k).foldl (fun (s : State) i => s.runTask i (times.getD i 0)) s) s

/-- A task stopped: requests and moves of it removed, TASK_STOP set where it left RUNNING (R60, R143, R233). -/
def State.stopTask (s : State) (i : Nat) (st : TaskState) : State :=
  let t := s.task i
  if t.state = .empty ∨ t.state = .retired then s
  else
    let s := s.dropWriter (.task i)
    let s := { s with crsl := { s.crsl with moves := s.crsl.moves.filter fun (m : Move) => m.writer != Writer.task i } }
    let s := s.setTask i { t with state := st }
    if t.state = .running then s.setSQ 6 0 else s

/-- STOPPED_OVERRUN (R60): the run is stopped, its requests removed, its variables left as they stood, each a free
value. -/
def State.taskOverrun (s : State) (i : Nat) : State :=
  let t := s.task i
  if t.state = .running ∧ s.taskDue t then
    let s := s.stopTask i .stoppedOverrun
    let s := match s.prg.active.find? fun e => e.1 == t.booth with
      | some e =>
        let syms := e.2.syms.map fun (x : Sym) => if x.task = t.number then
          let v := fun k => s.drawnFor (x.ident.toNat * 65536 + k)
          { x with words := (List.range x.words.length).map v, et := if x.kind = 0 then x.et else ((v 65533).toNat : Int)
                   inPrev := (v 65534).getLsbD 0, q := (v 65535).getLsbD 0 } else x
        { s with prg := { s.prg with active := sput s.prg.active t.booth { e.2 with syms } } }
      | none => s
    let off := 0x0940 + 4 * t.jug
    let s := (s.bumpSat off 31 16).setFld off 7 0 i
    let s := { s with cnt := sset 0 s.cnt (0x2100 + 4 * t.jug) (s.total (0x2100 + 4 * t.jug) - 1) }
    (s.reportBare .fault 1 14 (BitVec.ofNat 8 t.booth)).count 0x0894 1
  else s

/-! ### Retention (R147 to R151) -/

/-- The CRC-32 a snapshot's commit record calls for (R147, R68). -/
def Retentive.crcOf (r : Retentive) : W32 := crc32 (Config.commitRecord r.seq r.rev r.images)

/-- A snapshot with the CRC-32 of its commit record. -/
def Retentive.sealed (r : Retentive) : Retentive := { r with crc := r.crcOf }

/-- The retentive state as it stands (R147). -/
def State.retentive (s : State) (seq : Nat) : Retentive :=
  let r : Retentive :=
  { seq := seq, rev := s.rev, images := s.prg.active.map (fun e => (e.1, e.2.ident)),
    syms := s.prg.active.map (fun e => (e.1, e.2.syms)), ctx := s.loop.ctx, forces := s.pnt.forces,
    counts := (List.range 32).filterMap fun k =>
      if s.fioMode k = 2 then some (k, (s.fch k).count) else none,
    pages := Config.pagesChanged s.free }
  r.sealed

/-- A snapshot whose commit record's CRC-32 is right. -/
def usable (r : Option Retentive) : Option Retentive := r.filter fun x => x.crc == x.crcOf

/-- The newest complete checkpoint. -/
def Ckpt.newestRec (c : Ckpt) : Option Retentive :=
  match c.newest with
  | some b => usable (c.banks.getD b none)
  | none => none

/-- The sequence of the newest complete checkpoint, 0 where there is none. -/
def Ckpt.newestSeq (c : Ckpt) : Nat := (c.newestRec.map fun (r : Retentive) => r.seq).getD 0

/-- CHECKPOINT_SNAPSHOT (R148): taken at n mod 100 = 99 unless one is being written, and in b + 1 of an exchange, which also
moves one due in b there (R154): that snapshot is taken also while another is being written, and written after it. A late one begins
again at once (R59), an abandoned one when the supply has recovered (R150). -/
def State.snapshot (s : State) : State :=
  let c := s.prg.ckpt
  let s := { s with prg := { s.prg with ckpt := { c with
      writing := some (s.retentive (c.newestSeq + 1)), writingFinal := false, begun := s.rev, again := false, skipTo := none } } }
  s.setFld 0x3014 11 0 (Config.pagesChanged s.free % 4096)

/-- The snapshot work of one Housekeeping window (R148, R150, R154): the snapshot of b + 1 of an exchange waits for a write in
progress, a final save's among them. -/
def State.snapshotDue (s : State) : State :=
  let c := s.prg.ckpt
  let swbNow := s.prg.armed.any fun e => e.2.boundary == s.rev
  let after := decide (c.skipTo = some s.rev)
  if c.finalDue then
    let s := { s with prg := { s.prg with ckpt := { c with
        writing := some (s.retentive c.newestSeq), writingFinal := true, final := none, finalDue := false,
        begun := s.rev, waiting := if after then some (s.retentive 0) else c.waiting
        skipTo := if swbNow then some (s.rev + 1) else c.skipTo } } }
    (s.setFld 0x3014 11 0 (Config.pagesChanged s.free % 4096)).setFld 0x3014 13 13 0
  else
    if c.writing.isSome then
      { s with prg := { s.prg with ckpt := { c with
          waiting := if after then some (s.retentive 0) else c.waiting
          skipTo := if swbNow then some (s.rev + 1) else c.skipTo } } }
    else if swbNow then { s with prg := { s.prg with ckpt := { c with skipTo := some (s.rev + 1) } } }
    else if decide (s.rev % 100 = 99) || (c.again && !s.pwr.early) || after then s.snapshot
    else s

/-- A snapshot that waited for the write before it, written next. -/
def State.nextWaiting (s : State) : State :=
  let c := s.prg.ckpt
  match c.waiting with
  | some r =>
    if c.writing.isSome then s
    else { s with prg := { s.prg with ckpt := { c with
        writing := some ({ r with seq := c.newestSeq + 1 } : Retentive).sealed, waiting := none, begun := s.rev } } }
  | none => s

/-- CHECKPOINT_COMPLETE (R149, R154): the commit record reads back correct, or the bank is not used. -/
def State.checkpointDone (s : State) (good : Bool) : State :=
  let c := s.prg.ckpt
  match c.writing with
  | none => s
  | some r =>
    if c.writingFinal then s
    else
      let bank := match c.newest with
        | some 0 => 1
        | _ => 0
      if good then
        let s := { s with prg := { s.prg with
          ckpt := { c with banks := lmod c.banks bank fun _ => some r, newest := some bank, final := none,
                           writing := none }
          durable := s.prg.active.foldl (fun (d : Sparse Bool) (e : Nat × Image) =>
            if r.images.contains (e.1, e.2.ident) then sset false d e.1 true else d) s.prg.durable } }
        let s := (((s.setFld 0x3014 31 16 (r.seq % 65536)).setFld 0x3014 15 15 bank).setFld 0x3014 13 13 0)
        let swb := s.fld 0x3008 31 30
        let b := s.fld 0x3008 23 16
        let s := if swb = 2 ∧ sget false s.prg.durable b then s.setFld 0x3008 31 30 3 else s
        ((s.count 0x309C 1).count 0x08B4 1).nextWaiting
      else
        let s := { s with prg := { s.prg with ckpt := { c with
            banks := lmod c.banks bank fun _ => none, writing := none } } }
        ((s.setSQ 6 1).count 0x30AC 1).nextWaiting

/-- CKPT_LATE (R59): a checkpoint begun 100 revolutions ago or earlier is still being written. -/
def State.ckptLate (s : State) : State :=
  let c := s.prg.ckpt
  if c.writing.isSome ∧ c.writingFinal = false ∧ c.begun + 100 ≤ s.rev then
    ({ s with prg := { s.prg with ckpt := { c with again := true } } }.reportBare .warn 1 8 0xFF).count 0x08B8 1
  else s

/-- FINAL_SAVE (R150): a checkpoint being written is abandoned; the snapshot follows in the next Housekeeping. -/
def State.finalSave (s : State) : State :=
  let c := s.prg.ckpt
  let s := if c.writing.isSome ∧ c.writingFinal = false then s.count 0x30A0 1 else s
  { s with prg := { s.prg with ckpt := { c with
      writing := none, writingFinal := false, waiting := none, finalDue := true,
      again := c.again || (c.writing.isSome && !c.writingFinal) || c.waiting.isSome } } }

/-- FINAL_SAVE_COMPLETE (R150): its pages have been written to FRAM outside the windows (PRG_CNT10); a snapshot that waited for it is
written next. -/
def State.finalDone (s : State) (good : Bool) : State :=
  let c := s.prg.ckpt
  match c.writing with
  | none => s
  | some r =>
    if c.writingFinal = false then s
    else if good then
      let s := { s with prg := { s.prg with ckpt := { c with
          final := some (c.newestSeq, r), writing := none, writingFinal := false } } }
      (((s.setFld 0x3014 13 13 1).count 0x30A4 1).count 0x30A8 r.pages).nextWaiting
    else
      let s := { s with prg := { s.prg with ckpt := { c with writing := none, writingFinal := false } } }
      (((s.setSQ 6 1).count 0x30AC 1).count 0x30A8 r.pages).nextWaiting

/-- A restored context initialises as for OFF to its checkpointed mode (R115). -/
def LoopCtx.restarted (c : LoopCtx) : LoopCtx :=
  { c with initNext := true, reinit := false, proposed := none, notEntered := false, undo := 0 }

/-- A context restored while the module runs: its output may still carry the injection of a test that has ended (R125). -/
def LoopCtx.restoredOver (c old : LoopCtx) : LoopCtx := { c.restarted with stateBad := false, undo := old.undo }

/-- A symbol restored at a start: LAST_CALL is the first revolution after it (R152). -/
def Sym.restarted (x : Sym) (n : Nat) : Sym := { x with lastCall := n }

/-- The state a checkpoint or final save restores (R151, R152, R161): variables of the images it names, loop contexts,
forces with their points' marks, counts. -/
def State.restoreFrom (s : State) (r : Retentive) (first : Nat) : State :=
  let active := s.prg.active.map fun e =>
    match r.syms.find? fun x => x.1 == e.1 with
    | some x => (e.1, { e.2 with syms := x.2.map fun y => y.restarted first })
    | none => e
  { s with
    prg := { s.prg with active }
    loop := { s.loop with ctx := r.ctx.map fun e => (e.1, e.2.restarted) }
    pnt := { s.pnt with forces := r.forces }
    fioCh := (List.range 32).map fun k =>
      let c := s.fch k
      match r.counts.find? fun e => e.1 == k with
      | some e => { c with count := e.2, gateBase := e.2, rate := 0, lastEdge := none, lastIval := none }
      | none => c }

/-- The images that run after a start: those the restored commit record names (R161). An exchange not yet durable whose
record names a retired image is undone, and the newer image stays in the store until its release; a booth's image that the record
does not name does not run. -/
def State.undoExchanges (s : State) (images : List (Nat × W64)) : State :=
  let unnamed (b : Nat) : Bool := !(images.any fun x => x.1 == b)
  let s := { s with prg := { s.prg with
    active := s.prg.active.filter fun (e : Nat × Image) => !unnamed e.1
    tasks := s.prg.tasks.filter fun (t : Nat × Task) => !(unnamed t.2.booth && t.2.state != TaskState.retired) } }
  images.foldl (fun (s : State) (e : Nat × W64) =>
    let act := (s.prg.active.find? fun x => x.1 == e.1).map (·.2.ident)
    match s.prg.retired.find? fun x => x.1 == e.1 && x.2.ident == e.2 with
    | some o =>
      if act ≠ some e.2 then
        let s := { s with prg := { s.prg with
            active := sput s.prg.active e.1 o.2
            retired := (s.prg.retired.filter fun (x : Nat × Image) => !(x.1 == e.1 && x.2.ident == e.2)) ++
              (s.prg.active.filter fun (x : Nat × Image) => x.1 == e.1)
            tasks := s.prg.tasks.map fun (t : Nat × Task) =>
              if t.2.booth = e.1 then (t.1, { t.2 with state := if t.2.image = e.2 then .running else .retired }) else t } }
        s.reportBare .warn 6 5 (BitVec.ofNat 8 e.1)
      else s
    | none => s) s

/-- RESTORE (R151): the newest complete checkpoint, then the final save when it names that checkpoint. -/
def State.restore (s : State) (first : Nat) : State :=
  let c := s.prg.ckpt
  let base := c.newestRec
  let fin := match c.final with
    | some (q, r) => if (base.map fun (r : Retentive) => r.seq) = some q then usable (some r) else none
    | none => none
  match fin, base with
  | some r, _ =>
    ((s.undoExchanges r.images).restoreFrom r first).setPair 0x3018 r.rev
  | none, some r =>
    (((s.undoExchanges r.images).restoreFrom r first).setPair 0x3018 r.rev).reportBare .note 6 3 0xFF
  | none, none =>
    ({ s with
      prg := { s.prg with active := s.prg.active.map fun (e : Nat × Image) =>
        (e.1, { e.2 with syms := e.2.initial.map fun (y : Sym) => y.restarted first }) }
      loop := { s.loop with ctx := [] }
      pnt := { s.pnt with forces := [] } }).reportBare .warn 6 2 0xFF

/-- CONTEXT_RESTORE (R128): contexts in HOLD after a mismatch restored from their checkpoint. -/
def State.restoreContexts (s : State) : State :=
  match s.prg.ckpt.newestRec with
  | none => s
  | some r => s.loop.ctx.foldl (fun (s : State) e =>
      if e.2.stateBad then
        let c := sget {} r.ctx e.1
        if c.inUse ∧ c.w 63 = c.crcOf then
          (s.setCtx e.1 (c.restoredOver e.2)).count 0x28A0 (if c.mode = e.2.mode then 0 else 1) else s
      else s) s

/-! ### PRG and JUG words -/

/-- The number of a task state (R143). -/
def TaskState.num : TaskState → Nat
  | .empty => 0
  | .running => 1
  | .stoppedCmd => 2
  | .stoppedOverrun => 3
  | .stoppedFault => 4
  | .retired => 5
  | .suspendedPeriod => 6

/-- PRG_TASK_STAT of the selected task. -/
def State.taskWord (s : State) : W32 :=
  let t := s.task (s.fld 0x3020 7 0)
  if t.state = .empty then 0
  else place t.state.num 29 ||| place t.cls 27 ||| flagAt (decide (4 ≤ s.ledger.house ∧ t.cls = 3)) 26 |||
    place t.prio 22 ||| place t.jug 18 ||| place t.booth 10 ||| place t.period 0

/-- KiB of a number of bytes, rounded up. -/
def kib (n : Nat) : Nat := (n + 1023) / 1024

/-- JUG_MEMk. -/
def State.jugMem (s : State) (k : Nat) : W32 :=
  let ts := (s.prg.tasks.map (·.2)).filter fun t => t.jug == k
  let st := (s.prg.armed.flatMap fun e => e.2.image.tasks).filter fun t => t.jug == k
  let code := kib (ts.map (·.codeSize)).sum
  let data := kib (ts.map (·.dataSize)).sum
  let staged := kib (st.map fun t => t.codeSize + t.dataSize).sum
  place code 24 ||| place data 16 ||| place staged 8 ||| place (64 - (code + data + staged)) 0

end Sys2Proof.Machine
end

