-- ==== Sys2Proof/Machine/Field.lean ====
section
/-! DEFINITION. The field channels and the Tightrope links (chapter 09, R249 to R274): the module side in IOE-FLD and the
far side of the barrier, the settings posted to it, its diagnoses, counts and rates, and FIO_RETRY (R392). -/

namespace Sys2Proof.Machine

/-! ### Frames (R264, R265) -/

/-- The CRC of a Tightrope frame over bits [63:16] for group `g` and direction `d` (R265). -/
def ropeCrc (g d : Nat) (f : W64) : Nat :=
  (bitsDown 48 (f.toNat / 65536)).foldl (crc16Bit 0x1021) (Nat.xor 0xFFFF (0x100 * g + d))

/-- A frame of these upper 48 bits with its CRC. -/
def ropeFrame (g d upper : Nat) : W64 :=
  let f : W64 := BitVec.ofNat 64 (upper * 65536)
  f ||| BitVec.ofNat 64 (ropeCrc g d f)

/-- Bits [hi:lo] of a frame. -/
def fbits (f : W64) (hi lo : Nat) : Nat := f.toNat / 2 ^ lo % 2 ^ (hi + 1 - lo)

/-- The CRC of a frame is correct. -/
def ropeGood (g d : Nat) (f : W64) : Bool := decide (ropeCrc g d f = fbits f 15 0)

/-! ### Records -/

/-- A group record replaced. -/
def State.setGrp (s : State) (g : Nat) (x : FioGrp) : State := { s with fioGrp := lmod s.fioGrp g fun _ => x }

/-- A channel record replaced. -/
def State.setFch (s : State) (k : Nat) (x : FioCh) : State := { s with fioCh := lmod s.fioCh k fun _ => x }

/-- MODE in the far side's copy of a channel's settings. -/
def FioCh.farMode (c : FioCh) : Nat := bits c.farCfg 15 14

/-- A rate as FIO_CHk_RATE holds it: a quotient beyond its 31 bits has no stated value. -/
def State.rateWord (s : State) (k : Nat) (x : Int) : W32 :=
  if x < 2147483648 then BitVec.ofInt 32 x else (s.drawnFor k).setWidth 32

/-! ### Outbound (R263, R266, R267, R270 to R272) -/

/-- The setting word a frame carries for a channel of the group. -/
def State.setting (s : State) (k : Nat) (half : Bool) : W32 := s.reg (if half then 0x40C0 + 4 * k else 0x4040 + 4 * k)

/-- The output points of a group whose record fails its CRC: the frame taken from them is discarded (R272). -/
def State.badOutputs (s : State) (g : Nat) : List Nat :=
  ((List.range 8).map (8 * g + ·)).filterMap fun k =>
    let r := s.point (s.fioPoint k)
    if s.fioMode k = 3 ∧ r.crc ≠ r.crcOf then some (s.fioPoint k) else none

/-- The far side's copy of one setting word of a channel. -/
def FioCh.farWord (c : FioCh) (half : Bool) : W32 := if half then c.farTime else c.farCfg

/-- An input or counting channel on the far side. -/
def FioCh.farIn (c : FioCh) : Bool := decide (c.farMode = 1 ∨ c.farMode = 2)

/-- A setting that reaches the far side: adopted whole (R267, R271); a diagnosis that the new use of the channel does not have ends
(R254, R260). -/
def FioCh.adopt (c : FioCh) (half : Bool) (w : W32) : FioCh :=
  if half then { c with farTime := w }
  else
    let c := { c with farCfg := w }
    let out := decide (c.farMode = 3)
    { c with wireBreak := c.wireBreak && c.farIn && bitAt w 8, overload := c.overload && out, overtemp := c.overtemp && out,
             openWire := c.openWire && out }

/-- What the far side does with an output at a commanded state or, without one, of its own (R260, R262, R268): a commanded 0 ends a latched
OVERLOAD, and OVERTEMP once the junction is cool. -/
def FioCh.drive (c : FioCh) (cmd : Option Bool) (cool safe : Bool) : FioCh :=
  let c := if cmd = some false then { c with overload := false, overtemp := c.overtemp && !cool } else c
  let c := { c with latched := c.overload || c.overtemp }
  if c.farMode = 3 then
    let want := if safe then (match bits c.farCfg 13 12 with
      | 0 => false
      | 1 => true
      | _ => c.driven) else cmd.getD c.driven
    { c with driven := want && !c.latched }
  else { c with driven := false }

/-- The far side at the end of a good outbound frame (R267, R268, R271): the setting it carries, applied with an ACK to follow where it is
NEW, else compared with the copy and FIX to follow on a difference; then the outputs. -/
def State.farApply (s : State) (g : Nat) (f : W64) (cool : BitVec 8) : State :=
  let safe := decide (fbits f 56 56 = 1)
  let k := 8 * g + fbits f 61 59
  let half := decide (fbits f 58 58 = 1)
  let new := decide (fbits f 57 57 = 1)
  let w : W32 := BitVec.ofNat 32 (fbits f 47 16)
  let x := s.fgrp g
  let s := s.setGrp g { x with farSafe := safe && x.farSafe, outBad := 0, farAck := x.farAck || new,
                               farFix := x.farFix || (!new && (s.fch k).farWord half != w) }
  let s := s.setFch k ((s.fch k).adopt half w)
  (List.range 8).foldl (fun (s : State) c =>
    s.setFch (8 * g + c)
      ((s.fch (8 * g + c)).drive (some (decide (fbits f (48 + c) (48 + c) = 1))) (cool.getLsbD c) safe)) s

/-- The state an inbound frame carries for a channel: debounced, or driven for an output (R264). -/
def FioCh.farState (c : FioCh) : Bool := if c.farMode = 3 then c.driven else c.farIn && c.level

/-- The diagnoses an inbound frame carries of a channel: OVERLOAD, OPEN_WIRE, OVERTEMP, WIRE_BREAK (R264). -/
def FioCh.farDiag (c : FioCh) : Nat := 8 * c.overload.toNat + 4 * c.openWire.toNat + 2 * c.overtemp.toNat + c.wireBreak.toNat

/-- The inbound frame the far side of a group sends next (R264, R265). -/
def State.farFrame (s : State) (g : Nat) : W64 :=
  let x := s.fgrp g
  let inw := (List.range 8).foldl (fun (n : Nat) c => n + (s.fch (8 * g + c)).farState.toNat * 2 ^ c) 0
  let c := s.fch (8 * g + x.farSlot)
  ropeFrame g 1 (x.farSeq * 2 ^ 46 + x.farSlot * 2 ^ 43 + x.farAck.toNat * 2 ^ 42 + x.farFix.toNat * 2 ^ 41 +
    x.farSafe.toNat * 2 ^ 40 + inw * 2 ^ 32 + c.farDiag * 2 ^ 28 + c.farCount.toNat)

/-- The far side once a frame of its own has gone out, be it received or not: SEQ and SLOT step on, and the frame told its ACK and FIX. -/
def State.farSent (s : State) (g : Nat) : State :=
  let x := s.fgrp g
  s.setGrp g { x with farSeq := (x.farSeq + 1) % 4, farSlot := (x.farSlot + 1) % 8, farAck := false, farFix := false }

/-- An outbound frame that failed or did not arrive (R268). -/
def State.farMissed (s : State) (g : Nat) : State := s.setGrp g { s.fgrp g with outBad := (s.fgrp g).outBad + 1 }

/-- A channel's rate from a start or a change of MODE: 0 until its first gate or interval has completed (R258). -/
def FioCh.rateAfresh (c : FioCh) : FioCh := { c with rate := 0, lastEdge := none, lastIval := none, gateBase := c.count }

/-- A channel at a start: its rate afresh, COUNT_GAP at its Reset column (R6, R258). -/
def FioCh.atStart (c : FioCh) : FioCh := { c.rateAfresh with countGap := false }

/-- The rate of period mode for an interval in ns: 0 without one (R258). -/
def State.periodRate (s : State) (k : Nat) (i : Option Int) : W32 :=
  match i with
  | some i => s.rateWord k (roundOpen 65536000000000 (maxI 1 i))
  | none => 0

/-- A posted setting of a group confirmed by the far side: the register reads it from now on (R271, R362). A change of MODE starts the
channel's rate afresh, one of RATE_MODE to 1 takes the last interval, to 0 starts a gate (R258). -/
def State.takeSetting (s : State) (off : Nat) (v : W32) : State :=
  let k := if off < 0x40C0 then (off - 0x4040) / 4 else (off - 0x40C0) / 4
  let old := s.fioMode k
  let rm := s.flag (0x4040 + 4 * k) 5
  let s := (s.applyReg off v).noteWrites [{ off, mask := 0xFFFFFFFF, val := v, due := 0 }]
  let c := s.fch k
  if s.fioMode k ≠ old then s.setFch k c.rateAfresh
  else if s.flag (0x4040 + 4 * k) 5 = rm then s
  else s.setFch k { c with gateBase := c.count, rate := if rm then c.rate else s.periodRate k c.lastIval }

/-- The slot and half of a setting register. -/
def slotOf (off : Nat) : Nat × Bool :=
  if off < 0x40C0 then ((off - 0x4040) / 4 % 8, false) else ((off - 0x40C0) / 4 % 8, true)

/-- TIGHTROPE_FRAME_SEND (R46, R263, R266, R267, R271, R272): the outbound frame, at whose start a setting that waited for it is applied
and posted, and the far side at its end where it `arrives`
with a correct CRC. `cool` says which driver junctions of the group are below 135 °C. -/
def State.ropeSend (s : State) (g : Nat) (cool : BitVec 8) (arrives : Bool) : State :=
  if s.grpOn g = false then s
  else
    let reach := fun (s : State) (f : W64) => if arrives then s.farApply g f cool else s.farMissed g
    let bad := s.badOutputs g
    if bad.isEmpty = false then
      let s := bad.foldl State.verifyRead s
      reach (s.count 0x42CC 1) (s.fgrp g).lastOut
    else
      let x := s.fgrp g
      let base := x.outSeq * 2 ^ 46 + x.safeCmd.toNat * 2 ^ 40 + x.out.toNat * 2 ^ 32
      match sget none s.posted (100 + g), x.newSent with
      | some w, false =>
        let (slot, half) := slotOf w.off
        let f := ropeFrame g 0 (base + slot * 2 ^ 43 + half.toNat * 2 ^ 42 + 2 ^ 41 + w.val.toNat)
        let s := s.setGrp g { x with outSeq := (x.outSeq + 1) % 4, newPending := none, newSent := true,
                                            lastOut := f }
        let s := if x.newPending.isSome then s.count 0x089C 1 else s
        reach ((s.count 0x42CC 1).count 0x42EC 1) f
      | _, _ =>
        let f := ropeFrame g 0 (base + x.slot * 2 ^ 43 + x.half.toNat * 2 ^ 42 +
          (s.setting (8 * g + x.slot) x.half).toNat)
        let s := s.setGrp g { x with outSeq := (x.outSeq + 1) % 4, slot := (x.slot + 1) % 8,
                                     half := if x.slot = 7 then !x.half else x.half, lastOut := f }
        reach (s.count 0x42CC 1) f

/-! ### Inbound (R257, R258, R261, R265, R267, R270, R271) -/

/-- The reported diagnoses of a channel taken in, each new one recorded (R254, R261). -/
def State.takeDiag (s : State) (k : Nat) (d : BitVec 4) : State :=
  let c := s.fch k
  let new := fun i => d.getLsbD i && !c.diagSeen.getLsbD i
  let s := s.setFch k { c with diagSeen := d }
  let s := if new 3 then (s.report .warn 8 4 0xFF k).count 0x42D8 1 else s
  let s := if new 2 then (s.report .warn 8 4 0xFF k).count 0x42DC 1 else s
  let s := if new 1 then (s.report .warn 8 4 0xFF k).count 0x42E0 1 else s
  let s := if new 0 then (s.setSQ 8 3).count 0x42E4 1 else s
  if c.diagSeen.getLsbD 0 && !d.getLsbD 0 then s.count 0x42E8 1 else s

/-- The far side's count of a counting channel taken in while the link is up (R257), and the interval of period mode
measured on the frame's start `ns` (R258). -/
def State.takeCount (s : State) (k : Nat) (x : BitVec 28) (ns : Int) : State :=
  let c := s.fch k
  if s.fioMode k ≠ 2 then s
  else match c.lastFar with
    | none => s.setFch k { c with lastFar := some x }
    | some l =>
      let d := (x - l).toNat
      if d = 0 then s
      else
        let ival := c.lastEdge.map fun e => ns - e
        let c := { c with lastFar := some x, count := c.count + BitVec.ofNat 32 d, lastEdge := some ns, lastIval := ival }
        s.setFch k (if s.flag (0x4040 + 4 * k) 5 then { c with rate := s.periodRate k ival } else c)

/-- The acknowledgement of a posted setting (R271): ACK ends BUSY while the link is up; without it the setting is sent again. -/
def State.takeAck (s : State) (g : Nat) (ack : Bool) : State :=
  let x := s.fgrp g
  if x.newSent = false then s
  else if ack ∧ x.link = 1 then
    let s := match sget none s.posted (100 + g) with
      | some w => s.takeSetting w.off w.val
      | none => s
    { s.setGrp g { x with newSent := false } with posted := sset none s.posted (100 + g) none }
  else s.setGrp g { x with newSent := false }

/-- An inbound frame that failed or did not arrive (R269). -/
def State.ropeMissed (s : State) (g : Nat) : State :=
  let x := s.fgrp g
  (s.setGrp g { x with badRun := x.badRun + 1, goodRun := 0 }).takeAck g false

/-- An inbound frame as IOE-FLD receives it (R265, R267, R269 to R272). -/
def State.ropeTake (s : State) (g : Nat) (f : W64) (start : Int) (vsup : BitVec 9) (temp : Byte) : State :=
  if ropeGood g 1 f = false then ((s.ropeMissed g).bumpSat (0x4020 + 4 * g) 31 16).count 0x42C4 1
  else
    let x := s.fgrp g
    let seq := fbits f 63 62
    let s := if x.inSeq.isSome ∧ x.inSeq ≠ some ((seq + 3) % 4) then s.count 0x42C8 1 else s
    let ws := decide (fbits f 56 56 = 1)
    let enter := ws && !x.wsafe
    let s := s.setGrp g { x with
      badRun := 0
      goodRun := x.goodRun + 1
      inSeq := some seq
      latest := some (f, s.stampAt (start / 1000))
      vsup := vsup.toNat
      temp := temp
      wsafe := ws
      safeCmd := x.safeCmd || enter
      safeWanted := x.safeWanted || enter
      safeDone := x.safeDone && !enter }
    let s := s.count 0x42C0 1
    let s := if enter then (s.setSQ 8 2).count 0x42F8 1 else s
    let s := if fbits f 57 57 = 1 then (s.report .warn 8 7 0xFF (8 * g + fbits f 61 59)).count 0x42F0 1 else s
    let s := s.takeAck g (decide (fbits f 58 58 = 1))
    let k := 8 * g + fbits f 61 59
    let s := s.takeDiag k (BitVec.ofNat 4 (fbits f 47 44))
    if x.link = 1 then s.takeCount k (BitVec.ofNat 28 (fbits f 43 16)) (s.crsl.upNs + start) else s

/-- TIGHTROPE_FRAME_RECEIVE (R264, R265): the frame the far side sends, with the bits that `noise` turns on the way, or nothing where the
frame does not arrive. `start` is the frame's start in ns from the start of the revolution in progress, before it or after it; `vsup` and
`temp` are what the group reports of itself. -/
def State.ropeReceive (s : State) (g : Nat) (noise : Option W64) (start : Int) (vsup : BitVec 9) (temp : Byte) : State :=
  if s.grpOn g = false then s
  else match noise with
    | some n => (s.farSent g).ropeTake g (s.farFrame g ^^^ n) start vsup temp
    | none => (s.farSent g).ropeMissed g

/-! ### Link events (R268, R269) -/

/-- LINK_LOST (R269): 4 consecutive inbound frames have failed or not arrived. -/
def State.ropeLost (s : State) (g : Nat) : State :=
  let x := s.fgrp g
  if s.grpOn g ∧ x.link = 1 ∧ 4 ≤ x.badRun then
    let s := s.setGrp g { x with link := 2, lostNs := s.crsl.upNs, goodRun := 0 }
    ((s.bumpSat (0x4020 + 4 * g) 15 8).report .warn 8 6 0xFF g).count 0x42D0 1
  else s

/-- A count resumed without its advance after more than 60 s (R257). -/
def State.countGap (s : State) (k : Nat) : State :=
  if s.fioMode k = 2 then
    ((s.setFch k { s.fch k with countGap := true, lastFar := none }).setSQ 8 1).count 0x42FC 1
  else s

/-- LINK_BACK (R269): up after 64 good frames. A link that was training has completed its training. -/
def State.ropeBack (s : State) (g : Nat) : State :=
  let x := s.fgrp g
  if s.grpOn g ∧ x.link ≠ 1 ∧ 64 ≤ x.goodRun then
    let long := decide (x.link = 2 ∧ 60000000000 < s.crsl.upNs - x.lostNs)
    let t := s.setGrp g { x with link := 1, training := false }
    let t := if x.link = 2 then t.setSQ 8 10 else t
    let t := if x.link = 0 ∨ x.training then t.count 0x42D4 1 else t
    if long then ((List.range 8).map (8 * g + ·)).foldl (fun (s : State) k => s.countGap k) t else t
  else s

/-- LINK_RETRAIN (R269): lost for 16 ms, the link is trained again; the training is complete with LINK_BACK. -/
def State.ropeRetrain (s : State) (g : Nat) : State :=
  let x := s.fgrp g
  if s.grpOn g ∧ x.link = 2 then s.setGrp g { x with inSeq := none, badRun := 0, goodRun := 0, training := true } else s

/-- WDOG_SAFE (R268): 8 consecutive outbound frames have failed or not arrived, and the far side drives every output of the group to its
safe value; an IOE-FLD that failed its BIST sends none. -/
def State.ropeWdog (s : State) (g : Nat) : State :=
  if s.grpOn g ∧ (8 ≤ (s.fgrp g).outBad ∨ s.sys.ioeBad.getLsbD 1) then
    let s := s.setGrp g { s.fgrp g with farSafe := true }
    ((List.range 8).map (8 * g + ·)).foldl (fun (s : State) k => s.setFch k ((s.fch k).drive none false true)) s
  else s

/-- A change of GRP_EN (R250): the far side of a group taken out of use has no power, its outputs are off and its link is down; put into use
again, its link is trained from the start. -/
def State.groupsChanged (s : State) (old : W32) : State :=
  (List.range 4).foldl (fun (s : State) g =>
    if bitAt old g = s.grpOn g then s
    else
      let x := s.fgrp g
      let s := s.setGrp g { out := x.out, newPending := x.newPending }
      ((List.range 8).map (8 * g + ·)).foldl (fun (s : State) k =>
        let c := s.fch k
        s.setFch k { cmd := c.cmd, count := c.count, countGap := c.countGap, safeAct := c.safeAct, gateBase := c.count }) s) s

/-! ### Far-side events (R249, R253, R254, R256, R260) -/

/-- DEBOUNCE_CHANGE (R253, R256): the debounced state takes the new level, and a counting channel counts its edge. -/
def State.debounce (s : State) (k : Nat) (level : Bool) : State :=
  let c := s.fch k
  if c.farIn ∧ c.level ≠ level ∧ s.grpOn (k / 8) then
    let hit : Bool := match bits c.farCfg 7 6 with
      | 0 => level
      | 1 => !level
      | _ => true
    s.setFch k { c with level, farCount := if c.farMode = 2 ∧ hit then c.farCount + 1 else c.farCount }
  else s

/-- WIRE_BREAK (R254): with WB_EN, and not while the supply is low (R249). -/
def State.wireBreakOn (s : State) (k : Nat) : State :=
  let c := s.fch k
  if c.farIn ∧ bitAt c.farCfg 8 ∧ s.grpOn (k / 8) ∧ (s.fgrp (k / 8)).supplyLow = false then
    s.setFch k { c with wireBreak := true }
  else s

/-- WIRE_BREAK_END (R254): it ends at once. -/
def State.wireBreakOff (s : State) (k : Nat) : State := s.setFch k { s.fch k with wireBreak := false }

/-- OVERLOAD (R260): the output switches off and latches. -/
def State.overloadOn (s : State) (k : Nat) : State :=
  let c := s.fch k
  if c.farMode = 3 ∧ c.driven then s.setFch k { c with overload := true, latched := true, driven := false } else s

/-- OVERTEMP (R260): the output switches off and latches. -/
def State.overtempOn (s : State) (k : Nat) : State :=
  let c := s.fch k
  if c.farMode = 3 then s.setFch k { c with overtemp := true, latched := true, driven := false } else s

/-- OPEN_WIRE (R260): the output keeps driving; not while the supply is low (R249). -/
def State.openWireOn (s : State) (k : Nat) : State :=
  let c := s.fch k
  if c.farMode = 3 ∧ c.driven ∧ (s.fgrp (k / 8)).supplyLow = false then s.setFch k { c with openWire := true } else s

/-- OPEN_WIRE_CLEAR (R260): 8 mA or more while on. -/
def State.openWireOff (s : State) (k : Nat) : State :=
  let c := s.fch k
  if c.driven then s.setFch k { c with openWire := false } else s

/-- SUPPLY_LOW (R249). -/
def State.fieldLow (s : State) (g v10 : Nat) : State :=
  if s.grpOn g then (s.setGrp g { s.fgrp g with supplyLow := true, vsup := v10 % 512 }).setSQ 8 0 else s

/-- FIELD_SUPPLY_RETURN (R249). -/
def State.fieldBack (s : State) (g v10 : Nat) : State :=
  if s.grpOn g then s.setGrp g { s.fgrp g with supplyLow := false, vsup := v10 % 512 } else s

/-! ### Rates (R258) -/

/-- The gate of a channel in ns: RATE_WIN ms in whole revolutions. -/
def State.gateNs (s : State) (k : Nat) : Int :=
  roundOpen (s.fld (0x40C0 + 4 * k) 31 16 * 1000000) s.periodNs * s.periodNs

/-- RATE_GATE_END (R258). -/
def State.gateEnd (s : State) (k : Nat) : State :=
  let c := s.fch k
  if s.fioMode k = 2 ∧ s.flag (0x4040 + 4 * k) 5 = false then
    let n : Int := (c.count - c.gateBase).toNat
    s.setFch k { c with gateBase := c.count,
                        rate := s.rateWord k (roundOpen (n * 65536000000000) (maxI 1 (s.gateNs k))) }
  else s

/-- The fall of a period-mode rate when no edge arrives (R258), taken in Intake. -/
def State.rateFall (s : State) (k : Nat) : State :=
  let c := s.fch k
  match c.lastEdge, c.lastIval with
  | some e, some i =>
    let d := (s.crsl.upNs : Int) - e
    if s.fioMode k ≠ 2 ∨ s.flag (0x4040 + 4 * k) 5 = false then s
    else if (s.fld (0x40C0 + 4 * k) 31 16 : Int) * 1000000 < d then s.setFch k { c with rate := 0 }
    else if d ≤ i then s
    else s.setFch k { c with rate := s.periodRate k (some d) }
  | _, _ => s

/-! ### Intake (R250, R255, R257, R265) -/

/-- The point of a channel has the source class and TYPE its MODE needs (R250): FIO_IN BOOL or UINT32, FIO_OUT BOOL. -/
def State.fioFits (s : State) (k : Nat) : Bool :=
  let r := s.point (s.fioPoint k)
  match s.fioMode k with
  | 1 => decide (r.src = 2 ∧ r.typ = 0)
  | 2 => decide (r.src = 2 ∧ r.typ = 2)
  | 3 => decide (r.src = 8 ∧ r.typ = 0)
  | _ => false

/-- An output of a group in use again leaves C1h for what R73 gives it (R250). -/
def State.backInUse (s : State) (p : Nat) : State :=
  if (s.point p).quality = 0xC1 then s.setQuality p (if s.heldSafe p then 0x84 else 0) s.commitStamp else s

/-- The output channels of groups out of use take C1h in Commit, those of groups in use again leave it (R39, R250). -/
def State.fieldOutputs (s : State) : State :=
  ((List.range 32).filter fun k => decide (s.fioMode k = 3)).foldl (fun (s : State) k =>
    if s.fioFits k = false then s
    else if s.grpOn (k / 8) = false then s.setQuality (s.fioPoint k) 0xC1 s.commitStamp
    else s.backInUse (s.fioPoint k)) s

/-- One channel latched in Intake; the inputs of a member that does not drive take no part in control, and its point table keeps what the
pair's sync brings (R403). -/
def State.latchChannel (s : State) (k : Nat) : State :=
  let x := s.fgrp (k / 8)
  let p := s.fioPoint k
  let m := s.fioMode k
  let s := s.rateFall k
  let s := match s.grpOn (k / 8), x.latest with
    | true, some (f, _) => s.setFch k { s.fch k with shown := decide (fbits f (48 + k % 8) (48 + k % 8) = 1) }
    | _, _ => s
  if s.fioFits k = false ∨ m = 3 ∨ s.bound then s
  else if s.grpOn (k / 8) = false then s.setQuality p 0xC1 s.intakeStamp
  else
    if x.link = 2 then s.setQuality p 0x80 s.intakeStamp
    else match x.latest with
      | none => s
      | some (_, ts) =>
        let c := s.fch k
        let v : W64 := if m = 1 then (if c.shown != s.flag (0x4040 + 4 * k) 4 then 1 else 0) else c.count.setWidth 64
        s.supply p v (if c.diagSeen.getLsbD 0 then 0x81 else 0) ts s.intakeStamp

/-- TIGHTROPE_LATCH (R265): every channel in index order. -/
def State.latchField (s : State) : State := (List.range 32).foldl (fun (s : State) k => s.latchChannel k) s

/-! ### Hand-off (R262, R266) -/

/-- The committed state of an output channel placed in OUT of the next outbound frame; a member that does not drive places the channel's
safe value there (R262, R403). -/
def State.handField (s : State) (k : Nat) : State :=
  if s.fioMode k = 3 ∧ s.fioFits k then
    let v := if s.bound then s.safeValue (s.fioPoint k) else some (s.point (s.fioPoint k)).value
    let on := (v.map fun x => x.getLsbD 0).getD (s.fch k).cmd
    let g := k / 8
    let x := s.fgrp g
    let bit : Byte := BitVec.ofNat 8 (2 ^ (k % 8))
    let s := s.setFch k { s.fch k with cmd := on, safeAct := s.atSafe (s.fioPoint k) }
    s.setGrp g { x with out := if on then x.out ||| bit else x.out &&& ~~~ bit }
  else s

/-- Step 4 of R270: a group whose safe values have been committed and whose link is up is arbitrated again from this
Commit, and SAFE is 0 from the next outbound frame. -/
def State.releaseGroups (s : State) : State :=
  (List.range 4).foldl (fun (s : State) g =>
    let x := s.fgrp g
    if x.safeWanted ∧ x.safeDone ∧ x.link = 1 then
      s.setGrp g { x with safeWanted := false, safeDone := false, safeCmd := false }
    else s) s

/-- Step 2 of R270 done in this Commit. -/
def State.groupsDone (s : State) : State :=
  (List.range 4).foldl (fun (s : State) g =>
    let x := s.fgrp g
    if x.safeWanted then s.setGrp g { x with safeDone := true } else s) s

/-! ### Settings and commands (R252, R271, R392) -/

/-- FIO_CHANNEL_WRITE (R252, R271, R355 to R357): dropped while BUSY, refused for PULSED with MODE 2h, else posted. -/
def State.channelWrite (s : State) (k : Nat) (time : Bool) (v : W32) : State :=
  let off := if time then 0x40C0 + 4 * k else 0x4040 + 4 * k
  let j := judge (s.locked 8) (fieldsOf off) v
  let s := if j.denied then s.lkDeny else s
  let dom := 100 + k / 8
  if j.held = 0 then s
  else if s.busyDom dom then ((s.setSQ 8 8).count 0x42F4 1).count 0x69DC 1
  else
    let w := mergeBits (s.reg off) j.held v
    if time = false ∧ bitAt w 10 ∧ bits w 15 14 = 2 then s.setSQ 8 9
    else
      let s := s.post off w
      s.setGrp (k / 8) { s.fgrp (k / 8) with newPending := some off, newSent := false }

/-- FIO_RETRY (R260, R392): `cool` says that the driver junction is below 135 °C. -/
def cmdFioRetry (h : Hdr) (ch : Nat) (cool : Bool) (s : State) : State :=
  runCmd h { opcode := 0x0701, denied := ch < 32 && !s.boothIs h (s.point (s.fioPoint ch)).owner.toNat,
             bad := if 32 ≤ ch then some 0 else none }
    (fun s =>
      let c := s.fch ch
      let c := { c with overload := false, overtemp := c.overtemp && !cool }
      okRes [] (s.setFch ch { c with latched := c.overload || c.overtemp })) s

end Sys2Proof.Machine
end

