-- ==== Sys2Proof/Machine/Analogue.lean ====
section
/-! DEFINITION. Universal inputs and analogue outputs (chapter 10, R275 to R283). -/

namespace Sys2Proof.Machine

/-- A UI channel record. -/
def State.uch (s : State) (k : Nat) : UiCh := s.ui.getD k {}

/-- A UI channel record replaced. -/
def State.setUi (s : State) (k : Nat) (x : UiCh) : State := { s with ui := lmod s.ui k fun _ => x }

/-- MODE of a UI channel. -/
def State.uiMode (s : State) (k : Nat) : Nat := s.fld (0x4840 + 4 * k) 18 16

/-- POINT of a UI channel. -/
def State.uiPoint (s : State) (k : Nat) : Nat := s.fld (0x4840 + 4 * k) 31 19

/-- PARAM of a UI channel. -/
def State.uiParam (s : State) (k : Nat) : Nat := s.fld (0x4840 + 4 * k) 12 0

/-- A change of an input's quality that its source writes at once in Intake; one met in another phase waits for the next Intake (R39, R40,
R74). -/
def State.qualityNow (s : State) (p : Nat) (q : Byte) : State :=
  if s.inIntake then s.setQuality p q s.phaseStamp else s

/-! ### Conversions (R278) -/

/-- Terms of artanh z = z + z³/3 + z⁵/5 + …, in units of 2^-64: `zp` is the power reached, `z2` is z². -/
def artanhSum : Nat → Nat → Int → Int → Int → Int
  | 0, _, _, _, acc => acc
  | n + 1, i, z2, zp, acc => artanhSum n (i + 2) z2 (Int.ediv (zp * z2) (2 ^ 64)) (acc + Int.ediv zp i)

/-- ln(n / d) for positive numbers, in units of 2^-64: powers of two taken out, the rest by the series. -/
def lnRatio (n d : Nat) : Int :=
  let k : Int := (Nat.log2 n : Int) - (Nat.log2 d : Int)
  let n' : Int := if k < 0 then (n : Int) * 2 ^ k.natAbs else n
  let d' : Int := if k < 0 then d else (d : Int) * 2 ^ k.natAbs
  let z := Int.ediv ((n' - d') * 2 ^ 64) (n' + d')
  2 * artanhSum 32 1 (Int.ediv (z * z) (2 ^ 64)) z 0 + k * 12786308645202655660

/-- The temperature of the β-equation in 0.001 °C, the resistance in mΩ (R277, R278). -/
def ntcTemp (mohm beta : Nat) : Int :=
  let l := lnRatio mohm 10000000
  let den : Int := beta * 2 ^ 64 * 100 + l * 29815
  roundOpen (1000 * 29815 * (beta : Int) * 2 ^ 64 - 273150 * den) den

/-- 0.001 °C in Q16.16. -/
def milliQ (t : Int) : Int := roundOpen (t * 65536) 1000

/-- A measurement: VAL in Q16.16, whether 41h has its condition, and the bad condition present, 1 for 81h, 2 for
82h (R278, R279). -/
structure UiMeas where
  val : Int := 0
  range : Bool := false
  cond : Nat := 0

/-- The scaling of modes 1h and 2h (R278). -/
def State.uiScale (s : State) (k : Nat) (x x0 x1 : Int) : Int :=
  let lo := s32 (s.reg (0x4880 + 8 * k))
  let hi := s32 (s.reg (0x4884 + 8 * k))
  clip32 (roundOpen (lo * (x1 - x0) + (x - x0) * (hi - lo)) (x1 - x0))

/-- The values of a channel at the two ends of its measuring range, lower first, to which 41h clamps VALUE (R279). -/
def State.uiEnds (s : State) (k : Nat) : Int × Int :=
  let pair := fun (a b : Int) => if a ≤ b then (a, b) else (b, a)
  match s.uiMode k with
  | 1 => pair (s.uiScale k (-200000) 0 10000000) (s.uiScale k 10500000 0 10000000)
  | 2 => pair (s.uiScale k 3800000 4000000 20000000) (s.uiScale k 20500000 4000000 20000000)
  | 3 => (milliQ (-50000), milliQ 150000)
  | _ => (milliQ (-40000), milliQ 125000)

/-- One cycle's measurement of a channel, by mode (R277 to R279), from µV, nA or mΩ. -/
def State.uiMeasure (s : State) (k : Nat) (raw : BitVec 24) : UiMeas :=
  let m := s.uiMode k
  let i := Config.uiInput k m raw
  match m with
  | 1 =>
    let x := 10 * i
    { val := s.uiScale k x 0 10000000, range := decide (x < -200000 ∨ 10500000 < x), cond := if 11000000 < x then 2 else 0 }
  | 2 =>
    let x := 100 * i
    { val := s.uiScale k x 4000000 20000000
      range := decide ((3600000 ≤ x ∧ x < 3800000) ∨ (20500000 < x ∧ x ≤ 21000000))
      cond := if x < 3600000 then 1 else if 21000000 < x then 2 else 0 }
  | 3 =>
    let t := Config.pt1000 (i - s.uiParam k * 10)
    { val := clip32 (milliQ t), range := decide (t < -50000 ∨ 150000 < t)
      cond := if 4000000 < i then 1 else if i < 500000 then 2 else 0 }
  | 4 =>
    let t := ntcTemp (maxI 1 i).toNat (s.uiParam k)
    { val := clip32 (milliQ t), range := decide (t < -40000 ∨ 125000 < t)
      cond := if 2000000000 < i then 1 else if i < 50000 then 2 else 0 }
  | _ => {}

/-- VALUE of a channel's point for the newest VAL: clamped to the measuring range while 41h applies (R279). -/
def State.uiShown (s : State) (k : Nat) : W32 :=
  let u := s.uch k
  if u.newRange then BitVec.ofInt 32 (clampInt (s.uiEnds k).1 (s.uiEnds k).2 (s32 u.newVal)) else u.newVal

/-- The contact decision of mode 5h: closed at 1 kΩ or less, open at 10 kΩ or more, no stated decision between (R277). -/
def State.uiClosed (s : State) (k : Nat) (raw : BitVec 24) : Bool :=
  let x := Config.uiInput k 5 raw
  if x ≤ 1000000 then true else if 10000000 ≤ x then false else (s.drawnFor (5000 + k)).getLsbD 0

/-- The mean of the last 100 values, once there are 100 (R278). -/
def mean100 (l : List Int) : Int := roundOpen (l.foldl (· + ·) 0) 100

/-- A cycle taken into a channel; an entry into 41h is counted (R279). -/
def State.uiCycle (s : State) (k : Nat) (raw : BitVec 24) : State :=
  let u := s.uch k
  let m := s.uiMode k
  if m = 0 then s
  else if m = 5 then
    let c := s.uiClosed k raw
    let inv := s.flag (0x4840 + 4 * k) 14
    let held := if c = u.contact then 0 else u.hold + 1
    let now := if c ≠ u.contact ∧ s.uiParam k < held then c else u.contact
    s.setUi k { u with newRaw := raw, contact := now, hold := if now = u.contact then held else 0,
                       newVal := if now != inv then 65536 else 0, newRange := false, good := true }
  else
    let x := s.uiMeasure k raw
    let filt := s.flag (0x4840 + 4 * k) 15
    let win := if filt then (u.window ++ [x.val]).drop ((u.window.length + 1) - 100) else []
    let full := !filt || decide (win.length = 100)
    let v := if filt then (if win.length = 100 then mean100 win else x.val) else x.val
    let brk := u.brk && decide (x.cond = 1)
    let sensor := u.sensor && decide (x.cond = 2)
    let enter := x.range && !brk && !sensor && !(u.newRange && !u.brk && !u.sensor)
    let s := s.setUi k { u with newRaw := raw, newVal := BitVec.ofInt 32 v, newRange := x.range, cond := x.cond,
                                brk, sensor, window := win, good := full }
    if enter then s.count 0x4A0C 1 else s

/-- A change of MODE or FILT starts a channel's value afresh (R278). -/
def State.uiRestart (s : State) (k : Nat) : State :=
  let u := s.uch k
  s.setUi k { u with good := false, window := [], hold := 0, cond := 0, brk := false, sensor := false,
                     newRange := false }

/-! ### Conversion frames (R275, R276) -/

/-- CONVERSION_FRAME (R275, R276, R286): sixteen universal inputs, eight current senses, eight tach measurements; `stamp`
is the end of the cycle. -/
def State.convFrame (s : State) (raw : List (BitVec 24)) (crc : BitVec 16) (stamp : Stamp) : State :=
  if raw.length ≠ 32 ∨ crc ≠ frameCheck 0 raw then
    { s with uiBad := s.uiBad + 1 }.count 0x4A1C 1
  else
    let s := { s with uiBad := 0, uiStamp := stamp }.count 0x4A00 1
    let s := (List.range 16).foldl (fun (s : State) k =>
      if s.flag 0x4800 k then s.uiCycle k (raw.getD k 0) else s) s
    (List.range 8).foldl (fun (s : State) c =>
      let uv := Config.senseUv (raw.getD (16 + c) 0)
      let ma := roundOpen (uv * s.fld (0x5070 + 4 * c) 31 16) 1000000
      { s with fan := lmod s.fan c fun f =>
        { f with speed := Config.tachRpm (raw.getD (24 + c) 0) (s.fld (0x5010 + 4 * c) 2 0 + 1),
                 current := (clampInt 0 65535 ma).toNat, curHigh := decide (2500000 < uv) } }) s

/-- The UI and FAN_IN points of the channels in use. -/
def State.anaPoints (s : State) : List Nat :=
  ((List.range 16).filter fun k => s.flag 0x4800 k && decide (s.uiMode k ≠ 0)).map s.uiPoint ++
  ((List.range 8).filter fun c => s.flag 0x5000 c).flatMap fun c =>
    let p := s.fld (0x5010 + 4 * c) 18 6
    [p, p + 1, p + 2]

/-- A UI or FAN_IN point at 82h for failed frames, the quality it had kept for the first good one (R276). -/
def State.frameBad (s : State) (p : Nat) : State :=
  let r := s.point p
  if s.inIntake = false ∨ (r.src ≠ 3 ∧ r.src ≠ 4) then s
  else if (s.uiHeld.any fun (e : Nat × Byte) => e.1 == p) then s.setQuality p 0x82 s.phaseStamp
  else { s with uiHeld := s.uiHeld ++ [(p, r.quality)] }.setQuality p 0x82 s.phaseStamp

/-- A point that no good frame writes yet: its quality of before the failed frames (R276). -/
def State.frameGood (s : State) (p : Nat) : State :=
  match s.uiHeld.find? fun (e : Nat × Byte) => e.1 == p with
  | some e => s.setQuality p e.2 s.intakeStamp
  | none => s

/-- FRAME_ERR (R276): 8 consecutive frames have failed. -/
def State.frameErr (s : State) : State :=
  if 8 ≤ s.uiBad then s.anaPoints.foldl (fun (s : State) p => s.frameBad p) (s.setSQ 9 4) else s

/-- UI_BAD_CONDITION (R279): the condition the newest cycle shows has held for 100 ms. -/
def State.uiBadOn (s : State) (k : Nat) (c : UiBad) : State :=
  let u := s.uch k
  if s.flag 0x4800 k = false then s
  else match c with
    | .wireBreak =>
      if u.cond = 1 ∧ u.brk = false then
        ((s.setUi k { u with brk := true, sensor := false }).report .warn 9 0 0xFF k).count 0x4A04 1
      else s
    | .sensor =>
      if u.cond = 2 ∧ u.sensor = false then
        ((s.setUi k { u with sensor := true, brk := false }).report .warn 9 1 0xFF k).count 0x4A08 1
      else s

/-! ### Intake (R275, R279, R286) -/

/-- The value of a UI channel in the TYPE of its point. -/
def uiValue (typ : BitVec 4) (v : W32) : W64 :=
  if typ.toNat = 0 then (if v = 0 then 0 else 1) else ofNum typ (s32 v) 16

/-- One UI channel latched; on a member that does not drive, the channel alone and not its point (R403). -/
def State.latchUi (s : State) (k : Nat) : State :=
  let u := s.uch k
  let p := s.uiPoint k
  if s.flag 0x4800 k = false ∨ s.uiMode k = 0 then s
  else if 8 ≤ s.uiBad then
    let s := s.setUi k { u with qual := 0x82 }
    if s.bound then s else s.frameBad p
  else
    let bad := u.brk || u.sensor
    let q : Byte := if u.brk then 0x81 else if u.sensor then 0x82 else if u.newRange then 0x41 else 0x00
    let s := s.setUi k { u with raw := u.newRaw, val := u.newVal, range := u.newRange && !bad, qual := q }
    if (s.point p).src.toNat ≠ 3 ∨ s.bound then s
    else if u.good = false then s.frameGood p
    else if bad then s.setQuality p q s.intakeStamp
    else s.supply p (uiValue (s.point p).typ (s.uiShown k)) q s.uiStamp s.intakeStamp

/-- The three FAN_IN points of one channel latched (R286, R294). -/
def State.latchFan (s : State) (c : Nat) : State :=
  let f := s.fan.getD c {}
  let p := s.fld (0x5010 + 4 * c) 18 6
  let cur := s.flag (0x5050 + 4 * c) 2
  let mine := fun (q : Nat) => decide ((s.point q).src = 4 ∧ ((s.point q).typ = 4 ∨ (s.point q).typ = 5))
  if s.flag 0x5000 c = false ∨ s.bound then s
  else if 8 ≤ s.uiBad then [p, p + 1, p + 2].foldl (fun (s : State) q => s.frameBad q) s
  else
    let put := fun (s : State) (q : Nat) (i : Int) (k : Nat) (ql : Byte) =>
      if mine q then s.supply q (ofNum (s.point q).typ i k) ql s.uiStamp s.intakeStamp else s
    let s := put s p f.speed 0 (if cur = false then 0xC1 else if f.state = .openLoop then 0x81 else 0)
    let s := put s (p + 1) f.current 0 (if cur = false then 0xC1 else if f.curHigh then 0x82 else 0)
    if f.ratioSeen then put s (p + 2) (roundOpen (f.ratio * 65536) 1000) 16 (if f.ratioStale then 0x40 else 0)
    else s.frameGood (p + 2)

/-- CONVERSION_LATCH (R275). -/
def State.latchAnalogue (s : State) : State :=
  let s := (List.range 16).foldl (fun (s : State) k => s.latchUi k) s
  let s := (List.range 8).foldl (fun (s : State) c => s.latchFan c) s
  if s.uiBad < 8 then { s with uiHeld := [] } else s

/-! ### Analogue outputs (R280 to R283) -/

/-- The 16-bit code of n / d of full scale, 0 to 1 (R280): the rounding to a step is open. -/
def aoCode (n d : Int) : BitVec 16 :=
  BitVec.ofInt 16 (clampInt 0 65535 (roundOpen (n * (if Config.aoSteps then 65536 else 65535)) d))

/-- The code of a committed value, and whether its voltage is clamped (R280). -/
def State.aoDrive (s : State) (j : Nat) (v : W64) : BitVec 16 × Bool :=
  let r := s.point (s.fld (0x4980 + 4 * j) 31 19)
  let (lo, hi) := s.aoEng j
  match numOf r.typ v with
  | none => ((s.drawnFor (6000 + j)).setWidth 16, (s.drawnFor (6000 + j)).getLsbD 16)
  | some (i, k) =>
    let n := i * 65536 - lo * 2 ^ k
    let d := (hi - lo) * 2 ^ k
    let (n, d) := if d < 0 then (-n, -d) else (n, d)
    if n < 0 then (aoCode 0 1, true) else if d < n then (aoCode 1 1, true) else (aoCode n d, false)

/-- A committed value handed to an AO channel (R281, R283); a member that does not drive hands it the channel's safe value (R403). -/
def State.handAo (s : State) (j : Nat) : State :=
  let p := s.fld (0x4980 + 4 * j) 31 19
  let r := s.point p
  if s.flag 0x4800 (16 + j) ∧ r.src = 9 ∧ (r.typ = 4 ∨ r.typ = 5) then
    match (if s.bound then s.safeValue p else some r.value) with
    | some v =>
      let (code, clamp) := s.aoDrive j v
      let s' := { s with ao := lmod s.ao j fun x => { x with code := code.toNat, clamp, safeAct := s.atSafe p } }
      if r.stamp = s.commitStamp ∧ s.bound = false then s'.count 0x4A14 1 else s'
    | none => { s with ao := lmod s.ao j fun x => { x with safeAct := true } }
  else s

/-- AO_OVERLOAD (R282). -/
def State.aoOver (s : State) (j : Nat) : State :=
  if s.flag 0x4800 (16 + j) ∧ (s.ao.getD j {}).overload = false then
    let s := { s with ao := lmod s.ao j fun x => { x with overload := true } }
    ((s.report .warn 9 2 0xFF j).count 0x4A10 1).refreshOut (s.fld (0x4980 + 4 * j) 31 19)
  else s

/-- AO_OVERLOAD_CLEAR (R282). -/
def State.aoClear (s : State) (j : Nat) : State :=
  if (s.ao.getD j {}).overload then
    { s with ao := lmod s.ao j fun x => { x with overload := false } }.refreshOut (s.fld (0x4980 + 4 * j) 31 19)
  else s

/-- A write of a UI setting that R277 or R278 refuses, `w` the word it would make. -/
def State.uiRejects (s : State) (w : W32) : Bool :=
  let m := bits w 18 16
  let r := s.point (bits w 31 19)
  let t := r.typ.toNat
  if m = 0 then false
  else decide (6 ≤ m) || decide (r.src.toNat ≠ 3) || (decide (m = 5) && decide (t ≠ 0)) ||
    (decide (m ≤ 4) && decide (t ≠ 4 ∧ t ≠ 5)) ||
    (decide (m = 4) && decide (bits w 12 0 < 2500 ∨ 5000 < bits w 12 0)) ||
    (decide (m = 5) && decide (255 < bits w 12 0))

end Sys2Proof.Machine
end

