-- ==== Sys2Proof/Machine/Fans.lean ====
section
/-! DEFINITION. Fan and pump channels (chapter 10, R284 to R295): the states of R288, speed control, skip bands, safe
values, ageing, the host-silence watchdog, and the commands of R392. Speeds and targets are Q16.16 rpm, duties 0.01 %. -/

namespace Sys2Proof.Machine

/-- A FAN channel record. -/
def State.fch8 (s : State) (c : Nat) : FanCh := s.fan.getD c {}

/-- A FAN channel record replaced. -/
def State.setFan (s : State) (c : Nat) (x : FanCh) : State := { s with fan := lmod s.fan c fun _ => x }

/-- FANc in use. -/
def State.fanOn (s : State) (c : Nat) : Bool := s.flag 0x5000 c

/-- The FAN_OUT point of a channel. -/
def State.fanPoint (s : State) (c : Nat) : Nat := s.fld (0x5010 + 4 * c) 31 19

/-- Speed mode (R285). -/
def State.speedMode (s : State) (c : Nat) : Bool := s.flag (0x5010 + 4 * c) 5

/-- MAX_SPD in rpm. -/
def State.maxSpd (s : State) (c : Nat) : Nat := s.fld (0x5030 + 4 * c) 31 16

/-- Running: measured speed at least 0.1 × MAX_SPD (R288). -/
def State.fanRunning (s : State) (c : Nat) : Bool := decide (s.maxSpd c ≤ 10 * (s.fch8 c).speed)

/-- The committed value of a channel: Q16.16 rpm under the limits of R285, or a duty in 0.01 %. A value that is no finite
number has no stated effect. -/
def State.fanSetting (s : State) (c : Nat) : Int :=
  let r := s.point (s.fanPoint c)
  let v := (numOf r.typ r.value).getD (s32 ((s.drawnFor (7000 + c)).setWidth 32), 16)
  if s.speedMode c then
    let q := roundOpen (v.1 * 65536) (2 ^ v.2)
    let top : Int := s.maxSpd c * 65536
    let low := roundOpen top 10
    if v.1 = 0 then 0 else if top < q then top else if q < low then low else q
  else clampInt 0 10000 (roundOpen (v.1 * 100) (2 ^ v.2))

/-- A kick started (R288, R297). -/
def State.startKick (s : State) (c kicks : Nat) : State :=
  (s.setFan c { s.fch8 c with state := .kick, kicks, duty := 10000 }).count 0x5180 1

/-- What R288 gives from STOPPED for the committed value. -/
def State.fromStopped (s : State) (c : Nat) : State :=
  let s := s.setFan c { s.fch8 c with state := .stopped, kicks := 0, duty := 0 }
  if (s.fch8 c).committed = 0 then s else s.startKick c 1

/-- Channels that come into use or leave it with a change of CH_EN: STOPPED, and what R288 gives for the committed value. -/
def State.fansChanged (s : State) (old : W32) : State :=
  (List.range 8).foldl (fun (s : State) c =>
    if bitAt old c = s.fanOn c then s
    else
      let s := s.setFan c { s.fch8 c with state := .stopped, kicks := 0, duty := 0, committed := 0, safe := false, safeReq := false,
                                          full := false, watchdog := false }
      if s.fanOn c = false ∨ (s.point (s.fanPoint c)).src.toNat ≠ 10 ∨ s.atSafe (s.fanPoint c) then s
      else (s.setFan c { s.fch8 c with committed := s.fanSetting c }).fromStopped c) s

/-! ### Skip bands (R287) -/

/-- LO and HI of a channel's bands in the units of the mode, unused ones left out. -/
def State.bands (s : State) (c : Nat) : List (Int × Int) :=
  (List.range 4).filterMap fun b =>
    let w := s.reg (0x5100 + 0x10 * c + 4 * b)
    let u : Int := if s.speedMode c then 65536 else 1
    if w = 0 then none else some ((bits w 15 0 : Int) * u, (bits w 31 16 : Int) * u)

/-- The operating value for a target: inside a band, the edge on the side of the present operating value. -/
def State.skip (s : State) (c : Nat) (target now : Int) : Int :=
  match (s.bands c).find? fun b => decide (b.1 < target ∧ target < b.2) with
  | some b => if now ≤ b.1 then b.1 else if b.2 ≤ now then b.2 else if now - b.1 ≤ b.2 - now then b.1 else b.2
  | none => target

/-- The PWM output of a channel (R284): of the 4,000 parts of a period those in which it is active, the duty to the nearest 0.025 %,
turned round by INV. -/
def State.fanPwm (s : State) (c : Nat) : Nat :=
  let n := roundHalf ((s.fch8 c).duty * 2) 5
  if s.flag (0x5050 + 4 * c) 3 then 4000 - n else n

/-- The duty of a running channel in duty mode. -/
def State.dutyOf (s : State) (c : Nat) : Nat := (s.skip c (s.fch8 c).committed (s.fch8 c).duty).toNat

/-! ### Commit (R288 to R290) -/

/-- A committed value handed to a channel. -/
def State.handFan (s : State) (c : Nat) : State :=
  if s.fanOn c = false ∨ (s.point (s.fanPoint c)).src.toNat ≠ 10 then s
  else
    let v := s.fanSetting c
    let f := { s.fch8 c with safeReq := s.atSafe (s.fanPoint c), full := (s.fch8 c).watchdog }
    if f.safeReq then s.setFan c f
    else
      let s := s.setFan c { f with committed := v }
      match f.state with
      | .stopped => if f.safe then s else s.fromStopped c
      | .kick => if v = 0 then s.setFan c { s.fch8 c with state := .stopped, kicks := 0, duty := 0 } else s
      | .wait => if v = 0 then s.setFan c { s.fch8 c with state := .stopped, kicks := 0, duty := 0 } else s
      | .run =>
        if v = 0 then s.setFan c { s.fch8 c with state := .stopped, duty := 0 }
        else if s.speedMode c ∨ f.safe then s
        else s.setFan c { s.fch8 c with duty := s.dutyOf c }
      | .openLoop => s
      | .stall => s

/-! ### The end of a PWM period (R46, R290) -/

/-- Registers of a channel that apply at its PWM boundary. -/
def fanReg (c off : Nat) : Bool :=
  decide (off = 0x5010 + 4 * c ∨ off = 0x5030 + 4 * c ∨ off = 0x5050 + 4 * c ∨ off = 0x5070 + 4 * c) ||
    inFam off (0x5100 + 0x10 * c) 4 4

/-- The channel's shadowed settings applied together (R45, R46). -/
def State.applyFanRegs (s : State) (c : Nat) : State :=
  let mine := s.shadow.filter fun e => fanReg c e.off
  let s := { s with shadow := s.shadow.filter fun e => !fanReg c e.off }
  mine.foldl (fun (s : State) e => s.applyReg e.off (mergeBits (s.reg e.off) e.mask e.val)) ((s.noteWrites mine).count 0x089C mine.length)

/-- The duty a safe value drives (R290, R295): full speed from the Commit that applied the watchdog's safe value to the one that ends it. -/
def State.safeDuty (s : State) (c : Nat) : Nat :=
  if (s.fch8 c).full then 10000
  else match s.fld (0x5010 + 4 * c) 4 3 with
    | 0 => 0
    | 1 => s.fld (0x5030 + 4 * c) 15 0
    | _ => (s.fch8 c).duty

/-- PWM_PERIOD_END (R46, R290, R295). -/
def State.pwmEnd (s : State) (c : Nat) : State :=
  let key := fun (s : State) => (s.speedMode c, s.fld (0x5010 + 4 * c) 2 0, s.maxSpd c)
  let t := s.applyFanRegs c
  if t.fanOn c = false then t
  else
    let f := t.fch8 c
    let t := if key t = key s then t
      else if f.state = .stall then t
      else
        let t := t.setFan c { f with committed := t.fanSetting c }
        if f.safe ∨ f.safeReq then t.setFan c { t.fch8 c with state := .stopped, kicks := 0 } else t.fromStopped c
    let f := t.fch8 c
    if f.safeReq then
      let abandon := !f.safe && decide (f.state = .kick ∨ f.state = .wait)
      let state : FanState := if abandon then .stopped else f.state
      let t := t.setFan c { f with safe := true, state, kicks := if f.safe then f.kicks else 0, duty := t.safeDuty c }
      if f.full ∧ state = .stopped ∧ f.safe = false then t.startKick c 1 else t
    else if f.safe then
      let t := t.setFan c { f with safe := false }
      if f.state = .stall then t.setFan c { f with safe := false, duty := 0 } else t.fromStopped c
    else t

/-! ### Speed control (R285) -/

/-- SPEED_CONTROL_UPDATE (R285, R287): every 10 ms. -/
def State.speedUpdate (s : State) (c : Nat) : State :=
  let f := s.fch8 c
  if s.fanOn c = false ∨ f.state ≠ .run ∨ f.safe ∨ s.speedMode c = false then s
  else if f.committed = 0 then s.setFan c { f with duty := 0, target := 0, oper := 0 }
  else
    let ramp : Int := s.fld (0x5050 + 4 * c) 15 4
    let step := roundOpen (ramp * 65536) 10
    let target := if ramp = 0 then f.committed else clampInt (f.target - step) (f.target + step) f.committed
    let oper := s.skip c target f.oper
    let e := oper - f.speed * 65536
    let d := s.fld (0x5050 + 4 * c) 31 24 * (e - f.lastErr) + s.fld (0x5050 + 4 * c) 23 16 * e
    let duty := clampInt 0 10000 (f.duty + roundOpen d (256 * 65536))
    s.setFan c { f with target, oper, lastErr := e, duty := duty.toNat }

/-! ### States (R288, R289) -/

/-- Entry into RUN after a kick. The spec states neither where the ramp starts nor the error before: free values. -/
def State.enterRun (s : State) (c : Nat) : State :=
  let s := s.setFan c { s.fch8 c with
    state := .run, kicks := 0,
    target := s32 ((s.drawnFor (7100 + c)).setWidth 32),
    oper := s32 ((s.drawnFor (7100 + c)).setWidth 32),
    lastErr := s32 ((s.drawnFor (7200 + c)).setWidth 32) }
  if (s.fch8 c).safe then s.setFan c { s.fch8 c with duty := s.safeDuty c }
  else if s.speedMode c then s else s.setFan c { s.fch8 c with duty := s.dutyOf c }

/-- KICK_END (R288, R289). -/
def State.kickEnd (s : State) (c : Nat) : State :=
  let f := s.fch8 c
  if s.fanOn c = false ∨ f.state ≠ .kick then s
  else if s.fanRunning c then (s.enterRun c).count 0x5184 1
  else if f.kicks < 4 then s.setFan c { f with state := .wait, duty := if f.safe then f.duty else 0 }
  else
    let s := s.setFan c { f with state := .stall, kicks := 0, duty := if f.safe then f.duty else 0 }
    ((s.report .warn 10 0 0xFF c).count 0x5188 1).refreshOut (s.fanPoint c)

/-- WAIT_END (R288): 10 s after the start of the failed kick. -/
def State.waitEnd (s : State) (c : Nat) : State :=
  let f := s.fch8 c
  if s.fanOn c ∧ f.state = .wait then s.startKick c (f.kicks + 1) else s

/-- TACH_TIMEOUT (R288, R289). A safe value overrides the kick it would start (R290). -/
def State.tachTimeout (s : State) (c : Nat) : State :=
  let f := s.fch8 c
  if s.fanOn c = false ∨ f.state ≠ .run then s
  else if s.flag (0x5050 + 4 * c) 2 ∧ s.fld (0x5070 + 4 * c) 7 0 * 10 ≤ f.current then
    let s := s.setFan c { f with state := .openLoop }
    ((s.report .warn 10 1 0xFF c).count 0x518C 1).refreshOut (s.fanPoint c)
  else if f.safe ∧ f.full = false then s.setFan c { f with state := .stopped }
  else s.startKick c 1

/-- TACH_RECOVERY (R288): control continues from the held duty; in duty mode the committed value is the duty again (R285). -/
def State.tachBack (s : State) (c : Nat) : State :=
  let f := s.fch8 c
  if s.fanOn c ∧ f.state = .openLoop then
    let duty := if s.speedMode c ∨ f.safe then f.duty else s.dutyOf c
    ((s.setFan c { f with state := .run, duty }).count 0x5190 1).refreshOut (s.fanPoint c)
  else s

/-! ### Ageing (R293, R294) -/

/-- The speed bin of a speed. -/
def State.binOf (s : State) (c speed : Nat) : Nat := Nat.min 7 (speed * 8 / s.maxSpd c)

/-- A baseline current at a speed, interpolated between the two nearest filled bins: (n, d) for n / d mA; none outside the
speeds they span. -/
def baselineAt (bins : List Bin) (speed : Nat) : Option (Int × Int) :=
  let filled := bins.filter fun b => b.n != 0
  let below := (filled.filter fun b => decide (b.speed ≤ speed * b.n)).getLast?
  let above := filled.find? fun b => decide (speed * b.n ≤ b.speed)
  match below, above with
  | some a, some b =>
    let den : Int := (b.speed * a.n : Nat) - (a.speed * b.n : Nat)
    if den = 0 then some (a.current, a.n)
    else
      let wa : Int := (b.speed : Int) - (speed * b.n : Nat)
      let wb : Int := (speed * a.n : Nat) - (a.speed : Int)
      some (a.current * wa + b.current * wb, den)
  | _, _ => none

/-- A ratio formed (R294): above 1.250 sets AGEING, at 1.200 or less clears it. -/
def State.formRatio (s : State) (c : Nat) (n d : Int) : State :=
  let f := s.fch8 c
  let r := if d = 0 then ((s.drawnFor (7300 + c)).toNat % 65536 : Int) else roundOpen (1000 * n) d
  let up := if d = 0 then decide (1250 < r) else decide (1250 * d < 1000 * n)
  let down := if d = 0 then decide (r ≤ 1200) else decide (1000 * n ≤ 1200 * d)
  let shown := if r < 65536 then r.toNat else (s.drawnFor (7300 + c)).toNat % 65536
  let s := s.setFan c { f with ratio := shown, ratioSeen := true, ratioStale := false,
                               ageing := (f.ageing && !down) || up }
  if up ∧ f.ageing = false then (s.report .note 10 2 0xFF c).count 0x5194 1 else s

/-- STEADY_PERIOD (R293, R294): the mean speed and current of 10 s in RUN. -/
def State.steady (s : State) (c speed current : Nat) : State :=
  let f := s.fch8 c
  if s.fanOn c = false ∨ f.state ≠ .run ∨ s.flag (0x5050 + 4 * c) 2 = false then s
  else if f.learning then
    s.setFan c { f with bins := lmod f.bins (s.binOf c speed) fun b =>
      { n := b.n + 1, speed := b.speed + speed, current := b.current + current } }
  else match baselineAt f.base speed with
    | some (n, d) => s.formRatio c (current * d) n
    | none => s

/-- LEARNING_WINDOW_CLOSE (R293, R294): in the revolution in which the window's days end. -/
def State.learnClose (s : State) (c : Nat) : State :=
  let f := s.fch8 c
  if f.learning ∧ f.learnUntil < s.crsl.upNs + s.periodNs then
    s.setFan c { f with learning := false, base := f.bins, bins := List.replicate 8 {}, ageing := false }
  else s

/-- AGEING_STALE (R294). The record takes 40h in Intake (R39, R40): at once where this event falls there, else at the next latch. -/
def State.ageStale (s : State) (c : Nat) : State :=
  let f := s.fch8 c
  let p := s.fld (0x5010 + 4 * c) 18 6 + 2
  if s.fanOn c ∧ f.ratioSeen ∧ (s.point p).src.toNat = 4 then
    let s := s.setFan c { f with ratioStale := true }
    if s.inIntake then s.qualityNow p 0x40 else s
  else s

/-! ### Host silence (R295) -/

/-- HOST_SILENT (R295). What the writer of a channel to be driven at 100 % last supplied is kept for the end of the silence. -/
def State.hostSilent (s : State) : State :=
  if s.fld 0x5008 7 0 = 0 ∨ s.fanSilent then s
  else
    let s := ({ s with fanSilent := true }.reportBare .note 10 3 0xFF).count 0x5198 1
    if s.sys.compat then
      let s := (List.range 8).foldl (fun (s : State) c =>
        let p := s.fanPoint c
        if s.flag 0x5008 (8 + c) && s.fanOn c && !(s.point p).forced && !s.atSafe p then
          { s with pnt := { s.pnt with heldBack := sput s.pnt.heldBack p (s.lastSupplied p) } }
        else s) s
      { s with fan := s.fan.mapIdx fun c f => if s.flag 0x5008 (8 + c) && s.fanOn c then { f with watchdog := true } else f }
    else s

/-- HOST_SILENCE_END (R295): a valid host transaction after expiry. In 1024-compatible mode the writer's latest value is
submitted to the next Commit, as after a cleared force. -/
def State.hostHeard (s : State) : State :=
  if s.fanSilent = false then s
  else
    let pts := (List.range 8).filterMap fun c => if (s.fch8 c).watchdog then some (s.fanPoint c, none) else none
    { s with
      fanSilent := false
      fan := s.fan.map fun (f : FanCh) => { f with watchdog := false }
      pnt := { s.pnt with unforced := s.pnt.unforced ++ pts } }

/-! ### Refused settings (R287, R292) -/

/-- Two bands overlap. -/
def overlap (a b : W32) : Bool :=
  a != 0 && b != 0 && decide (bits a 15 0 < bits b 31 16 ∧ bits b 15 0 < bits a 31 16)

/-- Some two words of a list overlap. -/
def anyOverlap : List W32 → Bool
  | [] => false
  | x :: t => t.any (overlap x) || anyOverlap t

/-- The settings a channel would have that R287 or R292 refuses: `w` reads a register as the write would leave it. -/
def fanRejects (w : Nat → W32) (c : Nat) : Bool :=
  let bs := (List.range 4).map fun b => w (0x5100 + 0x10 * c + 4 * b)
  let max := bits (w (0x5030 + 4 * c)) 31 16
  let ppr := bits (w (0x5010 + 4 * c)) 2 0 + 1
  let speed := bitAt (w (0x5010 + 4 * c)) 5
  anyOverlap bs || (speed && bs.any fun b => decide (max < bits b 31 16)) ||
    decide (bits (w (0x5070 + 4 * c)) 15 8 * 10 * max * ppr < 1200000)

/-! ### Commands (R392) -/

/-- FAN_RETRY (R288, R392): STALL to STOPPED; a value still committed kicks at once. -/
def cmdFanRetry (h : Hdr) (ch : Nat) (s : State) : State :=
  runCmd h { opcode := 0x0702, denied := ch < 8 && !s.boothIs h (s.point (s.fanPoint ch)).owner.toNat,
             bad := if 8 ≤ ch then some 0 else none }
    (fun s =>
      if (s.fch8 ch).state = .stall then
        let s := s.setFan ch { s.fch8 ch with state := .stopped, kicks := 0, duty := 0 }
        let s := if (s.fch8 ch).safe ∨ (s.fch8 ch).safeReq then s else s.fromStopped ch
        okRes [] (s.refreshOut (s.fanPoint ch))
      else okRes [] s) s

/-- FAN_LEARN (R293, R392): a channel without CUR_EN is refused; the spec gives no reason code. -/
def cmdFanLearn (h : Hdr) (ch days : Nat) (s : State) : State :=
  runCmd h { opcode := 0x0703, denied := !s.landlord h,
             bad := if 8 ≤ ch then some 0 else if days = 0 ∨ 7 < days then some 1 else none,
             refuse := if s.flag (0x5050 + 4 * ch) 2 then none else some (s.drawn.toNat % 65536) }
    (fun s => okRes [] (s.setFan ch { s.fch8 ch with
      learning := true, learnUntil := s.crsl.upNs + days * 86400000000000, bins := List.replicate 8 {} })) s

end Sys2Proof.Machine
end

