-- ==== Sys2Proof/Machine/Can.lean ====
section
/-! DEFINITION. The room buses (chapter 11, R298 to R319): frame entries, transmit queues, express buffers and the
time-reference slot, transmission and its failures, bus states, reception and its decoding in Intake, and the commands of
R394. -/

namespace Sys2Proof.Machine

/-! ### Frames and entries (R299 to R302) -/

/-- Payload bytes of a DLC. -/
def dlcLen (fdf : Bool) (dlc : Nat) : Nat :=
  if dlc ≤ 8 then dlc
  else if fdf = false then 8
  else [12, 16, 20, 24, 32, 48, 64].getD (dlc - 9) 64

/-- The upper 11 identifier bits. -/
def upperId (ide : Bool) (ident : Nat) : Nat := if ide then ident / 2 ^ 18 % 2048 else ident % 2048

/-- An identifier of the reserved range (R302). -/
def reservedId (ide : Bool) (ident : Nat) : Bool := decide (upperId ide ident < 0x20)

/-- The node address of a frame (R299). -/
def nodeOf (f : CanFrame) : Nat := if reservedId f.ide f.ident.toNat then 0 else f.ident.toNat % 64

/-- The segment of a bus that contains a node: its booth (R86). -/
def State.segmentBooth (s : State) (b node : Nat) : Option Nat :=
  ((List.range 8).map fun g => sget 0 s.pnt.maps (0x2000 + 8 * b + g)).findSome? fun w =>
    if bitAt w 12 ∧ bits w 11 6 ≤ node ∧ node ≤ bits w 5 0 then some (bits w 31 24) else none

/-- Bytes of a slot (R318). -/
def slotWidth (w : W32) : Nat := 2 ^ bits w 29 28

/-- Byte offset of a slot. -/
def slotOff (w : W32) : Nat := bits w 27 22

/-- A bus takes part: enabled, neither bus-off nor STUCK. -/
def State.busUp (s : State) (b : Nat) : Bool := s.flag 0x5800 (8 + b) && !s.busDead b

/-- Listen-only: LISTEN, or a member that does not drive (R317, R404). -/
def State.listenOnly (s : State) (b : Nat) : Bool := s.flag (0x5848 + 0x40 * b) 8 || s.bound

/-- A bus record replaced. -/
def State.setBus (s : State) (b : Nat) (x : CanBus) : State :=
  { s with can := { s.can with bus := lmod s.can.bus b fun _ => x } }

/-- The packet of a frame (R314). -/
def framePacket (f : CanFrame) (booth : Nat) (word1 : W64) : List W64 :=
  let w0 : W64 := BitVec.ofNat 64 (nodeOf f * 2 ^ 56 + booth * 2 ^ 48 + f.ide.toNat * 2 ^ 47 + f.fdf.toNat * 2 ^ 46 +
    f.brs.toNat * 2 ^ 45 + f.dlc % 16 * 2 ^ 41 + f.ident.toNat)
  w0 :: word1 :: wordsOf 8 f.data

/-- The packet of a frame in a transmit queue. -/
def CanTx.packet (x : CanTx) : List W64 :=
  framePacket x.frame x.owner.toNat (BitVec.ofNat 64 (x.tag % 65536 * 2 ^ 48 + x.entered % 2 ^ 48))

/-- The frames of a transmit queue replaced, `gone` words of the front having been read: Q16 + b holds their packets. -/
def State.setTxQueue (s : State) (b gone : Nat) (l : List CanTx) : State :=
  let q := s.q (16 + b)
  let ws := l.flatMap fun x => withEnd x.packet
  let rl := q.rl + Nat.min gone (q.wr - q.rl)
  let s := s.setQ (16 + b) { q with
    rl, mark := rl, cur := rl, marked := false, words := ws, wr := rl + ws.length, ps := rl + ws.length }
  s.setBus b { s.cbus b with queue := l }

/-- A frame that joins a transmit queue, or is dropped whole for want of room (R303, R369). No CAN counter of R319 and no bit of
CAN_STATUS names a transmit frame dropped so. -/
def State.pushTx (s : State) (b : Nat) (x : CanTx) : State :=
  if s.qRoom (16 + b) x.packet.length then s.setTxQueue b 0 ((s.cbus b).queue ++ [x]) else s

/-- Whether the frame in an express buffer's second place is in arbitration or transmission: else it waits there to be sent again. -/
def CanBus.onBus (u : CanBus) (e : Nat) : Bool :=
  match u.active with
  | some (.express i) => decide (i.val = e)
  | _ => false

/-- The frame of an express buffer that waits first (R305, R306): one to be sent again, else the pending one. -/
def CanBus.expressWaits (u : CanBus) (e : Nat) : Option CanTx :=
  let y := u.express.getD e {}
  if y.active.isSome ∧ u.onBus e = false then y.active else y.pend

/-- A frame for an express buffer replaces the pending one (R305). -/
def State.pushExpress (s : State) (b e : Nat) (x : CanTx) : State :=
  let u := s.cbus b
  s.setBus b { u with express := lmod u.express e fun y =>
    { y with pend := some x, repl := if y.pend.isSome then satNat 65535 (y.repl + 1) else y.repl } }

/-! ### Building in Commit (R301, R303) -/

/-- The payload a transmit entry builds (R301). -/
def State.payload (s : State) (e : List W32) (len : Nat) : List Byte :=
  (entSlots e).foldl (fun (l : List Byte) w =>
    let v := leBytes (slotWidth w) (s.point (bits w 12 0)).value.toNat
    (List.range (slotWidth w)).foldl (fun l i => if slotOff w + i < len then l.set (slotOff w + i) (v.getD i 0) else l) l)
    (List.replicate len 0)

/-- The frame of a transmit entry. -/
def State.frameOf (s : State) (e : List W32) : CanFrame :=
  let w0 := ew e 0
  let len := dlcLen (bitAt w0 26) (bits w0 24 21)
  { ide := bitAt w0 27, fdf := bitAt w0 26, brs := bitAt w0 25, remote := false, dlc := bits w0 24 21,
    ident := BitVec.ofNat 29 (bits (ew e 1) 28 0), data := s.payload e len }

/-- One transmit entry in Commit (R303): its frame is built when a committed value has changed since the frame of the entry that last
entered its queue or buffer, or REFRESH revolutions after the entry was last sent (log 80). -/
def State.buildEntry (s : State) (i : Nat) : State :=
  let e := s.canEntry i
  let b := entBus e
  let w0 := ew e 0
  let x := sget {} s.can.entryTx i
  let vals := (entPoints e).map fun p => (s.point p).value
  if !entValid e || !entTx e || !s.flag 0x5800 (8 + b) || s.listenOnly b ||
      (bitAt w0 26 && !s.flag (0x5848 + 0x40 * b) 9) then s
  else
    let changed := if x.values.isEmpty then (entPoints e).any fun p => (s.point p).stamp == s.commitStamp else x.values != vals
    let refresh := bits w0 17 8
    let due := match x.lastSent with
      | some r => decide (refresh ≠ 0 ∧ r + refresh ≤ s.rev)
      | none => decide (refresh ≠ 0)
    let put := fun (s : State) (y : EntryTx) => { s with can := { s.can with entryTx := sset {} s.can.entryTx i y } }
    if changed || due then
      let f : CanTx := { tag := s.can.nextTag, entry := some i,
                         owner := ((entPoints e).head?.map fun p => (s.point p).owner).getD 0xFF,
                         frame := s.frameOf e, entered := s.rev }
      let t : State := { s with can := { s.can with nextTag := (s.can.nextTag + 1) % 65536 } }
      if bitAt w0 20 then (put t { x with values := vals }).pushExpress b (bits w0 19 18) f
      else if s.qRoom (16 + b) f.packet.length then (put t { x with values := vals }).pushTx b f
      else s
    else put s { x with values := vals }

/-- CAN_FRAME_BUILD (R303). -/
def State.buildFrames (s : State) : State :=
  (s.can.entries.map (·.1)).foldl (fun (s : State) i => s.buildEntry i) s

/-- The frames of a transmit queue not yet in arbitration discarded (R366). -/
def State.clearTx (s : State) (n : Nat) : State :=
  if 16 ≤ n ∧ n ≤ 19 then
    let u := s.cbus (n - 16)
    s.setBus (n - 16) { u with queue := if u.active = some .queueHead then u.queue.take 1 else [] }
  else s

/-- Frames not yet in arbitration removed from queues and express buffers under a control stop (R310). -/
def State.dropFrames (s : State) : State :=
  (List.range 4).foldl (fun (s : State) b =>
    let u := s.cbus b
    let keep := if u.active = some .queueHead then u.queue.take 1 else []
    let s := s.setBus b { u with express := u.express.mapIdx fun e (y : Express) =>
      { y with pend := none, active := if u.onBus e then y.active else none } }
    s.setTxQueue b 0 keep) s

/-! ### Arbitration (R304 to R306) -/

/-- The time-reference frame waiting in a slot (R316). -/
def State.trefFrame (s : State) (b : Nat) : CanFrame :=
  let t := (s.cbus b).tref
  let sync := match s.crsl.sync with
    | .free => 0
    | .acquiring => 1
    | .locked => 2
    | .holdover => 3
  let head := fun (typ bit1 : Nat) => BitVec.ofNat 8 (typ * 16 + sync * 4 + bit1 * 2 + s.ctrlOk.toNat)
  let data := match t.kind with
    | 1 => [head 1 0, BitVec.ofNat 8 t.seq] ++ leBytes 4 t.boundary ++ leBytes 2 (s.fld 0x5808 15 0)
    | 2 => [head 2 t.step.toNat, BitVec.ofNat 8 t.seq] ++ leBytes 6 t.stamp.toNat
    | _ => head 3 (!s.rtc.lowBackup).toNat :: t.todRegs
  { ide := false, fdf := false, brs := false, remote := false, dlc := 8, ident := BitVec.ofNat 29 (0x0F + t.kind), data }

/-- The frames a bus can offer: the queue head, the pending express frames, the time-reference slot (R305). -/
def State.candidates (s : State) (b : Nat) : List (CanCand × CanFrame) :=
  let u := s.cbus b
  (u.queue.head?.toList.map fun x => (CanCand.queueHead, x.frame)) ++
  ((List.finRange 4).filterMap fun e => (u.expressWaits e.val).map fun x => (CanCand.express e, x.frame)) ++
  (if u.tref.kind = 0 ∨ s.flag 0x5808 31 = false then [] else [(CanCand.timeRef, s.trefFrame b)])

/-- Frames that may go out: FD frames only while FD_EN is 1 (R298). -/
def State.mayOffer (s : State) (b : Nat) : List (CanCand × CanFrame) :=
  (s.candidates b).filter fun c => !c.2.fdf || s.flag (0x5848 + 0x40 * b) 9

/-- A frame's place in arbitration, lower winning: its upper 11 bits, then the base format, then the rest. -/
def arbKey (f : CanFrame) : Nat :=
  upperId f.ide f.ident.toNat * 2 ^ 19 + f.ide.toNat * 2 ^ 18 + (if f.ide then f.ident.toNat % 2 ^ 18 else 0)

/-- The frame in arbitration or transmission. -/
def State.activeTx (s : State) (b : Nat) : Option CanTx :=
  let u := s.cbus b
  match u.active with
  | some .queueHead => u.queue.head?
  | some (.express e) => (u.express.getD e.val {}).active
  | _ => none

/-- The frame of a transmit queue that waits first: behind the head where that is in arbitration or transmission. -/
def CanBus.firstWaiting (u : CanBus) : Nat := if u.active = some .queueHead then 1 else 0

/-- A waiting frame of a candidate place. -/
def State.waitingTx (s : State) (b : Nat) (c : CanCand) : Option CanTx :=
  let u := s.cbus b
  match c with
    | .queueHead => u.queue[u.firstWaiting]?
    | .express e => u.expressWaits e.val
    | .timeRef => none

/-- Whether the last frame of an entry failed or expired, noted for its points (R306). -/
def State.markEntry (s : State) (e : Option Nat) (bad : Bool) : State :=
  match e with
  | none => s
  | some i =>
    let s := { s with can := { s.can with
      entryTx := sset {} s.can.entryTx i { sget {} s.can.entryTx i with failed := bad } } }
    (entPoints (s.canEntry i)).foldl (fun (s : State) p => s.refreshOut p) s

/-- CAN_CANCEL commands that wait for a frame complete with its outcome (R307, R394). -/
def State.cancelDone (s : State) (b tag outcome : Nat) : State :=
  s.mbx.slots.foldl (fun (s : State) (x : Slot) =>
    if x.wait = .cancel b tag then s.complete x 0 0 [BitVec.ofNat 8 outcome] else s) s

/-- The active frame taken out: RESULT 1 transmitted, 2 failed, 3 cancelled or expired. -/
def State.takeActive (s : State) (b result : Nat) : State :=
  let u := s.cbus b
  match u.active with
  | some .queueHead =>
    let gone := (u.queue.head?.map fun x => x.packet.length).getD 0
    let s := s.setTxQueue b gone (u.queue.drop 1)
    s.setBus b { s.cbus b with active := none, sent := none }
  | some (.express e) =>
    s.setBus b { u with active := none, sent := none,
                        express := lmod u.express e.val fun y => { y with active := none, result } }
  | some .timeRef => s.setBus b { u with active := none, sent := none }
  | none => s

/-- The active frame put back to wait. An express frame keeps its place beside a newer pending one: a frame in transmission is never
replaced (R305, R306). -/
def State.putBack (s : State) (b : Nat) (x : CanTx) : State :=
  let u := s.cbus b
  let u := match u.active with
    | some .queueHead => { u with queue := lmod u.queue 0 fun _ => x }
    | some (.express e) => { u with express := lmod u.express e.val fun y => { y with active := some x } }
    | _ => u
  s.setBus b { u with active := none, sent := none }

/-- A SYNC that waited for a message on the bus takes the slot once that is empty (R315). -/
def TrefSlot.settle (t : TrefSlot) : TrefSlot :=
  match t.after with
  | some a =>
    if t.kind = 0 then
      { t with kind := 1, seq := a.seq, boundary := a.boundary, tod := a.tod, todRegs := a.todRegs, errors := 0, after := none }
    else t
  | none => t

/-- The time-reference slot after one of its messages was sent (R315): SYNC is followed by FOLLOW, and by TOD in a new
minute. -/
def TrefSlot.next (t : TrefSlot) (stamp : Stamp) : TrefSlot :=
  (match t.kind with
  | 1 => { t with kind := 2, stamp, errors := 0 }
  | 2 => { t with kind := if t.tod then 3 else 0, errors := 0, step := false }
  | _ => { t with kind := 0, tod := false, errors := 0 } : TrefSlot).settle

/-- The error counters of a bus after a good frame, and error-active once both are below 128 (R298, ISO 11898-1). -/
def CanBus.calm (u : CanBus) (tec rec : Nat) : CanBus :=
  { u with tecCnt := tec, recCnt := rec, state := if u.state = .passive ∧ tec < 128 ∧ rec < 128 then .active else u.state }

/-- The revolution in which a frame of an entry was last sent (R303). -/
def State.noteSent (s : State) (e : Option Nat) : State :=
  match e with
  | none => s
  | some i => { s with can := { s.can with
      entryTx := sset {} s.can.entryTx i { sget {} s.can.entryTx i with lastSent := some s.rev } } }

/-- CAN_TX_COMPLETE (R306, R307, R315, R317). -/
def State.txDone (s : State) (b : Nat) (stamp : Stamp) : State :=
  let u := s.cbus b
  if u.active = none ∨ s.busUp b = false then s
  else
    let s := (s.setBus b (u.calm (u.tecCnt - 1) u.recCnt)).count (0x5A04 + 0x20 * b) 1
    match s.activeTx b with
    | some x => ((((s.takeActive b 1).markEntry x.entry false).noteSent x.entry).cancelDone b x.tag 1)
    | none =>
      let s := if u.tref.kind = 1 then s.setReg 0x580C (place (u.tref.seq % 256) 0) else s
      let s := s.takeActive b 1
      s.setBus b { s.cbus b with tref := u.tref.next stamp }

/-- A frame removed by its cancel (R307). -/
def State.removedByCancel (s : State) (b : Nat) (x : CanTx) : State :=
  ((s.takeActive b 3).count (0x5A18 + 0x20 * b) 1).cancelDone b x.tag 0

/-- RETRY of a bus. -/
def State.retry (s : State) (b : Nat) : Nat := s.fld (0x5848 + 0x40 * b) 31 28

/-- A frame older than LIFE (R306). -/
def State.tooOld (s : State) (b : Nat) (x : CanTx) : Bool := decide (x.entered + s.fld (0x5848 + 0x40 * b) 27 18 ≤ s.rev)

/-- TX_FAIL (R306, R307): an error hits the frame in transmission. It is sent again within RETRY, else reported failed. -/
def State.txError (s : State) (b : Nat) : State :=
  let u := s.cbus b
  if u.active = none then s
  else match s.activeTx b with
    | some x =>
      if x.cancelled then s.removedByCancel b x
      else if x.errors < s.retry b then s.putBack b { x with errors := x.errors + 1 }
      else ((((s.takeActive b 2).setSQ 11 3).count (0x5A10 + 0x20 * b) 1).markEntry x.entry true)
    | none =>
      if u.tref.errors < s.retry b then
        s.setBus b { u with active := none, sent := none, tref := { u.tref with errors := u.tref.errors + 1 } }
      else
        ((s.setBus b { u with active := none, sent := none, tref := ({ u.tref with kind := 0 } : TrefSlot).settle }).setSQ 11 3).count
          (0x5A10 + 0x20 * b) 1

/-- The expiry of a frame reported (R306). -/
def State.noteExpired (s : State) (b : Nat) (x : CanTx) : State :=
  ((s.setSQ 11 2).count (0x5A14 + 0x20 * b) 1).markEntry x.entry true

/-- ARBITRATION_LOSS (R306, R307). -/
def State.arbLoss (s : State) (b : Nat) : State :=
  let u := s.cbus b
  if u.active = none then s
  else
    let s := s.count (0x5A0C + 0x20 * b) 1
    match s.activeTx b with
    | some x =>
      if x.cancelled then s.removedByCancel b x
      else if s.tooOld b x then (s.takeActive b 3).noteExpired b x
      else s.putBack b x
    | none => s.setBus b { u with active := none, sent := none }

/-- A waiting frame of a candidate place removed with a RESULT. -/
def State.dropWaiting (s : State) (b : Nat) (c : CanCand) : State :=
  let u := s.cbus b
  match c with
  | .queueHead =>
    let i := u.firstWaiting
    s.setTxQueue b (if i = 0 then (u.queue.head?.map fun x => x.packet.length).getD 0 else 0) (u.queue.eraseIdx i)
  | .express e =>
    let drop := fun (y : Express) =>
      if y.active.isSome ∧ u.onBus e.val = false then { y with active := none, result := 3 } else { y with pend := none, result := 3 }
    s.setBus b { u with express := lmod u.express e.val drop }
  | .timeRef => s

/-- EXPIRED (R306): a frame older than LIFE is removed when it next waits. -/
def State.expire (s : State) (b : Nat) (c : CanCand) : State :=
  match s.waitingTx b c with
  | some x => if s.tooOld b x then (s.dropWaiting b c).noteExpired b x else s
  | none => s

/-- Waiting frames of a bus older than LIFE removed (R306): of the queue as many as stand at its head. -/
def State.expireWaiting (s : State) (b : Nat) : State :=
  let s := (List.finRange 4).foldl (fun (s : State) e => (s.expire b (.express e)).expire b (.express e)) s
  (s.cbus b).queue.foldl (fun (s : State) _ => s.expire b .queueHead) s

/-- CAN_ARBITRATION_OFFER (R305, R306): of the waiting frames that are not too old the candidate that would win against the others; among
equal identifiers the choice is not stated. -/
def State.offer (s : State) (b : Nat) : State :=
  let s := if s.busUp b = false ∨ s.listenOnly b then s else s.expireWaiting b
  let u := s.cbus b
  let cs := s.mayOffer b
  match u.active, (cs.map fun c => arbKey c.2).min? with
  | none, some k =>
    if s.busUp b = false ∨ s.listenOnly b then s
    else
      let best := cs.filter fun c => arbKey c.2 == k
      match best[s.drawn.toNat % best.length]? with
      | some (c, f) =>
        let u := match c with
          | .express e => { u with express := lmod u.express e.val fun y =>
              if y.active.isSome = true then y else { y with active := y.pend, pend := none } }
          | _ => u
        s.setBus b { u with active := some c, sent := some f }
      | none => s
  | _, _ => s

/-! ### Time master (R315 to R317) -/

/-- Nref of R315. -/
def State.nref (s : State) : Nat := Nat.max 1 (s.revsOfMs (s.fld 0x5808 15 0))

/-- TREF_FAIL (R315): a SYNC not sent before the next is due expires without FOLLOW, the one behind a message on the bus too. -/
def State.trefExpire (s : State) (b : Nat) : State :=
  let u := s.cbus b
  if u.tref.kind = 1 ∧ u.active ≠ some .timeRef then
    (s.setBus b { u with tref := { u.tref with kind := 0, after := none } }).setSQ 11 0
  else if u.tref.after.isSome then (s.setBus b { u with tref := { u.tref with after := none } }).setSQ 11 0
  else s

/-- The calendar bytes of a TOD: RTC_CENTURY, then RTC_SEC, MIN, HOUR, DAY, MONTH, YEAR (R316). -/
def todBytes (cal : List Byte) : List Byte :=
  [cal.getD 7 0, cal.getD 0 0, cal.getD 1 0, cal.getD 2 0, cal.getD 4 0, cal.getD 5 0, cal.getD 6 0]

/-- SYNC at boundary n (R315), in the slot of every enabled bus that is not listen-only (R317): a bus-off or STUCK bus holds it until it
expires. One due while a message of the slot is on the bus waits behind it. -/
def State.placeSync (s : State) (n : Nat) : State :=
  if s.flag 0x5808 31 = false ∨ n % s.nref ≠ 0 then s
  else
    let seq := (s.can.trefSeq + 1) % 256
    let s := { s with can := { s.can with trefSeq := seq } }
    (List.range 4).foldl (fun (s : State) b =>
      if s.flag 0x5800 (8 + b) = false ∨ s.listenOnly b then s
      else
        let s := s.trefExpire b
        let u := s.cbus b
        let min := (s.rtc.cal.drop 1).take 7
        let a : TrefSync := { seq, boundary := n % 2 ^ 32, tod := decide (u.tref.minute ≠ some min), todRegs := todBytes s.rtc.cal }
        let t : TrefSlot := { u.tref with after := some a, minute := some min }
        s.setBus b { u with tref := if u.active = some .timeRef then t else ({ t with kind := 0 } : TrefSlot).settle }) s

/-- A step of the timebase marked for the next FOLLOW of every bus (R316). -/
def State.markStep (s : State) : State :=
  { s with can := { s.can with bus := s.can.bus.map fun (u : CanBus) => { u with tref := { u.tref with step := true } } } }

/-! ### Bus states (R298, R308, R309) -/

/-- The CAN_IN points of a bus's receive entries. -/
def State.busInputs (s : State) (b : Nat) : List Nat :=
  (s.can.entries.filter fun e => entValid e.2 && !entTx e.2 && entBus e.2 == b).flatMap fun e =>
    (entPoints e.2).filter fun p => (s.point p).src.toNat == 5

/-- The CAN_OUT points of a bus's transmit entries. -/
def State.busOutputs (s : State) (b : Nat) : List Nat :=
  (s.can.entries.filter fun e => entValid e.2 && entTx e.2 && entBus e.2 == b).flatMap fun e => entPoints e.2

/-- The points of a bus brought to what its state gives them (R308, R309): input records in Intake, output records in Commit (R39,
R40). -/
def State.busPoints (s : State) (b : Nat) : State :=
  let s := if s.busDead b && s.inIntake then (s.busInputs b).foldl (fun (s : State) p => s.qualityNow p 0x80) s else s
  (s.busOutputs b).foldl (fun (s : State) p => s.refreshOut p) s

/-- The active frame of a bus waits again, or goes where it is being cancelled (R307). -/
def State.stopSending (s : State) (b : Nat) : State :=
  match s.activeTx b with
  | some x => if x.cancelled then s.removedByCancel b x else s.putBack b x
  | none => s.setBus b { s.cbus b with active := none, sent := none }

/-- BUS_OFF (R308). -/
def State.busOffOn (s : State) (b : Nat) : State :=
  if s.busUp b then
    let s := s.stopSending b
    let s := s.setBus b { s.cbus b with state := .busOff, recov := 0 }
    ((s.report .warn 11 6 0xFF b).count (0x5A1C + 0x20 * b) 1).busPoints b
  else s

/-- Recovery sequences that a bus-off bus has counted by a boundary (CAN_BUSb_ERR.RECOV): the spec does not tie them to the revolution, so
each boundary adds a free number of them, below the 128 that end the state. -/
def State.recovStep (s : State) : State :=
  (List.range 4).foldl (fun (s : State) b =>
    let u := s.cbus b
    if u.state = .busOff then s.setBus b { u with recov := Nat.min 127 (u.recov + (s.drawnFor (1180 + b)).toNat % 128) } else s) s

/-- BUS_OFF_RECOVERY (R308). -/
def State.busOffEnd (s : State) (b : Nat) : State :=
  let u := s.cbus b
  if u.state = .busOff then
    (s.setBus b { u with state := .active, recov := 128, tecCnt := 0, recCnt := 0 }).busPoints b
  else s

/-- BUS_STUCK (R309). -/
def State.busStuckOn (s : State) (b : Nat) : State :=
  if s.flag 0x5800 (8 + b) ∧ (s.cbus b).state ≠ .stuck then
    let s := s.stopSending b
    let s := s.setBus b { s.cbus b with state := .stuck, txOff := true, wasOff := decide ((s.cbus b).state = .busOff) }
    (s.report .fault 11 7 0xFF b).busPoints b
  else s

/-- BUS_STUCK_RECOVERY (R309): a bus that was bus-off before is bus-off again, since only R308 ends that. -/
def State.busStuckEnd (s : State) (b : Nat) : State :=
  let u := s.cbus b
  if u.state = .stuck then
    (s.setBus b { u with
      txOff := false, wasOff := false,
      state := if u.wasOff then .busOff else if 128 ≤ u.tecCnt ∨ 128 ≤ u.recCnt then .passive else .active }).busPoints b
  else s

/-- ERROR_FRAME (R298): the error counters stepped as ISO 11898-1 steps them (log 78). The transmit counter rises by `tec` steps of 8; the
receive counter by 1 where `rec` is odd, and by 8 for each pair in `rec`. A transmit counter above 255 drives the bus to bus-off
(R308). -/
def State.errorFrame (s : State) (b tec rec lec : Nat) : State :=
  let u := s.cbus b
  if s.flag 0x5800 (8 + b) = false then s
  else
    let tx := u.tecCnt + 8 * tec
    let rx := satNat 255 (u.recCnt + rec % 2 + 8 * (rec / 2))
    let passive := decide (128 ≤ tx ∨ 128 ≤ rx)
    let st := if s.busDead b then u.state else if passive then CanState.passive else .active
    let s := (s.setBus b { u with tecCnt := satNat 255 tx, recCnt := rx, lec, state := st }).count (0x5A08 + 0x20 * b) 1
    let s := if st = .passive ∧ u.state = .active then s.setSQ 11 5 else s
    if 255 < tx then s.busOffOn b else s

/-! ### Reception (R311 to R314) -/

/-- The receive entry of lowest index that a frame matches on its bus (R312). -/
def State.matchEntry (s : State) (b : Nat) (f : CanFrame) : Option (Nat × List W32) :=
  s.can.entries.find? fun e =>
    entValid e.2 && !entTx e.2 && entBus e.2 == b && (bitAt (ew e.2 0) 27 == f.ide) && (bitAt (ew e.2 0) 26 == f.fdf) &&
      decide ((f.ident.setWidth 32 ^^^ ew e.2 1) &&& ew e.2 2 &&& 0x1FFFFFFF = 0)

/-- A lost reception (R311, R314). -/
def State.rxLost (s : State) (b : Nat) : State :=
  let u := s.cbus b
  (s.setBus b { u with rxLost := satNat 65535 (u.rxLost + 1) }).setSQ 11 4

/-- A reception that matches no entry, to the receive queue of its bus (R314). -/
def State.rawPacket (s : State) (b : Nat) (x : CanRx) : State :=
  if s.flag 0x5800 (4 + b) then
    let ws := framePacket x.frame ((s.segmentBooth b (nodeOf x.frame)).getD 255) (x.stamp.setWidth 64)
    if s.qRoom (20 + b) ws.length then s.produce (20 + b) ws else s.rxLost b
  else s

/-- A frame on a bus that the module itself sends: the one it has in arbitration or transmission, or its frame of the pair (R412). -/
def State.ownFrame (s : State) (b : Nat) (f : CanFrame) : Bool :=
  let u := s.cbus b
  (u.active.isSome && u.sent == some f) || u.pairSent == some f

/-- An FD frame on a bus whose FD_EN is 0 (R298): answered by an error frame, the receive counter up by 1; which error the classical
node finds in it is not stated. A listen-only bus sends no error frame (CAN_BUSb_CFG.LISTEN). -/
def State.fdRefused (s : State) (b : Nat) : State :=
  if s.listenOnly b then s else s.errorFrame b 0 1 (1 + (s.drawnFor (1190 + b)).toNat % 6)

/-- CAN_RECEPTION (R298, R311, R312, R314): a completed reception of another node's frame that matches an entry waits in its bus's store
for Intake, any other goes to the receive queue. A receive error counter above 127 falls to 119 + `rec`: ISO 11898-1 lets the
controller choose of 119 to 127. -/
def State.canReceive (s : State) (b : Nat) (f : CanFrame) (stamp : Stamp) (rec : Nat) : State :=
  if s.busUp b = false ∨ s.ownFrame b f ∨ f.remote then s
  else if f.fdf ∧ s.flag (0x5848 + 0x40 * b) 9 = false then s.fdRefused b
  else
    let u := s.cbus b
    let rx := if u.recCnt ≤ 127 then u.recCnt - 1 else 119 + rec % 9
    let s := (s.setBus b (u.calm u.tecCnt rx)).count (0x5A00 + 0x20 * b) 1
    let pair := decide (f.ide = false ∧ (f.ident.toNat = 0x14 ∨ f.ident.toNat = 0x15))
    let s := if reservedId f.ide f.ident.toNat ∧ s.listenOnly b = false ∧ pair = false then s.setSQ 11 8 else s
    if (s.matchEntry b f).isNone then s.rawPacket b { frame := f, stamp }
    else if (s.cbus b).store.length < 64 then
      s.setBus b { s.cbus b with store := (s.cbus b).store ++ [{ frame := f, stamp }] }
    else s.rxLost b

/-- A field of a payload, sign- or zero-extended (R301). -/
def fieldOf (data : List Byte) (w : W32) : W64 :=
  let n := slotWidth w
  let v := leAt data (slotOff w) n
  if bitAt w 30 ∧ n < 8 ∧ 2 ^ (8 * n - 1) ≤ v then BitVec.ofInt 64 ((v : Int) - 2 ^ (8 * n)) else BitVec.ofNat 64 v

/-- One slot of a matched reception written (R86, R312, R313), or refused under R70 and R79. -/
def State.decodeSlot (s : State) (b : Nat) (x : CanRx) (w : W32) : State :=
  let p := bits w 12 0
  let r := s.point p
  if x.frame.data.length < slotOff w + slotWidth w then s
  else match s.segmentBooth b (nodeOf x.frame) with
    | some booth =>
      if r.owner.toNat ≠ booth then s.count 0x18A8 1
      else if r.src ≠ 5 then s.noteDenial booth .write p .denySource
      else if r.quality = 0xC1 then s.noteDenial booth .write p .deny
      else s.supply p (fieldOf x.frame.data w) 0 x.stamp s.intakeStamp
    | none => s

/-- One stored reception decoded (R312, R314). A member that mirrors a primary takes its records from the state sync instead
(R409). -/
def State.decodeRx (s : State) (b : Nat) (x : CanRx) : State :=
  match s.matchEntry b x.frame with
  | none => s.rawPacket b x
  | some e =>
    if s.trap.role = .syncing ∨ s.trap.role = .standby then s
    else if (s.segmentBooth b (nodeOf x.frame)).isNone then s.count 0x18A8 1
    else (entSlots e.2).foldl (fun (s : State) w => s.decodeSlot b x w) s

/-- A reception placed by its start-of-frame instant, earlier first (R313, R75). -/
def insertRx (x : Nat × CanRx) : List (Nat × CanRx) → List (Nat × CanRx)
  | [] => [x]
  | h :: t => if 0 ≤ (h.2.stamp - x.2.stamp).toInt then x :: h :: t else h :: insertRx x t

/-- CAN_DECODE (R313): every stored reception, in order of start of frame. -/
def State.decodeCan (s : State) : State :=
  let all := (List.range 4).flatMap fun b => (s.cbus b).store.map fun x => (b, x)
  let s := (List.range 4).foldl (fun (s : State) b => s.setBus b { s.cbus b with store := [] }) s
  let s := (all.foldr insertRx []).foldl (fun (s : State) x => s.decodeRx x.1 x.2) s
  (List.range 4).foldl (fun (s : State) b => s.busPoints b) s

/-! ### Settings (R300, R302) -/

/-- Bit-timing words that R300 accepts: the arbitration word and the data word of one bus. -/
def timingOk (nbt dbt : W32) : Bool :=
  let nq := (bits nbt 31 24 + 1) * (1 + bits nbt 23 16 + bits nbt 15 8)
  let dq := (bits dbt 31 24 + 1) * (1 + bits dbt 23 16 + bits dbt 15 12)
  let nOk := decide (nq = 640 ∨ nq = 320 ∨ nq = 160 ∨ nq = 80) && decide (bits nbt 7 0 ≤ bits nbt 15 8)
  let dOk := decide (dq = 80 ∨ dq = 40 ∨ dq = 20 ∨ dq = 16) && decide (bits dbt 11 8 ≤ bits dbt 15 12) &&
    decide (1 ≤ bits dbt 23 16 ∧ bits dbt 23 16 ≤ 31)
  nOk && dOk && decide (dq ≤ nq) && (bitAt dbt 7 || decide (40 < dq))

/-- A transmit entry that R302 refuses: a reserved identifier, slots of more than one owner, or a destination outside the
owner's segment. -/
def State.entryRejected (s : State) (e : List W32) : Bool :=
  let ident := bits (ew e 1) 28 0
  let ide := bitAt (ew e 0) 27
  let owners := (entPoints e).map fun p => (s.point p).owner.toNat
  entValid e && entTx e &&
    (reservedId ide ident || owners.any (fun o => some o != owners.head?) ||
     (!owners.isEmpty && s.segmentBooth (entBus e) (ident % 64) != owners.head?))

/-- Pending words of a frame entry applied together (R45, R302). -/
def State.applyEntry (s : State) (i : Nat) (l : List Shadow) : State :=
  let old := (s.canEntry i ++ List.replicate 7 0).take 7
  let new := l.foldl (fun (e : List W32) x => lmod e (x.off / 4 - 0x5814 / 4) fun w =>
    mergeBits w (x.mask &&& namedBits x.off) x.val) old
  if s.entryRejected new then s.setSQ 11 1
  else
    { s with can := { s.can with
        entries := if new.all (· == 0) then serase s.can.entries i else sput s.can.entries i new
        entryTx := serase s.can.entryTx i } }.count 0x089C l.length

/-! ### Commands (R307, R394) -/

/-- The frame of CAN_SEND with the payload its DLC calls for (R394). -/
def sendFrame (f : CanFrame) : CanFrame :=
  let n := dlcLen f.fdf f.dlc
  { f with data := (f.data ++ List.replicate n 0).take n, remote := false, dlc := f.dlc % 16 }

/-- CAN_SEND (R303, R394). A queue without room refuses the frame; the spec gives no reason code. -/
def cmdCanSend (h : Hdr) (bus : Nat) (f : CanFrame) (s : State) : State :=
  let x : CanTx := { tag := s.can.nextTag, entry := none, owner := BitVec.ofNat 8 (s.boothOf h), frame := sendFrame f,
                     entered := s.rev }
  runCmd h { opcode := 0x0901, maxData := 2, denied := !s.landlord h, safeBlk := some 11,
             bad := if 4 ≤ bus then some 0 else none, changes := true,
             busy := if s.qRoom (16 + bus) x.packet.length then none else some (s.drawn.toNat % 65536) }
    (fun s =>
      let s := { s with can := { s.can with nextTag := (s.can.nextTag + 1) % 65536 } }
      okRes (leBytes 2 x.tag) (s.pushTx bus x)) s

/-- A frame that a cancel names. -/
def CanTx.named (x : CanTx) (byEntry : Bool) (key : Nat) : Bool :=
  if byEntry then x.entry == some key else x.tag == key

/-- Booths that may cancel: 0, 255 and the owner; a tag of no waiting frame belongs to nobody (R307). -/
def State.mayCancel (s : State) (h : Hdr) (bus : Nat) (byEntry : Bool) (key : Nat) : Bool :=
  let u := s.cbus bus
  let fs := u.queue ++ u.express.flatMap fun e => e.pend.toList ++ e.active.toList
  s.landlord h ||
    (if byEntry then decide (((entPoints (s.canEntry key)).head?.map fun p => (s.point p).owner.toNat) = some (s.boothOf h))
    else match fs.find? fun x => x.tag == key with
      | some x => decide (x.owner.toNat = s.boothOf h)
      | none => true)

/-- CAN_CANCEL (R307, R394): waiting frames are removed; a frame in arbitration decides the outcome. -/
def cmdCanCancel (h : Hdr) (bus : Nat) (byEntry : Bool) (key : Nat) (s : State) : State :=
  runCmd h { opcode := 0x0902, maxData := 1, denied := !s.mayCancel h bus byEntry key, safeBlk := some 11,
             bad := if 4 ≤ bus then some 0 else if byEntry ∧ 512 ≤ key then some 2 else none, changes := true }
    (fun s =>
      let u := s.cbus bus
      let act := (s.activeTx bus).filter fun x => x.named byEntry key
      let head := if u.active = some .queueHead then u.queue.take 1 else []
      let tail := if u.active = some .queueHead then u.queue.drop 1 else u.queue
      let held := fun (i : Nat) (e : Express) => !u.onBus i && (e.active.map fun x => x.named byEntry key).getD false
      let gone := (tail.filter fun x => x.named byEntry key).length +
        (u.express.filter fun e => (e.pend.map fun x => x.named byEntry key).getD false).length +
        (u.express.zipIdx.filter fun e => held e.2 e.1).length
      let s := s.setTxQueue bus 0 (head ++ tail.filter fun x => !x.named byEntry key)
      let drop := fun (i : Nat) (e : Express) =>
        let e := if (e.pend.map fun x => x.named byEntry key).getD false then { e with pend := none, result := 3 } else e
        if held i e then { e with active := none, result := 3 } else e
      let s := s.setBus bus { s.cbus bus with express := (s.cbus bus).express.mapIdx drop }
      let s := s.count (0x5A18 + 0x20 * bus) gone
      match act with
      | some x =>
        let s := s.setBus bus (match u.active with
          | some (.express e) => { s.cbus bus with express := lmod (s.cbus bus).express e.val fun y =>
              { y with active := y.active.map fun z => { z with cancelled := true } } }
          | _ => { s.cbus bus with queue := lmod (s.cbus bus).queue 0 fun z => { z with cancelled := true } })
        .later (.cancel bus x.tag) s
      | none => okRes [if gone = 0 then 2 else 0] s) s

/-- The head of a transmit queue's age in revolutions (CAN_BUSb_STAT.HEAD_AGE). -/
def State.headAge (s : State) (b : Nat) : Nat :=
  match (s.cbus b).queue.head? with
  | some x => satNat 255 (s.rev - x.entered)
  | none => 0

/-- CAN_BUSb_STAT. -/
def State.busStat (s : State) (b : Nat) : W32 :=
  let u := s.cbus b
  let st := match u.state with
    | .active => 0
    | .passive => 1
    | .busOff => 2
    | .stuck => 3
  place u.rxLost 16 ||| place st 14 ||| place (s.headAge b) 0

/-- CAN_BUSb_ERR. -/
def State.busErr (s : State) (b : Nat) : W32 :=
  let u := s.cbus b
  place u.tecCnt 24 ||| place u.recCnt 16 ||| place u.recov 8 ||| place u.lec 0

/-- CAN_BUSb_EXPe. -/
def State.expWord (s : State) (b e : Nat) : W32 :=
  let x := (s.cbus b).express.getD e {}
  let on := (s.cbus b).onBus e
  flagAt (x.pend.isSome || (x.active.isSome && !on)) 31 ||| flagAt (x.active.isSome && on) 30 ||| place x.result 16 ||| place x.repl 0

end Sys2Proof.Machine
end

