-- ==== Sys2Proof/Machine/Net.lean ====
section
/-! DEFINITION. The Ethernet ports and the services on them (chapter 12, R320 to R347): frame limits, the switch, PAUSE,
EEE and LLDP, interfaces and booths, BACnet, tunnelled sessions, TSO and the host frame path, and the commands of R393. -/

namespace Sys2Proof.Machine

/-- A port record. -/
def State.port (s : State) (p : Nat) : NetPort := s.net.ports.getD p {}

/-- A port record replaced. -/
def State.setPort (s : State) (p : Nat) (x : NetPort) : State :=
  { s with net := { s.net with ports := lmod s.net.ports p fun _ => x } }

/-- A port's counter i advanced (R347). -/
def State.portCount (s : State) (p i n : Nat) : State := s.count (0x6100 + 0x20 * p + 4 * i) n

/-- A port enabled and linked. -/
def State.portUp (s : State) (p : Nat) : Bool := s.flag (0x6010 + 4 * p) 31 && decide ((s.port p).link ≠ 0)

/-- Forwarding between the ring ports (R321). -/
def State.ringOn (s : State) : Bool := s.flag 0x6000 0

/-! ### Sending (R322, R328, R330) -/

/-- A frame padded to 64 bytes, FCS included (R324). -/
def padFrame (l : List Byte) : List Byte := l ++ List.replicate (60 - l.length) 0

/-- No further frame may start on a port: it is paused, or a PAUSE waits for the frame in progress to end (R327). -/
def NetPort.held (x : NetPort) : Bool := x.paused || x.pausePend.isSome

/-- A port takes a frame: it is up, and sends it or has room for it in its egress queue (R328). -/
def State.accepts (s : State) (p : Nat) : Bool :=
  s.portUp p && !((s.port p).held && Config.egressFull (s.port p).egress.length)

/-- A frame given to a port: sent, or left in its egress queue with the CRC-32 of its data (R325) while no frame may start, or dropped when
that is full (R328). A port in low-power idle wakes (R330). -/
def State.send (s : State) (p : Nat) (f : List Byte) : State :=
  let x := s.port p
  if s.portUp p = false then s
  else if x.held then
    (if Config.egressFull x.egress.length then s.portCount p 7 1 else s.setPort p { x with egress := x.egress ++ [(f, crc32 f)] })
  else (s.setPort p { x with sent := [f], lpiTx := false }).portCount p 1 1

/-- Frames given to a port in order; `sent` shows those that left together. -/
def State.sendAll (s : State) (p : Nat) (fs : List (List Byte)) : State :=
  let t := fs.foldl (fun (s : State) f => s.send p f) s
  if (s.port p).held ∨ s.portUp p = false then t else t.setPort p { t.port p with sent := fs }

/-- Bytes as a big-endian number. -/
def beAt (l : List Byte) (off n : Nat) : Nat := beNat ((l.drop off).take n)

/-- A frame carries one 802.1Q tag. -/
def isTagged (l : List Byte) : Bool := decide (beAt l 12 2 = 0x8100)

/-- A frame of the high queue (R322): PCP 6 or 7, or a PTP or pair frame of the module's own, which it sends untagged on NET-P and with
PTP_VID 0. -/
def State.highQueue (s : State) (l : List Byte) : Bool :=
  let own := decide (beAt l 6 6 = s.fuse.mac.toNat ∨ beAt l 6 6 = s.fuse.mac.toNat + 1)
  (isTagged l && decide (0xC000 ≤ beAt l 14 2)) || (own && decide (beAt l 12 2 = 0x88F7 ∨ beAt l 12 2 = 0x88B5))

/-- The frames that waited in the egress queues leave, the high queue before the other (R322); one whose CRC-32 no longer fits its data
is discarded (R325). A port in low-power idle wakes (R330). -/
def State.flushEgress (s : State) (p : Nat) : State :=
  let x := s.port p
  let good := (x.egress.filter fun e => crc32 e.1 == e.2).map (·.1)
  let out := good.filter s.highQueue ++ good.filter fun f => !s.highQueue f
  if x.egress.isEmpty then s
  else (s.setPort p { x with egress := [], sent := out, lpiTx := false }).portCount p 1 out.length

/-- A frame with an 802.1Q tag put in (R332, R337). -/
def tagWith (tci : Nat) (l : List Byte) : List Byte := l.take 12 ++ beBytes 2 0x8100 ++ beBytes 2 (tci % 65536) ++ l.drop 12

/-- A frame of a VID: untagged on VID 0 (R83). -/
def onVid (vid : Nat) (l : List Byte) : List Byte := if vid = 0 then l else tagWith vid l

/-- Frames given to both ring ports. -/
def State.sendRings (s : State) (fs : List (List Byte)) : State := (s.sendAll 0 fs).sendAll 1 fs

/-! ### Interfaces and booths (R83, R336, R337) -/

/-- The booth of a VID (R83). -/
def State.vlanBooth (s : State) (vid : Nat) : Option Nat :=
  let w := sget 0 s.pnt.maps (0x1000 + vid)
  if bitAt w 8 then some (bits w 7 0) else none

/-- The words of an interface entry. -/
def State.ifEntry (s : State) (i : Nat) : List W32 := sget [] s.net.ifs i

/-- VALID of an entry. -/
def ifValid (e : List W32) : Bool := bitAt (ew e 0) 31

/-- VID of an entry. -/
def ifVid (e : List W32) : Nat := bits (ew e 0) 11 0

/-- The valid interface of a VID (R336). -/
def State.ifOf (s : State) (vid : Nat) : Option (List W32) :=
  (s.net.ifs.find? fun e => ifValid e.2 && ifVid e.2 == vid).map (·.2)

/-- The home interface of a booth: the lowest VID mapped to it with a valid interface (R337). -/
def State.homeIf (s : State) (booth : Nat) : Option (List W32) :=
  let vids := (s.net.ifs.filter fun e => ifValid e.2 && (s.vlanBooth (ifVid e.2) == some booth)).map fun e => ifVid e.2
  (vids.min?).bind s.ifOf

/-- Network services exist: not on a member that R404 restricts, nor in the parity safe state of NET (R359). -/
def State.servicesUp (s : State) : Bool := !s.bound && !s.parityHeld 12

/-- The subnet of an entry: prefix length and the network bits, none without an IPv4 address. -/
def ifNet (e : List W32) : Option (Nat × Nat) :=
  let len := Nat.min 32 (bits (ew e 2) 31 24)
  if ew e 1 = 0 then none else some (len, (ew e 1).toNat / 2 ^ (32 - len))

/-- Two subnets overlap. -/
def netsOverlap (a b : Nat × Nat) : Bool :=
  let n := Nat.min a.1 b.1
  decide (a.2 / 2 ^ (a.1 - n) = b.2 / 2 ^ (b.1 - n))

/-- An entry that R338 refuses beside the others. -/
def State.ifRejected (s : State) (i : Nat) (e : List W32) : Bool :=
  ifValid e && s.net.ifs.any fun o => o.1 != i && ifValid o.2 &&
    (ifVid o.2 == ifVid e ||
     match ifNet o.2, ifNet e with
     | some a, some b => netsOverlap a b
     | _, _ => false)

/-- Pending words of an interface entry applied together (R45, R338). -/
def State.applyIf (s : State) (i : Nat) (l : List Shadow) : State :=
  let old := (s.ifEntry i ++ List.replicate 8 0).take 8
  let new := l.foldl (fun (e : List W32) x => lmod e (x.off / 4 - 0x6074 / 4) fun w =>
    mergeBits w (x.mask &&& namedBits x.off) x.val) old
  if s.ifRejected i new then s.setSQ 12 2
  else
    { s with net := { s.net with ifs := if new.all (· == 0) then serase s.net.ifs i else sput s.net.ifs i new } }.count
      0x089C l.length

/-! ### Frames by their bytes (R321, R323, R324) -/

/-- Length from destination address to FCS (R324). -/
def ethLen (f : EthFrame) : Nat := f.data.length + 4

/-- The destination address of a frame. -/
def ethDest (f : EthFrame) : Nat := beAt f.data 0 6

/-- The source address of a frame. -/
def ethSource (f : EthFrame) : BitVec 48 := BitVec.ofNat 48 (beAt f.data 6 6)

/-- A frame with one 802.1Q tag. -/
def ethTagged (f : EthFrame) : Bool := isTagged f.data

/-- The VID of a frame; an untagged or priority-tagged frame has VID 0 (R83). -/
def ethVid (f : EthFrame) : Nat := if ethTagged f then beAt f.data 14 2 % 4096 else 0

/-- The Ethertype behind the tag. -/
def ethType (f : EthFrame) : Nat := beAt f.data (if ethTagged f then 16 else 12) 2

/-- A first tag followed by a second (R324). -/
def ethDoubleTagged (f : EthFrame) : Bool := (ethTagged f) && decide (ethType f = 0x8100 ∨ ethType f = 0x88A8)

/-- A frame of the pair (R405). -/
def ethTrapeze (f : EthFrame) : Bool := decide (ethType f = 0x88B5)

/-- A group address. -/
def ethGroup (f : EthFrame) : Bool := decide (beAt f.data 0 1 % 2 = 1)

/-- The broadcast address. -/
def ethBroadcast (f : EthFrame) : Bool := decide (ethDest f = 0xFFFFFFFFFFFF)

/-! ### Reception (R321 to R325, R329, R346) -/

/-- A source address learnt on a port, up to 1,024 (R321). -/
def State.learn (s : State) (p : Nat) (src : BitVec 48) : State :=
  if s.ringOn = false ∨ 2 ≤ p then s
  else
    let rest := s.net.table.filter fun e => e.1 != src
    if rest.length < 1024 then { s with net := { s.net with table := rest ++ [(src, p)] } } else s

/-- A PAUSE frame of so many quanta from the module's address. -/
def State.pauseFrame (s : State) (p quanta : Nat) : List Byte :=
  let mac := s.fuse.mac.toNat + (if p = 2 then 1 else 0)
  let body := beBytes 6 0x0180C2000001 ++ beBytes 6 mac ++ beBytes 2 0x8808 ++ beBytes 2 1 ++ beBytes 2 quanta
  body ++ List.replicate (60 - body.length) 0

/-- R329: a PAUSE above 75 % fill, and a PAUSE of time 0 below 25 %. -/
def State.pauseSend (s : State) (p fill : Nat) : State :=
  let x := s.port p
  let s := s.setPort p { x with rxFill := fill }
  if s.flag (0x6010 + 4 * p) 27 = false then s
  else if 75 < fill ∧ x.pauseSent = false then
    (s.setPort p { s.port p with pauseSent := true }).send p (s.pauseFrame p (s.fld (0x6010 + 4 * p) 15 0))
  else if fill < 25 ∧ x.pauseSent then
    (s.setPort p { s.port p with pauseSent := false }).send p (s.pauseFrame p 0)
  else s

/-- Receive buffers that drain while no frame arrives (R329): which fill each has reached at a boundary is not stated, a free value not
above the last. -/
def State.drainBuffers (s : State) : State :=
  (List.range 3).foldl (fun (s : State) p =>
    if (s.port p).pauseSent then s.pauseSend p ((s.drawnFor (9400 + p)).toNat % ((s.port p).rxFill + 1)) else s) s

/-- A frame for the host placed in Q25 (R346). -/
def State.hostFrame (s : State) (p : Nat) (f : EthFrame) : State :=
  let n := f.data.length
  let w0 : W64 := BitVec.ofNat 64 ((p + 1) * 2 ^ 62 + (ethTagged f).toNat * 2 ^ 61 + (if ethTagged f then (ethVid f) % 4096 else 0) * 2 ^ 48
    + n % 65536)
  let ws := w0 :: f.stamp.setWidth 64 :: wordsOf (n + 1) f.data
  if s.flag 0x6000 2 = false then s
  else if s.qRoom 25 ws.length then s.produce 25 ws else s.count 0x617C 1

/-- Bytes of a TLS stream cut into commands: each 16 bytes of header and LENGTH of payload (R342). -/
def cutCommands : Nat → List Byte → List (List Byte) × List Byte
  | 0, l => ([], l)
  | n + 1, l =>
    let len := 16 + leAt l 6 2
    if l.length < 16 ∨ l.length < len then ([], l)
    else
      let (cs, rest) := cutCommands n (l.drop len)
      (l.take len :: cs, rest)

/-- Held responses of a tunnelled session that TCP sends once the client's window is open (R344). In how many segments they go under TSO
depends on the TLS records, which the spec does not lay out: counter 26 advances by a free number (R345). -/
def State.sendResponses (s : State) (n : Nat) : State :=
  let l := (sget [] s.mbx.resp (4 + n)).flatten.length
  if l = 0 then s
  else ({ s with mbx := { s.mbx with resp := serase s.mbx.resp (4 + n) } }).count 0x6168 ((s.drawnFor (9500 + n)).toNat % (l + 1))

/-- The plain bytes of a record of a tunnelled session: with its window open the client takes the responses held for it, and
complete commands go to Q12 + n while they have room (R342). -/
def State.tunnelBytes (s : State) (n : Nat) (data : List Byte) (window : Bool) : State :=
  let t := s.net.tunnels.getD n {}
  if t.state = 0 then s
  else
    let s := if window then s.sendResponses n else s
    let all := t.buf ++ data
    let (cs, rest) := cutCommands all.length all
    let (s, left) := cs.foldl (fun (x : State × List Byte) c =>
      let ws := wordsOf (c.length + 1) c
      if x.2.isEmpty ∧ x.1.qRoom (12 + n) ws.length then (x.1.produce (12 + n) ws, []) else (x.1, x.2 ++ c)) (s, [])
    { s with net := { s.net with tunnels := lmod s.net.tunnels n fun y => { y with buf := left ++ rest } } }

/-- The one's-complement sum of 16-bit big-endian words, folded to 16 bits. -/
def onesSum : List Byte → Nat
  | [] => 0
  | [a] => a.toNat * 256
  | a :: b :: t => a.toNat * 256 + b.toNat + onesSum t

/-- The Internet checksum over bytes that hold 0 in its place. -/
def netSum (l : List Byte) : Nat :=
  let x := onesSum l
  let x := x % 65536 + x / 65536
  let x := x % 65536 + x / 65536
  65535 - (x % 65536 + x / 65536) % 65536

/-- Bytes replaced at an offset. -/
def patch (l : List Byte) (off : Nat) (b : List Byte) : List Byte := l.take off ++ b ++ l.drop (off + b.length)

/-- Where the IP header starts. -/
def ipOff (l : List Byte) : Nat := if isTagged l then 18 else 14

/-- Residence time added to the correctionField of a forwarded PTP event message, and the UDP checksum over it (R335). The
time is one the spec does not fix. -/
def State.transparent (s : State) (l : List Byte) : List Byte :=
  let eth := if isTagged l then 16 else 12
  let o := ipOff l
  let udp := o + beAt l o 1 % 16 * 4
  let l2 := decide (beAt l eth 2 = 0x88F7)
  let l4 := decide (beAt l eth 2 = 0x0800) && decide (beAt l (o + 9) 1 = 17) && decide (beAt l (udp + 2) 2 = 319)
  let m := if l2 then o else udp + 8
  if s.flag 0x6050 22 = false ∨ (l2 || l4) = false ∨ 4 ≤ beAt l m 1 % 16 then l
  else
    let l := patch l (m + 8) (beBytes 8 ((beAt l (m + 8) 8 + (s.drawnFor 9200).toNat % 2 ^ 40) % 2 ^ 64))
    if l2 ∨ beAt l (udp + 6) 2 = 0 then l
    else
      let n := beAt l (udp + 4) 2
      let l := patch l (udp + 6) [0, 0]
      let sum := netSum ((l.drop (o + 12)).take 8 ++ beBytes 2 17 ++ beBytes 2 n ++ (l.drop udp).take n)
      patch l (udp + 6) (beBytes 2 (if sum = 0 then 65535 else sum))

/-- The IPv6 address of an interface entry. -/
def ifAddr6 (e : List W32) : Nat := beNat (((List.range 4).map fun k => beBytes 4 (ew e (4 + k)).toNat).flatten)

/-- A request that every valid interface answers (R336): ARP and ICMP echo for its IPv4 address, neighbour solicitation and
ICMPv6 echo for its IPv6 address. -/
def hostRequest (e : List W32) (l : List Byte) : Bool :=
  let eth := beAt l (if isTagged l then 16 else 12) 2
  let o := ipOff l
  let v4 := (ew e 1).toNat
  let v6 := ifAddr6 e
  (decide (v4 ≠ 0) && decide (eth = 0x0806) && decide (beAt l (o + 6) 2 = 1) && decide (beAt l (o + 24) 4 = v4)) ||
  (decide (v4 ≠ 0) && decide (eth = 0x0800) && decide (beAt l (o + 9) 1 = 1) && decide (beAt l (o + 16) 4 = v4) &&
    decide (beAt l (o + beAt l o 1 % 16 * 4) 1 = 8)) ||
  (decide (v6 ≠ 0) && decide (eth = 0x86DD) && decide (beAt l (o + 6) 1 = 58) &&
    ((decide (beAt l (o + 40) 1 = 135) && decide (beAt l (o + 48) 16 = v6)) ||
     (decide (beAt l (o + 40) 1 = 128) && decide (beAt l (o + 24) 16 = v6))))

/-- The answer of an interface to such a request, on the port and the VID it came by (R324, R336, R337). -/
def State.answerHost (s : State) (p : Nat) (e : List W32) (l : List Byte) : State :=
  let vid := if isTagged l then beAt l 14 2 % 4096 else 0
  if hostRequest e l then s.send p (padFrame (onVid vid (Config.hostReply e s.fuse.mac.toNat l))) else s

/-- A pause started or reloaded. -/
def State.startPause (s : State) (p : Nat) (time : Nat) : State :=
  let x := s.port p
  if time = 0 then
    (if x.paused then (s.setPort p { x with paused := false, pauseRem := 0, pausedRev := none }).flushEgress p else s)
  else s.setPort p { x with paused := true, pauseRem := time, pausedRev := if x.paused then x.pausedRev else some s.rev }

/-- A received PAUSE (R326, R327): `busy` says that a frame is being transmitted, which time 0 lets go on. -/
def State.pauseIn (s : State) (p : Nat) (time : BitVec 16) (busy : Bool) : State :=
  if s.portUp p = false then s
  else
    let s := s.portCount p 6 1
    let x := s.port p
    if s.flag (0x6010 + 4 * p) 28 = false then s
    else if busy ∧ x.paused = false then s.setPort p { x with pausePend := if time = 0 then none else some time.toNat }
    else s.startPause p time.toNat

/-- PAUSE (R327, R347): a PAUSE frame of 64 bytes accepted by a port. -/
def State.pauseFrameIn (s : State) (p : Nat) (time : BitVec 16) (busy : Bool) : State :=
  if s.portUp p = false then s else (((s.portCount p 0 1).portCount p 2 64).pauseIn p time busy)

/-! ### Frames by their destination (R321, R336, R346) -/

/-- The module's address on a port: NET-P uses it plus 1 (NET_MAC). -/
def State.ownMac (s : State) (p : Nat) : Nat := s.fuse.mac.toNat + (if p = 2 then 1 else 0)

/-- The host's frame-path address (NET_HOST_MAC). -/
def State.hostMac (s : State) : Nat := s.fld 0x604C 15 0 * 2 ^ 32 + (s.reg 0x6048).toNat

/-- A MAC control frame for a port (R326): it is never forwarded. -/
def State.macControl (s : State) (p : Nat) (f : EthFrame) : Bool :=
  decide (ethType f = 0x8808) && decide (ethDest f = 0x0180C2000001 ∨ ethDest f = s.ownMac p)

/-- An accepted frame goes on to the other ring port (R321): group addresses but those of MAC control and LLDP, unicast addresses not learnt
on the port the frame came by. -/
def State.forwards (s : State) (p : Nat) (f : EthFrame) : Bool :=
  s.ringOn && decide (p < 2) && decide (ethType f ≠ 0x8808) && decide (ethDest f ≠ 0x0180C200000E) &&
    ((ethGroup f) || (decide (ethDest f ≠ s.ownMac p) && decide (ethDest f ≠ s.hostMac) &&
      (match s.net.table.find? fun e => e.1 == BitVec.ofNat 48 (ethDest f) with
       | some e => e.2 != p
       | none => true)))

/-- A frame for the module's services: on a VID without booth it is dropped and counted (R83), and so is one addressed to the module on a VID
without interface (R336). -/
def State.serveOwn (s : State) (p : Nat) (f : EthFrame) : State :=
  match s.vlanBooth (ethVid f), s.ifOf (ethVid f) with
  | some _, some e => (match f.record with
    | some (n, l) => s.tunnelBytes n.val l f.window
    | none => s.answerHost p e f.data)
  | some _, none => if ethDest f = s.ownMac p then s.count 0x18A0 1 else s
  | none, _ => s.count 0x18A0 1

/-- An accepted frame by its destination: MAC control, the host, every station, the module, a group (R326, R336, R346). -/
def State.serveFrame (s : State) (p : Nat) (f : EthFrame) : State :=
  if s.macControl p f then
    (if beAt f.data 14 2 = 1 then s.pauseIn p (BitVec.ofNat 16 (beAt f.data 16 2)) false else s.portCount p 7 1)
  else if ethBroadcast f then
    let s := s.hostFrame p f
    if s.servicesUp then s.serveOwn p f else s
  else if ethDest f = s.ownMac p then (if s.servicesUp then s.serveOwn p f else s)
  else if ethDest f = s.hostMac then s.hostFrame p f
  else if ethGroup f ∧ s.servicesUp ∧ ethDest f ≠ 0x0180C200000E ∧ ethType f ≠ 0x88F7 then s.serveOwn p f
  else s

/-- The counter of the reason for which a port drops a frame, none for one it accepts (R321, R323, R324, R329). -/
def State.ethDrop (s : State) (p : Nat) (f : EthFrame) : Option Nat :=
  if ethLen f < 64 then some 4
  else if (if ethTagged f then 1522 else 1518) < ethLen f then some 5
  else if f.fcsOk = false then some 3
  else if 100 < f.fill then some 7
  else if p = 2 ∧ ethTrapeze f = false ∧ s.macControl p f = false then some 7
  else if ethDoubleTagged f ∧ (ethDest f = s.ownMac p ∨ ethDest f = s.hostMac) then some 7
  else none

/-- A frame that a port accepts (R321, R347). -/
def State.ethAccept (s : State) (p : Nat) (f : EthFrame) : State :=
  let on := s.forwards p f
  let s := ((s.portCount p 0 1).portCount p 2 (ethLen f)).pauseSend p f.fill
  let s := s.learn p (ethSource f)
  let s := if on then (s.send (1 - p) (s.transparent f.data)).count 0x6160 (s.accepts (1 - p)).toNat else s
  if ethTrapeze f then s else s.serveFrame p f

/-- ETH_FRAME_RECEIVE (R321 to R325, R347). -/
def State.ethReceive (s : State) (p : Nat) (f : EthFrame) : State :=
  if s.portUp p = false then s
  else match s.ethDrop p f with
    | some k => s.portCount p k 1
    | none => s.ethAccept p f

/-! ### PAUSE (R326 to R328) -/

/-- PAUSE_EXPIRY (R327). -/
def State.pauseEnd (s : State) (p : Nat) : State := if (s.port p).paused then s.startPause p 0 else s

/-- PAUSE_LONG (R328): the pause has lasted for more than one revolution, so past a boundary. -/
def State.pauseLong (s : State) (p : Nat) : State :=
  if (s.port p).paused ∧ (s.port p).pausedRev.any (fun r => decide (r < s.rev)) then s.report .warn 12 5 0xFF p else s

/-! ### Link, ageing, EEE and LLDP (R320 to R322, R330, R331) -/

/-- The standard minimum wake time for a speed, in µs (R331). -/
def twMin (link : Nat) : Nat := if link = 2 then 17 else 30

/-- A link state that a port's media and SPEED allow (R320): NET-P has no 1,000 Mbit/s, SPEED 1h and 2h one speed only. -/
def State.canLink (s : State) (p link : Nat) : Bool :=
  decide (link = 0) || (decide (link = 1) && decide (s.fld (0x6010 + 4 * p) 30 29 ≠ 1)) ||
    (decide (link = 2) && decide (p ≠ 2) && decide (s.fld (0x6010 + 4 * p) 30 29 ≠ 2))

/-- An Announce dataset as a list that compares in best-master order. -/
def announceRank (a : Announce) : List Nat :=
  [a.priority1, a.clockClass, a.accuracy, a.variance, a.priority2, a.identity.toNat, a.stepsRemoved]

/-- Lexicographic order of datasets. -/
def rankLt : List Nat → List Nat → Bool
  | a :: x, b :: y => decide (a < b) || (decide (a = b) && rankLt x y)
  | _, _ => false

/-- The port that carries the better master: NET-A where neither is better. -/
def betterPort (a b : Option Announce) : Option Nat :=
  match a, b with
  | none, none => none
  | some _, none => some 0
  | none, some _ => some 1
  | some x, some y => if rankLt (announceRank y) (announceRank x) then some 1 else some 0

/-- The best-master algorithm over both ring ports; every change of slave port sets PTP_PORT (R333). -/
def State.chooseSlave (s : State) : State :=
  let new := betterPort (s.port 0).announce (s.port 1).announce
  if new = s.net.slavePort then s else { s with net := { s.net with slavePort := new } }.setSQ 12 4

/-- A link gained or lost: the address table is flushed for a ring port (R322), and a port without link carries no master (R333). Until a
neighbour asks for more, the wake time is the standard minimum (R331). -/
def State.linkTo (s : State) (p link : Nat) : State :=
  let s := s.setPort p { s.port p with link, lpiTx := false, twReq := none,
                                       announce := if link = 0 then none else (s.port p).announce,
                                       twPend := if link ≠ 0 ∧ p < 2 then some (twMin link) else some 0 }
  let s := if link = 0 then s.chooseSlave else s
  let s := if p < 2 then { s with net := { s.net with table := [] } } else s
  s.setSQ 12 7

/-- LINK_CHG (R320, R322). -/
def State.linkChange (s : State) (p link : Nat) : State :=
  let x := s.port p
  if s.flag (0x6010 + 4 * p) 31 = false ∨ x.link = link ∨ s.canLink p link = false then s else s.linkTo p link

/-- NEG_FAIL (R320). -/
def State.negFail (s : State) (p : Nat) : State :=
  if s.flag (0x6010 + 4 * p) 31 ∧ (s.port p).link = 0 then s.setSQ 12 6 else s

/-- ADDRESS_AGEING (R321). -/
def State.ageAddress (s : State) (src : BitVec 48) : State :=
  { s with net := { s.net with table := s.net.table.filter fun e => e.1 != src } }

/-- LPI_ENTRY (R330, R331): an idle transmitter has no frame waiting. -/
def State.lpiEnter (s : State) (p : Nat) : State :=
  let x := s.port p
  if p < 2 ∧ s.portUp p ∧ s.flag (0x6010 + 4 * p) 26 ∧ x.twReq.getD 0 ≤ 255 ∧ x.egress.isEmpty then s.setPort p { x with lpiTx := true }
  else s

/-- The receive wake time the module asks for (R331). -/
def State.rxTw (s : State) (p : Nat) : Nat := Nat.max (s.fld (0x6030 + 4 * p) 15 0) (twMin (s.port p).link)

/-- One TLV of an LLDPDU: seven bits of type, nine of length. -/
def lldpTlv (typ : Nat) (body : List Byte) : List Byte := beBytes 2 (typ * 512 + body.length % 512) ++ body

/-- The IEEE 802.3 EEE TLV of an LLDPDU: its Transmit Tw and Receive Tw (PRESUMED, IEEE 802.3: organisation 00-12-0F, subtype 5, log 149). -/
def eeeTlv : Nat → List Byte → Option (Nat × Nat)
  | 0, _ => none
  | n + 1, l =>
    let head := beAt l 0 2
    let body := (l.drop 2).take (head % 512)
    if l.length < 2 ∨ head / 512 = 0 then none
    else if head / 512 = 127 ∧ beAt body 0 4 = 0x00120F05 ∧ 14 ≤ body.length then some (beAt body 4 2, beAt body 6 2)
    else eeeTlv n (l.drop (2 + head % 512))

/-- Transmit Tw and Receive Tw of a neighbour's LLDPDU (R331). -/
def lldpTw (frame : List Byte) : Option (Nat × Nat) := eeeTlv frame.length frame

/-- The LLDPDU a port sends (R331): chassis ID, port ID, TTL of 120 s, with EEE_EN the EEE TLV: Transmit Tw, Receive Tw, fallback as Receive
Tw, and the partner's last two echoed. -/
def State.lldpFrame (s : State) (p : Nat) : List Byte :=
  let x := s.port p
  let echo := (lldpTw x.lldp).getD (0, 0)
  let rx := s.rxTw p
  beBytes 6 0x0180C200000E ++ beBytes 6 (s.ownMac p) ++ beBytes 2 0x88CC ++ Config.lldpIds p s.fuse.mac.toNat ++
    lldpTlv 3 (beBytes 2 120) ++
    (if s.flag (0x6010 + 4 * p) 26 then
      lldpTlv 127 (beBytes 4 0x00120F05 ++ beBytes 2 x.twTx ++ beBytes 2 rx ++ beBytes 2 rx ++ beBytes 2 echo.1 ++ beBytes 2 echo.2)
     else []) ++ [0, 0]

/-- LLDP_SEND (R331). -/
def State.lldpSend (s : State) (p : Nat) : State := if s.flag 0x6000 1 = false then s else s.send p (padFrame (s.lldpFrame p))

/-- LLDPDU_RECEIVE (R331): the neighbour's LLDPDU kept and the wake time resolved, unless R324 drops the frame that carries it. -/
def State.lldpReceive (s : State) (p : Nat) (frame : List Byte) (intact : Bool) : State :=
  if intact = false ∨ s.portUp p = false ∨ s.flag 0x6000 1 = false then s
  else
    let x := s.port p
    let tw := (lldpTw frame).map fun (e : Nat × Nat) => e.2
    let s := s.count 0x6164 1
    let pend := match tw with
      | none => twMin x.link
      | some r => if 255 < r then 0 else Nat.max r (twMin x.link)
    let t := s.setPort p { x with lldp := frame, twReq := tw, twPend := some pend,
                                  lpiTx := x.lpiTx && decide (tw.getD 0 ≤ 255) }
    if x.lldp = frame then t else t.setSQ 12 1

/-- Registers of a port that apply at the end of its frame in progress (R46). -/
def portReg (p off : Nat) : Bool := decide (off = 0x6010 + 4 * p) || (decide (p < 2) && decide (off = 0x6030 + 4 * p))

/-- END_OF_FRAME_IN_PROGRESS (R46, R327, R331). -/
def State.frameEnd (s : State) (p : Nat) : State :=
  let mine := s.shadow.filter fun e => portReg p e.off
  let s := { s with shadow := s.shadow.filter fun e => !portReg p e.off }
  let s := (mine.foldl (fun (s : State) e => s.applyReg e.off (mergeBits (s.reg e.off) e.mask e.val)) (s.noteWrites mine)).count 0x089C mine.length
  let x := s.port p
  let s := s.setPort p { x with twTx := x.twPend.getD x.twTx, twPend := none, pausePend := none,
                                lpiTx := x.lpiTx && s.flag (0x6010 + 4 * p) 26 }
  let s := if x.link ≠ 0 ∧ s.flag (0x6010 + 4 * p) 31 = false then s.linkTo p 0 else s
  match x.pausePend with
  | some t => s.startPause p t
  | none => if x.paused then s else s.flushEgress p

/-! ### BACnet (R85, R339, R340) -/

/-- The booth of an addressed device instance (R85). -/
def State.deviceBooth (s : State) (device : Nat) : Option Nat :=
  (List.range 255).find? fun b =>
    let w := sget 0 s.pnt.maps (0x3000 + b)
    bitAt w 31 && bits w 21 0 == device

/-- The object type of a point by SRC and TYPE (R339). -/
def bacObject (r : PRec) : BacObject :=
  let kind := if r.typ = 0 then 0 else if r.typ = 7 then 1 else 2
  let side := if r.src.toNat < 2 then 2 else if r.src.toNat < 8 then 0 else 1
  match side, kind with
  | 0, 0 => .binaryInput
  | 0, 1 => .multiInput
  | 0, _ => .analogInput
  | 1, 0 => .binaryOutput
  | 1, 1 => .multiOutput
  | 1, _ => .analogOutput
  | _, 0 => .binaryValue
  | _, 1 => .multiValue
  | _, _ => .analogValue

/-- The answer given to a request, counted as served or as an error (R347). -/
def State.bacnetAnswer (s : State) (a : BacnetAns) : State :=
  let s := { s with net := { s.net with answer := a } }
  match a with
  | .reject => s.count 0x6170 1
  | .errorDenied => s.count 0x6170 1
  | .errorUnknown => s.count 0x6170 1
  | .none => s
  | .queued => s
  | _ => s.count 0x616C 1

/-- The present value of a point's object (R339): the bit, the state number, or REAL, in which a value beyond its range saturates; for a
value that is no number the spec states none. -/
def State.bacValue (s : State) (r : PRec) : W64 :=
  match r.typ.toNat with
  | 0 => r.value &&& 1
  | 7 => r.value &&& 0xFFFFFFFF
  | 5 => r.value
  | _ => match numOf r.typ r.value with
    | some (i, k) =>
      let w := floatOf 23 8 i k
      BitVec.ofNat 64 (if w % 2 ^ 31 = 0x7F800000 then w - 1 else w)
    | none =>
      if r.value.toNat % 2 ^ 52 = 0 then (if r.value.getLsbD 63 then 0xFF7FFFFF else 0x7F7FFFFF)
      else (s.drawnFor 9300).setWidth 32 |>.setWidth 64

/-- A property read for a booth (R79, R339): the object, its value, FAULT and OVERRIDDEN of Status_Flags. -/
def State.bacRead (s : State) (booth p : Nat) : State × Option (BacObject × W64 × Bool × Bool) :=
  if 8192 ≤ p then (s, none)
  else match s.check booth .read p false false with
    | .allow =>
      let (s, r) := s.readPoint booth p
      (s, some (bacObject r, s.bacValue r, decide (r.quality.toNat / 64 = 2), r.forced))
    | v => (s.noteDenial booth .read p v, none)

/-- The I-Am of a booth's virtual device, on its home VID where that carries BACnet/IP (R324, R337, R339). -/
def State.iAm (s : State) (booth : Nat) : List (List Byte) :=
  match s.homeIf booth with
  | some e => if bitAt (ew e 0) 30 ∧ bitAt (sget 0 s.pnt.maps (0x3000 + booth)) 31
      then [padFrame (onVid (ifVid e) (Config.iAmFrame e))] else []
  | none => []

/-- A request that has reached its device (R340, R146). -/
def State.bacnetServe (s : State) (booth : Nat) (op : BacnetOp) : State :=
  match op with
  | .whoIs => (s.sendRings (s.iAm booth)).bacnetAnswer .served
  | .unrecognised => s.bacnetAnswer .reject
  | .read p =>
    match s.bacRead booth p with
    | (s, some v) => s.bacnetAnswer (.value v.1 v.2.1 v.2.2.1 v.2.2.2)
    | (s, none) => s.bacnetAnswer .errorUnknown
  | .readMany ps =>
    let x := ps.foldl (fun (a : State × List (Option (BacObject × W64 × Bool × Bool))) p =>
      let y := a.1.bacRead booth p
      (y.1, a.2 ++ [y.2])) (s, [])
    x.1.bacnetAnswer (.values x.2)
  | .whoHas p =>
    match s.bacRead booth p with
    | (s, some _) => s.bacnetAnswer .served
    | (s, none) => s
  | .write ws =>
    if s.fld 0x0800 19 10 < ws.length then (s.count 0x30B8 1).bacnetAnswer .reject
    else if ws.any (fun w => decide (8192 ≤ w.point)) then s.bacnetAnswer .errorUnknown
    else
      let s : State := { s with pnt := { s.pnt with netq := s.pnt.netq ++
          [{ slot := none, window := false, rev := s.rev, booth := BitVec.ofNat 8 booth, writes := ws }] } }
      s.bacnetAnswer .queued
  | .writeNull _ => s.bacnetAnswer .errorDenied
  | .writeOther _ => s.bacnetAnswer .errorDenied
  | .subscribe p =>
    if 8192 ≤ p then s.bacnetAnswer .errorUnknown
    else if 1024 ≤ s.net.subs.length then s.bacnetAnswer .reject
    else match s.check booth .read p false false with
      | .allow =>
        let s : State := { s with net := { s.net with
          subs := s.net.subs ++ [{ booth, point := p, chg := (s.point p).chg }] } }
        s.bacnetAnswer .served
      | v => (s.noteDenial booth .read p v).bacnetAnswer .errorUnknown

/-- BACNET_REQUEST (R83, R85, R339, R340). -/
def State.bacnet (s : State) (vid device : Nat) (op : BacnetOp) : State :=
  if s.servicesUp = false then s
  else match s.vlanBooth vid, s.ifOf vid, s.deviceBooth device with
    | some b, some e, some d =>
      if bitAt (ew e 0) 30 = false then s
      else if b ≠ d then s.count 0x18A4 1
      else { s with net := { s.net with answerVid := vid } }.bacnetServe b op
    | none, _, _ => s.count 0x18A0 1
    | _, none, _ => s.count 0x18A0 1
    | _, _, none => s

/-- COV_NOTIFICATION (R79, R337, R340): a subscribed point has changed; its booth, the point and the home VID the notification leaves on.
A booth that may no longer read the point is told nothing. -/
def State.cov (s : State) (i : Nat) : State :=
  match s.net.subs[i]? with
  | none => s
  | some x =>
    let c := (s.point x.point).chg
    match s.homeIf x.booth with
    | none => s
    | some e =>
      if c = x.chg ∨ s.servicesUp = false ∨ s.running = false then s
      else
        let t : State := { s with net := { s.net with subs := lmod s.net.subs i fun y => { y with chg := c } } }
        match s.check x.booth .read x.point false false with
        | .allow => { t with net := { t.net with notified := [(x.booth, x.point, ifVid e)] } }
        | v => t.noteDenial x.booth .read x.point v

/-- SC_HUB_RETRY (R341): intervals of 1, 2, 4 up to 64 s, alternating between the hubs. -/
def State.scRetry (s : State) (booth : Nat) (ok : Bool) : State :=
  let home := ((s.homeIf booth).map fun e => bitAt (ew e 0) 29).getD false
  match s.net.sc.find? fun e => e.1 == booth with
  | some e =>
    if s.servicesUp = false ∨ home = false then s
    else
      let n := e.2
      let n' := if ok then { n with connected := true, interval := 1 }
        else { n with connected := false, interval := Nat.min 64 (2 * n.interval), second := !n.second }
      { s with net := { s.net with sc := sput s.net.sc booth n' } }
  | none => s

/-! ### Tunnelled sessions (R342 to R344) -/

/-- TUNNEL_CONNECT (R342, R343). -/
def State.tunnelConnect (s : State) (vid : Nat) (profileOk : Bool) (cert : List Byte) : State :=
  let listens := ((s.ifOf vid).map fun e => bitAt (ew e 0) 28).getD false
  if s.servicesUp = false ∨ s.sys.romOnly then s
  else if (s.vlanBooth vid).isNone then s.count 0x18A0 1
  else if s.flag 0x60A0 0 = false ∨ listens = false then s
  else match idxWhere 4 fun i => decide ((s.net.tunnels.getD i {}).state = 0) with
    | none => s.count 0x6178 1
    | some i =>
      if profileOk = false then s.count 0x6178 1
      else
        let s := { s with net := { s.net with tunnels := lmod s.net.tunnels i fun _ => { state := 1, vid } } }
        (s.setSess (4 + i) { vid, cert }).count 0x6174 1

/-- A tunnelled session closed with its connection (R344, R381). -/
def State.tunnelClose (s : State) (i : Nat) : State :=
  if (s.net.tunnels.getD i {}).state = 0 then s
  else
    let s := s.closeSession (4 + i)
    let s := s.setSess (4 + i) {}
    { s with net := { s.net with tunnels := lmod s.net.tunnels i fun _ => {} }
             mbx := { s.mbx with resp := serase s.mbx.resp (4 + i) } }

/-- A frame that closes or resets a tunnelled connection (R344). -/
def State.tunnelEnds (s : State) (f : EthFrame) : State :=
  match f.ends with
  | some n => s.tunnelClose n.val
  | none => s

/-- ETH_FRAME_RECEIVE with what the frame does to a tunnelled connection. -/
def State.ethTake (s : State) (p : Nat) (f : EthFrame) : State :=
  let t := s.ethReceive p f
  if s.portUp p ∧ s.ethDrop p f = none ∧ s.servicesUp then t.tunnelEnds f else t

/-- RESPONSE_STALL_CLOSE (R344): the response buffer has held data for 10 s. -/
def State.stallClose (s : State) (i : Nat) : State :=
  if (sget [] s.mbx.resp (4 + i)).isEmpty then s else s.tunnelClose i

/-! ### The host frame path and TSO (R345, R346) -/

/-- A packet TSO can cut: TCP over IPv4, or over IPv6 without extension header (R345). -/
def tsoTcp (l : List Byte) : Bool :=
  let o := ipOff l
  let ty := beAt l (o - 2) 2
  (decide (ty = 0x0800) && decide (beAt l (o + 9) 1 = 6)) || (decide (ty = 0x86DD) && decide (beAt l (o + 6) 1 = 6))

/-- One segment of a TSO packet: headers of `hdr` bytes, `part` of the payload from byte `pos` on, `first` and `last` of
the row, segment number i (R345). -/
def tsoSegment (l : List Byte) (hdr : Nat) (part : List Byte) (pos i : Nat) (first last : Bool) : List Byte :=
  let o := ipOff l
  let v4 := decide (beAt l (o - 2) 2 = 0x0800)
  let t := if v4 then o + beAt l o 1 % 16 * 4 else o + 40
  let h := l.take hdr
  let h := if v4 then
      let h := patch h (o + 2) (beBytes 2 (hdr - o + part.length))
      let h := patch h (o + 4) (beBytes 2 (beAt l (o + 4) 2 + i))
      let h := patch h (o + 10) [0, 0]
      patch h (o + 10) (beBytes 2 (netSum ((h.drop o).take (t - o))))
    else patch h (o + 4) (beBytes 2 (hdr - o - 40 + part.length))
  let h := patch h (t + 4) (beBytes 4 (beAt l (t + 4) 4 + pos))
  let fl := beAt l (t + 13) 1
  let fl := if last then fl else Nat.land fl 0xF6
  let fl := if first then fl else Nat.land fl 0x7F
  let h := patch h (t + 13) (beBytes 1 fl)
  let h := patch h (t + 16) [0, 0]
  let tcp := h.drop t ++ part
  let pseudo := (if v4 then (h.drop (o + 12)).take 8 ++ beBytes 2 6 ++ beBytes 2 tcp.length
    else (h.drop (o + 8)).take 32 ++ beBytes 4 tcp.length ++ beBytes 4 6)
  patch h (t + 16) (beBytes 2 (netSum (pseudo ++ tcp))) ++ part

/-- The segments of a payload, MSS bytes each and the remainder last. -/
def tsoCut (l : List Byte) (hdr mss : Nat) : Nat → List Byte → Nat → Nat → List (List Byte)
  | 0, _, _, _ => []
  | n + 1, rest, pos, i =>
    let last := decide (rest.length ≤ mss)
    let seg := tsoSegment l hdr (rest.take mss) pos i (decide (i = 0)) last
    if last then [seg] else seg :: tsoCut l hdr mss n (rest.drop mss) (pos + mss) (i + 1)

/-- The ring ports a host frame leaves on (R346): by PORT, by the address table, or both for an unknown address. -/
def State.hostPorts (s : State) (sel : Nat) (frame : List Byte) : List Nat :=
  match sel with
  | 1 => [0]
  | 2 => [1]
  | _ => match s.net.table.find? fun e => e.1 == BitVec.ofNat 48 (beAt frame 0 6) with
    | some e => [e.2]
    | none => [0, 1]

/-- HOST_FRAME_TX (R345, R346): the packet at the head of Q24. -/
def State.hostTx (s : State) : State :=
  let ws := (s.q 24).headPacket
  match ws with
  | [] => s
  | w0 :: rest =>
    if s.flag 0x6000 2 = false then s
    else
      let s := s.setQ 24 (s.q 24).dropHead
      let n := w0.toNat % 65536
      let l := (bytesOf rest).take n
      let sel := w0.toNat / 2 ^ 62
      let tso := w0.getLsbD 61
      let hdr := w0.toNat / 2 ^ 52 % 256
      let mss := w0.toNat / 2 ^ 32 % 65536
      let top := if isTagged l then 1522 else 1518
      let bad := decide (sel = 3) || decide (l.length < n) ||
        (if tso then decide (top < hdr + mss + 4) || !tsoTcp l || decide (mss = 0)
         else decide (top < n + 4))
      if bad then s.setSQ 12 3
      else
        let frames := if tso then tsoCut l hdr mss (n + 1) (l.drop hdr) 0 0 else [l]
        let s := (s.hostPorts sel l).foldl (fun (s : State) p => s.sendAll p (frames.map padFrame)) s
        if tso ∧ ((s.hostPorts sel l).any fun p => s.accepts p) then s.count 0x6168 frames.length else s

/-! ### Words and commands (R393) -/

/-- NET_PORTp_STAT. Whether the partner is in low-power idle, and how far a pause has run, come from outside: both are free
within their limits. -/
def State.portStat (s : State) (p : Nat) : W32 :=
  let x := s.port p
  let lpiRx := decide (p < 2) && s.flag (0x6010 + 4 * p) 26 && decide (x.link ≠ 0) && (s.drawnFor (9000 + p)).getLsbD 0
  let left := if x.paused then (s.drawnFor (9100 + p)).toNat % (x.pauseRem + 1) else 0
  place x.link 30 ||| flagAt x.lpiTx 29 ||| flagAt lpiRx 28 ||| flagAt x.paused 27 ||| place (left % 65536) 0

/-- NET_SESSs. -/
def State.netSess (s : State) (i : Nat) : W32 :=
  let t := s.net.tunnels.getD i {}
  let st := if (s.sess (4 + i)).state = .opened then 2 else if (s.sess (4 + i)).state = .closing then 3 else t.state
  place st 30 ||| place (s.sess (4 + i)).booth.toNat 16 ||| place (t.vid % 4096) 0

/-- MBX_SESSs. -/
def State.mbxSess (s : State) (n : Nat) : W32 :=
  let x := s.sess n
  let st := match x.state with
    | .closed => 0
    | .challenged => 1
    | .opened => 2
    | .closing => 3
  place st 30 ||| flagAt (decide (s.pnt.winSession = some n)) 29 ||| place x.booth.toNat 16 |||
    place (satNat 511 (s.inFlight n)) 0

/-- A URI of the wss scheme of at most 255 bytes (R393). -/
def wssOk (u : List Byte) : Bool :=
  decide (u.length ≤ 255) && decide (u.take 6 = [0x77, 0x73, 0x73, 0x3A, 0x2F, 0x2F])

/-- SC_HUBS (R341, R393). -/
def cmdScHubs (h : Hdr) (booth : Nat) (primary failover : List Byte) (s : State) : State :=
  runCmd h { opcode := 0x0801, denied := !s.boothIs h booth,
             bad := if wssOk primary = false then some 2
                    else if wssOk failover = false then some (4 + primary.length) else none }
    (fun s => okRes [] (({ s with net := { s.net with sc := sput s.net.sc booth { primary, failover } } } : State).noteOut
      fun (c : SyncChange) => { c with hubs := c.hubs ++ [(booth, { primary, failover })] })) s

/-- IF_READ (R393). -/
def cmdIfRead (h : Hdr) (i : Nat) (s : State) : State :=
  runCmd h { opcode := 0x0802, maxData := 32, denied := !s.landlord h, bad := if 256 ≤ i then some 0 else none }
    (fun s => okRes (bytesOf32 ((s.ifEntry i ++ List.replicate 8 0).take 8)) s) s

/-- NEIGHBOUR_READ (R393). -/
def cmdNeighbourRead (h : Hdr) (p : Nat) (s : State) : State :=
  runCmd h { opcode := 0x0803, maxData := 1500, denied := !s.landlord h, bad := if 2 ≤ p then some 0 else none }
    (fun s => okRes ((s.port p).lldp.take 1500) s) s

/-- SESSION_LIST (R393). -/
def cmdSessionList (h : Hdr) (s : State) : State :=
  runCmd h { opcode := 0x0804, maxData := 32, denied := !s.landlord h }
    (fun s => okRes (bytesOf32 ((List.range 8).map s.mbxSess)) s) s

end Sys2Proof.Machine
end

