-- ==== Sys2Proof/Machine/Clock.lean ====
section
/-! DEFINITION. Time: alignment of the boundaries to IEEE 1588 time (R48 to R53, R74 to R76, R332, R333), and the
calendar of the backup domain (chapter 16). -/

namespace Sys2Proof.Machine

/-! ### The synchronisation state (R48 to R53) -/

/-- The state changed, with SYNC_CHG; a move from LOCKED to HOLDOVER and an expiry are counted by their callers. -/
def State.setSync (s : State) (x : SyncState) : State :=
  if s.crsl.sync = x then s
  else { s with crsl := { s.crsl with
      sync := x, holdNs := 0
      slewNs := if x = SyncState.acquiring then s.crsl.slewNs else 0
      slewing := if x = SyncState.acquiring then s.crsl.slewing else false } }.setSQ 1 10

/-- Entry into LOCKED (R75): a timebase more than 1 ms off PTP time is stepped, with a NOTE of the step. -/
def State.enterLocked (s : State) (ptpNs : Int) : State :=
  let d := ptpNs - s.crsl.absNs
  let s := s.setSync .locked
  if d > 1000000 ∨ d < -1000000 then
    let s : State := { s with
      crsl := { s.crsl with absNs := ptpNs }
      can := { s.can with bus := s.can.bus.map fun (b : CanBus) => { b with tref := { b.tref with step := true } } } }
    (s.report .note 3 1 0xFF (BitVec.ofInt 64 d).toNat).count 0x18B8 1
  else s

/-- Entry into ACQUIRING with the time to be closed by lengthening (R50). -/
def State.enterAcquiring (s : State) (offset : Int) : State :=
  let s := s.setSync .acquiring
  let left := if -1000 ≤ offset ∧ offset ≤ 1000 then 0 else (Int.emod (-offset) s.periodNs).toNat
  { s with crsl := { s.crsl with slewNs := left, slewing := decide (left ≠ 0) } }

/-- A measured boundary offset within ±1 µs. -/
def within1us (o : Int) : Bool := decide (-1000 ≤ o ∧ o ≤ 1000)

/-- What a usable Sync message does to the state (R48, R51, R53, R333). -/
def State.syncMoves (s : State) (m : SyncMsg) : State :=
  match s.crsl.sync with
  | .free => s.enterAcquiring m.offsetNs
  | .acquiring => s.enterAcquiring m.offsetNs
  | .locked =>
    if within1us m.offsetNs then { s with crsl := { s.crsl with absNs := m.ptpNs } } else s.enterAcquiring m.offsetNs
  | .holdover => if within1us m.offsetNs then s.enterLocked m.ptpNs else s.enterAcquiring m.offsetNs

/-- A PTP message of the port's DOMAIN, TRANSPORT and PTP_VID (R332). -/
def State.ptpFits (s : State) (v : PtpVia) : Bool :=
  decide (v.domain = s.fld 0x6050 31 24) && (v.udp == s.flag 0x6050 23) && decide (v.vid = s.fld 0x6050 11 0)

/-- The time from one Delay_Req to the next, in ns, by logMinDelayReqInterval (R332). -/
def delayReqNs (k : Int) : Nat := if 0 ≤ k then 1000000000 * 2 ^ k.toNat else 1000000000 / 2 ^ (-k).toNat

/-- A Delay_Req of the slave on its port, tagged with PTP_VID and PCP 7 where that is not 0, not sooner than the master's
logMinDelayReqInterval after the last one (R332). The spec names no event that sends one: the model sends it upon a Sync. -/
def State.delayReq (s : State) (port : Nat) (k : Int) : State :=
  if s.net.reqNs.any fun t => decide (s.crsl.upNs < t + delayReqNs k) then s
  else
    let vid := s.fld 0x6050 11 0
    let f := Config.delayReq (s.fld 0x6050 31 24) s.net.reqSeq s.fuse.mac.toNat (if s.flag 0x6050 23 then (s.ifOf vid).getD [] else [])
    ({ s with net := { s.net with reqNs := some s.crsl.upNs, reqSeq := (s.net.reqSeq + 1) % 65536 } }).send port
      (padFrame (if vid = 0 then f else tagWith (0xE000 + vid) f))

/-- SYNC_MESSAGE_RECEIVE (R51, R332, R334). -/
def syncReceive (port : Nat) (m : SyncMsg) (s : State) : State :=
  if s.ptpFits m.via = false ∨ m.logInterval < -4 ∨ 0 < m.logInterval ∨ s.net.slavePort ≠ some port then s
  else
    let s := s.delayReq port m.minDelayReq
    let s := s.setReg 0x0814 (BitVec.ofInt 32 (clip32 m.offsetNs))
    let s : State := { s with net := { s.net with mpd := satNat 65535 m.pathDelayNs, logSync := m.logInterval } }
    let s := s.count 0x08A0 1
    if s.flag 0x0800 9 then s.syncMoves m else s

/-- SYNC_TIMEOUT (R51): no usable Sync message for 3 Sync intervals. -/
def syncTimeout (s : State) : State :=
  match s.crsl.sync with
  | .acquiring => s.setSync .free
  | .locked => (s.setSync .holdover).count 0x08A4 1
  | .free => s
  | .holdover => s

/-- LOCKED (R51, R75): the measured offset has stayed within ±1 µs for 10 s, no revolution being lengthened. -/
def lockedOn (ptpNs : Nat) (s : State) : State :=
  if s.crsl.sync = .acquiring ∧ within1us (s32 (s.reg 0x0814)) ∧ s.crsl.slewing = false then s.enterLocked ptpNs else s

/-- HOLDOVER_EXPIRY (R52): the time in HOLDOVER has reached HOLDOVER_MAX. -/
def holdoverExpiry (s : State) : State :=
  if s.crsl.sync = .holdover ∧ s.fld 0x0818 9 0 * 1000000000 ≤ s.crsl.holdNs then
    (s.setSync .free).count 0x08A8 1
  else s

/-- CRSL_PTP_STATUS (R52, R53). DESIGN CHOICE: the HOLDOVER bound of R48 is reported here alone; no response has a field for it. Unsafe
(log entry 144). -/
def State.ptpStatus (s : State) : W32 :=
  let sec := s.crsl.holdNs / 1000000000
  let h := decide (s.crsl.sync = .holdover)
  (if h then place (satNat 65535 sec) 16 ||| place (satNat 255 (1 + sec)) 8 else 0) ||| place (s.fld 0x0810 7 0) 0

/-- ANNOUNCE_RECEIVE (R53, R333): the best-master algorithm over both ring ports. -/
def announceReceive (port : Nat) (a : Announce) (s : State) : State :=
  if s.ptpFits a.via = false then s
  else
  let s := (s.setPort port { s.port port with announce := some a }).chooseSlave
  match s.net.slavePort.bind fun i => (s.port i).announce with
  | none => s
  | some m =>
    let gm := (s.reg 0x6060) ++ (s.reg 0x605C)
    if gm = m.identity then s
    else
      let s := s.setPair 0x605C m.identity.toNat
      if gm = 0 then s else s.setFld 0x0810 7 0 (s.fld 0x0810 7 0 + 1)

/-- NET_PTP_STAT. -/
def State.ptpPort (s : State) : W32 :=
  (match s.net.slavePort with
    | none => 0
    | some p => place (p + 1) 30) ||| place (BitVec.ofInt 8 s.net.logSync).toNat 16 ||| place s.net.mpd 0

/-- TS_WRAP (R74): WRAPS advances. -/
def tsWrap (s : State) : State := s.setFld 0x1818 7 0 (s.fld 0x1818 7 0 + 1)

/-- UNCERTAIN_STALE (R39, R40, R76): in Intake, a CAN_IN or NETIN point in category 00b or 01b that nothing has refreshed for its limit. DESIGN CHOICE: a
point at 42h moves to 40h too, though R71 lets 42h stand until its source first writes it. Unsafe (log entry 145). -/
def uncertainStale (p : Nat) (s : State) : State :=
  let r := s.point p
  let age := s.rev - sget 0 s.pnt.fresh p
  let can := s.fld 0x181C 15 0
  let net := 100 * s.fld 0x181C 31 16
  let due := (decide (r.src = 5) && decide (can ≤ age)) || (decide (r.src = 1) && decide (net ≠ 0 ∧ net ≤ age))
  if due ∧ r.quality.toNat < 0x80 ∧ r.quality ≠ 0x40 ∧ s.inIntake then (s.setQuality p 0x40 s.phaseStamp).count 0x18AC 1 else s

/-! ### The calendar (R422 to R426) -/

/-- A calendar register by its number r, RTC_SEC to RTC_CENTURY. -/
def calAt (c : List Byte) (r : Nat) : Byte := c.getD r 0

/-- One increment of a BCD register (R424). -/
def bcdInc (b : Byte) : Byte :=
  let lo := b.toNat % 16
  let hi := b.toNat / 16
  if lo = 9 then BitVec.ofNat 8 ((hi + 1) % 16 * 16)
  else if lo = 15 then BitVec.ofNat 8 (hi * 16)
  else BitVec.ofNat 8 (hi * 16 + lo + 1)

/-- A value of two decimal digits. -/
def isBcd (b : Byte) : Bool := decide (b.toNat % 16 ≤ 9 ∧ b.toNat / 16 ≤ 9)

/-- The decimal value of a BCD byte. -/
def bcdVal (b : Byte) : Nat := b.toNat / 16 * 10 + b.toNat % 16

/-- A leap year (R426). -/
def leapYear (year century : Byte) : Bool :=
  isBcd year && isBcd century &&
    (if year = 0 then decide (bcdVal century % 4 = 0) else decide (bcdVal year % 4 = 0))

/-- The length of a month in BCD (R425). -/
def monthLen (month year century : Byte) : Byte :=
  if month = 0x02 then (if leapYear year century then 0x29 else 0x28)
  else if month = 0x04 ∨ month = 0x06 ∨ month = 0x09 ∨ month = 0x11 then 0x30 else 0x31

/-- The calendar with register r set. -/
def calSet (c : List Byte) (r : Nat) (b : Byte) : List Byte := lmod c r fun _ => b

/-- RTC_CENTURY incremented (R425). -/
def incCentury (c : List Byte) : List Byte :=
  let v := bcdInc (calAt c 7)
  calSet c 7 (if 0xA0 ≤ v.toNat then 0 else v)

/-- RTC_YEAR incremented, carrying into RTC_CENTURY. -/
def incYear (c : List Byte) : List Byte :=
  let v := bcdInc (calAt c 6)
  if 0xA0 ≤ v.toNat then incCentury (calSet c 6 0) else calSet c 6 v

/-- RTC_MONTH incremented, carrying into RTC_YEAR. -/
def incMonth (c : List Byte) : List Byte :=
  let v := bcdInc (calAt c 5)
  if 0x13 ≤ v.toNat then incYear (calSet c 5 1) else calSet c 5 v

/-- RTC_DAY incremented, carrying into RTC_MONTH. -/
def incDay (c : List Byte) : List Byte :=
  let v := bcdInc (calAt c 4)
  if (monthLen (calAt c 5) (calAt c 6) (calAt c 7)).toNat < v.toNat then incMonth (calSet c 4 1) else calSet c 4 v

/-- RTC_WDAY incremented. -/
def incWday (c : List Byte) : List Byte :=
  let v := bcdInc (calAt c 3)
  calSet c 3 (if 8 ≤ v.toNat then 1 else v)

/-- RTC_HOUR incremented, carrying into RTC_DAY and RTC_WDAY. -/
def incHour (c : List Byte) : List Byte :=
  let v := bcdInc (calAt c 2)
  if 0x24 ≤ v.toNat then incDay (incWday (calSet c 2 0)) else calSet c 2 v

/-- RTC_MIN incremented, carrying into RTC_HOUR. -/
def incMin (c : List Byte) : List Byte :=
  let v := bcdInc (calAt c 1)
  if 0x60 ≤ v.toNat then incHour (calSet c 1 0) else calSet c 1 v

/-- One second (R425). -/
def incSec (c : List Byte) : List Byte :=
  let v := bcdInc (calAt c 0)
  if 0x60 ≤ v.toNat then incMin (calSet c 0 0) else calSet c 0 v

/-- A register's value less one in BCD. -/
def bcdDec (b : Byte) : Byte :=
  if b.toNat % 16 = 0 then BitVec.ofNat 8 ((b.toNat / 16 + 15) % 16 * 16 + 9) else b - 1

/-- A register decremented, to `top` where it stood at `bottom` (R430). -/
def decReg (c : List Byte) (r : Nat) (bottom top : Byte) : List Byte × Bool :=
  if calAt c r = bottom then (calSet c r top, true) else (calSet c r (bcdDec (calAt c r)), false)

/-- A borrow from a register's neighbours. -/
def borrow (x : List Byte × Bool) (f : List Byte → List Byte) : List Byte := if x.2 then f x.1 else x.1

/-- RTC_CENTURY to RTC_MONTH decremented by borrows (R430). -/
def decMonth (c : List Byte) : List Byte :=
  borrow (decReg c 5 1 0x12) fun c => borrow (decReg c 6 0 0x99) fun c => (decReg c 7 0 0x99).1

/-- RTC_DAY decremented; out of the 1st it takes the length of the month then reached. -/
def decDay (c : List Byte) : List Byte :=
  if calAt c 4 = 1 then
    let c := decMonth c
    calSet c 4 (monthLen (calAt c 5) (calAt c 6) (calAt c 7))
  else calSet c 4 (bcdDec (calAt c 4))

/-- A backward hour shift (R430). -/
def decHour (c : List Byte) : List Byte :=
  borrow (decReg c 2 0 0x23) fun c => decDay (decReg c 3 1 7).1

/-- Every register inside its range of R423. -/
def calValid (c : List Byte) : Bool :=
  let ok := fun (r lo hi : Nat) => isBcd (calAt c r) && decide (lo ≤ (calAt c r).toNat ∧ (calAt c r).toNat ≤ hi)
  ok 0 0 0x59 && ok 1 0 0x59 && ok 2 0 0x23 && ok 3 1 7 &&
    ok 4 1 (monthLen (calAt c 5) (calAt c 6) (calAt c 7)).toNat && ok 5 1 0x12 && ok 6 0 0x99 && ok 7 0 0x99

/-! ### Increments, shifts and alignment (R429 to R436) -/

/-- The clock replaced. -/
def State.setRtc (s : State) (r : Rtc) : State := { s with rtc := r }

/-- Commands that wait for a shift complete. -/
def State.endShift (s : State) (status detail : Nat) (data : List Byte) : State :=
  s.mbx.slots.foldl (fun (s : State) (x : Slot) =>
    if x.wait = .shift then s.complete x status detail data else s) s

/-- A pending shift applied after the second's carries (R430, R431). -/
def State.applyShift (s : State) : State :=
  match s.rtc.shift with
  | none => s
  | some fwd =>
    let cal := if fwd then incHour s.rtc.cal else decHour s.rtc.cal
    let s := s.setRtc { s.rtc with cal, shift := none }
    ((s.reportBare .note 16 2 0xFF).count 0x8044 1).endShift 0 0 cal

/-- The phase of an increment judged (R435): nothing in the first 10 s after a release; a step, a trim, or converged. -/
def State.alignPhase (s : State) (phase : Int) : State :=
  if s.flag 0x8020 2 = false ∨ (s.crsl.sync ≠ .locked ∧ s.crsl.sync ≠ .holdover) then
    s.setRtc { s.rtc with alignState := 0 }
  else
    let r := { s.rtc with phase := clampInt (-524288) 524287 phase }
    if r.sinceRelease < 10 then s.setRtc r
    else if 10000 ≤ phase.natAbs then (s.setRtc { r with alignState := 1 }).count 0x8054 1
    else if 100 < phase.natAbs then (s.setRtc { r with alignState := 2 }).count 0x8054 1
    else s.setRtc { r with alignState := 3 }

/-- RTC_INCREMENT in the backup domain (R425, R428, R429, R436): a lost domain does not run until it is initialised (R434). -/
def rtcTick (s : State) : State :=
  if s.rtc.halt ∨ s.rtc.lost then s
  else s.setRtc { s.rtc with
    cal := incSec s.rtc.cal
    incRev := s.rev
    sinceRelease := satNat 10 (s.rtc.sinceRelease + 1) }

/-- RTC_INCREMENT as the powered module sees it: counted, a pending shift applied, the phase judged (R430, R435). -/
def rtcIncrement (phase : Int) (s : State) : State :=
  if s.rtc.halt ∨ s.rtc.lost then s else (((rtcTick s).count 0x8040 1).applyShift).alignPhase phase

/-- HALT set to 1: a pending shift is discarded (R431). -/
def State.haltOn (s : State) : State :=
  let s := s.setRtc { s.rtc with halt := true, shift := none }
  s.endShift 0x0E 2 []

/-- A completed write of HALT 0 (R429, R433): the prescaler cleared, and LOW_BACKUP cleared where BAT reads 2.5 V. -/
def State.haltOff (s : State) : State :=
  let released := s.rtc.halt
  s.setRtc { s.rtc with
    halt := false
    incRev := s.rev
    sinceRelease := if released then 0 else s.rtc.sinceRelease
    lowBackup := s.rtc.lowBackup && !(released && decide (2500 ≤ s.rtc.batMv)) }

/-- FSW_CLR (R432). -/
def State.clearFsw (s : State) : State := s.setRtc { s.rtc with fswValid := false, fswLo := 0, fswHi := 0 }

/-- A posted write of the RTC block confirmed (R428, R429). -/
def State.rtcPosted (s : State) (off : Nat) (v : W32) : State :=
  if inFam off 0x8000 4 8 then
    s.setRtc { s.rtc with cal := calSet s.rtc.cal ((off - 0x8000) / 4) (BitVec.ofNat 8 (bits v 7 0)) }
  else
    let s := if bitAt v 3 then s.clearFsw else s
    if bitAt v 0 then s.haltOn else s.haltOff

/-- A write to a counting register (R362, R428): dropped while BUSY, refused while HALT is 0, else posted. -/
def State.rtcCountWrite (s : State) (off : Nat) (v : W32) : State :=
  if s.busyDom 16 then s.post off v
  else if s.rtc.halt = false then (s.setSQ 16 1).count 0x8050 1
  else s.post off v

/-- BAT_SWITCH (R432): the change-over between the supply and BAT. -/
def batSwitch (toBat : Bool) (s : State) : State :=
  let r := s.rtc
  if toBat = false then s.setRtc { r with onBat := false }
  else if r.onBat then s
  else
    let r := { r with onBat := true, batRuns := r.batRuns + 1, swCount := satNat 255 (r.swCount + 1) }
    if r.fswValid then s.setRtc r
    else
      let c := r.cal
      s.setRtc { r with
        fswValid := true
        fswLo := calAt c 4 ++ calAt c 2 ++ calAt c 1 ++ calAt c 0
        fswHi := (0 : Byte) ++ calAt c 7 ++ calAt c 6 ++ calAt c 5 }

/-- BAT_MEASUREMENT (R433, R434, R513): below 2.5 V latches LOW_BACKUP; below 2.0 V while it feeds the domain loses it. What a module without
supply cannot report waits for its next start. -/
def batMeasurement (mv : Nat) (s : State) : State :=
  let low := decide (mv < 2500) && !s.rtc.lowBackup
  let r := { s.rtc with
    batMv := satNat 4095 mv
    lowBackup := s.rtc.lowBackup || decide (mv < 2500)
    lost := s.rtc.lost || (decide (mv < 2000) && s.rtc.onBat)
    lowDue := s.rtc.lowDue || (low && !s.sys.powered) }
  let s := s.setRtc r
  if low ∧ s.sys.powered then s.report .warn 16 4 0xFF mv else s

/-- INIT and LOW_BACKUP of an initialised domain set, with the WARN (R433, R434). -/
def State.reportInit (s : State) : State :=
  ((s.setRtc { s.rtc with initDue := false, lowDue := false }).reportBare .warn 16 5 0xFF).setSQ 16 4

/-- INIT of the calendar (R434): every backup field of the chapter at its Reset value. A module without supply reports it at its next
start. -/
def rtcInit (s : State) : State :=
  let s := s.setRtc { s.rtc with
    cal := [0x00, 0x00, 0x00, 0x06, 0x01, 0x01, 0x00, 0x20], halt := false, lowBackup := true, onBat := false
    swCount := 0, fswValid := false, fswLo := 0, fswHi := 0, batMv := 0, shift := none, lost := false }
  if s.sys.powered then s.reportInit else s.setRtc { s.rtc with initDue := true }

/-- What a start finds in the backup domain (R429, R432 to R434): what happened to it without supply is reported now, and the change-overs to
BAT since the last start are counted (R438). -/
def State.rtcStart (s : State) : State :=
  let s := if s.rtc.initDue then s.reportInit
    else if s.rtc.lowDue then (s.setRtc { s.rtc with lowDue := false }).report .warn 16 4 0xFF s.rtc.batMv else s
  let s := if s.rtc.halt then s.setSQ 16 6 else s
  if s.rtc.batRuns ≠ 0 then
    ((s.setRtc { s.rtc with batRuns := 0 }).reportBare .note 16 3 0xFF).count 0x8048 s.rtc.batRuns
  else s

/-- RTC_SEC_READ (R427): the path's latch loaded with all eight registers. -/
def rtcLatch (p : Path) (s : State) : State :=
  s.setPath p { s.pathOf p with cal := some (s.rtc.cal, s.instant) }

/-- A path's calendar latch is alive: 1 ms has not passed since its load (R427). -/
def State.calLive (s : State) (p : Path) : Option (List Byte) :=
  match (s.pathOf p).cal with
  | some (c, r) => if s.instant * s.periodNs < r * s.periodNs + 6000000 then some c else none
  | none => none

/-- The calendar is trusted (R433). -/
def State.trusted (s : State) : Bool := !s.rtc.lowBackup

/-- RTC_BACKUP. -/
def State.rtcBackup (s : State) : W32 :=
  place s.rtc.swCount 16 ||| flagAt s.rtc.lowBackup 15 ||| flagAt s.rtc.onBat 14 ||| flagAt s.rtc.fswValid 13 |||
    place s.rtc.batMv 0

/-- RTC_ALIGN. -/
def State.rtcAlign (s : State) : W32 :=
  place s.rtc.alignState 30 ||| (BitVec.ofInt 20 s.rtc.phase).setWidth 32

/-! ### The 0B00h group (R437) -/

/-- TIME_READ. -/
def cmdTimeRead (h : Hdr) (s : State) : State :=
  runCmd h { opcode := 0x0B01, maxData := 24 }
    (fun s => okRes (s.rtc.cal ++ leBytes 4 s.rtcBackup.toNat ++ leBytes 4 0 ++ leBytes 8 s.rtc.incRev) s) s

/-- The release of HALT by TIME_SET (R433, R437). -/
def State.timeRelease (s : State) : State := s.haltOff

/-- TIME_SET (R437): HALT, the registers, and the release at the next whole PTP second when alignment is enabled and the
Carousel LOCKED, else at once. -/
def cmdTimeSet (h : Hdr) (regs : List Byte) (s : State) : State :=
  runCmd h { opcode := 0x0B02, maxData := 8, denied := !s.landlord h,
             bad := if regs.length = 8 then none else some 0 }
    (fun s =>
      let old := s.rtc.cal ++ [BitVec.ofNat 8 s.rtc.halt.toNat]
      let s := s.haltOn
      let s := s.setRtc { s.rtc with cal := regs }
      if s.flag 0x8020 2 ∧ s.crsl.sync = .locked then .later (.timeSet old) s
      else let s := s.timeRelease; okRes (leBytes 8 s.rev) s) s

/-- A TIME_SET that timed out before its release (R385): the registers and HALT as they were at its start. -/
def State.timeUnset (s : State) (old : List Byte) : State :=
  s.setRtc { s.rtc with cal := old.take 8, halt := decide (old.getD 8 0 ≠ 0) }

/-- TIME_SETs that wait for a whole PTP second complete at the boundary where it begins: `n` is the revolution that
starts there (R437). -/
def finishTimeSets (n : Nat) (s : State) : State :=
  if Int.emod s.gridNs 1000000000 < s.periodNs then
    s.mbx.slots.foldl (fun (s : State) (x : Slot) =>
      match x.wait with
      | .timeSet _ => s.timeRelease.complete x 0 0 (leBytes 8 n)
      | _ => s) s
  else s

/-- HOUR_SHIFT (R430, R431, R437). -/
def cmdHourShift (h : Hdr) (dir : Byte) (s : State) : State :=
  runCmd h { opcode := 0x0B03, maxData := 8, denied := !s.landlord h,
             bad := if dir = 1 ∨ dir = 0xFF then none else some 0
             refuse := if calValid s.rtc.cal = false then some 1 else if s.rtc.halt then some 2
                       else if s.rtc.shift.isSome then some 3 else none }
    (fun s => .later .shift (s.setRtc { s.rtc with shift := some (decide (dir = 1)) })) s

end Sys2Proof.Machine
end

