-- ==== Sys2Proof/Machine/Prism.lean ====
section
/-! DEFINITION. The metering partition: acquisition, per-sample values, energy registration, aggregation, saves,
blocks, configuration, the seal and the mirror (chapters 06 and 07, R391). -/

namespace Sys2Proof.Machine

/-- The Prism partition replaced. -/
def State.setPrism (s : State) (p : Prism) : State := { s with prsm := p }

/-- The whole square root by binary digits. -/
def isqrtGo : Nat → Nat → Nat → Nat
  | 0, _, r => r
  | b + 1, x, r =>
    let t := r + 2 ^ b
    isqrtGo b x (if t * t ≤ x then t else r)

/-- The whole square root of a number. -/
def isqrt (x : Nat) : Nat := isqrtGo (Nat.log2 x / 2 + 1) x 0

/-- The root of n / d as a whole number: exact, or one of the two nearest, the rounding being open. -/
def rootOpen (n d : Nat) : Nat :=
  if d = 0 then 0
  else
    let r := isqrt (n / d)
    if r * r * d = n then r else if Config.roundsUp n d then r + 1 else r

/-! ### Meters and channels -/

/-- A channel code at an end of its range (R195). -/
def extreme (c : BitVec 24) : Bool := decide (c = 0x7FFFFF ∨ c = 0x800000)

/-- A meter in use. -/
def MeterCfg.used (m : MeterCfg) : Bool := decide (m.wiring ≠ 0)

/-- The phases of a meter: voltage and current channel of each (R175). -/
def MeterCfg.phases (m : MeterCfg) : List (Nat × Nat) :=
  if m.wiring = 1 then [(m.vsel, m.ich.getD 0 0xFF)]
  else if m.wiring = 0 then []
  else [(0, m.ich.getD 0 0xFF), (1, m.ich.getD 1 0xFF), (2, m.ich.getD 2 0xFF)]

/-- The current channels a meter names. -/
def MeterCfg.chans (m : MeterCfg) : List Nat := m.ich.filter fun (c : Nat) => c != 0xFF

/-- DIR of a meter. -/
def MeterCfg.dir (m : MeterCfg) : Bool := decide (m.flags % 2 = 1)

/-- FLOOR of a meter. -/
def MeterCfg.floor (m : MeterCfg) : Nat := m.flags / 2 % 4

/-- A meter's record in a set. -/
def PrismCfg.m (c : PrismCfg) (k : Nat) : MeterCfg := c.mtr.getD k {}

/-- A meter of the partition. -/
def Prism.meter (p : Prism) (k : Nat) : Meter := p.meters.getD k {}

/-- A meter uses a Rogowski channel (R172). -/
def PrismCfg.rogowski (c : PrismCfg) (k : Nat) : Bool :=
  (c.m k).chans.any fun (i : Nat) => (c.ich.getD i {}).sensor == 3

/-- The voltage records a meter of this set rests on (R175): its phases', and the N-reference a three-phase meter is measured to; where that
input is in use every voltage is measured against it. -/
def PrismCfg.volts (c : PrismCfg) (m : MeterCfg) : List Nat :=
  (m.phases.map fun (e : Nat × Nat) => e.1) ++
    (if m.used && (decide (m.wiring ≠ 1) || decide ((c.vch.getD 3 {}).scale ≠ 0)) then [3] else [])

/-- The channels of the converter frame a meter of this set uses: voltages 0 to 3, currents from 4. -/
def PrismCfg.inputs (c : PrismCfg) (m : MeterCfg) : List Nat :=
  if m.used then c.volts m ++ m.chans.map fun (i : Nat) => 4 + i else []

/-- The fallback window of R178. -/
def PrismCfg.w0 (c : PrismCfg) : Nat := if c.fnom = 60 then 267 else 320

/-! ### One sample -/

/-- The window sums of one phase over W samples: Σu·i, Σû·i, Σu², Σi² (R179). -/
structure PhaseSums where
  ui : Int := 0
  qi : Int := 0
  u2 : Nat := 0
  i2 : Nat := 0

/-- The sums of R179 for voltage v and current c. -/
def phaseSums (w : List Aligned) (v c : Nat) : PhaseSums :=
  w.foldl (fun (a : PhaseSums) (x : Aligned) =>
    let u := x.u.getD v 0
    let i := x.i.getD c 0
    { ui := a.ui + u * i, qi := a.qi + x.uq.getD v 0 * i, u2 := a.u2 + (u * u).toNat, i2 := a.i2 + (i * i).toNat }) {}

/-- A product of 2^-23 mV and 2^-28 mA over W samples, in units of 57,600 / 2^32 W. -/
def powerUnit (w : Nat) : Nat := w * 57600 * 1000000 * 2 ^ 19

/-- A sum of products over W samples as a power in units of 57,600 / 2^32 W. -/
def powerOf (sum : Int) (w : Nat) : Int := roundOpen sum (powerUnit w)

/-- s of a phase: the product of the rms values over W samples, in the unit of `powerOf` (R179). -/
def apparentOf (x : PhaseSums) (w : Nat) : Nat := rootOpen (x.u2 * x.i2) (powerUnit w * powerUnit w)

/-- The start threshold of M0–M3 in µA (R189). -/
def MeterCfg.startUa (m : MeterCfg) : Nat := if m.iSt ≠ 0 then m.iSt * 1000 else if m.cls = 1 then m.rated else 2 * m.rated

/-- The no-load threshold of M4–M15 in nW (R190). -/
def MeterCfg.noloadNw (m : MeterCfg) : Nat :=
  if m.noload ≠ 0 then m.noload * 100000000 else 2 * m.rated * m.un * m.phases.length

/-- The start condition holds at this sample (R189, R190). -/
def meterStarts (k : Nat) (m : MeterCfg) (w : Nat) (xs : List PhaseSums) (p : Int) : Bool :=
  if k < 4 then xs.any fun (x : PhaseSums) => decide (m.startUa * m.startUa * w * 2 ^ 56 ≤ x.i2 * 1000000)
  else decide (m.noloadNw * 2 ^ 32 ≤ p.natAbs * 57600 * 1000000000)

/-- The sample counts towards stopping: below 0.9 of the threshold on every phase (R189, R190). -/
def meterLow (k : Nat) (m : MeterCfg) (w : Nat) (xs : List PhaseSums) (p : Int) : Bool :=
  if k < 4 then
    xs.all fun (x : PhaseSums) => decide (x.i2 * 100000000 < 81 * m.startUa * m.startUa * w * 2 ^ 56)
  else decide (p.natAbs * 576000 * 1000000000 < 9 * m.noloadNw * 2 ^ 32)

/-- An increment added in full to a register and its remainder of 32 fraction bits (R188). -/
def addReg (regs rems : List Nat) (q inc : Nat) : List Nat × List Nat :=
  let t := rems.getD q 0 + inc
  (lmod regs q (· + t / 2 ^ 32), lmod rems q fun _ => t % 2 ^ 32)

/-- The increment to a total register. -/
def Meter.addTotal (x : Meter) (q inc : Nat) : Meter :=
  let r := addReg x.reg x.rem q inc
  { x with reg := r.1, rem := r.2 }

/-- The increment to a per-phase register: 2 × phase for import, one more for export (R185). -/
def Meter.addPhase (x : Meter) (q inc : Nat) : Meter :=
  let r := addReg x.preg x.prem q inc
  { x with preg := r.1, prem := r.2 }

/-- The active energy of a sample routed whole by the sign of P (R184). -/
def Meter.routeActive (x : Meter) (p : Int) : Meter :=
  if p > 0 then x.addTotal 0 p.toNat else if p < 0 then x.addTotal 1 p.natAbs else x

/-- The reactive energy of a sample routed to one quadrant (R186). -/
def Meter.routeReactive (x : Meter) (p q : Int) : Meter :=
  if q = 0 then x
  else if p ≥ 0 then (if q > 0 then x.addTotal 2 q.natAbs else x.addTotal 5 q.natAbs)
  else (if q > 0 then x.addTotal 3 q.natAbs else x.addTotal 4 q.natAbs)

/-- The apparent energy of a sample routed by the sign of P (R187). -/
def Meter.routeApparent (x : Meter) (p : Int) (sa : Nat) : Meter :=
  if p ≥ 0 then x.addTotal 6 sa else x.addTotal 7 sa

/-- Per-phase active energy, each by the sign of its own phase (R185). -/
def routePhases : List Int → Nat → Meter → Meter
  | [], _, x => x
  | p :: t, j, x =>
    routePhases t (j + 1)
      (if p > 0 then x.addPhase (2 * j) p.toNat else if p < 0 then x.addPhase (2 * j + 1) p.natAbs else x)

/-- What a meter that registers adds for one sample (R184 to R188). -/
def Meter.register (x : Meter) (three : Bool) (ps : List Int) (p q : Int) (sa : Nat) : Meter :=
  let x := ((x.routeActive p).routeReactive p q).routeApparent p sa
  if three then x else routePhases ps 0 x

/-- A meter registers: it runs, is not settling, and the front end is not in fault (R172, R191, R194, R208). -/
def Prism.registers (p : Prism) (x : Meter) : Bool := x.run && !x.settle && !p.feFault && !p.saveLost

/-- A block flag bit set. -/
def Block.flagBit (b : Block) (i : Nat) (on : Bool) : Block :=
  if on && b.flags / 2 ^ i % 2 == 0 then { b with flags := b.flags + 2 ^ i } else b

/-- The block over one more sample: its length, its gap, and the flags whose conditions hold (R209, R213). -/
def Prism.blockSample (p : Prism) (k : Nat) (x : Meter) (clip : Bool) : Block :=
  let b := { x.block with length := x.block.length + 1, gap := x.block.gap + if p.feFault then 1 else 0 }
  let b := (b.flagBit 2 p.feFault).flagBit 3 clip
  let b := (b.flagBit 6 x.settle).flagBit 7 (!x.run)
  b.flagBit 8 (decide (k < 4) && !p.sealOk)

/-- One sample of meter k: its running state, its registers, its sums and its block; and its P after DIR, which turns P and
Q round (R184, R186). -/
def Prism.meterSample (p : Prism) (w : List Aligned) (codes : List (BitVec 24)) (k : Nat) (x : Meter) : Meter × Int :=
  let m := p.cfg.m k
  if m.used = false then (x, 0)
  else
    let n := p.window
    let xs := m.phases.map fun (c : Nat × Nat) => phaseSums w c.1 c.2
    let sign : Int := if m.dir then -1 else 1
    let ps := xs.map fun (a : PhaseSums) => sign * powerOf a.ui n
    let qs := xs.map fun (a : PhaseSums) => sign * powerOf a.qi n
    let pt := ps.sum
    let qt := qs.sum
    let sa := (xs.map fun (a : PhaseSums) => apparentOf a n).sum
    let low := if meterLow k m n xs pt then x.below + 1 else 0
    let run := if x.run then decide (low < n) else meterStarts k m n xs pt
    let clip := (p.cfg.inputs m).any fun (c : Nat) => extreme (codes.getD c 0)
    let x := { x with run, below := low }
    let x := if p.registers x then x.register (decide (m.wiring = 3)) ps pt qt sa else x
    ({ x with
        accP := (List.range 3).map fun j => x.accP.getD j 0 + sign * ps.getD j 0
        accQ := (List.range 3).map fun j => x.accQ.getD j 0 + sign * qs.getD j 0
        block := p.blockSample k x clip }, pt)

/-- A positive-going crossing counted at sample `at16` of 65,536ths. -/
def Cycles.cross (c : Cycles) (at16 : Nat) : Cycles :=
  match c.first with
  | none => { n := 0, first := some at16, last := at16 }
  | some _ => { c with n := c.n + 1, last := at16 }

/-- The frequency in mHz: integral cycles over their total duration (R180), none outside 42.500 to 69.000 Hz or without
a cycle (R181). -/
def Cycles.mhz (c : Cycles) : Option Nat :=
  let d := c.last - c.first.getD c.last
  if c.n = 0 ∨ d = 0 then none
  else
    let f := (roundOpen (c.n * 16000 * 1000 * 65536) d).toNat
    if 42500 ≤ f ∧ f ≤ 69000 then some f else none

/-- W for a fast frequency (R178): 16,000 / f to the nearest whole sample. -/
def windowFor (mhz : Nat) : Nat := (2 * 16000000 + mhz) / (2 * mhz)

/-- What the leak takes from y(k−1) in one sample: 2π × 0.25 / 16,000 of it, with π to 62 binary places (R171). -/
def rogLeak (y : Int) : Int := roundOpen (y * 14488038916154245684) (32000 * 2 ^ 62)

/-- y(k) of the leaky integrator by the trapezoidal rule, in 2^-40 of a code (R171). DESIGN CHOICE (log 64): at the first sample after the
integrator is reset x(k-1) is 0, as y(k-1) is; the spec does not say what it is. -/
def rogStep (y x0 x1 : Int) : Int := y - rogLeak y + (x1 + x0) * 2 ^ 39

/-- The gain that makes the integrator's 1.000 at FNOM, in 2^-64 (R171). -/
def rogGain (fnom : Nat) : Int := if fnom = 60 then 434643713275852504 else 362199357497913998

/-- A Rogowski channel over one sample: its integrator, its outputs, and the settling of R172. -/
def Prism.rogSample (p : Prism) (i : Nat) (x : Int) : Prism :=
  let y := rogStep (sget 0 p.rog i) (sget 0 p.rogIn i) x
  let out := roundOpen (y * rogGain p.cfg.fnom) (2 ^ 64)
  { p with
    rog := sset 0 p.rog i y
    rogIn := sset 0 p.rogIn i x
    rogOut := sset [] p.rogOut i ((out :: sget [] p.rogOut i).take 256)
    chSettle := sset 0 p.chSettle i (sget 0 p.chSettle i - 1) }

/-- The samples of a frame after the Rogowski integrators (R171). -/
def Prism.integrate (p : Prism) (codes : List (BitVec 24)) : Prism × List Int :=
  let xs := codes.map fun (c : BitVec 24) => c.toInt
  (List.range 32).foldl (fun (a : Prism × List Int) i =>
    if (p.cfg.ich.getD i {}).sensor = 3 then
      let q := a.1.rogSample i (xs.getD (4 + i) 0)
      (q, lmod a.2 (4 + i) fun _ => Config.unled p.cfg.fnom (sget [] q.rogOut i))
    else a) (p, xs)

/-- A voltage code in units of 2^-23 mV: ±1.000 V is full scale (R167, R169). -/
def ChanCfg.volts (x : ChanCfg) (code : Int) : Int := code * x.scale

/-- A current code in units of 2^-28 mA: ±500 mV, ±125 mV or ±31.25 mV is full scale (R168, R169). -/
def ChanCfg.amps (x : ChanCfg) (code : Int) : Int := code * x.scale * 4 ^ (2 - x.range)

/-- A channel's samples, newest first, delayed by the 63 samples of R177 and by PHASE_COMP (R170): that angle of a cycle at FNOM at
16,000 samples a second, which is PHASE_COMP × 2 / (45 × FNOM) samples; a whole number of samples moves them exactly. -/
def ChanCfg.aligned (x : ChanCfg) (fnom : Nat) (xs : List Int) : Int :=
  let den : Int := 45 * fnom
  let k := (63 + Int.fdiv (2 * x.phaseComp) den).toNat
  let part := (Int.fmod (2 * x.phaseComp) den).toNat
  if part = 0 ∧ k < xs.length then xs.getD k 0 else Config.between part (45 * fnom) k xs

/-- The aligned signals of the newest index (R177): each voltage against the N-reference (R175). -/
def Prism.alignNow (p : Prism) (frames : List (List Int)) : Aligned :=
  let ch := fun (i : Nat) => frames.map fun (f : List Int) => f.getD i 0
  let v := fun (k : Nat) => p.cfg.vch.getD k {}
  let vs := fun (k : Nat) => (ch k).map (v k).volts
  let n := (v 3).aligned p.cfg.fnom (vs 3)
  { u := (List.range 3).map fun k => (v k).aligned p.cfg.fnom (vs k) - n
    uq := (List.range 3).map fun k => Config.quadrature (v k).phaseComp (v 3).phaseComp p.cfg.fnom (vs k) (vs 3)
    i := (List.range 32).map fun c =>
      let x := p.cfg.ich.getD c {}
      x.aligned p.cfg.fnom ((ch (4 + c)).map x.amps) }

/-- The part of a sample by which a crossing lies before the second of two values, in 65,536ths: none where that value is the zero. -/
def crossPart (prev now : Int) : Nat := if now = 0 then 0 else Config.crossBack prev now % 65536

/-- One frame released to the chain (R177 to R192): aligned signals, the reference's crossings and W, every meter, and
D(k) in the sliding window. DESIGN CHOICE (log 155): before W samples exist after a start the sums of R179 run over those that do, and are
still divided by W. -/
def Prism.chainSample (p : Prism) (codes : List (BitVec 24)) : Prism :=
  let g := p.integrate codes
  let p := g.1
  let frames := (g.2 :: p.frames).take 256
  let a := p.alignNow frames
  let prev := ((p.aligned.head?.map (·.u)).getD []).getD p.refV 0
  let now := a.u.getD p.refV 0
  let crossing := decide (prev < 0 ∧ 0 ≤ now)
  let at16 := (p.tick + 1) * 65536 - crossPart prev now
  let aligned := (a :: p.aligned).take (Nat.max 512 (p.aggSamples + 2))
  let p := { p with
    frames, lastCodes := codes, aligned
    chClipNow := (List.range 36).filter fun c => p.chClipNow.contains c || extreme (codes.getD c 0)
    tick := p.tick + 1
    aggSamples := p.aggSamples + 1
    fast := if crossing then p.fast.cross at16 else p.fast
    tenS := if crossing then p.tenS.cross at16 else p.tenS
    window := if crossing then p.windowNext else p.window }
  let w := aligned.take p.window
  let res := (List.range 16).map fun k => p.meterSample w codes k (p.meter k)
  let d : Int := ((List.range 16).map fun k =>
    let v := (res.getD k ({}, 0)).2
    match (p.cfg.m k).floor with
    | 1 => v
    | 2 => -v
    | _ => 0).sum
  { p with meters := res.map (·.1), demWindow := (d :: p.demWindow).take 16000, demSince := p.demSince + 1 }

/-- PRISM_SAMPLE (R165, R173, R184, R194): the frame checked, a failed one replaced by the previous good one. DESIGN CHOICE (log 156): where
no good frame has come since the start, a failed one is replaced by codes of 0. -/
def Prism.sampleTaken (p : Prism) (codes : List (BitVec 24)) (crc : BitVec 16) : Prism :=
  let good := decide (codes.length = 36) && decide (frameCheck 1 codes = crc)
  let p := { p with
    sample := (p.sample + 1) % 2 ^ 32
    frameErrs := if good then p.frameErrs else p.frameErrs + 1
    badRun := if good then 0 else p.badRun + 1
    goodRun := if good then p.goodRun + 1 else 0 }
  p.chainSample (if good then codes else p.lastCodes)

/-- The partition has its supply and is present. -/
def State.prismUp (s : State) : Bool := s.isMr && s.prsm.powered && s.prsm.running

/-- An event of the running partition. -/
def State.onPrism (s : State) (f : Prism → Prism) : State := if s.prismUp then s.setPrism (f s.prsm) else s

/-- PRISM_SAMPLE. -/
def prismSample (codes : List (BitVec 24)) (crc : BitVec 16) (s : State) : State :=
  s.onPrism fun p => p.sampleTaken codes crc

/-- FE_FAULT (R194): after 16 consecutive failed frames. -/
def feFaultOn (s : State) : State := s.onPrism fun p => if 16 ≤ p.badRun then { p with feFault := true } else p

/-- FE_FAULT_EXIT (R194): after 16,000 consecutive good frames. -/
def feFaultOff (s : State) : State := s.onPrism fun p => if 16000 ≤ p.goodRun then { p with feFault := false } else p

/-- A meter uses a channel whose integrator was reset less than 6.0 s ago (R172). -/
def Prism.settling (p : Prism) (k : Nat) : Bool :=
  (p.cfg.m k).chans.any fun (c : Nat) => (p.cfg.ich.getD c {}).sensor == 3 && sget 0 p.chSettle c != 0

/-- SETTLE_END (R172): 6.0 s have passed since every integrator of the meter was reset. -/
def settleEnd (k : Nat) (s : State) : State :=
  s.onPrism fun p =>
    if p.settling k then p else { p with meters := lmod p.meters k fun (x : Meter) => { x with settle := false } }

/-! ### Ring records and the seal -/

/-- A hash as four 64-bit words. -/
def hashWords (h : List Byte) : List W64 :=
  (List.range 4).map fun j => BitVec.ofNat 64 (leAt h (8 * j) 8)

/-- Words 0–12 of a ring record from words 0–11, with their CRC-32 (R213). -/
def ringRecord (ws : List W64) : List W64 :=
  let ws := (List.range 12).map fun j => ws.getD j 0
  ws ++ [BitVec.ofNat 64 ((crc32 (bytesOf ws ++ leBytes 4 0)).toNat * 2 ^ 32)]

/-- A record written to the next ring slot (R212). -/
def Prism.putRing (p : Prism) (ws : List W64) : Prism :=
  { p with ring := sset [] p.ring (p.ringCount % 4096) (ringRecord ws), ringCount := p.ringCount + 1 }

/-- Word 0 of a record. -/
def recWord0 (typ m flags seq : Nat) : W64 :=
  BitVec.ofNat 64 (typ * 2 ^ 60 + m * 2 ^ 56 + flags * 2 ^ 40 + seq % 2 ^ 32)

/-- DATA of a seal entry (R217, R219): the digest of the firmware digest, the calibration digest and the test results;
of the configuration set for kind 02h. -/
def SealEnt.digest (e : SealEnt) : List Byte :=
  if e.kind = 2 then Config.sha256 e.rest
  else Config.sha256 (Config.sha256 e.fw ++ Config.sha256 e.cal ++ e.rest)

/-- The 96 bytes of an entry after one whose hash is `prev` (R217). -/
def SealEnt.bytes (e : SealEnt) (prev : List Byte) : List Byte :=
  leBytes 4 e.number ++ [BitVec.ofNat 8 e.kind, 0, 0, 0] ++ leBytes 2 e.startCnt ++ [0, 0] ++ leBytes 4 e.sample ++
    leBytes 4 e.saveSeq ++ e.digest.take 32 ++ prev.take 32 ++ List.replicate 12 0

/-- The head hash of a chain, oldest entry first (R217). -/
def headHash (chain : List SealEnt) : List Byte :=
  chain.foldl (fun (prev : List Byte) (e : SealEnt) => Config.sha256 (e.bytes prev)) (List.replicate 32 0)

/-- The newest complete save's sequence. -/
def Prism.newestSave (p : Prism) : Option Save :=
  p.saves.foldl (fun (a : Option Save) (x : Option Save) =>
    match a, x with
    | none, y => y
    | some a, some y => if a.seq < y.seq then some y else some a
    | some a, none => some a) none

/-- A seal entry may be appended: the last 16 are for kinds 03h to 05h (R215, R220). -/
def Prism.sealRoom (p : Prism) (kind : Nat) : Bool :=
  decide (p.chain.length < if 3 ≤ kind ∧ kind ≤ 5 then 256 else 240)

/-- A seal entry appended where the area has one for it (R217, R220). -/
def Prism.appendSeal (p : Prism) (kind : Nat) (rest : List Byte) : Prism :=
  if p.sealRoom kind then
    let e : SealEnt :=
      { number := p.chain.length, kind, startCnt := p.startCnt, sample := p.sample,
        saveSeq := (p.newestSave.map (·.seq)).getD 0, fw := p.fwMark, cal := p.calMark, rest }
    { p with chain := p.chain ++ [e] }
  else p

/-- A seal record of TYPE 3h for the newest entry (R213). -/
def Prism.sealRing (p : Prism) : Prism :=
  let h := hashWords (headHash p.chain)
  p.putRing ([recWord0 3 0 0 0, BitVec.ofNat 64 (p.chain.length - 1), 0] ++ h)

/-- A seal entry of kind 03h to 05h with its ring record. -/
def Prism.sealEvent (p : Prism) (kind : Nat) (rest : List Byte) : Prism :=
  let n := p.chain.length
  let p := p.appendSeal kind rest
  if p.chain.length = n then p else p.sealRing

/-- A break of the seal: the counter advances and a kind 03h entry is appended (R218 to R220). -/
def Prism.sealBreak (p : Prism) : Prism := { p with sealBrk := p.sealBrk + 1 }.sealEvent 3 []

/-- The digests match the newest seal or re-seal (R219). -/
def Prism.sealMatches (p : Prism) : Bool :=
  match (p.chain.filter fun (e : SealEnt) => e.kind == 1 || e.kind == 4).getLast? with
  | some e => decide (({ e with fw := p.fwMark, cal := p.calMark } : SealEnt).digest = e.digest)
  | none => false

/-- SEAL_EVENT when entries were appended. -/
def noteSeal (before : Nat) (s : State) : State := if before < s.prsm.chain.length then s.setSQ 7 3 else s

/-! ### Blocks (R209 to R211) -/

/-- A block demand in W: advance × 57,600 / LENGTH, rounded half away from zero (R213). -/
def blockDemand (adv len : Nat) : Nat := roundHalf (adv * 57600) len

/-- A meter's block closed into an interval record, and a new one begun. `open0` stands for the demands of a block of no
samples, which the spec does not state. -/
def Prism.closeBlock (p : Prism) (k : Nat) (extra : Nat) (open0 : W64) : Prism :=
  let x := p.meter k
  let b := x.block
  let b := (List.range 16).foldl (fun (b : Block) i => b.flagBit i (extra / 2 ^ i % 2 == 1)) b
  let adv := (List.range 8).map fun q => x.reg.getD q 0 - b.base.getD q 0
  let di := if b.length = 0 then open0.toNat % 2 ^ 32 else blockDemand (adv.getD 0 0) b.length
  let de := if b.length = 0 then open0.toNat / 2 ^ 32 else blockDemand (adv.getD 1 0) b.length
  let seq := x.blockSeq + 1
  let ws := [recWord0 1 k b.flags seq, BitVec.ofNat 64 (b.startCnt * 2 ^ 48 + b.startSample),
    BitVec.ofNat 64 (b.length * 2 ^ 32 + b.gap)] ++ (adv.map fun (a : Nat) => BitVec.ofNat 64 a) ++
    [BitVec.ofNat 64 (di % 2 ^ 32 * 2 ^ 32 + de % 2 ^ 32)]
  let new : Block := { startCnt := p.startCnt, startSample := p.sample, base := x.reg }
  let p := p.putRing ws
  { p with meters := lmod p.meters k fun (x : Meter) =>
      { x with block := new, blockSeq := seq, demImp := di, demExp := de } }

/-- The seal, ring and proposal registers are refreshed in the mirror at a change of theirs (R222): the PE's `p` in place of the
partition, seen by a module that has its supply. -/
def State.publish (s : State) (p : Prism) : State := s.setPrism { p with seenLog := p.seenLog || s.sys.powered }

/-- BLOCK_CLOSE (R209): the block has its full length, 14,400,000 samples or the one an alignment gave it (R210). -/
def blockClose (k : Nat) (s : State) : State :=
  let p := s.prsm
  let b := (p.meter k).block
  if s.prismUp ∧ (p.cfg.m k).used ∧ b.target ≤ b.length then s.publish (p.closeBlock k 0 (s.drawnFor k)) else s

/-! ### Aggregation (R180, R181, R195, R196) -/

/-- The key of a mirror window word (R225): meter, phase, page, word. -/
def mvalKey (m ph page w : Nat) : Nat := ((m * 3 + ph) * 2 + page) * 16 + w

/-- Words of a page written to the mirror window. -/
def putMval (mv : Sparse W32) (m ph page : Nat) (ws : List (Nat × Int)) : Sparse W32 :=
  ws.foldl (fun (a : Sparse W32) (e : Nat × Int) => sset 0 a (mvalKey m ph page e.1) (BitVec.ofInt 32 e.2)) mv

/-- The newest `aggSamples` aligned samples. -/
def Prism.aggWindow (p : Prism) : List Aligned := p.aligned.take p.aggSamples

/-- The rms voltage of an input over the aggregation interval, in mV, at most the end of its range (R180). -/
def Prism.rmsU (p : Prism) (v : Nat) : Nat :=
  let w := p.aggWindow
  Nat.min 0xFFFFFFFF <| rootOpen ((w.map fun (a : Aligned) => (a.u.getD v 0 * a.u.getD v 0).toNat).sum) (w.length * 2 ^ 46)

/-- The rms current of a channel over the aggregation interval, in mA, at most the end of its range (R180). -/
def Prism.rmsI (p : Prism) (c : Nat) : Nat :=
  let w := p.aggWindow
  Nat.min 0xFFFFFFFF <| rootOpen ((w.map fun (a : Aligned) => (a.i.getD c 0 * a.i.getD c 0).toNat).sum) (w.length * 2 ^ 56)

/-- S of a phase in 0.1 VA (R180): U rms × I rms. -/
def Prism.phaseVa (p : Prism) (v c : Nat) : Nat :=
  let w := p.aggWindow
  let u2 := (w.map fun (a : Aligned) => (a.u.getD v 0 * a.u.getD v 0).toNat).sum
  let i2 := (w.map fun (a : Aligned) => (a.i.getD c 0 * a.i.getD c 0).toNat).sum
  Nat.min 0xFFFFFFFF (rootOpen (u2 * i2) (w.length * w.length * 10 ^ 10 * 2 ^ 102))

/-- A mean power over the interval in 0.1 W or 0.1 var, signed, at the ends of its range. -/
def meanPower (sum : Int) (n : Nat) : Int := if n = 0 then 0 else clip32 (roundOpen (sum * 576000) (n * 2 ^ 32))

/-- PF in 0.0001: P / S with the sign of P. -/
def pfOf (p : Int) (sa : Nat) : Int := if sa = 0 then 0 else clampInt (-10000) 10000 (roundOpen (p * 10000) sa)

/-- An input is below 5 % of a meter's UN. -/
def Prism.lowVolt (p : Prism) (v un : Nat) : Bool := decide (p.rmsU v * 20 < un)

/-- The lowest-numbered meter in use whose phases use an input gives the UN it is held against (R178). -/
def PrismCfg.unOf (c : PrismCfg) (v : Nat) : Nat :=
  ((c.mtr.find? fun (m : MeterCfg) => m.used && m.phases.any fun (e : Nat × Nat) => e.1 == v).map (·.un)).getD 0

/-- The reference voltage (R178): L1, L2 where L1 is low, then L3. -/
def Prism.reference (p : Prism) : Nat :=
  if p.lowVolt 0 (p.cfg.unOf 0) = false then 0 else if p.lowVolt 1 (p.cfg.unOf 1) = false then 1 else 2

/-- 1 - z / d1 (1 - z / d2 (...)) in 2^-60. -/
def alternating (z : Int) : List Int → Int
  | [] => 2 ^ 60
  | d :: t => 2 ^ 60 - z * alternating z t / (d * 2 ^ 60)

/-- Cosine and sine in 2^-60 of m / n of a turn below a quarter, by their power series up to the 24th power (log 157). -/
def quarterTurn (m n : Nat) : Int × Int :=
  let x : Int := 7244019458077122842 * m / n
  let z := x * x / 2 ^ 60
  (alternating z [2, 12, 30, 56, 90, 132, 182, 240, 306, 380, 462, 552],
   x * alternating z [6, 20, 42, 72, 110, 156, 210, 272, 342, 420, 506, 600] / 2 ^ 60)

/-- Cosine and sine of m / n of a turn in 2^-60; exact at the quarter turns. -/
def turn (m n : Nat) : Int × Int :=
  let q := 4 * m / n
  let t := quarterTurn (4 * m - q * n) (4 * n)
  match q % 4 with
  | 0 => t
  | 1 => (-t.2, t.1)
  | 2 => (-t.1, -t.2)
  | _ => (t.2, -t.1)

/-- The fundamental of a signal over an interval of so many cycles, oldest sample first: its DFT at that bin (R180). -/
def fundamental (cycles : Nat) (xs : List Int) : Int × Int :=
  xs.zipIdx.foldl (fun (a : Int × Int) (e : Int × Nat) =>
    let t := turn (cycles * e.2 % xs.length) xs.length
    (a.1 + e.1 * t.1, a.2 - e.1 * t.2)) (0, 0)

/-- By halving: the most 0.01° below `lo + 2^fuel` up to which a vector of the upper half plane has turned, at least `lo`. -/
def turnedBy (re im : Int) : Nat → Nat → Nat
  | 0, lo => lo
  | fuel + 1, lo =>
    let mid := lo + 2 ^ fuel
    let t := turn mid 36000
    turnedBy re im fuel (if mid ≤ 18000 ∧ 0 ≤ im * t.1 - re * t.2 then mid else lo)

/-- The angle of a vector in 0.01°, −180.00° to +179.99°: exact on the axes, else one of the two nearest, the rounding being open. -/
def angleOf (re im : Int) : Int :=
  if im = 0 then (if re < 0 then -18000 else 0)
  else if re = 0 then (if im < 0 then -9000 else 9000)
  else
    let n : Int := turnedBy re im.natAbs 15 0
    let a := if Config.roundsUp re im then n + 1 else n
    clampInt (-18000) 17999 (if im < 0 then -a else a)

/-- The angle by which the fundamental of one signal leads that of another (R180). -/
def leads (cycles : Nat) (xs ys : List Int) : Int :=
  let a := fundamental cycles xs
  let b := fundamental cycles ys
  angleOf (a.1 * b.1 + a.2 * b.2) (a.2 * b.1 - a.1 * b.2)

/-- The cycles of the reference voltage that make an aggregation interval (R180). -/
def PrismCfg.cycles (c : PrismCfg) : Nat := if c.fnom = 60 then 12 else 10

/-- The words of the window that belong to a meter and to none of its phases (R225): read at a PHASE that the meter has not. -/
def meterWord (w : Nat) : Bool := decide (6 ≤ w)

/-- The window words of one phase of a meter, page 0 (R225); of a phase it has not, the meter's words. -/
def Prism.phaseWords (p : Prism) (m : MeterCfg) (x : Meter) (j : Nat) : List (Nat × Int) :=
  let has := decide (j < m.phases.length)
  let e := m.phases.getD j (0, 0xFF)
  let n := p.aggSamples
  let u := p.rmsU e.1
  let i := p.rmsI e.2
  let sa := p.phaseVa e.1 e.2
  let pj := meanPower (x.accP.getD j 0) n
  let total := Nat.min 0xFFFFFFFF (m.phases.map fun (c : Nat × Nat) => p.phaseVa c.1 c.2).sum
  let pt := meanPower (x.accP.foldl (· + ·) 0) n
  let qt := meanPower (x.accQ.foldl (· + ·) 0) n
  let lowS := fun (v k : Nat) => decide (v * 100000000 < m.un * m.rated * k)
  let pfOk := !lowS total m.phases.length
  let pfjOk := !lowS sa 1
  let vAng := !p.lowVolt e.1 m.un
  let iAng := decide (m.rated ≤ i * 1000)
  let w := p.aggWindow.reverse
  let us := w.map fun (a : Aligned) => a.u.getD e.1 0
  let is := w.map fun (a : Aligned) => a.i.getD e.2 0
  let rs := w.map fun (a : Aligned) => a.u.getD p.refV 0
  let va := if vAng then leads p.cfg.cycles us rs else 0
  let ia := if iAng then leads p.cfg.cycles us is else 0
  let half := fun (v : Int) => (BitVec.ofInt 16 v).toNat
  let own : Nat := if has then 3 + pfjOk.toNat * 4 + vAng.toNat * 8 + iAng.toNat * 16 else 0
  let valid : Nat := own + pfOk.toNat * 32 +
    p.classS.isSome.toNat * 64 + p.fastMhz.isSome.toNat * 128
  let neutral := m.ich.getD 3 0xFF
  let ws : List (Nat × Int) := [(0, (u : Int)), (1, i), (2, pj), (3, meanPower (x.accQ.getD j 0) n), (4, sa), (5, half va * 65536 + half ia),
   (6, pt), (7, qt), (8, total),
   (9, half (if pfOk then pfOf pt total else 0) * 65536 + half (if pfjOk && has then pfOf pj sa else 0)),
   (10, p.classS.getD 0), (11, p.fastMhz.getD 0), (12, valid), (14, if neutral = 0xFF then 0 else p.rmsI neutral)]
  if has then ws else ws.filter fun (e : Nat × Int) => meterWord e.1

/-- The quantities of every meter in use refreshed in the window; those of a meter not in use, and the phase words of a phase that a meter
has not, read 0. -/
def Prism.windowWords (p : Prism) : Sparse W32 :=
  (List.range 16).foldl (fun (mv : Sparse W32) k =>
    let m := p.cfg.m k
    (List.range (if m.used then 3 else 0)).foldl (fun (mv : Sparse W32) j =>
      putMval mv k j 0 (p.phaseWords m (p.meter k) j)) mv) (p.mval.filter fun (e : Nat × W32) => e.1 / 16 % 2 == 1)

/-- The class S frequency and its validity refreshed in the window of every meter in use (R180, R222). -/
def Prism.classWords (p : Prism) : Sparse W32 :=
  (List.range 16).foldl (fun (mv : Sparse W32) k =>
    (List.range (if (p.cfg.m k).used then 3 else 0)).foldl (fun (mv : Sparse W32) j =>
      let v := setBits (sget 0 mv (mvalKey k j 0 12)) 6 6 p.classS.isSome.toNat
      sset 0 (sset 0 mv (mvalKey k j 0 10) (BitVec.ofNat 32 (p.classS.getD 0))) (mvalKey k j 0 12) v) mv) p.mval

/-- A meter at the end of an aggregation interval: CLIP and V_LOSS for it, V_LOSS in its block, sums at 0. -/
def Prism.meterAgg (p : Prism) (k : Nat) (x : Meter) : Meter :=
  let m := p.cfg.m k
  let v := m.phases.any fun (e : Nat × Nat) => p.lowVolt e.1 m.un
  { x with clip := (p.cfg.inputs m).any fun (c : Nat) => p.chClipNow.contains c
           vLoss := v, block := x.block.flagBit 4 v,
           accP := [0, 0, 0], accQ := [0, 0, 0] }

/-- The records on which meter k rests differ between two sets (R198, R199). -/
def meterChanged (a b : PrismCfg) (k : Nat) : Bool :=
  decide (a.m k ≠ b.m k) ||
  ((a.m k).chans ++ (b.m k).chans).any (fun (c : Nat) => a.ich.getD c {} != b.ich.getD c {}) ||
  (a.volts (a.m k) ++ b.volts (b.m k)).any fun (v : Nat) => a.vch.getD v {} != b.vch.getD v {}

/-- The Rogowski channels whose integrator a change of the set resets (R172). -/
def resetChans (a b : PrismCfg) : List Nat := (List.range 32).filter fun i => a.ich.getD i {} != b.ich.getD i {}

/-- The partition with the integrators of these channels reset: 96,000 samples of settling for those of the set now in effect (R172). -/
def Prism.resetRog (p : Prism) (l : List Nat) : Prism :=
  { p with
    rog := p.rog.filter fun (e : Nat × Int) => !l.contains e.1
    rogIn := p.rogIn.filter fun (e : Nat × Int) => !l.contains e.1
    rogOut := p.rogOut.filter fun (e : Nat × List Int) => !l.contains e.1
    chSettle := l.foldl (fun (a : Sparse Nat) c =>
      sset 0 a c (if (p.cfg.ich.getD c {}).sensor = 3 then 96000 else 0)) p.chSettle }

/-- A set taking effect changes the block of meter k (R211): its records or those it rests on change, or FNOM does. -/
def blockChanged (a b : PrismCfg) (k : Nat) : Bool := meterChanged a b k || decide (a.fnom ≠ b.fnom)

/-- The adopted set taking effect at an aggregation boundary (R172, R193, R198, R211). -/
def Prism.adopt (p : Prism) : Prism :=
  match p.adopting with
  | none => p
  | some c =>
    let floors := (List.range 16).any fun k => (p.cfg.m k).floor != (c.m k).floor
    let meters := (List.range 16).map fun k =>
      let x := p.meter k
      if meterChanged p.cfg c k then
        let b : Block := if (p.cfg.m k).used then x.block else { startCnt := p.startCnt, startSample := p.sample, base := x.reg }
        { x with block := b.flagBit 5 true,
                 run := x.run && (p.cfg.m k).used, below := if (p.cfg.m k).used then x.below else 0 }
      else { x with block := x.block.flagBit 5 (blockChanged p.cfg c k) }
    let p := { p with cfg := c, adopting := none, meters,
                      demSince := if floors then 0 else p.demSince }.resetRog (resetChans p.cfg c)
    { p with meters := (List.range 16).map fun k =>
        let x := p.meter k
        { x with settle := x.settle || p.settling k } }

/-- The aggregation interval has its 10 or 12 cycles of the reference voltage (R180). DESIGN CHOICE (log 147): with no crossing for the
3,200 samples that these take at FNOM it ends too, since the spec says nothing of an interval without crossings. -/
def Prism.intervalDone (p : Prism) : Bool :=
  decide (p.cfg.cycles ≤ p.fast.n) || decide (3200 ≤ p.aggSamples ∧ p.fast.last + 3200 * 65536 ≤ p.tick * 65536)

/-- The count of the next interval, from the crossing that ended the last one where the reference stays the same (R180). DESIGN CHOICE (log
158): after a start or a change of reference the interval begins at once, so that it also takes the samples before its first crossing. -/
def Cycles.next (c : Cycles) (need : Nat) (same : Bool) : Cycles :=
  if same ∧ need ≤ c.n then { n := 0, first := some c.last, last := c.last } else {}

/-- AGGREGATION_END (R180), a set adopted meanwhile taking effect with it (R198), W of the new FNOM included (R178). -/
def Prism.aggregate (p : Prism) : Prism :=
  let f := p.fast.mhz
  let refV := p.reference
  let p := { p with fastMhz := f, refLow := p.refLow || p.lowVolt p.refV (p.cfg.unOf p.refV) }
  let p := { p with
    mval := p.windowWords
    chClip := p.chClipNow
    chClipNow := []
    meters := (List.range 16).map fun k => p.meterAgg k (p.meter k) }
  let p := { p with
    refV, aggSamples := 0, fast := p.fast.next p.cfg.cycles (decide (refV = p.refV)) }.adopt
  { p with windowNext := match f with
      | some f => windowFor f
      | none => p.cfg.w0 }

/-- AGGREGATION_END. -/
def aggregationEnd (s : State) : State := s.onPrism fun p => if p.intervalDone then p.aggregate else p

/-- FREQUENCY_INTERVAL_END (R180, R181): the class S frequency of the 10 s interval of Prism time. -/
def frequencyIntervalEnd (s : State) : State :=
  s.onPrism fun p =>
    if p.tenTick + 160000 ≤ p.tick then
      let p := { p with
        classS := if p.refLow then none else p.tenS.mhz
        tenS := {}, refLow := false, tenTick := p.tick }
      { p with mval := p.classWords }
    else p

/-! ### Configuration proposals (R176, R197, R215) -/

/-- A signed 16-bit field. -/
def s16At (l : List Byte) (off : Nat) : Int := (BitVec.ofNat 16 (leAt l off 2)).toInt

/-- A configuration set read from its 816 bytes (R169, R174, R197): the partition record, VCH, ICH, MTR. -/
def parseSet (l : List Byte) : PrismCfg :=
  { fnom := leAt l 0 1
    reservedZero := decide (leAt l 1 15 = 0) && (List.range 4).all fun v => leAt l (16 + 8 * v + 6) 2 == 0
    vch := (List.range 4).map fun v => { scale := leAt l (16 + 8 * v) 4, phaseComp := s16At l (16 + 8 * v + 4) }
    ich := (List.range 32).map fun c =>
      { scale := leAt l (48 + 8 * c) 4, sensor := leAt l (48 + 8 * c + 4) 1, range := leAt l (48 + 8 * c + 5) 1,
        phaseComp := s16At l (48 + 8 * c + 6) }
    mtr := (List.range 16).map fun m =>
      let o := 304 + 32 * m
      { wiring := leAt l o 1, cls := leAt l (o + 1) 1, vsel := leAt l (o + 2) 1, flags := leAt l (o + 3) 1,
        ich := (List.range 4).map fun j => leAt l (o + 4 + j) 1, un := leAt l (o + 8) 4, rated := leAt l (o + 12) 4,
        iSt := leAt l (o + 16) 4, noload := leAt l (o + 20) 4, reservedZero := leAt l (o + 24) 8 == 0 } }

/-- WIRING and ICH agree (R175). -/
def MeterCfg.wired (m : MeterCfg) : Bool :=
  let ph := m.ich.take 3
  let range := m.ich.all fun (c : Nat) => c == 0xFF || c < 32
  range && (match m.wiring with
    | 0 => true
    | 1 => decide (m.ich.getD 0 0xFF ≠ 0xFF ∧ m.ich.getD 1 0xFF = 0xFF ∧ m.ich.getD 2 0xFF = 0xFF)
    | 2 => ph.all fun (c : Nat) => c != 0xFF
    | 3 => ph.all fun (c : Nat) => c != 0xFF
    | _ => false)

/-- A list without repeats. -/
def noRepeats : List Nat → Bool
  | [] => true
  | a :: t => !t.contains a && noRepeats t

/-- The nine cases of R176 in its order, each true where the set is refused for it. Values the tables give no meaning
(SENSOR, RANGE, CLASS, VSEL, FLOOR and PHASE_COMP out of range) count as reserved, case 8. -/
def setCases (c : PrismCfg) : List Bool :=
  let ms := (List.range 16).map fun k => (k, c.m k)
  let us := ms.filter fun (e : Nat × MeterCfg) => e.2.used
  let ichOf := fun (i : Nat) => c.ich.getD i {}
  let pcBad := fun (x : ChanCfg) => decide (x.phaseComp < -5000 ∨ 5000 < x.phaseComp)
  [!noRepeats (us.flatMap fun (e : Nat × MeterCfg) => e.2.chans),
   us.any (fun (e : Nat × MeterCfg) => e.2.chans.any (fun (i : Nat) => (ichOf i).sensor == 0) ||
     (c.volts e.2).any fun (v : Nat) => (c.vch.getD v {}).scale == 0),
   ms.any (fun (e : Nat × MeterCfg) => decide (4 ≤ e.1) && e.2.cls == 1),
   us.any (fun (e : Nat × MeterCfg) => e.2.cls == 1 && e.2.phases.any fun (v : Nat × Nat) => (ichOf v.2).sensor != 1),
   us.any (fun (e : Nat × MeterCfg) => !e.2.wired),
   us.any (fun (e : Nat × MeterCfg) => e.2.un == 0 || e.2.rated == 0),
   decide (c.fnom ≠ 50 ∧ c.fnom ≠ 60),
   !c.reservedZero || c.vch.any pcBad ||
     c.ich.any (fun (x : ChanCfg) => pcBad x || decide (3 < x.sensor) || decide (2 < x.range)) ||
     ms.any (fun (e : Nat × MeterCfg) => !e.2.reservedZero || decide (8 ≤ e.2.flags) || e.2.floor == 3 ||
       decide (1 < e.2.cls) || decide (2 < e.2.vsel)),
   ms.any fun (e : Nat × MeterCfg) => decide (e.1 < 4) && decide (4 * e.2.rated < 1000 * e.2.iSt)]

/-- REASON of a refused set: the position 1 to 9 of the failed case, 0 for a set that is accepted (R176, PRSM_PROP). -/
def setReason (c : PrismCfg) : Nat :=
  let i := (setCases c).findIdx fun (b : Bool) => b
  if i < 9 then i + 1 else 0

/-- The set last adopted, be it in effect or waiting for its aggregation boundary (R198, R202). -/
def Prism.lastSet (p : Prism) : PrismCfg := p.adopting.getD p.cfg

/-- A set adopted at its reading: change counters, the ring record of TYPE 4h, and for M0–M3 a seal entry (R199, R215, R216); it and the set
before it stand in the Configuration area (R202). -/
def Prism.adoptSet (p : Prism) (c : PrismCfg) (raw : List Byte) : Prism :=
  let changed := (List.range 16).filter fun k => meterChanged p.lastSet c k
  let p := { p with
    adopting := some c, cfgPrev := p.lastSet
    meters := (List.range 16).map fun k =>
      let x := p.meter k
      if changed.contains k then { x with cfgCnt := x.cfgCnt + 1 } else x }
  let first := changed.any fun (k : Nat) => decide (k < 4)
  let p := if first then p.appendSeal 2 raw else p
  let tail := if first then BitVec.ofNat 64 (p.chain.length - 1) :: 0 :: hashWords (headHash p.chain) else []
  p.putRing (recWord0 4 0 0 0 :: tail)

/-- The outcome of the proposal in the buffer: RESULT and REASON (R176, R210, R215). DESIGN CHOICE (log 159): R210 speaks of one boundary; where
the blocks of meters end at different samples, an alignment is refused if it would move that of any meter in use by more than 144,000. -/
def Prism.judgeProposal (p : Prism) : Nat × Nat :=
  match p.proposal with
  | none => (p.propResult, p.propReason)
  | some (.inl raw) =>
    let c := parseSet raw
    let r := setReason c
    if r ≠ 0 then (2, r)
    else if ((List.range 4).any fun k => meterChanged p.lastSet c k) && !p.sealRoom 2 then (3, 0)
    else (1, 0)
  | some (.inr at32) =>
    let left := (at32.toNat + 2 ^ 32 - p.sample) % 2 ^ 32
    let ok := (List.range 16).all fun k =>
      let b := (p.meter k).block
      let new := b.length + left
      !(p.cfg.m k).used || !p.alignSeen || decide (new ≤ b.target + 144000 ∧ b.target ≤ new + 144000)
    (if ok then 1 else 2, 0)

/-- An alignment adopted: every block in progress takes the length that ends it at the sample named (R210). -/
def Prism.align (p : Prism) (at32 : W32) : Prism :=
  let left := (at32.toNat + 2 ^ 32 - p.sample) % 2 ^ 32
  { p with
    alignSeen := true
    meters := p.meters.map fun (x : Meter) =>
      let new := x.block.length + left
      if new = x.block.target then x else { x with block := { x.block with target := new }.flagBit 9 true } }

/-- The proposal's effect once judged. -/
def Prism.applyProposal (p : Prism) (result reason : Nat) : Prism :=
  let q := { p with propResult := result, propReason := reason, proposal := none }
  match p.proposal with
  | some (.inl raw) => if result = 1 then q.adoptSet (parseSet raw) raw else q
  | some (.inr n) => if result = 1 then q.align n else q
  | none => q

/-- The commands that wait for a proposal's final RESULT complete (R391). -/
def finishProposals (s : State) : State :=
  let p := s.prsm
  s.mbx.slots.foldl (fun (s : State) (x : Slot) =>
    if x.wait = .prism then
      s.complete x 0 0 [BitVec.ofNat 8 p.propSeq, BitVec.ofNat 8 p.propResult, BitVec.ofNat 8 p.propReason, 0]
    else s) s

/-- PROPOSAL_READ (R215): the PE judges the proposal whole and publishes its RESULT. -/
def proposalRead (s : State) : State :=
  if s.prismUp = false ∨ s.prsm.proposal.isNone then s
  else
    let r := s.prsm.judgeProposal
    let n := s.prsm.chain.length
    finishProposals ((noteSeal n (s.publish (s.prsm.applyProposal r.1 r.2))).setSQ 7 2)

/-- A proposal written to the buffer (R215). -/
def State.writeProposal (s : State) (kind : Nat) (x : Sum (List Byte) W32) : State :=
  s.publish { s.prsm with proposal := some x, propSeq := (s.prsm.propSeq + 1) % 256, propKind := kind,
                           propResult := 0, propReason := 0 }

/-- ALIGNMENT_PROPOSAL (R210): while the calendar is trusted and the Carousel is LOCKED or in HOLDOVER; a proposal while
RESULT is pending does not reach the buffer (R215). `trusted` is RTC_STATUS' answer. -/
def alignmentProposal (trusted : Bool) (n : W32) (s : State) : State :=
  if s.isMr ∧ trusted ∧ (s.crsl.sync = .locked ∨ s.crsl.sync = .holdover) ∧ s.prsm.propResult ≠ 0 then
    s.writeProposal 1 (.inr n)
  else s

/-- PRISM_PROPOSE (R391, R215): from a session of booth 0 only (R197). -/
def cmdPrismPropose (h : Hdr) (set : List Byte) (s : State) : State :=
  runCmd h { opcode := 0x0601, maxData := 4, absent := !s.isMr, denied := decide (s.boothOf h ≠ 0),
             bad := if set.length = 816 then none else some 0,
             busy := if s.prsm.propResult = 0 then some (s.drawn.toNat % 65536) else none, changes := true }
    (fun s => .later .prism (s.writeProposal 0 (.inl set))) s

/-! ### The mirror (R222, R223) -/

/-- PRSM_MSTATm of a meter. -/
def Prism.mstat (p : Prism) (k : Nat) : W32 :=
  let m := p.cfg.m k
  let x := p.meter k
  if m.used = false then 0
  else
    let reg := p.registers x
    flagAt (decide (k < 4) && reg && !p.sealOk) 11 ||| flagAt (decide (m.wiring = 3)) 10 ||| flagAt x.vLoss 9 |||
    flagAt x.clip 8 ||| flagAt p.feFault 7 ||| flagAt x.settle 6 ||| flagAt (!x.run) 5 ||| flagAt reg 4 |||
    flagAt (decide (m.cls = 1)) 3 ||| place (m.wiring % 4) 0

/-- The floor demand in W: the mean of D over the last 16,000 samples, rounded half away from zero (R192). -/
def Prism.demandW (p : Prism) : Int := roundQ (p.demWindow.sum * 18) (5 * 2 ^ 32)

/-- The validity of the published demand (R193). -/
def Prism.demandOk (p : Prism) : Bool :=
  decide (16000 ≤ p.demSince) && (List.range 16).all fun k =>
    let f := (p.cfg.m k).floor
    !(p.cfg.m k).used || (f != 1 && f != 2) || (!p.feFault && !(p.meter k).vLoss)

/-- The energy registers written whole to the mirror. -/
def mirrorEnergy (s : State) : State :=
  (List.range 128).foldl (fun (s : State) j =>
    s.setPair (0x3900 + 0x40 * (j / 8) + 8 * (j % 8)) ((s.prsm.meter (j / 8)).reg.getD (j % 8) 0)) s

/-- Page 1 of the window: per-phase energies and demand (R225). -/
def Prism.pageOne (p : Prism) : Sparse W32 :=
  (List.range 48).foldl (fun (mv : Sparse W32) j =>
    let x := p.meter (j / 3)
    let imp := x.preg.getD (2 * (j % 3)) 0
    let exp := x.preg.getD (2 * (j % 3) + 1) 0
    putMval mv (j / 3) (j % 3) 1 [(0, (imp : Int)), (1, (imp / 2 ^ 32 : Nat)), (2, exp), (3, (exp / 2 ^ 32 : Nat)),
      (4, x.demImp), (5, x.demExp), (6, x.blockSeq), (7, x.cfgCnt)]) p.mval

/-- MIRROR_REFRESH (R192, R222): demand, meter status, energy registers, save sequence and SAMPLE_CNT. -/
def mirrorRefresh (s : State) : State :=
  if s.prismUp = false ∨ s.sys.powered = false then s
  else
    let p := s.prsm
    let s := s.setReg 0x3808 (BitVec.ofInt 32 p.demandW)
    let s := s.setReg 0x380C (flagAt p.demandOk 31)
    let s := s.setReg 0x3810 (BitVec.ofNat 32 ((p.newestSave.map (·.seq)).getD 0))
    let s := s.setReg 0x3814 (BitVec.ofNat 32 p.sample)
    let s := (List.range 16).foldl (fun (s : State) k => s.setReg (0x3840 + 4 * k) (p.mstat k)) s
    let s := mirrorEnergy s
    s.setPrism { s.prsm with mval := p.pageOne, mirrorOk := true, seen := true, seenLog := true, ageSince := s.crsl.upNs }

/-- MIRROR_LOST (R223): no refresh for 250 ms, be it since the last one or since a start with none. -/
def mirrorLost (s : State) : State :=
  if s.isMr = false then s
  else
    let s := s.setFld 0x380C 31 31 0
    (s.setPrism { s.prsm with mirrorOk := false }).setSQ 7 5

/-- The views of the mirror registers, as a module reads them that has seen a refresh of their group since its cold start (R222): the seal,
ring and proposal registers at a change or partition start, or with the first refresh of the others (DEDUCED, log 148). -/
def State.prsmView (s : State) (off : Nat) : W32 :=
  let p := s.prsm
  if s.parityHeld 7 then 0
  else if off = 0x3804 then
    if p.seen = false then 0
    else place p.startCnt 16 ||| place p.restore 6 ||| flagAt p.saveLost 5 ||| flagAt p.feFault 4 |||
      flagAt (decide (p.cfg.fnom = 60)) 1 ||| flagAt true 0
  else if inFam off 0x3884 4 15 then
    let sel := s.reg 0x3880
    let ph := bits sel 5 4
    if ph = 3 then 0 else sget 0 p.mval (mvalKey (bits sel 3 0) ph (bits sel 8 8) ((off - 0x3884) / 4))
  else if p.seenLog = false then 0
  else if off = 0x3818 then
    place p.chain.length 16 ||| flagAt (decide (256 ≤ p.chain.length)) 2 ||| flagAt p.metEn 1 ||| flagAt p.sealOk 0
  else if off = 0x381C then BitVec.ofNat 32 p.sealBrk
  else if inFam off 0x3820 4 8 then BitVec.ofNat 32 (leAt (headHash p.chain) (off - 0x3820) 4)
  else if off = 0x38C0 then
    place p.propSeq 24 ||| place p.propKind 20 ||| place (p.propResult % 4) 16 ||| place p.propReason 8
  else if off = 0x38C4 then place (p.ringRead % 4096) 16 ||| place (p.ringCount % 4096) 0
  else 0

/-- PRISM_READ (R391). -/
def cmdPrismRead (h : Hdr) (m : Nat) (s : State) : State :=
  runCmd h { opcode := 0x0602, maxData := 72, absent := !s.isMr, denied := !s.landlord h,
             bad := if m < 16 then none else some 0 }
    (fun s =>
      let ws := (List.range 16).map fun j => s.reg (0x3900 + 0x40 * m + 4 * j)
      okRes (bytesOf32 (ws ++ [s.reg (0x3840 + 4 * m), sget 0 s.prsm.mval (mvalKey m 0 1 6)])) s) s

/-! ### Forwarding (R214) -/

/-- Ring records overwritten before they were read: the reader resumes at the oldest present. -/
def State.ringGap (s : State) : State :=
  let p := s.prsm
  if p.ringRead + 4096 < p.ringCount then
    (s.setPrism { p with ringRead := p.ringCount - 4096 }).reportBare .warn 7 1 0xFF
  else s

/-- RING_FORWARD (R213, R214): the next unread record appended to Q26 with its trailer; it stays unread while Q26 has no
room. -/
def ringForward (s : State) : State :=
  if s.isMr = false ∨ s.prsm.seenLog = false ∨ s.sys.run = .starting then s
  else
    let s := s.ringGap
    let p := s.prsm
    if p.ringRead < p.ringCount ∧ s.qRoom 26 14 then
      let ws := sget [] p.ring (p.ringRead % 4096)
      let s := s.produce 26 (ws ++ [s.phaseStamp.setWidth 64])
      s.setPrism { s.prsm with ringRead := s.prsm.ringRead + 1 }
    else s

/-! ### Saves and power (R202 to R208) -/

/-- A snapshot begun in a slot: what stood there is being overwritten (R203). -/
def Prism.beginSave (p : Prism) (slot : Nat) : Prism :=
  { p with
    saves := lmod p.saves slot fun _ => none
    savePend := some (slot, { seq := p.saveSeq + 1, startCnt := p.startCnt, sample := p.sample, meters := p.meters }) }

/-- PERIODIC_SAVE (R204), not during early warning (R205). -/
def periodicSave (s : State) : State :=
  s.onPrism fun p => if p.early ∨ p.savePend.isSome then p else p.beginSave p.nextP

/-- RESIDUAL_SAVE (R205): on its own early warning the PE abandons a periodic write and snapshots at once. -/
def residualSave (s : State) : State :=
  s.onPrism fun p => if p.early then p else { p with early := true }.beginSave p.nextF

/-- PRISM_SAVE_COMPLETE (R203, R205): the CRC reads back correct; during early warning the next snapshot begins. -/
def prismSaveComplete (s : State) : State :=
  s.onPrism fun p =>
    match p.savePend with
    | none => p
    | some (slot, v) =>
      let p := { p with
        saves := lmod p.saves slot fun _ => some v
        saveSeq := v.seq, savePend := none
        nextP := if slot < 2 then 1 - slot else p.nextP
        nextF := if slot < 2 then p.nextF else 5 - slot }
      if p.early then p.beginSave p.nextF else p

/-- PRISM_SUPPLY_RETURN (R206). -/
def prismSupplyReturn (s : State) : State := s.onPrism fun p => { p with early := false }

/-- The partition's supply fails: a save in progress is lost. -/
def prismPowerLoss (s : State) : State :=
  s.setPrism { s.prsm with powered := false, running := false, savePend := none, early := false }

/-- The kind and bound of a power-fail record (R207); `open0` stands for the bound where there is none. -/
def Prism.restoreKind (p : Prism) (v : Option Save) (open0 : Nat) : Nat × Nat :=
  match v with
  | none => (2, open0)
  | some v =>
    if (p.saves.drop 2).any fun (x : Option Save) => (x.map (·.seq)) == some v.seq then (0, 32) else (1, 4000)

/-- The intact interval records of a meter still in the ring, oldest first: their CRC holds (R213). -/
def Prism.intervals (p : Prism) (k : Nat) : List (List W64) :=
  ((List.range 4096).map fun j => sget [] p.ring ((p.ringCount + j) % 4096)).filter fun (ws : List W64) =>
    let w0 := (ws.getD 0 0).toNat
    decide (ws = ringRecord ws) && decide (w0 / 2 ^ 60 = 1 ∧ w0 / 2 ^ 56 % 16 = k)

/-- The registers rebuilt under metrology access (R208), total and per phase, from the intact interval records of each meter. -/
def Prism.rebuild (p : Prism) : Prism :=
  { p with
    saveLost := false
    meters := (List.range 16).map fun k =>
      let x := p.meter k
      let l := p.intervals k
      let reg := (List.range 8).map fun q => Config.impliedEnd l q
      { x with reg, preg := (List.range 6).map fun q => Config.impliedEnd l (8 + q)
               block := { x.block with base := reg } } }.sealEvent 5 []

/-- Metrology access at a start (R218, R219): the seal broken before a change is applied, then a re-seal or a recovery
where the package asks for it. -/
def Prism.metrology (p : Prism) (metEn : Bool) (package : Option (List Byte)) : Prism :=
  match package with
  | none => p
  | some b =>
    if metEn && Config.metrologyOk b then
      let d := Config.metrologyDoes b
      let p := if d.1 then
          let q := p.sealBreak
          let n := Config.metrologyApplied b q.fwMark q.calMark
          { q with fwMark := n.1, calMark := n.2 }
        else p
      let p := if d.2.1 then p.sealEvent 4 p.testMark else p
      if d.2.2 && p.saveLost then p.rebuild else p
    else p

/-- The blocks of the restored save closed at its snapshot with PARTIAL and PF_GAP, those of the meters the set of that time had in use,
and new ones begun with PARTIAL, and with CFG_CHG where a set takes effect with the start (R211). -/
def Prism.closeRestored (p : Prism) (old : PrismCfg) (open0 : W64) : Prism :=
  let p := (List.range 16).foldl (fun (p : Prism) k =>
    if (old.m k).used then p.closeBlock k 3 open0
    else { p with meters := lmod p.meters k fun (x : Meter) =>
      { x with block := { startCnt := p.startCnt, startSample := p.sample, base := x.reg } } }) p
  { p with meters := p.meters.mapIdx fun k (x : Meter) =>
      { x with block := (x.block.flagBit 0 true).flagBit 5 (blockChanged old p.cfg k) } }

/-- The state a partition start works from: volatile state cleared, the newest complete save restored (R172, R173,
R207); without one, registers of open value that register nothing (R208). The set in the Configuration area is the one last adopted
(R202), in effect from this start. -/
def Prism.restoreSave (p : Prism) (s : State) : Prism :=
  let v := p.newestSave
  let lost := p.saveLost || v.isNone
  let cfg := p.adopting.getD p.cfg
  let meters := match v with
    | some v => v.meters
    | none => (List.range 16).map fun k =>
        let reg := (List.range 8).map fun q => (s.drawnFor (300 + 8 * k + q)).toNat
        let old := p.meter k
        ({ reg, preg := (List.range 6).map fun q => (s.drawnFor (500 + 8 * k + q)).toNat
           rem := (List.range 8).map fun q => (s.drawnFor (700 + 8 * k + q)).toNat % 2 ^ 32
           prem := (List.range 6).map fun q => (s.drawnFor (900 + 8 * k + q)).toNat % 2 ^ 32
           blockSeq := old.blockSeq, demImp := old.demImp, demExp := old.demExp
           block := { startCnt := (p.startCnt + 1) % 65536, base := reg, flags := 1 } } : Meter)
  let q : Prism := { p with
    powered := true, running := true, saveLost := lost, restore := (p.restoreKind v 0).1
    cfg
    frames := [], lastCodes := [], aligned := [], fast := {}, tenS := {}, fastMhz := none, classS := none
    refLow := false, refV := 0, badRun := 0, goodRun := 0, feFault := false, chClipNow := [], chClip := [], tenTick := p.tick
    window := cfg.w0, windowNext := cfg.w0, demWindow := [], demSince := 0, aggSamples := 0
    savePend := none, early := false, alignSeen := false, adopting := none
    saveSeq := (v.map fun (x : Save) => x.seq).getD p.saveSeq }.resetRog (List.range 32)
  { q with meters := (List.range 16).map fun k =>
      { meters.getD k {} with
          settle := cfg.rogowski k
          run := (meters.getD k {}).run && (p.cfg.m k).used && (cfg.m k).used
          below := 0, clip := false, vLoss := false, accP := [0, 0, 0], accQ := [0, 0, 0]
          cfgCnt := (p.meter k).cfgCnt } }

/-- PRISM_START (R207, R208, R211, R218, R219): the supply of the partition has returned after a failure. -/
def prismStart (metEn : Bool) (package : Option (List Byte)) (s : State) : State :=
  if s.isMr = false ∨ s.prsm.powered then s
  else
    let p0 := s.prsm
    let v := p0.newestSave
    let kb := p0.restoreKind v ((s.drawnFor 201).toNat % 2 ^ 32)
    let before := p0.chain.length
    let p := p0.restoreSave s
    let p := { p with startCnt := (p0.startCnt + 1) % 65536, sample := 0, metEn }
    let p := if v.isSome then p.closeRestored p0.cfg (s.drawnFor 200) else p
    let word4 : W64 := BitVec.ofNat 64 ((v.map fun (x : Save) => x.startCnt * 2 ^ 48 + x.sample).getD 0)
    let p := p.putRing [recWord0 2 0 0 0, BitVec.ofNat 64 (p.startCnt * 2 ^ 48), BitVec.ofNat 64 (kb.2 * 2 ^ 32 + kb.1),
      BitVec.ofNat 64 ((v.map (·.seq)).getD 0 % 2 ^ 32), word4]
    let p := p.metrology metEn package
    let p := if p.sealMatches then { p with sealOk := true } else { p.sealBreak with sealOk := false }
    (noteSeal before (s.publish p)).setSQ 7 4

end Sys2Proof.Machine
end

