-- ==== Sys2Proof/Machine/Trapeze.lean ====
section
/-! DEFINITION. Redundant pairs (chapter 15, R400 to R421): heartbeats, witnesses, take-over, yielding, and the 0A00h commands. -/

namespace Sys2Proof.Machine

/-- ROLE of TRAP_STATE (R401). -/
def Role.num : Role → Nat
  | .off => 0
  | .starting => 1
  | .primary => 2
  | .syncing => 3
  | .standby => 4
  | .deciding => 5
  | .catching => 6
  | .isolated => 7

/-- The pair record replaced. -/
def State.setTrap (s : State) (t : Trap) : State := { s with trap := t }

/-- The role changed. -/
def State.setRole (s : State) (r : Role) : State := s.setTrap { s.trap with role := r }

/-- PAIR_ID in effect. -/
def State.pairId (s : State) : Nat := s.fld 0x7800 31 16

/-- The member is paired. -/
def State.paired (s : State) : Bool := decide (s.trap.role ≠ .off)

/-- The partner's last heartbeat shows a STANDBY that is fit (R416). -/
def State.fitStandby (s : State) : Bool :=
  match s.trap.partner with
  | some p => decide (p.role = 4) && !p.unfit && decide (s.trap.bothMissed < 5)
  | none => false

/-- A Commit of grants takes place: on an unpaired module, on a primary up to the boundary at which it relinquishes, on a standby for mirror
compare, and on a catcher that has sent its CLAIM (R409, R415, R416). -/
def State.commits (s : State) : Bool :=
  match s.trap.role with
  | .off => true
  | .primary => s.trap.relinquish.all fun b => decide (s.rev ≤ b)
  | .standby => true
  | .catching => s.trap.claimed
  | .starting => false
  | .syncing => false
  | .deciding => false
  | .isolated => false

/-! ### Frames of the pair (R405, R412, R415) -/

/-- Ethertype 88B5h frame on a port; on the ring it is tagged with RING_VID and PCP 7. -/
def State.pairFrame (s : State) (ring : Bool) (dest : Nat) (payload : List Byte) : List Byte :=
  let tag := if ring then beBytes 2 0x8100 ++ beBytes 2 (0xE000 + s.fld 0x7800 12 1) else []
  let src := s.fuse.mac.toNat + (if ring then 0 else 1)
  let body := beBytes 6 dest ++ beBytes 6 src ++ tag ++ beBytes 2 0x88B5 ++ payload
  body ++ List.replicate (60 - body.length) 0

/-- A payload sent on both ring ports. -/
def State.sendRing (s : State) (dest : Nat) (payload : List Byte) : State :=
  let f := s.pairFrame true dest payload
  (s.send 0 f).send 1 f

/-- The heartbeat payload of a boundary (R405). -/
def State.heartbeatBytes (s : State) (pairRev : Nat) : List Byte :=
  let t := s.trap
  let b := leBytes 2 s.pairId ++ [BitVec.ofNat 8 (t.member.toNat * 128 + t.role.num),
    BitVec.ofNat 8 (s.ctrlOk.toNat + 2 * (t.relinquish.any fun b => decide (b ≤ s.rev)).toNat + 4 * t.unfit.toNat)] ++
    leBytes 4 t.epoch.toNat ++ leBytes 8 pairRev ++ leBytes 4 t.syncSent ++ leBytes 4 t.syncSeen
  b ++ leBytes 4 (crc32 b).toNat

/-- Heartbeats of a boundary on NET-P and on the ring, unless IOE-NET is out of service (R405, R488). The spec gives no address
for the time before the partner's is learnt. -/
def State.sendHeartbeats (s : State) : State :=
  let b := s.heartbeatBytes s.pairRev
  let dest := (s.trap.partnerMac.getD ((s.drawnFor 9300).setWidth 48)).toNat
  if s.paired = false ∨ s.sys.ioeBad.getLsbD 3 then s
  else (s.send 2 (s.pairFrame false dest b)).sendRing dest b

/-- The 8 bytes of a query or CLAIM: PAIR_ID, MEMBER, 00h, EPOCH (R412, R415). -/
def State.pairBytes (s : State) : List Byte :=
  leBytes 2 s.pairId ++ [BitVec.ofNat 8 s.trap.member.toNat, 0] ++ leBytes 4 s.trap.epoch.toNat

/-- A classical pair frame put on every enabled bus and on the ring. -/
def State.sendPair (s : State) (ident : BitVec 29) : State :=
  let f : CanFrame := { ide := false, fdf := false, brs := false, remote := false, dlc := 8, ident, data := s.pairBytes }
  let bus := (List.range 4).map fun b => if s.flag 0x5800 (8 + b) then { s.cbus b with pairSent := some f } else s.cbus b
  let s : State := { s with can := { s.can with bus } }
  s.sendRing 0xFFFFFFFFFFFF s.pairBytes

/-- A witness query (R412): the replies of the last one are forgotten. -/
def State.query (s : State) : State :=
  ((s.setTrap { s.trap with replies := [], barred := false }).sendPair 0x014).count 0x78A0 1

/-! ### Roles -/

/-- DECIDING entered (R406, R418): TAKEOVER, counted, and the first query sent. -/
def State.enterDeciding (s : State) : State :=
  (((s.setTrap { s.trap with role := .deciding, decideNs := s.crsl.upNs }).reportBare .warn 15 2 0xFF).count 0x789C 1).query

/-- CAN_OUT and NET_OUT points carry QUALITY 01h through the gap (R415). -/
def State.gapQuality (s : State) : State :=
  if s.tableFree then
    (s.pnt.points.filter fun (e : Nat × PRec) => decide (11 ≤ e.2.src.toNat ∧ e.2.src.toNat ≤ 12) && e.2.quality.toNat < 0x80).foldl
      (fun (s : State) e => s.setQuality e.1 1 s.phaseStamp) s
  else s

/-- CATCHING entered in revolution d (R415 step 1). -/
def State.enterCatching (s : State) : State :=
  (s.setTrap { s.trap with role := .catching, journalled := false, claimed := false, catchRev := s.rev }).gapQuality

/-- The last calls of timers in the pair revolution numbers of a new TRAP_DELTA (R402): the time between calls stays what it was. -/
def State.shiftTimers (s : State) (k : Int) : State :=
  if k = 0 then s
  else { s with prg := { s.prg with active := s.prg.active.map fun (e : Nat × Image) =>
          (e.1, { e.2 with syms := e.2.syms.map fun (x : Sym) => { x with lastCall := ((x.lastCall : Int) + k).toNat } }) } }

/-- The services of a member that stops driving: its tunnelled sessions, its subscriptions and its BACnet/SC connections are lost (R404,
R415). -/
def State.dropServices (s : State) : State :=
  let s := (List.range 4).foldl (fun (s : State) i => s.tunnelClose i) s
  { s with net := { s.net with subs := [], sc := s.net.sc.map fun (e : Nat × ScNode) => (e.1, { e.2 with connected := false }) } }

/-- SYNCING entered, Spotlight tests ended (R125): TRAP_DELTA is the pair number in the partner's heartbeat less the own counter of the boundary it came after
(R402, R408). -/
def State.enterSyncing (s : State) : State :=
  let delta := match s.trap.partner with
    | some p => (p.pairRev.toNat : Int) - s.trap.partnerRev
    | none => s.trap.delta
  let s := ((s.shiftTimers (delta - s.trap.delta)).dropServices).endSpots 5
  s.setTrap { s.trap with role := .syncing, delta, joined := 0, based := false, relinquish := none, yieldDue := false,
                          journalled := false, claimed := false, mcRuns := [], moved := [], out := {} }

/-- A primary that met a higher EPOCH yields (R417): DUAL and a CRITICAL now, the rest at the next boundary. -/
def State.yieldPair (s : State) : State :=
  if s.trap.yieldDue then s else (s.setTrap { s.trap with yieldDue := true }).reportBare .critical 15 7 0xFF

/-- A higher EPOCH seen from the partner (R416, R417): a member that has handed over is STANDBY, its Spotlight tests ended (R125). -/
def State.higherEpoch (s : State) (e : W32) : State :=
  let t := s.trap
  if t.role = .primary then
    if t.relinquish.isSome then
      let s := s.dropServices.endSpots 5
      s.setTrap { s.trap with role := .standby, relinquish := none, epoch := e, based := true, lastSyncRev := s.pairRev, mcRuns := [],
                              moved := [], out := {} }
    else s.yieldPair
  else s.setTrap { t with epoch := e }

/-! ### Heartbeats (R405, R406) -/

/-- A heartbeat counts as received (R405). -/
def State.hbCounts (s : State) (hb : Heartbeat) : Bool :=
  s.paired && hb.checkOk && decide (hb.pairId.toNat = s.pairId) && decide (hb.member ≠ s.trap.member)

/-- A path's counts after a heartbeat on it: a lost path is up after 10 in a row (R406). -/
def State.hbPath (s : State) (ring : Bool) : State :=
  let t := s.trap
  if ring then
    let up := if t.lostR then t.upR + 1 else 0
    (s.setTrap { t with heardR := true, upR := if 10 ≤ up then 0 else up, lostR := t.lostR && decide (up < 10) }).count 0x7884 1
  else
    let up := if t.lostP then t.upP + 1 else 0
    (s.setTrap { t with heardP := true, upP := if 10 ≤ up then 0 else up, lostP := t.lostP && decide (up < 10) }).count 0x7880 1

/-- What a heartbeat's content does to the role (R402, R413, R416, R417). -/
def State.hbActs (s : State) (hb : Heartbeat) : State :=
  let t := s.trap
  let higher := decide (t.epoch.toNat < hb.epoch.toNat)
  if t.role = .primary then
    if higher then s.higherEpoch hb.epoch
    else if hb.role = 2 ∧ hb.epoch = t.epoch ∧ t.member then s.yieldPair
    else s
  else
    let s := if higher ∧ t.role ≠ .starting then s.higherEpoch hb.epoch else s
    if t.role = .isolated then s.enterSyncing
    else if t.role = .standby ∧ hb.relinquish ∧ t.unfit = false then s.enterCatching
    else s

/-- HEARTBEAT_RECEIVE (R405): it teaches the partner's module address; NET-P uses that address plus 1 (NET_MAC). -/
def heartbeatReceive (ring : Bool) (hb : Heartbeat) (s : State) : State :=
  if s.hbCounts hb = false then s
  else
    let s := s.hbPath ring
    let mac := if ring then hb.source else hb.source - 1
    (s.setTrap { s.trap with partner := some hb, partnerRev := s.rev - 1, partnerMac := some mac,
                             joinSent := s.trap.joinSent && decide (hb.role = 3) }).hbActs hb

/-- Missed revolutions counted at a boundary (R406). -/
def State.countMisses (s : State) : State :=
  let t := s.trap
  let s := if t.heardP then s else s.count 0x7888 1
  let s := if t.heardR then s else s.count 0x788C 1
  s.setTrap { s.trap with
    missP := if t.heardP then 0 else t.missP + 1
    missR := if t.heardR then 0 else t.missR + 1
    upP := if t.heardP then t.upP else 0
    upR := if t.heardR then t.upR else 0
    bothMissed := if t.heardP ∨ t.heardR then 0 else t.bothMissed + 1
    heardP := false, heardR := false }

/-- HB_LOST (R406): a path missed in 3 consecutive revolutions. -/
def hbLost (ring : Bool) (s : State) : State :=
  let t := s.trap
  if s.paired = false then s
  else if ring then
    if 3 ≤ t.missR ∧ t.lostR = false then (s.setTrap { t with lostR := true, upR := 0 }).reportBare .warn 15 0 0xFF else s
  else if 3 ≤ t.missP ∧ t.lostP = false then (s.setTrap { t with lostP := true, upP := 0 }).reportBare .warn 15 0 0xFF
  else s

/-- TAKEOVER (R406): both paths missed in the same 5 revolutions. -/
def takeover (s : State) : State :=
  if s.trap.bothMissed < 5 then s
  else match s.trap.role with
    | .standby => s.enterDeciding
    | .primary => s.reportBare .warn 15 3 0xFF
    | .off => s
    | .starting => s
    | .syncing => s
    | .deciding => s
    | .catching => s
    | .isolated => s

/-! ### Health of the partner (R411) -/

/-- PARTNER_STALE (R411): 3 s after the last report. -/
def partnerStale (s : State) : State :=
  if s.trap.role = .primary ∧ s.trap.healthNs + 3000000000 ≤ s.crsl.upNs + s.periodNs then (s.setTrap { s.trap with health := none }).setSQ 15 4 else s

/-! ### Witnesses (R412, R413) -/

/-- WIT_SIL in ms. -/
def State.witSil (s : State) : Nat := s.fld 0x7818 15 0

/-- A reply is confirming (R413). -/
def State.confirms (s : State) (r : WitnessRep) : Bool :=
  decide (r.epoch = s.trap.epoch ∨ r.epoch = 0) && decide (s.witSil ≤ r.silence)

/-- A reply is barring (R413). -/
def State.bars (s : State) (r : WitnessRep) : Bool := decide (s.trap.epoch.toNat < r.epoch.toNat)

/-- WITNESS_REPLY (R413); an UNFIT member does not take over (R410). -/
def witnessReply (r : WitnessRep) (s : State) : State :=
  if s.trap.role ≠ .deciding ∧ s.trap.role ≠ .isolated then s
  else
    let s := s.setTrap { s.trap with replies := s.trap.replies ++ [r] }
    if s.bars r then
      let s := s.count 0x78A8 1
      s.setTrap { s.trap with barred := true, role := .isolated }
    else if s.confirms r then
      let s := s.count 0x78A4 1
      if s.trap.unfit ∨ (s.trap.role = .isolated ∧ s.trap.barred) then s else s.enterCatching
    else s

/-- WITNESS_RETRY (R413). -/
def witnessRetry (s : State) : State := if s.trap.role = .deciding then s.query else s

/-- WITNESS_WAIT_EXPIRY (R413): WIT_WAIT ms after DECIDING began. -/
def witnessWaitExpiry (s : State) : State :=
  if s.trap.role = .deciding ∧ s.trap.decideNs + s.fld 0x7818 31 16 * 1000000 ≤ s.crsl.upNs + s.periodNs then s.setRole .isolated else s

/-- ISOLATED_QUERY (R413). -/
def isolatedQuery (s : State) : State := if s.trap.role = .isolated then s.query else s

/-! ### Take-over and yielding (R415 to R418) -/

/-- The network side of a take-over: the frames of each interface and the I-Am of each virtual device (R337, R415 step 3). -/
def State.announceSelf (s : State) : State :=
  let ifs := (s.net.ifs.filter fun (e : Nat × List W32) => ifValid e.2).map (·.2)
  let fs := ifs.flatMap fun e => (Config.takeoverFrames e).map fun f => padFrame (onVid (ifVid e) f)
  s.sendRings (fs ++ (List.range 255).flatMap s.iAm)

/-- Spotlight tests and armed exchanges end at a switch-over (R125, R157, R415 step 4). -/
def State.endForSwitch (s : State) : State :=
  let s := s.endSpots 5
  s.swbAbortAll

/-- A catcher's CLAIM on every bus and on the ring, and what R415 has it do from revolution d + 1 on (steps 2 to 4). -/
def State.claim (s : State) : State :=
  ((s.setTrap { s.trap with claimed := true }).sendPair 0x015).announceSelf.endForSwitch

/-- EPOCH_JOURNALED (R415, R418): EPOCH + 1 stands in FRAM; a catcher's CLAIM goes out, in revolution d only at its end, and a founding
member is PRIMARY. -/
def epochJournaled (s : State) : State :=
  let t := s.trap
  if t.role = .starting ∧ t.founding then
    (s.setTrap { t with epoch := t.epoch + 1, founding := false, journalled := true, role := .primary, delta := 0 })
  else if t.role = .catching ∧ t.journalled = false then
    let s := s.setTrap { t with epoch := t.epoch + 1, journalled := true }
    if t.catchRev < s.rev then s.claim else s
  else s

/-- The first Commit of a catcher ends the take-over (R415 step 5). -/
def State.endCatch (s : State) : State :=
  if s.trap.role = .catching ∧ s.trap.claimed then
    (((s.setTrap { s.trap with role := .primary, lastSw := some s.rev }).reportBare .note 15 1 0xFF).count 0x78AC 1)
  else s

/-- CLAIM_RECEIVE (R416, R417). -/
def claimReceive (pairId : BitVec 16) (member : Bool) (epoch : W32) (s : State) : State :=
  if s.paired ∧ pairId.toNat = s.pairId ∧ member ≠ s.trap.member ∧ s.trap.role ≠ .starting ∧ s.trap.epoch.toNat < epoch.toNat then
    s.higherEpoch epoch
  else s

/-- STARTING_LISTEN_END (R418): 50 revolutions after the start, the next role by what was heard. -/
def startingListenEnd (s : State) : State :=
  if s.trap.role ≠ .starting ∨ s.trap.founding ∨ s.rev < s.trap.listenRev + 50 then s
  else match s.trap.partner with
    | some p =>
      if p.role = 2 then s.enterSyncing
      else if p.role = 1 then
        if p.epoch.toNat < s.trap.epoch.toNat ∨ (p.epoch = s.trap.epoch ∧ s.trap.member = false) then
          s.setTrap { s.trap with founding := true }
        else s.enterSyncing
      else s.enterDeciding
    | none => s.enterDeciding

/-- What a boundary does for a pair member (R406, R415, R417): misses counted, a yield carried out, a CLAIM due sent. -/
def State.pairBoundary (s : State) : State :=
  if s.paired = false then s
  else
    let s := s.countMisses
    let s := if s.trap.yieldDue then s.swbAbortAll.enterSyncing else s
    let s := if s.trap.role = .catching ∧ s.trap.journalled ∧ s.trap.claimed = false then s.claim else s
    let second := s.rev - s.revsOfMs 1000
    s.setTrap { s.trap with mcTimes := s.trap.mcTimes.filter fun (r : Nat) => decide (second ≤ r) }

/-- A primary with a fit standby relinquishes at boundary n (R416); its armed exchanges abort (R157). -/
def State.relinquishAt (s : State) (n : Nat) : State :=
  if s.trap.role = .primary ∧ s.fitStandby then s.swbAbortAll.setTrap { s.trap with relinquish := some n } else s

/-- A primary whose control domain stops hands over to a fit standby at that boundary (R416). -/
def State.relinquishOnStop (s : State) : State := s.relinquishAt s.rev

/-- The BIST slice of a standby's Housekeeping (R410). -/
def State.bistSlice (s : State) (failed : Bool) : State :=
  if s.trap.role ≠ .standby then s
  else
    let t := s.trap
    let s := s.setTrap { t with bistNext := (t.bistNext + 1) % 5760, passed := t.passed + (!failed).toNat,
                                failed := t.failed + failed.toNat }
    if failed then ((s.setTrap { s.trap with unfit := true }).reportBare .fault 15 5 0xFF).count 0x78B8 1
    else s.count 0x78B4 1

/-! ### Registers and commands -/

/-- TRAP_STATE. -/
def State.trapState (s : State) : W32 :=
  place s.trap.role.num 28 ||| (s.reg 0x7808 &&& fieldMask 27 27) ||| flagAt s.trap.unfit 26

/-- TRAP_HB. -/
def State.trapHb (s : State) : W32 :=
  let t := s.trap
  let lag := if t.role = .syncing ∨ t.role = .standby then satNat 255 (s.pairRev - t.lastSyncRev) else 0
  flagAt t.lostP 31 ||| flagAt t.lostR 30 ||| flagAt (s.paired && t.lostP) 29 ||| place (satNat 255 t.bothMissed) 8 |||
    place lag 0

/-- TRAP_HEALTH. -/
def State.trapHealth (s : State) : W32 :=
  match s.trap.health with
  | none => 0
  | some h => flagAt true 31 ||| flagAt h.unfit 30 ||| place (h.house % 8) 27 ||| place (satNat 2047 h.tj) 16 |||
      place (satNat 65535 h.mc) 0

/-- TRAP_MC. -/
def State.trapMc (s : State) : W32 :=
  match s.trap.mcFirst with
  | none => 0
  | some p => flagAt true 31 ||| place (p % 8192) 0

/-- PAIR_STATUS (R420). -/
def cmdPairStatus (h : Hdr) (s : State) : State :=
  runCmd h { opcode := 0x0A01, maxData := 24, denied := !s.landlord h }
    (fun s => okRes (bytesOf32 [s.trapState, s.trap.epoch, s.trapHb, s.trapHealth] ++
      leBytes 8 (BitVec.ofInt 64 s.trap.delta).toNat) s) s

/-- The payload offset of a field of a command that may carry an effective time (R376, R384). -/
def Hdr.off (h : Hdr) (k : Nat) : Nat := if h.eff.isSome then k + 8 else k

/-- BAD_PARAM of an effective time more than 24 h ahead (R377). -/
def State.badEff (s : State) (h : Hdr) : Option Nat :=
  match h.eff with
  | some e => if s.effTooFar e then some 0 else none
  | none => none

/-- LATE of the response, EFF_LATE and its count (R54, R377). -/
def State.noteLate (s : State) (late : Bool) : State := if late then (s.setSQ 1 9).count 0x08AC 1 else s

/-- A command scheduled for its targets at the boundary its effective time gives: its response gives the boundary
(R377). -/
def scheduleRes (e : W64) (ts : List Target) (s : State) : Res :=
  let b := s.boundaryFor e
  let s := (s.schedule ts b.1 b.2).noteLate b.2
  .now 0 0 (leBytes 8 b.1) (if b.2 then 0x1000 else 0) s

/-- PAIR_SWITCH (R416, R420): at the boundary its effective time gives, else at the next one. -/
def cmdPairSwitch (h : Hdr) (s : State) : State :=
  runCmd h { opcode := 0x0A02, effOk := true, maxData := 8, denied := !s.landlord h, bad := s.badEff h
             busy := if h.eff.isSome ∧ s.schedRoom [.pairSwitch] = false then some 0x10 else none
             refuse := if s.trap.role = .primary ∧ s.fitStandby then none else some 2 }
    (fun s => match h.eff with
      | some e => scheduleRes e [.pairSwitch] s
      | none => okRes (leBytes 8 s.dueNow) (s.relinquishAt s.dueNow)) s

/-- One reply in WITNESS_READ. -/
def WitnessRep.bytes (r : WitnessRep) : List Byte :=
  [BitVec.ofNat 8 r.bus, BitVec.ofNat 8 r.node, BitVec.ofNat 8 r.member, 0] ++ leBytes 4 r.epoch.toNat ++
    leBytes 2 r.silence ++ List.replicate 6 0

/-- WITNESS_READ (R420). -/
def cmdWitnessRead (h : Hdr) (s : State) : State :=
  runCmd h { opcode := 0x0A03, maxData := 8 + 16 * s.trap.replies.length, denied := !s.landlord h }
    (fun s => okRes (BitVec.ofNat 8 s.trap.replies.length :: List.replicate 7 0 ++ s.trap.replies.flatMap WitnessRep.bytes) s) s

end Sys2Proof.Machine
end

