-- ==== Sys2Proof/Machine/Keys.lean ====
section
/-! DEFINITION. The security core (chapter 17, R439 to R465): life cycle, key slots and their journal, revocation, blobs
and the key cache, attestation, tamper, the debug port; and the opening of sessions (R380). -/

namespace Sys2Proof.Machine

/-- The security core's record replaced. -/
def State.setKey (s : State) (k : Key) : State := { s with key := k }

/-- STATE of KEY_LC (R439). -/
def LifeCycle.num : LifeCycle → Nat
  | .manufacture => 0
  | .provisioned => 1
  | .deployed => 2
  | .returned => 3
  | .scrapped => 4

/-- The state constant of a life-cycle state (R440). -/
def LifeCycle.const : LifeCycle → Nat
  | .manufacture => 0x4D46
  | .provisioned => 0x4F57
  | .deployed => 0x4F57
  | .returned => 0x5254
  | .scrapped => 0

/-- A life-cycle state of a token. -/
def lifeOf (n : Nat) : Option LifeCycle :=
  match n with
  | 0 => some .manufacture
  | 1 => some .provisioned
  | 2 => some .deployed
  | 3 => some .returned
  | 4 => some .scrapped
  | _ => none

/-- STATE of KEY_SLOT_INFO (R444). -/
def SlotState.num : SlotState → Nat
  | .empty => 0
  | .writing => 1
  | .valid => 2
  | .revoked => 3

/-- The state constant and EPOCH in force. -/
def State.keyConst (s : State) : Nat × Nat := (s.key.life.const, s.key.epoch)

/-- TAMPER counts as latched: in the backup domain, or by the fuse of the present EPOCH (R456). -/
def State.tampered (s : State) : Bool := s.key.tamperLatch || s.key.tamperFuse.getLsbD s.key.epoch

/-- No key operation is served (R442, R443, R457). -/
def State.keysShut (s : State) : Bool := s.tampered || s.key.rootLost || decide (s.key.life = .scrapped)

/-- A slot. -/
def State.slotAt (s : State) (k : Nat) : KeySlot := sget {} s.key.slots k

/-- The ASCII text LYF-8192 state root (R440). -/
def rootInfo : List Byte :=
  [0x4C, 0x59, 0x46, 0x2D, 0x38, 0x31, 0x39, 0x32, 0x20, 0x73, 0x74, 0x61, 0x74, 0x65, 0x20, 0x72, 0x6F, 0x6F, 0x74]

/-- The state root Kst (R440). -/
def State.kst (s : State) : List Byte :=
  Config.hkdf (leBytes 4 s.key.life.const ++ [BitVec.ofNat 8 s.key.epoch]) s.key.rk rootInfo

/-- The key that wraps the secret of a slot (R444). -/
def State.slotKek (s : State) (k seq : Nat) : List Byte := Config.hkdf [] s.kst (BitVec.ofNat 8 k :: leBytes 4 seq)

/-- The fields of a slot record that its CRC-32 covers (R444); the spec gives no layout. -/
def KeySlot.recordBytes (x : KeySlot) : List Byte :=
  [BitVec.ofNat 8 x.state.num, BitVec.ofNat 8 x.kind, BitVec.ofNat 8 x.origin, x.owner] ++ leBytes 2 x.usage.toNat ++
    [BitVec.ofNat 8 (x.parent.getD 0xFF), BitVec.ofNat 8 (x.replaces.getD 0xFF)] ++ leBytes 4 x.seq ++ x.material

/-- A slot record under its CRC-32. -/
def KeySlot.sealed (x : KeySlot) : KeySlot := { x with crc := crc32 x.recordBytes }

/-- A slot is usable: VALID, its record intact, made under the constant in force (R440, R444). -/
def State.slotUsable (s : State) (k : Nat) : Bool :=
  let x := s.slotAt k
  decide (x.state = .valid) && decide (x.crc = crc32 x.recordBytes) && decide (x.made = s.keyConst)

/-- The key a slot holds: public material as it stands, a secret unwrapped (R444). -/
def State.keyOf (s : State) (k : Nat) : List Byte :=
  let x := s.slotAt k
  if x.kind = 2 then x.material else (Config.aesUnwrap (s.slotKek k x.seq) x.material).getD []

/-- A USAGE bit of a slot. -/
def KeySlot.uses (x : KeySlot) (i : Nat) : Bool := x.usage.getLsbD i

/-- The uses a KIND allows, as a mask (R445). -/
def kindUses (kind : Nat) : Nat :=
  match kind with
  | 1 => 0x041
  | 2 => 0x3B2
  | 3 => 0x004
  | 4 => 0x00C
  | _ => 0

/-- USAGE suits KIND: only its uses, no reserved bit (R445). -/
def usageOk (kind : Nat) (usage : W32) : Bool := decide (Nat.land usage.toNat (kindUses kind) = usage.toNat)

/-- Slots not EMPTY. -/
def State.noEmptySlot (s : State) : Bool := (List.range 64).all fun k => decide ((s.slotAt k).state ≠ .empty)

/-- The journal sequence of the next record, 32 bits (R446). -/
def State.nextJrn (s : State) : Nat := (s.key.jrnSeq + 1) % 2 ^ 32

/-- A journal record committed: copy A is complete, with the slots and the owner root (R446, R448); copy B has the record before until
it is written, at the next boundary or before the next record. -/
def State.commitJournal (s : State) (slots : Sparse KeySlot) (owner : Nat) : State :=
  let n := s.nextJrn
  s.setKey { s.key with slots, ownerRoot := owner, jrnSeq := n, copyB := s.key.copyA.or s.key.copyB,
                        copyA := some (n, slots, owner) }

/-- A slot's record in another state. -/
def KeySlot.inState (x : KeySlot) (st : SlotState) : KeySlot := { x with state := st }.sealed

/-! ### Revocation (R452) -/

/-- A slot's parent chain leads to `k`, within 64 steps. -/
def chainTo (slots : Sparse KeySlot) : Nat → Nat → Nat → Bool
  | 0, _, _ => false
  | fuel + 1, k, j =>
    decide (j = k) ||
    match (sget {} slots j).parent with
    | some p => chainTo slots fuel k p
    | none => false

/-- The VALID slots that a revocation of `k` revokes. -/
def State.revokeSet (s : State) (k : Nat) : List Nat :=
  (List.range 64).filter fun j => decide ((s.slotAt j).state = .valid) && chainTo s.key.slots 65 k j

/-- Sessions and connections opened with a revoked key close (R452). -/
def State.closeRevoked (s : State) (ks : List Nat) : State :=
  let mats := ks.map fun k => (s.slotAt k).material
  let hit := fun (x : Session) =>
    (decide (x.state = .opened) && ks.contains x.keySlot && x.keySlot != 0) ||
      (!x.cert.isEmpty && mats.any fun (m : List Byte) => Config.certRests x.cert m)
  let s := (List.range 4).foldl (fun (s : State) n => if hit (s.sess n) then s.closeSession n else s) s
  let s := (List.range 4).foldl (fun (s : State) n => if hit (s.sess (4 + n)) then s.tunnelClose n else s) s
  let idents := ks.filter fun k => (s.slotAt k).uses 6
  let booths := (idents.map fun k => (s.slotAt k).owner.toNat) ++
    ((s.key.cache.filter fun (c : CacheEnt) => c.loaded && ks.contains c.parent && c.usage.getLsbD 6).map
      fun (c : CacheEnt) => c.owner.toNat)
  let sc := s.net.sc.map fun (e : Nat × ScNode) =>
    if booths.contains e.1 then (e.1, { e.2 with connected := false }) else e
  { s with net := { s.net with sc } }

/-- Slots revoked in one journal record: cache entries under them dropped, sessions closed, the debug port closed where
one of them signed its token (R452, R461). -/
def State.revoke (s : State) (ks : List Nat) (owner : Nat) : State :=
  let s := s.closeRevoked ks
  let slots := ks.foldl (fun (m : Sparse KeySlot) k => sput m k ((sget {} m k).inState .revoked)) s.key.slots
  let cache := s.key.cache.map fun (c : CacheEnt) =>
    if c.loaded && ks.contains c.parent then { c with loaded := false, material := [] } else c
  let s := (s.setKey { s.key with cache }).commitJournal slots owner
  let s : State := match s.dbg.signer with
    | some k => if ks.contains k then { s with dbg := { s.dbg with port := 0, rights := 0, engines := 0, expiry := 0, signer := none } } else s
    | none => s
  if ks.isEmpty then s else (s.count 0x8848 ks.length).setSQ 17 4

/-- The old slot of a replacement revoked once the new one is VALID; the owner root alone, its descendants moved to the
new one (R448). DEDUCED: a new slot whose parent chain leads to the old one stays VALID, since at every start one of the two is usable.
Safe (log entry 162). -/
def State.replaceOld (s : State) (new old : Nat) : State :=
  if old = s.key.ownerRoot then
    let slots := s.key.slots.map fun (e : Nat × KeySlot) =>
      if e.2.parent = some old then (e.1, ({ e.2 with parent := some new } : KeySlot).sealed) else e
    (s.setKey { s.key with slots }).revoke [old] new
  else s.revoke ((s.revokeSet old).filter fun j => j != new) s.key.ownerRoot

/-- A key written to an EMPTY slot, which is WRITING until the SC finishes it (R444). -/
def State.writeSlot (s : State) (k : Nat) (x : KeySlot) (m : List Byte) : State :=
  let seq := s.nextJrn
  let x := { x with seq, made := s.keyConst, material := if x.kind = 2 then m else Config.aesWrap (s.slotKek k seq) m }
  s.commitJournal (sput s.key.slots k (x.inState .writing)) s.key.ownerRoot

/-- Slots in a state. -/
def State.slotsIn (s : State) (st : SlotState) : List Nat := (List.range 64).filter fun k => decide ((s.slotAt k).state = st)

/-- Replacements whose new slot is VALID and whose old slot still is (R448). -/
def State.replacing (s : State) : List (Nat × Nat) :=
  (s.slotsIn .valid).filterMap fun k =>
    match (s.slotAt k).replaces with
    | some old => if (s.slotAt old).state = .valid then some (k, old) else none
    | none => none

/-- Replacements completed. -/
def State.replaceStep (s : State) : State := s.replacing.foldl (fun (s : State) e => s.replaceOld e.1 e.2) s

/-- Slots in WRITING become VALID, one journal record each. -/
def State.validStep (s : State) : State :=
  (s.slotsIn .writing).foldl (fun (s : State) k =>
    s.commitJournal (sput s.key.slots k ((s.slotAt k).inState .valid)) s.key.ownerRoot) s

/-! ### The effects of the life cycle (R442, R443) -/

/-- The identity key made in slot 0 of a cleared table (R442). -/
def State.freshTable (s : State) : State :=
  let ident : KeySlot :=
    { state := .valid, kind := 1, usage := 1, material := Config.aesWrap (s.slotKek 0 s.nextJrn) (Config.drbg s.free 32), seq := s.nextJrn,
      made := s.keyConst }
  let s := s.setKey { s.key with cache := List.replicate 32 {} }
  s.commitJournal [(0, ident.sealed)] 1

/-- The check value of Kst (R443). -/
def State.kstTag (s : State) : List Byte := Config.hkdf [] s.kst Config.checkInfo

/-- The check value of Kst recorded in FRAM (R443). -/
def State.recordCheck (s : State) : State := s.setKey { s.key with check := some s.kstTag }

/-- The debug port as the life-cycle state sets it (R439, R461). -/
def State.portByState (s : State) : State :=
  let port := match s.key.life with
    | .deployed => 0
    | .scrapped => 3
    | .manufacture => 1
    | .provisioned => 1
    | .returned => 1
  let all := decide (port = 1)
  { s with dbg := { s.dbg with port, rights := if all then 31 else 0, engines := if all then 0x3FFFFF else 0,
                               expiry := 0, signer := none } }

/-- The fuses of a transition blown, first of all (R442): STATE, LC_COUNT and EPOCH. -/
def State.lcFuse (s : State) (f t : LifeCycle) : State :=
  let k := s.key
  s.setKey { k with life := t, lcCount := k.lcCount + 1, effectDue := some (f, t)
                    epoch := if f = .returned ∧ t = .provisioned then k.epoch + 1 else k.epoch }

/-- The effect of a transition (R442): what was made under another constant leaves the cache. -/
def State.lcEffect (s : State) (f t : LifeCycle) : State :=
  let k := { s.key with effectDue := none }
  let s := match f, t with
    | .manufacture, .provisioned => (s.setKey k).freshTable.recordCheck
    | .returned, .provisioned =>
      let rk := if s.fuse.rootSrc then Config.drbg (s.free + 1) 32 else Config.pufRoot
      (s.setKey { k with tamperLatch := false, tamperDue := false, rootLost := false, rk }).freshTable.recordCheck
    | _, .scrapped => s.setKey { k with rk := [], helper := false, cache := List.replicate 32 {} }
    | _, .returned => (s.setKey { k with cache := k.cache.map fun (c : CacheEnt) => { c with loaded := false, material := [] } }).recordCheck
    | _, _ => s.setKey k
  s.portByState.setSQ 17 5

/-- The effect of a transition whose fuses are blown. -/
def State.effectStep (s : State) : State :=
  match s.key.effectDue with
  | some (f, t) => s.lcEffect f t
  | none => s

/-! ### The SC's work (R446 to R448, R451) -/

/-- Commands whose slot the SC has finished, and a life-cycle transition whose effect is done, answered. -/
def State.answerKeys (s : State) : State :=
  s.mbx.slots.foldl (fun (s : State) x => match x.wait with
    | .keyWrite k data =>
      if s.keysShut then s.complete x 0x0E 6 []
      else if (s.slotAt k).state = .writing ∨ (s.replacing.any fun e => e.1 == k) then s
      else s.complete x 0 0 data
    | .lifeCycle => if s.key.effectDue.isSome then s else s.complete x 0 0 [0xFF]
    | _ => s) s

/-- The SC has work in progress. -/
def State.keyBusy (s : State) : Bool :=
  s.key.effectDue.isSome || !(s.slotsIn .writing).isEmpty || !s.replacing.isEmpty

/-- A step of that work, at a boundary: copy B written; the effect of a transition; replacements, and after them new slots VALID. -/
def State.keyStage (s : State) : State :=
  let s := (s.setKey { s.key with copyB := s.key.copyA.or s.key.copyB }).effectStep
  (if s.keysShut then s else s.replaceStep.validStep).answerKeys

/-- The SC executes one operation at a time (R451): the work in progress is finished before the next operation. -/
def State.finishKeys (s : State) : State := if s.keyBusy then s.keyStage.keyStage else s

/-! ### Creation (R445, R449, R454, R463) -/

/-- A slot number of a request, FFh for none. -/
def optSlot (n : Nat) : Option Nat := if n = 0xFF then none else some n

/-- The session's booth may act for OWNER: booth 0, 255 or the owner itself. -/
def State.mayOwn (s : State) (h : Hdr) (owner : Byte) : Bool := s.boothIs h owner.toNat

/-- A KIND 1h slot of another booth is created by that booth or by booth 0 only (R463). -/
def State.privateDenied (s : State) (h : Hdr) (kind : Nat) (owner : Byte) : Bool :=
  decide (kind = 1 ∧ owner ≠ 0 ∧ s.boothOf h ≠ 0 ∧ s.boothOf h ≠ owner.toNat)

/-- The header of a blob (R449). -/
def blobHeader (kind parent : Nat) (owner : Byte) (usage : W32) (epoch : Nat) (id : List Byte) : List Byte :=
  leBytes 4 0x4E4D5431 ++ [1, BitVec.ofNat 8 kind, BitVec.ofNat 8 parent, owner] ++ leBytes 4 usage.toNat ++
    leBytes 4 epoch ++ id.take 8

/-- The refusal of every key operation while TAMPER or ROOT_LOST is latched (R443, R457). -/
def State.keyShut6 (s : State) : Option Nat := if s.keysShut then some 6 else none

/-- An operation that fails with KEY_REVOKED (R452). -/
def keyRevokedRes (s : State) : Res := .now 0x13 0 [] 0 (s.count 0x8858 1)

/-- A replacement names a VALID slot of an owner the session may act for. -/
def State.replaceBad (s : State) (h : Hdr) (n : Nat) : Bool :=
  decide (n ≠ 0xFF) && (decide (64 ≤ n) || decide ((s.slotAt n).state ≠ .valid) || !s.mayOwn h (s.slotAt n).owner)

/-- The refusal of a destination slot (R447): 4h when no slot is EMPTY; a slot that is not EMPTY among EMPTY ones has a
DETAIL the spec does not give. -/
def State.slotRefused (s : State) (k : Nat) : Option Nat :=
  if s.keysShut then some 6
  else if s.noEmptySlot then some 4
  else if (s.slotAt k).state ≠ .empty then some (s.drawn.toNat % 65536)
  else none

/-- The KIND suits the slot (R444): slot 0 holds an ECDSA private key, slot 1 and a slot that replaces the owner root an ECDSA public
key. DESIGN CHOICE: another is refused as a use that does not suit its KIND is (R445). Safe (log entry 163). -/
def State.kindFits (s : State) (k kind replaces : Nat) : Bool :=
  decide ((k ≠ 0 ∨ kind = 1) ∧ (k ≠ 1 ∨ kind = 2) ∧ (replaces ≠ s.key.ownerRoot ∨ kind = 2))

/-- KEY_GENERATE (R463): a slot is WRITING, and the command answered, when the SC has finished. -/
def cmdKeyGenerate (h : Hdr) (r : KeyGenReq) (s : State) : State :=
  let s := s.finishKeys
  runCmd h { opcode := 0x0C01, maxData := 68
             denied := !s.mayOwn h r.owner || (!r.toBlob && s.privateDenied h r.kind r.owner)
             bad := if 64 ≤ r.target then some 1
                    else if (r.kind ≠ 1 ∧ r.kind ≠ 3 ∧ r.kind ≠ 4) ∨ (r.toBlob = false ∧ s.kindFits r.target r.kind r.replaces = false) then some 2
                    else if usageOk r.kind r.usage = false then some 4
                    else if r.toBlob = false ∧ s.replaceBad h r.replaces then some 8
                    else if r.toBlob = false ∧ r.parent ≠ 0xFF ∧ 64 ≤ r.parent then some 9
                    else if r.toBlob ∧ ((s.slotAt r.target).state = .empty ∨
                      ((s.slotAt r.target).uses 2 || (s.slotAt r.target).uses 3) = false) then some 1
                    else none
             refuse := if r.toBlob then s.keyShut6 else s.slotRefused r.target }
    (fun s =>
      let secret := Config.drbg s.free 32
      if r.toBlob then
        if s.slotUsable r.target = false then keyRevokedRes s
        else
          let hd := blobHeader r.kind r.target r.owner r.usage s.key.epoch (Config.drbg s.free 8)
          let kek := Config.hkdf [] (s.keyOf r.target) hd
          okRes ((hd ++ Config.aesWrap kek secret).take 64) (s.count 0x8840 1)
      else
        let x : KeySlot :=
          { kind := r.kind, origin := 0, owner := r.owner, usage := r.usage.setWidth 10, parent := optSlot r.parent,
            replaces := optSlot r.replaces }
        .later (.keyWrite r.target ([BitVec.ofNat 8 r.target, 0, 0, 0] ++ (if r.kind = 1 then Config.publicOf secret else [])))
          ((s.writeSlot r.target x secret).count 0x8840 1)) s

/-- KEY_IMPORT into a slot (R454, R463): public material in the clear, secret material unwrapped under a WRAP slot. -/
def cmdKeyImport (h : Hdr) (r : KeyImpReq) (s : State) : State :=
  let s := s.finishKeys
  runCmd h { opcode := 0x0C02, maxData := 1
             denied := !s.mayOwn h r.owner || s.privateDenied h r.kind r.owner
             bad := if 64 ≤ r.slot then some 0
                    else if r.kind < 1 ∨ 4 < r.kind ∨ s.kindFits r.slot r.kind r.replaces = false then some 1
                    else if usageOk r.kind r.usage = false then some 4
                    else if r.kind ≠ 2 ∧ (64 ≤ r.unwrap ∨ (s.slotAt r.unwrap).state = .empty ∨
                      (s.slotAt r.unwrap).uses 2 = false) then some 8
                    else if s.replaceBad h r.replaces then some 9
                    else if r.parent ≠ 0xFF ∧ 64 ≤ r.parent then some 10
                    else if r.material.length ≠ (if r.kind = 2 then 64 else 40) then some 12
                    else none
             refuse := s.slotRefused r.slot }
    (fun s =>
      let x : KeySlot :=
        { kind := r.kind, origin := if r.kind = 2 then 2 else 1, owner := r.owner, usage := r.usage.setWidth 10,
          parent := optSlot r.parent, replaces := optSlot r.replaces }
      let done := fun (m : List Byte) =>
        .later (.keyWrite r.slot [BitVec.ofNat 8 r.slot]) ((s.writeSlot r.slot x m).count 0x8844 1)
      if r.kind = 2 then done r.material
      else if s.slotUsable r.unwrap = false then keyRevokedRes s
      else match Config.aesUnwrap (s.keyOf r.unwrap) r.material with
        | some m => done m
        | none => .now 0x08 12 [] 0 s) s

/-- KEY_REVOKE (R452). -/
def cmdKeyRevoke (h : Hdr) (k : Nat) (s : State) : State :=
  let s := s.finishKeys
  runCmd h { opcode := 0x0C03, maxData := 16, denied := !s.mayOwn h (s.slotAt k).owner
             bad := if k < 64 then none else some 0
             refuse := if s.keysShut then some 6 else if k = 0 ∨ k = s.key.ownerRoot then some 5 else none }
    (fun s =>
      let ks := s.revokeSet k
      let mask := (ks.map fun j => 2 ^ j).sum
      okRes (BitVec.ofNat 8 ks.length :: List.replicate 7 0 ++ leBytes 8 mask) (s.revoke ks s.key.ownerRoot)) s

/-! ### The cache (R450) -/

/-- The entry a load takes: a free one, else the least recently used that no operation uses. -/
def State.cacheVictim (s : State) : Option Nat :=
  match idxWhere 32 fun i => !(s.key.cache.getD i {}).loaded with
  | some i => some i
  | none => (List.range 32).foldl (fun (a : Option Nat) i =>
      let c := s.key.cache.getD i {}
      if c.inUse then a
      else match a with
        | none => some i
        | some j => if c.used < (s.key.cache.getD j {}).used then some i else some j) none

/-- A blob unwrapped under its parent (R449), none where its check fails. -/
def State.openBlob (s : State) (b : List Byte) : Option (List Byte) :=
  Config.aesUnwrap (Config.hkdf [] (s.keyOf (leAt b 6 1)) (b.take 24)) (b.drop 24)

/-- A blob's header fits the module: magic, format, parent with WRAP or DERIVE use, EPOCH (R449). -/
def State.blobFits (s : State) (b : List Byte) : Bool :=
  let p := leAt b 6 1
  decide (b.length = 64 ∧ leAt b 0 4 = 0x4E4D5431 ∧ leAt b 4 1 = 1 ∧ p < 64 ∧ leAt b 12 4 = s.key.epoch) &&
    ((s.slotAt p).uses 2 || (s.slotAt p).uses 3) && decide ((s.slotAt p).state ≠ .empty)

/-- A blob placed in an entry: the entry's generation advances at each reuse. -/
def State.cacheLoad (s : State) (i : Nat) (b m : List Byte) : State :=
  let old := s.key.cache.getD i {}
  let c : CacheEnt :=
    { loaded := true, gen := (old.gen + 1) % 2048, used := s.key.useCount, kind := leAt b 5 1, parent := leAt b 6 1,
      owner := BitVec.ofNat 8 (leAt b 7 1), usage := BitVec.ofNat 10 (leAt b 8 4), blobId := BitVec.ofNat 64 (leAt b 16 8),
      material := m, made := s.keyConst }
  let s := s.setKey { s.key with cache := lmod s.key.cache i fun _ => c, useCount := s.key.useCount + 1 }
  let s := s.count 0x884C 1
  if old.loaded then s.count 0x8850 1 else s

/-- BLOB_LOAD (R450). -/
def cmdBlobLoad (h : Hdr) (blob : List Byte) (persist : Bool) (s : State) : State :=
  let s := s.finishKeys
  runCmd h { opcode := 0x0C04, maxData := 2, denied := !s.boothIs h (leAt blob 7 1)
             bad := if s.keysShut = false ∧ s.blobFits blob = false then some 0x18 else none
             busy := if s.cacheVictim.isNone then some (s.drawn.toNat % 65536) else none
             refuse := s.keyShut6 }
    (fun s =>
      if s.slotUsable (leAt blob 6 1) = false then keyRevokedRes s
      else match s.openBlob blob, s.cacheVictim with
        | some m, some i =>
          let s := s.cacheLoad i blob m
          let s := if persist then s.setKey { s.key with persisted := s.key.persisted ++ [blob] } else s
          okRes (leBytes 2 (i + 32 * (s.key.cache.getD i {}).gen)) s
        | none, _ => .now 0x08 0x18 [] 0 s
        | some _, none => .now 0x0D 0 [] 0 s) s

/-- A cache entry is usable: loaded, made under the constant in force, its parent usable with WRAP or DERIVE (R440, R449). -/
def State.entryUsable (s : State) (c : CacheEnt) : Bool :=
  c.loaded && decide (c.made = s.keyConst) && s.slotUsable c.parent && ((s.slotAt c.parent).uses 2 || (s.slotAt c.parent).uses 3)

/-- An entry that an operation uses: the most recently used (R450). -/
def State.useEntry (s : State) (i : Nat) : State :=
  s.setKey { s.key with cache := lmod s.key.cache i fun c => { c with used := s.key.useCount }, useCount := s.key.useCount + 1 }

/-- The entry of the cache that identifies a booth to its hub (R341, R445). -/
def State.identCached (s : State) (booth : Nat) : Option Nat :=
  idxWhere 32 fun i =>
    let c := s.key.cache.getD i {}
    s.entryUsable c && decide (c.owner.toNat = booth) && c.usage.getLsbD 6

/-- Persisted blobs that identify a booth (R450). -/
def State.identBlobs (s : State) (booth : Nat) : List (List Byte) :=
  s.key.persisted.filter fun b => decide (leAt b 7 1 = booth ∧ leAt b 8 4 / 64 % 2 = 1)

/-- The identity key of a booth is in a usable slot. -/
def State.identSlot (s : State) (booth : Nat) (state : SlotState) : Bool :=
  (List.range 64).any fun k => decide ((s.slotAt k).state = state ∧ (s.slotAt k).owner.toNat = booth) && (s.slotAt k).uses 6 &&
    (decide (state ≠ .valid) || s.slotUsable k)

/-- A connection of a booth to its hub asks for its identity key (R341, R450, R452): a slot, a cached blob, or a persisted one loaded on
demand while AUTO_LOAD is 1; of a revoked slot, or of a blob whose parent is revoked, it fails with KEY_REVOKED. The second part says
that the key is there. -/
def State.needIdent (s : State) (booth : Nat) : State × Bool :=
  let bs := s.identBlobs booth
  if s.keysShut then (s, false)
  else if s.identSlot booth .valid then (s, true)
  else match s.identCached booth with
    | some i => (s.useEntry i, true)
    | none =>
      match bs.find? fun b => s.slotUsable (leAt b 6 1) && (s.openBlob b).isSome with
      | some b =>
        match s.flag 0x8800 0, s.openBlob b, s.cacheVictim with
        | true, some m, some i => (s.cacheLoad i b m, true)
        | _, _, _ => (s, false)
      | none =>
        if s.identSlot booth .revoked ∨ bs.any (fun b => decide ((s.slotAt (leAt b 6 1)).state = .revoked)) then
          (s.count 0x8858 1, false)
        else (s, false)

/-- SC_HUB_RETRY (R341): without a usable identity the connection fails. -/
def scHubRetry (booth : Nat) (ok : Bool) (s : State) : State :=
  let (s, ready) := s.needIdent booth
  s.scRetry booth (ok && ready)

/-! ### Attestation (R453) -/

/-- The statement's 200 bytes for a subject: slot or blob parent, KIND, ORIGIN, OWNER, USAGE, BLOB_ID, key material. -/
def State.statement (s : State) (subject k kind origin : Nat) (owner : Byte) (usage : BitVec 10) (id : W64)
    (nonce mat : List Byte) : List Byte :=
  let flags := s.fuse.rootSrc.toNat + 2 * s.tampered.toNat + 4 * s.key.rootLost.toNat +
    8 * (decide (s.dbg.port = 1 ∨ s.dbg.port = 2)).toNat + 16 * (s.key.epoch % 16)
  let pub := if kind = 1 then Config.sha256 (Config.publicOf mat) else if kind = 2 then Config.sha256 mat
             else List.replicate 32 0
  let b := leBytes 4 0x41545331 ++ [1, BitVec.ofNat 8 s.key.life.num, BitVec.ofNat 8 flags, BitVec.ofNat 8 subject] ++
    leBytes 8 s.fuse.serial.toNat ++ [BitVec.ofNat 8 k, BitVec.ofNat 8 kind, BitVec.ofNat 8 origin, owner] ++
    leBytes 4 usage.toNat ++ leBytes 8 id.toNat ++ nonce.take 32 ++ pub.take 32 ++ s.upd.activeDigest.take 32 ++
    leBytes 8 s.rev
  b ++ Config.ecdsaSign (s.keyOf 0) (Config.sha256 b)

/-- The identity key in slot 0 may sign (R445, R453). -/
def State.identSigns (s : State) : Bool := s.slotUsable 0 && decide ((s.slotAt 0).kind = 1) && (s.slotAt 0).uses 0

/-- The owner of an attested subject. -/
def State.subjectOwner (s : State) (subject : Nat) (ref : BitVec 16) : Byte :=
  if subject = 0 then (s.slotAt ref.toNat).owner else (s.key.cache.getD (ref.toNat % 32) {}).owner

/-- ATTEST (R453, R463). DESIGN CHOICE: without an identity key that may sign it is refused, with a DETAIL the spec does not give. Safe
(log entry 164). -/
def cmdAttest (h : Hdr) (subject : Nat) (ref : BitVec 16) (nonce : List Byte) (s : State) : State :=
  let s := s.finishKeys
  let c := s.key.cache.getD (ref.toNat % 32) {}
  runCmd h { opcode := 0x0C05, maxData := 200, denied := !s.boothIs h (s.subjectOwner subject ref).toNat
             bad := if 1 < subject then some 0
                    else if subject = 0 ∧ (64 ≤ ref.toNat ∨ (s.slotAt ref.toNat).state = .empty) then some 2
                    else if nonce.length ≠ 32 then some 4 else none
             refuse := if s.keysShut then some 6
                       else if subject = 1 ∧ c.gen ≠ ref.toNat / 32 then some 3
                       else if s.identSigns = false then some (s.drawn.toNat % 65536) else none }
    (fun s =>
      let x := s.slotAt ref.toNat
      if subject = 0 then
        if s.slotUsable ref.toNat = false then keyRevokedRes s
        else okRes (s.statement 0 ref.toNat x.kind x.origin x.owner x.usage 0 nonce (s.keyOf ref.toNat)) (s.count 0x8854 1)
      else if s.entryUsable c = false then keyRevokedRes s
      else okRes (s.statement 1 c.parent c.kind 0 c.owner c.usage c.blobId nonce c.material)
        ((s.useEntry (ref.toNat % 32)).count 0x8854 1)) s

/-! ### Life cycle (R441, R442) -/

/-- The public key a token's SIGNER names for life-cycle transitions: 0h the service key, 1h the owner root. DEDUCED: in RETURNED the
owner root still signs the transition to SCRAPPED, as the table of R442 has it, though it was made under another constant. Safe (log
entry 165). -/
def State.lcSigner (s : State) (signer : Nat) : Option (List Byte) :=
  let x := s.slotAt s.key.ownerRoot
  if signer = 0 then some Config.serviceKey
  else if signer = 1 ∧ x.state = .valid ∧ x.kind = 2 ∧ x.crc = crc32 x.recordBytes ∧ x.uses 9 then some x.material
  else none

/-- A permitted transition accepts its signer (R442). -/
def State.lcSignerOk (s : State) (f t : LifeCycle) (signer : Nat) : Bool :=
  let shut := s.tampered || s.key.rootLost
  match f, t with
  | .manufacture, .provisioned => decide (signer = 0)
  | .provisioned, .deployed => decide (signer = 1)
  | .provisioned, .returned => decide (signer = 1) || (shut && decide (signer = 0))
  | .deployed, .returned => decide (signer = 1) || (shut && decide (signer = 0))
  | .returned, .provisioned => decide (signer = 0)
  | _, _ => decide (signer ≤ 1)

/-- The transitions of R442. -/
def lcPermitted (f t : LifeCycle) : Bool :=
  match f, t with
  | .manufacture, .provisioned => true
  | .provisioned, .deployed => true
  | .provisioned, .returned => true
  | .deployed, .returned => true
  | .returned, .provisioned => true
  | .scrapped, _ => false
  | _, .scrapped => true
  | _, _ => false

/-- LIFE_CYCLE_TRANSITION (R441, R442): KEY_IMPORT of slot FFh with a token. -/
def cmdLifeCycle (h : Hdr) (token : List Byte) (s : State) : State :=
  let s := s.finishKeys
  let f := lifeOf (leAt token 4 1)
  let t := lifeOf (leAt token 5 1)
  let signer := leAt token 20 1
  let sigOk := (s.lcSigner signer).any fun k => Config.ecdsaOk k (Config.sha256 (token.take 32)) (token.drop 32)
  let pair := match f, t with
    | some f, some t => lcPermitted f t
    | _, _ => false
  let accepted := match f, t with
    | some f, some t => s.lcSignerOk f t signer
    | _, _ => false
  runCmd h { opcode := 0x0C02, maxData := 1, denied := !s.landlord h
             authFail := !sigOk || (pair && !accepted)
             bad := if token.length ≠ 96 ∨ leAt token 0 4 ≠ 0x4C435431 then some 1
                    else if leAt token 4 1 ≠ s.key.life.num then some 5
                    else if leAt token 6 2 ≠ 0 then some 7
                    else if leAt token 8 8 ≠ s.fuse.serial.toNat then some 9
                    else if leAt token 16 4 ≠ s.key.lcCount then some 17
                    else if ((token.drop 21).take 11).any (· != 0) then some 22 else none
             refuse := if pair = false then some 1
                       else if f = some .returned ∧ t = some .provisioned ∧ s.key.epoch = 7 then some 2
                       else if s.keysShut ∧ ¬ (signer = 0 ∧ (t = some .returned ∨ f = some .returned)) then some 6
                       else none }
    (fun s => match f, t with
      | some f, some t => .later .lifeCycle (s.lcFuse f t)
      | _, _ => refusedRes 1 s) s

/-! ### Tamper (R455 to R458) -/

/-- Sessions close on a tamper event (R457). -/
def State.closeAll (s : State) : State :=
  let s := (List.range 4).foldl (fun (s : State) n => s.closeSession n) s
  (List.range 4).foldl (fun (s : State) n => s.tunnelClose n) s

/-- What a tamper event zeroes and latches, whatever supplies the backup domain (R456). -/
def State.tamperZero (s : State) : State :=
  s.setKey { s.key with
    rk := [], cache := List.replicate 32 {}
    tamperLatch := true, tamperCal := s.rtc.cal, tamperSeen := false, level := false
    events := satNat 255 (s.key.events + 1) }

/-- TAMPER with the supply present: the fuse of the EPOCH blown, the event shown, sessions and a token's debug session
closed (R456 to R458). -/
def tamperPowered (s : State) : State :=
  let s := s.tamperZero
  let fuse := s.key.tamperFuse ||| BitVec.ofNat 8 (2 ^ s.key.epoch)
  let s := ((s.setKey { s.key with tamperFuse := fuse }).setSQ 17 7).count 0x885C 1
  let s := s.closeAll
  if s.dbg.port = 2 then s.portByState else s

/-- TAMPER on BAT alone: the fuse is blown at the next start (R456). -/
def tamperUnpowered (s : State) : State :=
  let s := s.tamperZero
  s.setKey { s.key with tamperDue := true }

/-! ### Debug and trace (R459 to R462) -/

/-- The 0F00h group: booth 255 on a host-port session (R460, R463). -/
def State.notDebugger (s : State) (h : Hdr) : Bool := decide (4 ≤ h.session.val ∨ s.boothOf h ≠ 255)

/-- The key a debug token is verified with (R461). -/
def State.debugKey (s : State) (token : List Byte) : List Byte :=
  if leAt token 0x1D 1 = 0 then Config.serviceKey
  else
    let k := leAt token 0x1E 1
    if s.slotUsable k ∧ (s.slotAt k).uses 8 ∧ (s.slotAt k).kind = 2 then (s.slotAt k).material else []

/-- A new DBG_NONCE (R461). -/
def State.newNonce (s : State) : State :=
  { s with dbg := { s.dbg with nonce := BitVec.ofNat 64 (leNat (Config.drbg (s.free + 2) 8)) } }

/-- DEBUG_OPEN (R461, R463): by token in DEPLOYED, by state elsewhere. -/
def cmdDebugOpen (h : Hdr) (token : List Byte) (s : State) : State :=
  let byToken := decide (s.key.life = .deployed)
  let dur := leAt token 0x18 4
  runCmd h { opcode := 0x0F01, maxData := 8, denied := s.notDebugger h
             authFail := byToken && !Config.ecdsaOk (s.debugKey token) (Config.sha256 (token.take 32)) (token.drop 32)
             bad := if byToken = false then (if token.isEmpty then none else some 0)
                    else if token.length ≠ 96 ∨ leAt token 0 4 ≠ 0x44425431 then some 0
                    else if 2 ^ 22 ≤ leAt token 4 4 then some 4
                    else if leAt token 8 8 ≠ s.fuse.serial.toNat then some 8
                    else if leAt token 16 8 ≠ s.dbg.nonce.toNat then some 0x10
                    else if dur = 0 ∨ 86400 < dur then some 0x18
                    else if 32 ≤ leAt token 0x1C 1 then some 0x1C
                    else if 1 < leAt token 0x1D 1 then some 0x1D
                    else if leAt token 0x1F 1 ≠ 0 then some 0x1F else none
             refuse := if s.key.life = .scrapped then some (s.drawn.toNat % 65536) else none }
    (fun s =>
      if byToken then
        let expiry := s.rev + s.revsOfMs (dur * 1000)
        let s : State := { s with dbg := { s.dbg with
          port := 2, rights := BitVec.ofNat 5 (leAt token 0x1C 1), engines := BitVec.ofNat 22 (leAt token 4 4), expiry
          signer := if leAt token 0x1D 1 = 1 then some (leAt token 0x1E 1) else none } }
        okRes (leBytes 8 expiry) s.newNonce
      else okRes (leBytes 8 0) s.portByState) s

/-- DEBUG_EXPIRY (R461): the revolution of DBG_EXPIRY has come. -/
def debugExpiry (s : State) : State := if s.dbg.port = 2 ∧ s.dbg.expiry ≤ s.rev then s.portByState else s

/-- TRACE_START (R462): of engines the open port reaches. -/
def cmdTraceStart (h : Hdr) (engines mask : W32) (s : State) : State :=
  let allowed := decide (s.dbg.port = 1 ∨ s.dbg.port = 2) && s.dbg.rights.getLsbD 4 &&
    decide (engines &&& ~~~ (s.dbg.engines.setWidth 32) = 0)
  runCmd h { opcode := 0x0F02, denied := s.notDebugger h
             bad := if engines.toNat < 2 ^ 22 then none else some 0
             refuse := if allowed then none else some (s.drawn.toNat % 65536) }
    (fun s =>
      okRes [] { s with dbg := { s.dbg with traceOn := true, traceSel := engines.setWidth 22, traceMask := mask,
                                            traceShed := decide (1 ≤ s.ledger.house) } }) s

/-- TRACE_STOP (R462). -/
def cmdTraceStop (h : Hdr) (s : State) : State :=
  runCmd h { opcode := 0x0F03, denied := s.notDebugger h }
    (fun s => okRes [] { s with dbg := { s.dbg with traceOn := false, traceShed := false } }) s

/-! ### Opening sessions (R380) -/

/-- HOST_SESS_EN of a session; tunnelled sessions have no such bit. -/
def State.sessEnabled (s : State) (n : Nat) : Bool := decide (4 ≤ n) || s.flag 0x7000 n

/-- The DETAIL of a refusal the spec gives no code for. -/
def State.openDetail (s : State) (b : Bool) : Option Nat := if b then some (s.drawn.toNat % 65536) else none

/-- SESSION_CHALLENGE (R380). -/
def cmdSessionChallenge (h : Hdr) (s : State) : State :=
  let n := h.session.val
  runCmd h { opcode := 0x0101, maxData := 32, preOpen := true
             refuse := s.openDetail (decide ((s.sess n).state = .opened) || !s.sessEnabled n) }
    (fun s =>
      let nonce := Config.drbg s.free 32
      okRes nonce (s.setSess n { s.sess n with state := .challenged, nonce := some (nonce, s.crsl.upNs) })) s

/-- An operator key enrolled for a booth: a usable public key with SESSION use (R380, R445). -/
def State.operatorKeys (s : State) (booth : Byte) : List Nat :=
  (List.range 64).filter fun k =>
    s.slotUsable k && (s.slotAt k).uses 4 && decide ((s.slotAt k).kind = 2) && decide ((s.slotAt k).owner = booth)

/-- The service key counts as an operator key of booth 255 (R460). -/
def State.serviceCounts (s : State) : Bool :=
  decide (s.key.life = .manufacture ∨ s.key.life = .returned) || s.tampered || s.key.rootLost

/-- The key slot a host session's proof verifies with; 64 stands for the service key (R380, R457, R460). -/
def State.provedBy (s : State) (n : Nat) (booth : Byte) (sig : List Byte) : Option Nat :=
  match (s.sess n).nonce with
  | none => none
  | some (nonce, t) =>
    let hash := Config.sha256 (nonce ++ [BitVec.ofNat 8 n, booth])
    if t + 10000000000 < s.crsl.upNs then none
    else if s.serviceCounts ∧ booth = 0xFF ∧ Config.ecdsaOk Config.serviceKey hash sig then some 64
    else if s.keysShut then none
    else (s.operatorKeys booth).find? fun k => Config.ecdsaOk (s.slotAt k).material hash sig

/-- The key slot a tunnelled session's certificate is enrolled with, on a VID of the booth or of booth 0 (R84, R380). -/
def State.certBy (s : State) (n : Nat) (booth : Byte) : Option Nat :=
  let x := s.sess n
  let vb := s.vlanBooth x.vid
  if s.keysShut ∨ ¬ (vb = some booth.toNat ∨ vb = some 0) then none
  else (s.operatorKeys booth).find? fun k => decide ((s.slotAt k).material = Config.certKey x.cert)

/-- TUNNEL_CONNECT (R342, R343): within the profile only with a client certificate that chains to the owner's root. -/
def State.tunnelHandshake (s : State) (vid : Nat) (profileOk : Bool) (cert : List Byte) : State :=
  s.tunnelConnect vid (profileOk && s.slotUsable s.key.ownerRoot && Config.certRests cert (s.slotAt s.key.ownerRoot).material) cert

/-- A session's proof. -/
def State.sessionProof (s : State) (h : Hdr) (proof : List Byte) : Option Nat :=
  if h.session.val < 4 then s.provedBy h.session.val h.booth proof else s.certBy h.session.val h.booth

/-- What R384 judges of SESSION_OPEN. -/
def State.openSpec (s : State) (h : Hdr) (proof : List Byte) : CmdSpec :=
  let n := h.session.val
  { opcode := 0x0102, maxData := 4, preOpen := true
    denied := decide (4 ≤ n) && decide (h.booth = 0xFF)
    authFail := decide ((s.sess n).state ≠ .opened) && (s.sessionProof h proof).isNone
    bad := if proof.length = (if n < 4 then 64 else 0) then none else some 0
    refuse := s.openDetail (decide ((s.sess n).state = .opened) || !s.sessEnabled n ||
      (decide (s.sys.run = .rescue) && decide (h.booth ≠ 0 ∧ h.booth ≠ 0xFF))) }

/-- The proof of a SESSION_OPEN was judged: it failed, or what follows it in R384 did. -/
def proofJudged (status : Nat) : Bool := [0x12, 0x14, 8, 0x11, 0x0D, 0x0E].contains status

/-- SESSION_OPEN (R380): the nonce is consumed by a proof that fails as by one that holds. -/
def cmdSessionOpen (h : Hdr) (proof : List Byte) (s : State) : State :=
  let n := h.session.val
  let c := s.openSpec h proof
  let t := runCmd h c
    (fun s =>
      let k := (s.sessionProof h proof).getD 0
      let s := s.setSess n { s.sess n with state := .opened, booth := h.booth, expected := 1, nonce := none, keySlot := k }
      okRes [BitVec.ofNat 8 n, 0, 0, 0] ((s.setSQ 14 6).count 0x7078 1)) s
  if s.canTake h c ∧ (s.sess n).state ≠ .opened ∧ ((s.firstFail h c).any fun e => proofJudged e.1) then
    t.setSess n { t.sess n with nonce := none, state := .closed }
  else t

/-- SESSION_CLOSE (R381): after every earlier command of its session. -/
def cmdSessionClose (h : Hdr) (s : State) : State :=
  let n := h.session.val
  let t := runCmd h { opcode := 0x0103 }
    (fun s => .later .close (s.setSess n { s.sess n with state := .closing })) s
  t.finishCloses

/-! ### Starts (R442, R443, R446 to R448, R456, R457) -/

/-- The journal copies resolved at a start (R446), `a` and `b` saying which are found damaged. -/
def State.resolveJournal (s : State) (a b : Bool) : State :=
  let k := s.key
  match (if a then none else k.copyA), (if b then none else k.copyB) with
  | some x, some y =>
    if x = y then s
    else (s.setKey { k with copyA := some x, copyB := some x, slots := x.2.1, ownerRoot := x.2.2, jrnSeq := x.1 }).setSQ 17 1
  | some x, none => (s.setKey { k with copyB := some x, slots := x.2.1, ownerRoot := x.2.2, jrnSeq := x.1 }).setSQ 17 1
  | none, some y => (s.setKey { k with copyA := some y, slots := y.2.1, ownerRoot := y.2.2, jrnSeq := y.1 }).setSQ 17 1
  | none, none => s

/-- Slots found in WRITING abandoned (R447), and replacements found half done completed (R448). -/
def State.repairSlots (s : State) : State :=
  let w := s.slotsIn .writing
  let s := if w.isEmpty then s
    else
      let slots := w.foldl (fun (m : Sparse KeySlot) k => sput m k (({ sget {} m k with abandoned := true } : KeySlot).inState .revoked)) s.key.slots
      (s.commitJournal slots s.key.ownerRoot).setSQ 17 2
  if s.replacing.isEmpty then s else s.replaceStep.setSQ 17 3

/-- ROOT_LOST latched at a start, with a CRITICAL and the effects of a latched TAMPER (R443, R457). -/
def State.loseRoot (s : State) : State :=
  if s.key.rootLost then s else ((s.setKey { s.key with rootLost := true }).reportBare .critical 17 6 0xFF).closeAll

/-- The tamper state found at a start: a due fuse blown, and a CRITICAL with the calendar copy once (R456, R457). -/
def State.tamperStart (s : State) : State :=
  let k := s.key
  let s := if k.tamperDue then
      s.setKey { k with tamperDue := false, tamperFuse := k.tamperFuse ||| BitVec.ofNat 8 (2 ^ k.epoch) }
    else s
  if s.tampered ∧ s.key.tamperSeen = false then
    (s.setKey { s.key with tamperSeen := true }).report .critical 17 7 0xFF (leNat s.key.tamperCal)
  else s

/-- Steps 4 and 5 of a start that restarts the SC (R443, R483): its SRAM is lost, RK comes from the PUF or the
battery-backed root, and Kst is checked. `bad` is the outcome of the check. -/
def State.scRestart (s : State) (bad : Bool) : State :=
  let s := s.setKey { s.key with cache := List.replicate 32 {} }
  let s := s.tamperStart
  if s.tampered ∨ s.key.life = .scrapped then s
  else
    let first := decide (s.key.life = .manufacture) && s.key.check.isNone && s.key.rk.isEmpty
    let rk := if s.fuse.rootSrc then (if first then Config.drbg (s.free + 1) 32 else s.key.rk)
      else if bad ∨ s.key.helper = false then [] else Config.pufRoot
    let s := s.setKey { s.key with rk }
    if bad ∨ (s.fuse.rootSrc ∧ rk.isEmpty) then s.loseRoot else s

/-- Kst compared with its recorded check value at a start (R443), which the first start records. -/
def State.rootCheck (s : State) : State :=
  if s.keysShut then s
  else match s.key.check with
    | none => s.recordCheck
    | some c => if c = s.kstTag then s else s.loseRoot

/-- What every start does with keys and the debug port (R442, R443, R446 to R448, R461); `a` and `b` are the damage found in the copies
of the journal. -/
def State.keyStart (s : State) (a b : Bool) : State :=
  (((s.resolveJournal a b).effectStep.repairSlots.rootCheck).portByState).newNonce

/-- A battery-backed root lost with the backup domain (R434, R443). -/
def State.backupRootLost (s : State) : State :=
  let s := s.setKey { s.key with tamperLatch := false, tamperCal := [] }
  if s.fuse.rootSrc then (s.setKey { s.key with rk := [] }).loseRoot else s

/-! ### Registers -/

/-- KEY_LC. -/
def State.keyLc (s : State) : W32 :=
  place s.key.life.num 28 ||| place (s.key.epoch % 16) 24 ||| place (s.key.lcCount % 32) 16 ||| place (s.key.ownerRoot % 64) 8

/-- KEY_SLOTS. -/
def State.keySlots (s : State) : W32 :=
  let n := fun (x : SlotState) => ((List.range 64).filter fun k => decide ((s.slotAt k).state = x)).length
  place (n .empty) 24 ||| place (n .valid) 16 ||| place (n .revoked) 8 ||| place (n .writing) 0

/-- KEY_CACHE. -/
def State.keyCache (s : State) : W32 :=
  place (s.key.cache.filter fun (c : CacheEnt) => c.inUse).length 8 |||
    place (s.key.cache.filter fun (c : CacheEnt) => c.loaded).length 0

/-- KEY_SLOT_INFO of the slot selected. -/
def State.keySlotInfo (s : State) : W32 :=
  let x := s.slotAt (s.fld 0x881C 5 0)
  place x.state.num 30 ||| place x.kind 27 ||| place x.origin 25 ||| place x.owner.toNat 17 ||| flagAt x.parent.isSome 16 |||
    place (x.parent.getD 0 % 64) 10 ||| place x.usage.toNat 0

/-- KEY_TAMPER. LEVEL is 1 until a tamper event; no command tells when the pin rises again, so it is free from then on. -/
def State.keyTamper (s : State) : W32 :=
  flagAt s.tampered 31 ||| flagAt (s.key.level || (s.drawnFor 0x8824).getLsbD 0) 30 ||| flagAt s.key.rootLost 29 ||| place s.key.events 16 |||
    flagAt (s.busyDom 17) 15 ||| place (s.fld 0x8824 7 0) 0

/-- A posted write of the KEY block confirmed: FILT, 0 leaving it unchanged (KEY_TAMPER). -/
def State.keyPosted (s : State) (off : Nat) (v : W32) : State :=
  if off = 0x8824 ∧ bits v 7 0 ≠ 0 then s.setFld 0x8824 7 0 (bits v 7 0) else s

/-- DBG_STATE. -/
def State.dbgState (s : State) : W32 :=
  place s.dbg.port 30 ||| flagAt (decide (s.key.life = .manufacture)) 29 ||| place s.dbg.rights.toNat 22 |||
    place s.dbg.engines.toNat 0

/-- DBG_TRACE. -/
def State.dbgTrace (s : State) : W32 :=
  flagAt (s.dbg.traceOn && !s.dbg.traceShed) 31 ||| flagAt s.dbg.traceShed 30 ||| place (satNat 65535 s.dbg.dropped) 0

end Sys2Proof.Machine
end

