-- ==== Sys2Proof/Machine/Update.lean ====
section
/-! DEFINITION. Firmware and configuration update (chapter 18): manifests, chunks, verification, activation, the trial and its
ends, and the 0D00h group. -/

namespace Sys2Proof.Machine

/-- The update record replaced. -/
def State.setUpd (s : State) (u : Upd) : State := { s with upd := u }

/-- STATE of UPD_STATE. -/
def UpdState.num : UpdState → Nat
  | .idle => 0
  | .downloading => 1
  | .verifying => 2
  | .verified => 3
  | .armed => 4
  | .trial => 5

/-- Bytes of chunk i of a content of `len` bytes in `n` chunks: 4,096 except in the last. -/
def Manifest.chunkLen (m : Manifest) (i : Nat) : Nat := if i + 1 < m.chunks then 4096 else m.length - 4096 * (m.chunks - 1)

/-- A chunk's bit is set (R471). -/
def Upd.has (u : Upd) (i : Nat) : Bool := u.chunkHash.any fun e => e.1 == i

/-- Every chunk is stored. -/
def Upd.whole (u : Upd) : Bool := (List.range u.manifest.chunks).all u.has

/-- The hold-up capacitance as last measured is below 658 µF (R470, R512). -/
def State.holdupLow (s : State) : Bool := s.pwr.holdValid && decide (s.pwr.holdUf < 658)

/-- The refusal conditions 1h to 5h as they hold now (R470, UPD_CONDS). -/
def State.updConds (s : State) : List Bool :=
  [s.upd.lock, s.holdupLow, s.rtc.lowBackup, s.switching, s.tampered || s.key.rootLost]

/-- The first condition of a list of DETAIL codes that holds. -/
def State.condOf (s : State) (codes : List Nat) : Option Nat := codes.find? fun d => s.updConds.getD (d - 1) false

/-- A refused step: REFUSED with its DETAIL, LAST_DETAIL kept; a refusal under R470 is shown and counted. -/
def updRefused (d : Nat) (s : State) : Res :=
  let s := s.setUpd { s.upd with lastDetail := d }
  refusedRes d (if d ≤ 6 then (s.setSQ 18 1).count 0x9050 1 else s)

/-- The scheduled activation, if any, withdrawn. -/
def State.dropActivation (s : State) : State :=
  { s with mbx := { s.mbx with sched := s.mbx.sched.filter fun x => !decide (x.target = .activation) } }

/-- A download, verification or arming in progress discarded (R469, R472, R479). -/
def State.discardUpdate (s : State) : State :=
  s.dropActivation.setUpd { s.upd with
    state := .idle, manifest := {}, chunkHash := [], chunkData := [], parts := none, armedAt := none, spareNew := false }

/-! ### Manifest (R468, R469) -/

/-- The fields of a manifest. -/
def parseManifest (l : List Byte) : Manifest :=
  { target := leAt l 5 1, signer := leAt l 6 1, downconv := decide (leAt l 7 1 % 2 = 1), version := leAt l 0x10 4,
    rollback := leAt l 0x14 4, length := leAt l 0x18 4, chunks := leAt l 0x1C 2, cfgFmt := leAt l 0x1E 2,
    chunkRoot := (l.drop 0x20).take 32, digest := (l.drop 0x40).take 32 }

/-- The payload offset of the first manifest field out of its range (R468, R469): the manifest begins at byte 4. -/
def State.manifestBad (s : State) (l : List Byte) : Option Nat :=
  let m := parseManifest l
  if l.length ≠ 256 then some 4
  else if leAt l 0 4 ≠ 0x554D4631 then some 4
  else if leAt l 4 1 ≠ 1 then some 8
  else if m.target = 0 ∨ 3 < m.target then some 9
  else if 1 < leAt l 7 1 then some 11
  else if leAt l 8 8 ≠ 0 ∧ leAt l 8 8 ≠ s.fuse.serial.toNat then some 12
  else if m.chunks ≠ (m.length + 4095) / 4096 then some 0x20
  else if (m.target = 1 ∧ 6080 < m.chunks) ∨ (m.target = 2 ∧ 256 < m.chunks) then some 0x20
  else if ((l.drop 0x60).take 96).any (fun b => decide (b ≠ 0)) then some 0x64
  else none

/-- The rollback floor of a target (R469). -/
def Upd.floor (u : Upd) (target : Nat) : Nat := if target = 2 then u.rollbackCfg else u.rollback

/-- The group is not allowed to the session's booth (R480, R504): booth 255 may issue every command (R387). -/
def State.notBooth0 (s : State) (h : Hdr) : Bool := !s.landlord h

/-- UPD_MANIFEST (R469). -/
def cmdUpdManifest (h : Hdr) (replace : Nat) (manifest : List Byte) (s : State) : State :=
  let m := parseManifest manifest
  let k := s.slotAt m.signer
  let revoked := decide (k.state = .revoked)
  let sigOk := s.slotUsable m.signer && k.uses 7 &&
    Config.ecdsaOk k.material (Config.sha256 (manifest.take 0xC0)) ((manifest.drop 0xC0).take 64)
  runCmd h { opcode := 0x0D01, maxData := 2, denied := s.notBooth0 h, authFail := !revoked && !sigOk
             bad := if revoked then none else if 1 < replace then some 0 else s.manifestBad manifest }
    (fun s =>
      if revoked then keyRevokedRes s
      else if m.target ≠ 3 ∧ m.version < s.upd.floor m.target then updRefused 8 s
      else if s.upd.state = .trial ∨ (s.upd.state ≠ .idle ∧ replace = 0) then updRefused 7 s
      else match s.condOf [1, 2, 3, 4, 5] with
        | some d => updRefused d s
        | none =>
          if m.target = 3 then updRefused 6 s
          else
            let s := s.discardUpdate
            okRes (leBytes 2 m.chunks) ((s.setUpd { s.upd with state := .downloading, manifest := m }).count 0x904C 1)) s

/-! ### Chunks (R471) -/

/-- A whole chunk taken in: its result is 0 stored, 1 hash failed, 2 duplicate. -/
def State.storeChunk (s : State) (i : Nat) (hash data : List Byte) : State × Nat :=
  if s.upd.has i then (s.count 0x9048 1, 2)
  else if Config.sha256 data ≠ hash then ((s.setSQ 18 7).count 0x9044 1, 1)
  else
    let u := { s.upd with chunkHash := sput s.upd.chunkHash i hash, chunkData := sput s.upd.chunkData i data,
                          other := if s.upd.manifest.target = 1 then none else s.upd.other }
    let u := { u with state := if u.whole then UpdState.verifying else u.state }
    ((s.setUpd u).count 0x9040 1, 0)

/-- One half of a chunk; the other half held with the same hash completes it. -/
def State.takePart (s : State) (i part : Nat) (hash data : List Byte) : State × Nat :=
  if s.upd.has i then (s.count 0x9048 1, 2)
  else match s.upd.parts with
    | some (j, q, g, held) =>
      if j = i ∧ q ≠ part ∧ g = hash then
        (s.setUpd { s.upd with parts := none }).storeChunk i hash (if part = 0 then data ++ held else held ++ data)
      else (s.setUpd { s.upd with parts := some (i, part, hash, data) }, 3)
    | none => (s.setUpd { s.upd with parts := some (i, part, hash, data) }, 3)

/-- Bytes that a part of a chunk carries. -/
def Manifest.partLen (m : Manifest) (i part : Nat) : Nat :=
  let n := m.chunkLen i
  if part = 0 then Nat.min 2048 n else n - 2048

/-- UPD_CHUNK (R471, R480). -/
def cmdUpdChunk (h : Hdr) (index part : Nat) (hash data : List Byte) (s : State) : State :=
  let m := s.upd.manifest
  let down := decide (s.upd.state = .downloading)
  runCmd h { opcode := 0x0D02, maxData := 1, denied := s.notBooth0 h
             bad := if 1 < part then some 2
                    else if hash.length ≠ 32 then some 4
                    else if down ∧ m.chunks ≤ index then some 0
                    else if down ∧ data.length ≠ m.partLen index part then some 0x24 else none }
    (fun s =>
      if s.upd.state ≠ .downloading then updRefused 7 s
      else match s.condOf [1, 5] with
        | some d => updRefused d s
        | none =>
          let r := s.takePart index part hash data
          okRes [BitVec.ofNat 8 r.2] r.1) s

/-- UPDATE_CHUNK_PACKET (R471): the packet at the head of Q31, taken only while DOWNLOADING. A packet that breaks the layout
of R471 is dropped. -/
def updateChunkPacket (s : State) : State :=
  let ws := (s.q 31).headPacket
  if s.upd.state ≠ .downloading ∨ ws.isEmpty then s
  else
    let s := s.setQ 31 (s.q 31).dropHead
    let w := ws.getD 0 0
    let i := w.toNat / 2 ^ 16 % 2 ^ 13
    let n := w.toNat % 2 ^ 13
    if s.parityHeld 18 ∨ ws.length ≠ 517 ∨ w.toNat / 2 ^ 48 ≠ 0x5543 ∨ s.upd.manifest.chunks ≤ i ∨ n ≠ s.upd.manifest.chunkLen i then s
    else match s.condOf [1, 5] with
      | some d => ((s.setUpd { s.upd with lastDetail := d }).setSQ 18 1).count 0x9050 1
      | none => (s.storeChunk i (bytesOf ((ws.drop 1).take 4)) ((bytesOf (ws.drop 5)).take n)).1

/-! ### Verification (R472) -/

/-- The stored content in chunk order. -/
def Upd.content (u : Upd) : List Byte := u.chunkData.flatMap (·.2)

/-- A failed verification that discards the download. -/
def State.verifyFailed (s : State) : State := (s.discardUpdate.setSQ 18 6).count 0x9054 1

/-- VERIFY_COMPLETE (R472, R478): the five checks in order. -/
def verifyComplete (s : State) : State :=
  let u := s.upd
  let m := u.manifest
  let badChunks := (u.chunkData.filter fun e => Config.sha256 e.2 != sget [] u.chunkHash e.1).map (·.1)
  if u.state = .verifying ∨ (u.state = .downloading ∧ u.whole) then
    if Config.sha256 (u.chunkHash.flatMap (·.2)) ≠ m.chunkRoot then s.verifyFailed
    else if badChunks ≠ [] then
      (s.setUpd { u with state := .downloading, chunkHash := u.chunkHash.filter fun e => !badChunks.contains e.1,
                         chunkData := u.chunkData.filter fun e => !badChunks.contains e.1 }).count 0x9054 1
    else if Config.sha256 u.content ≠ m.digest then s.verifyFailed
    else if (s.slotAt m.signer).state ≠ .valid then s.verifyFailed
    else if Config.contentOk m.target u.content = false then s.verifyFailed
    else (s.setUpd { u with state := .verified,
                            other := if m.target = 1 then some (m.version, m.digest) else u.other }).setSQ 18 5
  else s

/-! ### Status (R480) -/

/-- UPD_STATE. -/
def State.updState (s : State) : W32 :=
  let u := s.upd
  place u.state.num 28 ||| place (if u.state = .idle then 0 else u.manifest.target) 24 ||| flagAt u.lock 23 |||
    place (u.activeSlot % 2) 22 ||| place u.lastDetail 8

/-- UPD_PROGRESS. -/
def State.updProgress (s : State) : W32 :=
  let u := s.upd
  let first := ((List.range u.manifest.chunks).find? fun i => !u.has i).getD u.manifest.chunks
  place u.chunkHash.length 16 ||| place first 0

/-- Bits of a bitmap as bytes, bit 0 first. -/
def bitmapBytes (f : Nat → Bool) (n : Nat) : List Byte :=
  (List.range ((n + 7) / 8)).map fun j =>
    BitVec.ofNat 8 ((List.range 8).foldl (fun a i => if 8 * j + i < n ∧ f (8 * j + i) then a + 2 ^ i else a) 0)

/-- UPD_STATUS (R480). -/
def cmdUpdStatus (h : Hdr) (first count : Nat) (s : State) : State :=
  runCmd h { opcode := 0x0D03, maxData := 8 + (count + 7) / 8, denied := s.notBooth0 h
             bad := if count = 0 ∨ 16384 < count then some 2 else none }
    (fun s => okRes (leBytes 4 s.updState.toNat ++ leBytes 4 s.updProgress.toNat ++
      bitmapBytes (fun i => s.upd.has (first + i)) count) s) s

/-- UPD_TRIAL.REMAIN_S. -/
def State.trialRemain (s : State) : W32 :=
  if s.upd.state = .trial then place (satNat 131071 ((s.upd.trialNs + 999999999) / 1000000000)) 0 else 0

/-- Hold-up capacitance as % of 940 µF. -/
def State.holdupPct (s : State) : Nat := satNat 127 (s.pwr.holdUf * 100 / 940)

/-- UPD_CONDS. -/
def State.updCondWord (s : State) : W32 :=
  (List.range 5).foldl (fun w i => w ||| flagAt (s.updConds.getD i false) i) (place s.holdupPct 8)

/-! ### Activation (R473, R477) -/

/-- The first boundary 2 s or more from now (R473). -/
def State.soonest (s : State) : Nat := s.rev + (2000000000 + s.periodNs - 1) / s.periodNs

/-- The slots exchanged: the verified image of the other slot runs, and the one that ran stands in the other. -/
def Upd.swapSlots (u : Upd) : Upd :=
  match u.other with
  | some (v, d) => { u with activeSlot := 1 - u.activeSlot, verActive := v, activeDigest := d, other := some (u.verActive, u.activeDigest) }
  | none => { u with activeSlot := 1 - u.activeSlot }

/-- The LK fields a package would change in locked blocks: the first such block (R356, R473). -/
def State.packageLocked (s : State) (ws : List (Nat × Nat × W32)) : Option Nat :=
  (ws.find? fun w => s.locked (w.1 / 0x800) && (fieldsOf w.1).any fun f =>
    f.lk && decide (bits w.2.2 f.hi f.lo ≠ s.fld w.1 f.hi f.lo)).map fun w => w.1 / 0x800

/-- Links up: the NET ports and the CAN buses (R475). -/
def State.linksUp (s : State) : List Bool :=
  (List.range 3).map (fun p => s.portUp p) ++ (List.range 4).map fun b => s.busUp b

/-- The trial's criteria as they stand at b (R475), the instant of the activation, counted in UPD_CNT6. -/
def State.noteAtB (s : State) : State :=
  let s := s.count 0x9058 1
  s.setUpd { s.upd with linksAtB := s.linksUp, runAtB := s.running, lockedAtB := decide (s.crsl.sync = .locked),
                        workBad := false, overrunsAtB := s.total 0x0894, critAtB := s.total 0x984C, heldNs := 0 }

/-- TRIAL_START (R473): the record set to TRIAL, the window begun. -/
def State.startTrial (s : State) : State :=
  s.setUpd { s.upd with state := .trial, trialNs := s.fld 0x9000 10 0 * 60000000000, armedAt := none, saved := false }

/-- UPD_ACTIVATE (R473, R480); in rescue it sets the boot record to TRIAL and asks for a cold start (R487). -/
def cmdUpdActivate (h : Hdr) (b : W64) (s : State) : State :=
  let rescue := decide (s.sys.run = .rescue)
  runCmd h { opcode := 0x0D04, effOk := true, maxData := 8, denied := s.notBooth0 h, bad := s.badEff h
             busy := if h.eff.isSome ∧ s.schedRoom [.activation] = false then some 0x10 else none }
    (fun s =>
      if s.upd.state ≠ .verified then updRefused 7 s
      else match s.condOf [1, 2, 3, 4, 5] with
        | some d => updRefused d s
        | none =>
          if rescue ∧ s.upd.manifest.target = 1 then
            let s := (s.setUpd s.upd.swapSlots).noteAtB.startTrial
            okRes (leBytes 8 0) { s with sys := { s.sys with startReq := some 2, fallbackImg := false } }
          else
            let ws := if s.upd.manifest.target = 2 then Config.packageWrites s.upd.content else []
            match s.packageLocked ws with
            | some blk => .now 0x0B blk [] 0 s
            | none =>
              let x := match h.eff with
                | some e => s.boundaryFor e
                | none => (b.toNat, false)
              let n := if x.1 < s.soonest then s.soonest else x.1
              let s := (if h.eff.isSome then s.schedule [.activation] n x.2 else s).noteLate x.2
              let s := s.setUpd { s.upd with state := .armed, armedAt := some n, spareNew := false, switched := false }
              let s := if s.upd.manifest.target = 1 ∧ s.paired = false then
                  { s with sys := { s.sys with spareReady := false } } else s
              .now 0 0 (leBytes 8 n) (if x.2 ∨ x.1 < s.soonest then 0x1000 else 0) s) s

/-- SPARE_READY (R12, R473): the spare core ready; during an arming of module firmware it is ready on the new firmware, and
SPARE_READY stays 0 until b. A core that failed its BIST never becomes a spare (R488). -/
def spareReady (s : State) : State :=
  if s.sys.coreBad then s
  else if s.upd.state = .armed ∧ s.upd.manifest.target = 1 ∧ s.paired = false then s.setUpd { s.upd with spareNew := true }
  else { s with sys := { s.sys with spareReady := true } }

/-- The module firmware switched at the Guard of b (R473), or the activation abandoned for want of a ready spare. -/
def State.firmwareSwitch (s : State) : State :=
  if s.upd.spareNew then
    let s := s.restartAll.noteAtB
    let s := { s with sys := { s.sys with activeSv := !s.sys.activeSv, spareReady := true, fallbackImg := false } }
    s.setUpd { s.upd.swapSlots with switched := true, spareNew := false }
  else (s.dropActivation.setUpd { s.upd with state := .verified, armedAt := none }).setSQ 18 4

/-- The trial's time and criteria over one revolution (R475, R476). -/
def State.criteria (s : State) : Bool :=
  let u := s.upd
  let links := (u.linksAtB.zip s.linksUp).all fun e => !e.1 || e.2
  (!u.runAtB || s.running) && s.sys.cmdOk && links &&
    (!u.lockedAtB || decide (s.crsl.sync = .locked ∨ s.crsl.sync = .holdover)) &&
    !u.workBad && decide (s.total 0x0894 = u.overrunsAtB) &&
    (decide (u.manifest.target ≠ 1) || s.paired || s.sys.spareReady)

/-- The hold time of R475 in ns: half of WINDOW or 5 min, whichever is shorter. -/
def State.holdTime (s : State) : Nat := Nat.min (s.fld 0x9000 10 0 * 30000000000) 300000000000

/-- One revolution of a trial. -/
def State.trialTick (s : State) : State :=
  if s.upd.state = .trial then
    s.setUpd { s.upd with trialNs := s.upd.trialNs - s.periodNs, heldNs := if s.criteria then s.upd.heldNs + s.periodNs else 0 }
  else s

/-- The criteria have held without a break for the hold time. -/
def State.held (s : State) : Bool := decide (s.upd.state = .trial) && s.criteria && decide (s.holdTime ≤ s.upd.heldNs)

/-- The content confirmed (R475). -/
def State.confirm (s : State) : State :=
  let u := s.upd
  let m := u.manifest
  let u := { u with state := .idle, manifest := {}, chunkHash := [], chunkData := [], undo := [], switched := false, cfgFmt := m.cfgFmt,
                    verActive := u.verActive
                    rollback := if m.target = 1 then Nat.max u.rollback m.rollback else u.rollback
                    rollbackCfg := if m.target = 2 then Nat.max u.rollbackCfg m.rollback else u.rollbackCfg }
  (s.setUpd u).setSQ 18 3

/-- CONFIRMED (R475): by itself while CMD_CONF is 0. -/
def confirmed (s : State) : State := if s.held ∧ s.flag 0x9000 12 = false then s.confirm else s

/-- UPD_CONFIRM (R475). -/
def cmdUpdConfirm (h : Hdr) (s : State) : State :=
  runCmd h { opcode := 0x0D05, denied := s.notBooth0 h }
    (fun s => if s.held then okRes [] s.confirm else updRefused 7 s) s

/-- The trial abandoned: state IDLE, FALLBACK, a FAULT and its count; the core, the banks and the configuration follow at the
next boundary, of a paired member at its warm start (R476, R477). -/
def State.fallBack (s : State) : State :=
  let s := s.setUpd { s.upd with state := .idle, backDue := true }
  (s.reportBare .fault 18 2 0xFF).count 0x905C 1

/-- FALLBACK (R476): WINDOW has passed, or a CRITICAL was entered during the trial. A primary hands over first to a fit
standby (R477). -/
def fallback (s : State) : State :=
  if s.upd.state = .trial ∧ (s.upd.trialNs = 0 ∨ s.total 0x984C ≠ s.upd.critAtB) then
    let s := s.fallBack
    s.relinquishAt s.dueNow
  else s

/-- The switch back at the boundary after a fall-back (R476): core and banks for firmware, the old configuration for a
package as one set of shadowed writes. -/
def State.switchBack (s : State) : State :=
  if s.upd.backDue = false then s
  else if s.upd.manifest.target = 2 then
    s.setUpd { s.upd with backDue := false, undo := [], manifest := {}, chunkHash := [], chunkData := [] }
  else if s.paired then s
  else
    let s := s.restartAll
    let s := { s with sys := { s.sys with activeSv := !s.sys.activeSv } }
    s.setUpd { s.upd.swapSlots with backDue := false, switched := false, manifest := {}, chunkHash := [], chunkData := [] }

/-- Configuration is kept in one format the trial cannot write (R474). -/
def State.cfgFrozen (s : State) : Bool :=
  (decide (s.upd.state = .trial) || s.upd.switched) && !s.upd.manifest.downconv && decide (s.upd.manifest.cfgFmt ≠ s.upd.cfgFmt)

/-! ### Update lock (R479) -/

/-- UPD_LOCK (R479). -/
def cmdUpdLock (h : Hdr) (value : Byte) (sig : List Byte) (s : State) : State :=
  let k := s.key.ownerRoot
  let msg := leBytes 8 s.fuse.serial.toNat ++ leBytes 8 s.upd.nonce.toNat ++ [value]
  runCmd h { opcode := 0x0D06, denied := s.notBooth0 h
             authFail := !(s.slotUsable k && Config.ecdsaOk (s.slotAt k).material (Config.sha256 msg) sig)
             bad := if 1 < value.toNat then some 0 else none }
    (fun s =>
      let on := decide (value = 1)
      let s := if on ∧ s.upd.state ≠ .idle ∧ s.upd.state ≠ .trial ∧ s.upd.switched = false then s.discardUpdate else s
      okRes [] (s.setUpd { s.upd with lock := on, nonce := BitVec.ofNat 64 (leNat (Config.drbg (s.free + 3) 8)) })) s

/-! ### Starts (R478) -/

/-- What a start makes of an update (R478). `kept` says that the start follows an early warning whose final save completed;
`trialStart` that it is the warm start of cause 6h. -/
def State.updStart (s : State) (kept trialStart : Bool) : State :=
  let s := s.setUpd { s.upd with parts := none, spareNew := false, saved := false,
                                 nonce := BitVec.ofNat 64 (leNat (Config.drbg (s.free + 3) 8)) }
  match s.upd.state with
  | .idle =>
    if s.upd.backDue then
      let u := if s.upd.manifest.target = 1 then s.upd.swapSlots else s.upd
      s.setUpd { u with backDue := false, switched := false, manifest := {}, chunkHash := [], chunkData := [] }
    else s
  | .downloading => s.setSQ 18 0
  | .verifying => s.setUpd { s.upd with state := .downloading }
  | .verified => if trialStart ∧ s.paired ∧ s.upd.manifest.target = 1 then (s.setUpd s.upd.swapSlots).noteAtB.startTrial else s
  | .armed =>
    if trialStart ∧ s.paired ∧ s.upd.manifest.target = 1 then (s.setUpd s.upd.swapSlots).noteAtB.startTrial
    else
      let u := if s.upd.switched ∧ s.upd.manifest.target = 1 then s.upd.swapSlots else s.upd
      s.dropActivation.setUpd { u with state := .verified, armedAt := none, switched := false }
  | .trial =>
    if kept ∨ trialStart then s
    else
      let s := s.fallBack
      let u := if s.upd.manifest.target = 1 then s.upd.swapSlots else s.upd
      s.setUpd { u with backDue := false, switched := false, manifest := {}, chunkHash := [], chunkData := [] }

/-- A start that ends the trial or the activation of a package, or finds its fall-back still due: the old configuration is put
back (R476, R478). -/
def State.startEndsPackage (s : State) (kept trialStart : Bool) : Bool :=
  decide (s.upd.manifest.target = 2) &&
    (match s.upd.state with
     | .idle => s.upd.backDue
     | .armed => s.upd.switched
     | .trial => !kept && !trialStart
     | .downloading => false
     | .verifying => false
     | .verified => false)

end Sys2Proof.Machine
end

