-- ==== Sys2Proof/Machine/Starts.lean ====
section
/-! DEFINITION. Stops and starts of the module (chapter 19, R62, R98, R491), the supply (chapter 20), fault handling, and the
0E00h group but for the effect of its restarts at their boundary. -/

namespace Sys2Proof.Machine

/-- A restriction of a whole State → State effect to states where its rule's precondition holds. -/
def whenever (c : Bool) (f : State → State) (s : State) : State := if c then f s else s

/-! ### Outputs to their safe values (R25 order 1, R62, R485) -/

/-- A committed value handed to the point's channel (R266, R281, R290). -/
def State.handOff (s : State) (p : Nat) : State :=
  match s.fioOut p with
  | some k => s.handField k
  | none => match s.aoOf p with
    | some j => s.handAo j
    | none => match s.fanOf p with
      | some c => s.handFan c
      | none => s

/-- The quality of an output at its safe value (R73): on a forced one the bad code of a present condition prevails. -/
def State.safeQuality (s : State) (p : Nat) : Byte :=
  let r := s.point p
  if r.quality = 0x85 then 0x85 else if r.forced ∧ s.outQuality p ≠ 0 then s.outQuality p else 0x84

/-- One output committed at its safe value, its request dropped (R25, R62, R88, R233); one that holds keeps its
value. TS is the start of the phase that applies it (R74): of the Commit, or of the phase in which control stops. -/
def State.safeOut (s : State) (p : Nat) : State :=
  let s := (s.dropReq p).verifyRead p
  if (s.point p).quality = 0xC1 then s
  else
    let s : State := { s with pnt := { s.pnt with safeNow := p :: s.pnt.safeNow.filter fun q => q != p } }
    match s.safeValue p with
    | some v =>
      if (s.point p).value = v ∧ (s.point p).quality = s.safeQuality p then s
      else
        let t := (s.enterHeld (s.moveCost p v)).dropLoad p (s.stagesOf p (s.point p).value - s.stagesOf p v)
        t.writeRec p { s.point p with value := v, quality := s.safeQuality p, stamp := s.phaseStamp }
    | none => s.setQuality p (s.safeQuality p) s.phaseStamp

/-- Every output to its safe value and to the field (R62 steps 3 and 4). -/
def State.driveSafe (s : State) : State :=
  s.outPoints.foldl (fun (s : State) p => (s.safeOut p).handOff p) s

/-! ### Stop of the control domain (R62) -/

/-- The Commit in progress discarded (R62 step 1): the ledger's arbitration state, the records a Commit writes and the writers' values
that wait for one return to what they were at its start, and the ledger's counts, its words of headroom and CLAW with them. -/
def State.discardCommit (s : State) : State :=
  match s.crsl.pre with
  | none => s
  | some c =>
    let points := s.pnt.points.map fun (e : Nat × PRec) =>
      if commitSrc e.2.src then (e.1, sget (defaultRec e.1) c.points e.1) else e
    let r := s.statOf 2
    let r := if c.claw then r else { r with set := serase r.set 5 }
    let s : State := { s with ledger := { s.ledger with arb := c.arb }
                              pnt := { s.pnt with points, forces := c.forces, unforced := c.unforced, heldBack := c.heldBack, safeNow := c.safeNow }
                              stat := sset {} s.stat 2 r
                              cnt := c.cnt.foldl (fun (m : Sparse Nat) e => sset 0 m e.1 e.2)
                                (s.cnt.filter fun e => !commitCounts.contains e.1)
                              crsl := { s.crsl with pre := none } }
    (c.words.zip [0x101C, 0x1020, 0x1024]).foldl (fun (s : State) e => s.setReg e.2 e.1) s

/-- Exchanges armed for the boundary of a stopped revolution abort (R157). -/
def State.abortArmed (s : State) : State :=
  (s.prg.armed.filter fun e => e.2.boundary == s.rev).foldl (fun (s : State) e => s.swbAbort e.1) s

/-- The control domain stops (R62 steps 1 to 6, R359, R491, R495): a domain that does not run is left as it is. -/
def State.controlStop (s : State) : State :=
  if s.sys.run ≠ .running then s
  else
    let s := s.discardCommit.abortArmed
    let s := (s.endSpots 5).relinquishOnStop
    let s := { s with sys := { s.sys with run := .stopped, outHold := false }, crsl := { s.crsl with moves := [] } }
    s.driveSafe.dropFrames

/-- HARD_OVR (R62, R63): a hard phase still runs at the Guard. The phase engines stop and the capture is made now; RUN_STATE, CTRL_OK,
HARD_OVR and the CRITICAL follow at the boundary (step 6). -/
def hardOvr (ph : HardPhase) (demand ledger : Bool) (ioe : BitVec 4) (s : State) : State :=
  if s.sys.run ≠ .running then s
  else
    let cap := place (match ph with
        | .intake => 0
        | .commit => 1) 30 ||| flagAt demand 5 ||| flagAt ledger 4 ||| place ioe.toNat 0
    let s := if s.sq 1 15 then s else (s.setReg 0x0834 cap).setPair 0x0838 s.rev
    let s := { s with crsl := { s.crsl with phase := PhasePos.guard } }.controlStop
    let s := s.setUpd { s.upd with workBad := true }
    { s with crsl := { s.crsl with ovrDue := true } }

/-- Step 6 of a hard-phase overrun, at the boundary that ends its revolution (R62). -/
def State.ovrTakes (s : State) : State :=
  if s.crsl.ovrDue then { s with crsl := { s.crsl with ovrDue := false } }.reportBare .critical 1 15 0xFF else s

/-- PHASE_LATE (R61). -/
def phaseLate (ph : HardPhase) (s : State) : State :=
  if s.sys.run ≠ .running then s
  else match ph with
    | .intake => (s.reportBare .warn 1 12 0xFF).count 0x0884 1
    | .commit => (s.reportBare .warn 1 12 0xFF).count 0x0888 1

/-- What live does with a CRITICAL nested in another's handling (R495): outputs safe, and a warm start with cause 4h asked
for. -/
def State.afterNest (s : State) : State :=
  if s.flt.nest then
    let s := s.controlStop
    { s with flt := { s.flt with nest := false }, sys := { s.sys with startReq := some 4 } }
  else s

/-- What stands outside every effect: the queue of commands, the fuses (R33), and the revolution counter, which advances at the
boundary alone and is `n` after the command (R47). -/
def State.outside (t s : State) (n : Nat) : State := { t with pending := s.pending, fuse := s.fuse, rev := n }

/-- The place in the revolution while control runs (R36, R39). The Guard window follows Housekeeping in every run state (R44, R62). -/
def State.atPhase (t s : State) (p : PhasePos) : State :=
  if s.running ∨ p = .guard then { t with crsl := { t.crsl with phase := p } } else t

/-- A command of the powered module: the count of free values advances, the effect happens, a nested CRITICAL is acted on, and
domain health and HOST_IRQ_N are brought up to date. -/
def live (f : State → State) (s : State) : Host.Outcome State Fault Refusal :=
  if s.sys.powered then .next ((settle s (f s.draw).afterNest).outside s s.rev) else .next s

/-- The command that ends a revolution: the revolution counter advances by one (R47). -/
def liveTurn (f : State → State) (s : State) : Host.Outcome State Fault Refusal :=
  if s.sys.powered then .next ((settle s (f s.draw).afterNest).outside s (s.rev + 1)) else .next s

/-- A command that does the work of one phase. -/
def livePhase (p : PhasePos) (f : State → State) (s : State) : Host.Outcome State Fault Refusal :=
  if s.sys.powered then .next (((settle s (f s.draw).afterNest).outside s s.rev).atPhase s p) else .next s

/-- A module without supply: its starts, its line to the host and its status registers stand still. -/
def State.asleep (t s : State) : State := { t with sys := s.sys, hostp := s.hostp, stat := s.stat }

/-- An event that needs no supply of the module: of the Prism partition or the backup domain. -/
def anyPower (f : State → State) (s : State) : Host.Outcome State Fault Refusal :=
  .next ((if s.sys.powered then settle s (f s.draw).afterNest else (f s.draw).asleep s).outside s s.rev)

/-- A command served by an I/O engine: nothing happens where that engine failed its BIST (R488). -/
def liveIoe (k : Nat) (f : State → State) (s : State) : Host.Outcome State Fault Refusal :=
  live (fun s => if s.sys.ioeBad.getLsbD k then s else f s) s

/-! ### Jugglers (R98, R490, R499) -/

/-- A Juggler stopped: its tasks STOPPED_FAULT, the requests of its loops dropped, FAULT 2Dh (R98, R499). -/
def State.stopJuggler (s : State) (k cause : Nat) : State :=
  let s := { s with sys := { s.sys with jugState := lmod s.sys.jugState k fun _ => 2 } }
  let tasks := (s.prg.tasks.filter fun e => e.2.jug == k &&
    (e.2.state == .running || e.2.state == .stoppedCmd || e.2.state == .stoppedOverrun)).map (·.1)
  let s := tasks.foldl (fun (s : State) i => s.stopTask i .stoppedFault) s
  let s := (s.loop.ctx.filter fun e => e.1 / 32 == k).foldl (fun (s : State) e => s.dropWriter (.loop e.1)) s
  let mine := fun (m : Move) => match m.writer with
    | .loop c => c / 32 == k
    | .task _ => false
  let s := { s with crsl := { s.crsl with moves := s.crsl.moves.filter fun m => !mine m } }
  let s := s.setUpd { s.upd with workBad := true }
  s.raise .fault 19 0x2D 0xFF (k * 256 + cause)

/-- JUGGLER_STOP (R98): causes 1 to 4 of R499. -/
def jugglerStop (k cause : Nat) (s : State) : State :=
  if s.sys.jugState.getD k 0 = 2 then s
  else
    let s := if cause = 0 then s.bumpSat (0x2080 + 4 * k) 15 0 else s
    s.stopJuggler k (cause + 1)

/-! ### Memory errors, watchdog, thermal stop (R16, R491, R496) -/

/-- SRAM_UNCORRECTABLE (R499). -/
def sramUncorrectable (addr : W64) (s : State) : State := s.raise .critical 19 0x26 0xFF addr.toNat

/-- LPDDR_UNCORRECTABLE (R16, R499). -/
def lpddrUncorrectable (addr : W64) (s : State) : State := s.raise .fault 19 0x27 0xFF addr.toNat

/-- WDOG (R496): the spare takes over at the next boundary, or a warm start with cause 5h follows; without a core the command domain
serves nothing until then (R29, CMD_OK). -/
def wdog (s : State) : State :=
  let s := (s.setSQ 19 0).raise .critical 19 0x25 0xFF s.sys.activeSv.toNat
  if s.sys.spareReady then { s with sys := { s.sys with coreDue := true } }
  else { s with sys := { s.sys with startReq := some 5, cmdOk := false } }

/-- The change of core that a watchdog asked for, at the boundary (R382, R496). -/
def State.changeCore (s : State) : State :=
  if s.sys.coreDue then
    let s := s.restartAll
    { s with sys := { s.sys with coreDue := false, activeSv := !s.sys.activeSv, spareReady := false } }
  else s

/-- The junction temperature taken in (FLT_TJ). -/
def State.takeTj (s : State) (tj10 : Int) : State :=
  { s with pwr := { s.pwr with tj10 }, flt := { s.flt with tjMax := Nat.max s.flt.tjMax tj10.toNat } }

/-- THERMAL_STOP (R491). -/
def thermalStop (tj10 : Nat) (s : State) : State :=
  if tj10 < 1050 ∨ s.sys.thermalHold then s
  else
    let s := ((s.takeTj tj10).setSQ 19 4).raise .critical 19 0x23 0xFF tj10
    let s := s.controlStop
    { s with sys := { s.sys with thermalHold := true } }

/-- THERMAL_CLEAR (R491). -/
def thermalClear (tj10 : Nat) (s : State) : State :=
  if s.sys.thermalHold = false ∨ 950 < tj10 then s
  else
    let s := s.takeTj tj10
    { s with sys := { s.sys with thermalHold := false } }.raise .note 19 0x24 0xFF tj10

/-- OVER_P (R491). -/
def overP (mw : Nat) (s : State) : State :=
  if 3900 < mw then (s.setSQ 21 3).raise .warn 19 0x2C 0xFF mw else s

/-! ### Fault handling (R494, R495) -/

/-- FAULT_HANDLING (R492, R494): an event arrives, or the handling in progress ends and the next queued FAULT is taken. -/
def faultHandling (ev : Option FaultEv) (s : State) : State :=
  match ev with
  | some e => s.raise .fault (e.source % 32) (e.code % 64) e.booth e.data.toNat
  | none =>
    if s.flt.critical.isSome then s
    else match s.flt.queue with
      | [] => { s with flt := { s.flt with handling := none } }
      | e :: t => { s with flt := { s.flt with handling := some e, queue := t } }

/-- CRITICAL_HANDLING (R492, R495): an event arrives, or the handling of a CRITICAL ends and a suspended FAULT resumes; a FAULT
queued meanwhile is taken where none was suspended. -/
def criticalHandling (ev : Option FaultEv) (s : State) : State :=
  match ev with
  | some e => s.raise .critical (e.source % 32) (e.code % 64) e.booth e.data.toNat
  | none =>
    if s.flt.critical.isNone then s
    else
      let s := { s with flt := { s.flt with critical := none, suspended := false } }
      if s.flt.handling.isSome then s
      else match s.flt.queue with
        | [] => s
        | e :: t => { s with flt := { s.flt with handling := some e, queue := t } }

/-! ### The event log (R498 to R501) -/

/-- The four words of a log entry (R498). -/
def LogEnt.words (e : LogEnt) : List W64 :=
  let w0 : W64 := BitVec.ofNat 64 (e.seq % 2 ^ 32 * 2 ^ 32 + e.cls.num * 2 ^ 30 + e.source % 32 * 2 ^ 24 + e.code % 256 * 2 ^ 16 +
    e.booth.toNat * 2 ^ 8 + e.rep % 256)
  let low := e.start % 65536 * 65536
  let body := leBytes 8 w0.toNat ++ leBytes 8 e.rev ++ leBytes 8 e.data.toNat ++ leBytes 4 low
  [w0, BitVec.ofNat 64 e.rev, e.data, BitVec.ofNat 64 ((crc32 body).toNat * 2 ^ 32 + low)]

/-- An entry appended to the stream of Q27, or dropped from it for want of room (R501). -/
def State.streamEntry (s : State) (e : LogEnt) : State :=
  match s.flt.stream with
  | none => s
  | some first =>
    if e.seq < first then s
    else if s.qRoom 27 4 then s.produce 27 e.words else s.count 0x985C 1

/-- One entry written to FRAM (R498). -/
def State.writeEntry (s : State) (e : LogEnt) : State :=
  let f := s.flt
  let e := { e with seq := f.logSeq + 1 }
  let s := if f.log.any (fun x => x.1 == f.slotNext) then s.setSQ 19 2 else s
  let next := (f.slotNext + 1) % 4096
  let s := { s with flt := { s.flt with
      log := sput f.log f.slotNext e, slotNext := next, logSeq := e.seq, wraps := if next = 0 then f.wraps + 1 else f.wraps } }
  s.streamEntry e

/-- LOG_WRITE (R500): the buffer written in order. -/
def State.writeLog (s : State) : State :=
  let buf := s.flt.buffer
  buf.foldl State.writeEntry { s with flt := { s.flt with buffer := [] } }

/-- An entry placed by its sequence. -/
def insertEnt (e : LogEnt) : List LogEnt → List LogEnt
  | [] => [e]
  | h :: t => if e.seq ≤ h.seq then e :: h :: t else h :: insertEnt e t

/-- The log's entries, oldest first. -/
def State.logList (s : State) : List LogEnt := (s.flt.log.map (·.2)).foldr insertEnt []

/-- FLT_FIRST. -/
def State.fltFirst (s : State) : W32 :=
  match s.flt.first with
  | none => 0
  | some e => flagAt s.flt.firstHeld 31 ||| place e.cls.num 29 ||| place (e.source % 32) 24 ||| place (e.code % 256) 16 ||| place e.booth.toNat 8

/-- FLT_QUEUE. -/
def State.fltQueue (s : State) : W32 :=
  place (if s.flt.critical.isSome then 3 else if s.flt.handling.isSome then 2 else 0) 30 ||| place s.flt.queue.length 0

/-- FAULT_READ (R504). -/
def cmdFaultRead (h : Hdr) (s : State) : State :=
  runCmd h { opcode := 0x0E01, maxData := 44, denied := s.notBooth0 h }
    (fun s =>
      let e := s.flt.first
      okRes (leBytes 4 s.fltFirst.toNat ++ leBytes 4 0 ++ leBytes 8 ((e.map (·.rev)).getD 0) ++
        leBytes 8 ((e.map fun (x : LogEnt) => x.data.toNat).getD 0) ++
        (List.range 4).flatMap (fun k => leBytes 4 (s.total (0x9840 + 4 * k))) ++ leBytes 4 s.fltQueue.toNat) s) s

/-- LOG_READ (R504). -/
def cmdLogRead (h : Hdr) (first : W32) (count : Nat) (s : State) : State :=
  runCmd h { opcode := 0x0E02, maxData := 8 + 32 * count, denied := s.notBooth0 h
             bad := if count = 0 ∨ 64 < count then some 4 else none }
    (fun s =>
      let es := ((s.logList.filter fun e => decide (first.toNat ≤ e.seq))).take count
      okRes (leBytes 2 es.length ++ List.replicate 6 0 ++ es.flatMap fun e => bytesOf e.words) s) s

/-- LOG_STREAM (R501, R504): entries of the log from the named sequence onward are streamed first. -/
def cmdLogStream (h : Hdr) (enable : Nat) (first : W32) (s : State) : State :=
  runCmd h { opcode := 0x0E03, maxData := 4, denied := s.notBooth0 h, bad := if 1 < enable then some 0 else none }
    (fun s =>
      if enable = 0 then okRes (leBytes 4 (s.flt.logSeq + 1)) { s with flt := { s.flt with stream := none } }
      else
        let es := s.logList.filter fun e => decide (first.toNat ≤ e.seq)
        let start := (es.head?.map (·.seq)).getD (Nat.max first.toNat (s.flt.logSeq + 1))
        okRes (leBytes 4 start) (es.foldl State.streamEntry { s with flt := { s.flt with stream := some first.toNat } })) s

/-! ### CTRL_RESTART (R489, R490) -/

/-- A restart accepted and not yet complete. -/
def State.restartPending (s : State) : Bool :=
  s.mbx.slots.any fun x => match x.wait with
    | .restart _ => true
    | .restartJug _ _ => true
    | _ => false

/-- The DETAIL of R504 that refuses a restart. -/
def State.restartRefused (s : State) (scope jug : Nat) : Option Nat :=
  let down := if scope = 0 then decide (s.sys.run = .stopped) && !s.crsl.ovrDue else decide (s.sys.jugState.getD jug 0 = 2)
  if s.sys.run = .rescue then some 5
  else if down = false then some 1
  else if s.sys.thermalHold then some 2
  else if s.restartPending then some 3
  else if scope = 1 ∧ s.sys.run ≠ .running then some 6
  else none

/-- CTRL_RESTART (R489, R490, R504). -/
def cmdCtrlRestart (h : Hdr) (scope jug : Nat) (s : State) : State :=
  runCmd h { opcode := 0x0E04, maxData := 8, denied := s.notBooth0 h
             bad := if 1 < scope then some 0 else if scope = 1 ∧ 15 < jug then some 1 else none
             refuse := s.restartRefused scope jug }
    (fun s =>
      if scope = 0 then .later (.restart (s.rev + 100)) (if s.prg.ckpt.writing.isSome then s else s.snapshot)
      else .later (.restartJug jug 0) s) s

/-- A loop context that starts as for OFF to its mode (R115). -/
def LoopCtx.again (c : LoopCtx) : LoopCtx := { c with initNext := true, reinit := false, proposed := none, notEntered := false, undo := 0 }

/-- The ledger as after a start (R243): arbitration state gone, L_eff the commanded limit until a first valid demand. -/
def Ledger.fresh (l : Ledger) : Ledger :=
  { l with arb := {}, demState := .blind, seenValid := false, latchedValid := false, rampSetup := true, limitEff := uw l.limit }

/-- CONTROL_RESTART_APPLY but for the held shadowed writes (R489): the Carousel runs from the next revolution. -/
def State.restartControl (s : State) (b : Nat) : State :=
  let s := { s with sys := { s.sys with run := .running }, ledger := s.ledger.fresh,
                    loop := { s.loop with ctx := s.loop.ctx.map fun (e : Nat × LoopCtx) => (e.1, e.2.again) } }
  s.periodCheck.raise .note 19 0x2A 0xFF b

/-- A Juggler put back to work (R490): its tasks' symbols and loop contexts from the newest complete checkpoint. -/
def State.reviveJuggler (s : State) (k : Nat) : State :=
  let r := (s.prg.ckpt.newestRec).getD {}
  let mine := (s.prg.tasks.filter fun e => e.2.jug == k).map fun e => (e.2.booth, e.2.number)
  let active := s.prg.active.map fun (e : Nat × Image) =>
    match r.syms.find? fun x => x.1 == e.1 with
    | none => e
    | some x =>
      let syms := e.2.syms.map fun (y : Sym) =>
        if mine.contains (e.1, y.task) then ((x.2.find? fun z => z.ident == y.ident).getD y).restarted s.pairRev else y
      (e.1, { e.2 with syms })
  let ctx := s.loop.ctx.map fun (e : Nat × LoopCtx) =>
    if e.1 / 32 = k then
      let c := sget {} r.ctx e.1
      (e.1, if c.inUse then c.restarted else e.2.again)
    else e
  { s with
    sys := { s.sys with jugState := lmod s.sys.jugState k fun _ => 1 }
    loop := { s.loop with ctx }
    prg := { s.prg with
      active
      tasks := s.prg.tasks.map fun (e : Nat × Task) =>
        if e.2.jug = k ∧ e.2.state = .stoppedFault then (e.1, { e.2 with state := TaskState.running }) else e } }

/-- The Juggler restarts due at a boundary, their 128 slices run (R490). -/
def State.finishJugglers (s : State) (b : Nat) : State :=
  s.mbx.slots.foldl (fun (s : State) (x : Slot) =>
    match x.wait with
    | .restartJug k n => if n < 128 then s else (s.reviveJuggler k).complete x 0 0 (leBytes 8 b)
    | _ => s) s

/-- One BIST slice of every Juggler that restarts, in Housekeeping (R490); a failed slice ends the command. -/
def State.jugSlices (s : State) (failed : Bool) : State :=
  s.mbx.slots.foldl (fun (s : State) (x : Slot) =>
    match x.wait with
    | .restartJug k n =>
      if failed then (s.raise .fault 19 0x2D 0xFF (k * 256 + 4)).complete x 0x0E 4 []
      else { s with mbx := { s.mbx with slots := s.mbx.slots.map fun (y : Slot) =>
              if y.ident = x.ident then { y with wait := Wait.restartJug k (n + 1) } else y } }
    | _ => s) s

/-! ### Supply (chapter 20) -/

/-- EARLY_WARNING (R150, R511, R512). -/
def earlyWarning (mv : Nat) (s : State) : State :=
  if s.pwr.early then s
  else
    let s := { s with pwr := { s.pwr with early := true, ewN := false } }
    let s := ((s.setSQ 21 1).count 0xA840 1).raise .note 19 0x2B 0xFF mv
    let s := if s.pwr.testing then { s with pwr := { s.pwr with testing := false } }.count 0xA848 1 else s
    s.finalSave

/-- EARLY_WARNING_END (R511). -/
def earlyWarningEnd (s : State) : State :=
  if s.pwr.early then { s with pwr := { s.pwr with early := false, ewN := true } } else s

/-- POWER_LOSS (R511): the module stops, an hour shift that waited with it (R382, R430); whether the final save of this early warning is complete decides a trial (R478). The
Prism partition loses its supply with it. -/
def powerLoss (s : State) : State :=
  let c := s.prg.ckpt
  let saved := s.pwr.early && c.final.isSome && !c.finalDue && c.writing.isNone
  let s := s.setUpd { s.upd with saved }
  let s := prismPowerLoss { s with sys := { s.sys with powered := false }, rtc := { s.rtc with shift := none } }
  { s with hostp := { s.hostp with irqLow := false } }

/-- HOLDUP_TEST (R512): not started during early warning, an arming or a trial, or a switch-over. -/
def holdupTest (s : State) : State :=
  if bitAt (s.setting19 0xA800) 0 = false ∨ s.pwr.early ∨ s.upd.state = .armed ∨ s.upd.state = .trial ∨ s.switching then s
  else { s with pwr := { s.pwr with testing := true } }

/-- HOLDUP_TEST_END (R512): the time of the fall in µs at 20 mA over 1 V gives C; none where it was abandoned. -/
def holdupTestEnd (us : Option Nat) (s : State) : State :=
  if s.pwr.testing = false then s
  else match us with
    | none => { s with pwr := { s.pwr with testing := false } }.count 0xA848 1
    | some t =>
      let c := t * 20 / 1000
      let s := { s with pwr := { s.pwr with testing := false, holdValid := true, holdUf := c, atNs := s.crsl.upNs } }.count 0xA844 1
      if c < 658 then s.report .warn 21 2 0xFF c else s

/-! ### What a start keeps -/

/-- The bits of a register the configuration store holds: its LK and SH fields (R35, R356). -/
def cfgMask (off : Nat) : W32 :=
  (fieldsOf off).foldl (fun m f => if f.lk || f.sh then m ||| fieldMask f.hi f.lo else m) 0

/-- Register bits that outlive a cold start: configuration, WRAPS in FRAM, FILT in the backup domain. -/
def coldMask (off : Nat) : W32 :=
  if off = 0x1818 then 0xFF else if off = 0x8824 then 0xFF else cfgMask off

/-- Register words that a warm start keeps besides (R63, R358, R363: a snapshot's revolution, its count and its holding pairs; and the fields counted since cold start): overrun and
parity captures, holding registers, task overruns, link statistics, Juggler memory errors, Prism mirror. -/
def warmKeeps (off : Nat) : Bool :=
  decide (off = 0x0834 ∨ off = 0x0838 ∨ off = 0x083C ∨ off = 0x682C) ||
  inFam off 0x0940 4 16 || inFam off 0x4020 4 4 || inFam off 0x2080 4 16 || decide (0x3804 ≤ off ∧ off < 0x4000) ||
  holdMap.any (fun e => inFam off e.2.2.1 4 (2 * e.2.2.2)) || decide (0x6820 ≤ off ∧ off ≤ 0x6828) || decide (off = 0x605C ∨ off = 0x6060)

/-- Register bits that outlive a warm start. -/
def warmMask (off : Nat) : W32 := if warmKeeps off then 0xFFFFFFFF else coldMask off

/-- Registers with only the masked bits kept and the others at reset. -/
def keepRegs (mask : Nat → W32) (m : Sparse W32) : Sparse W32 :=
  m.filterMap fun e =>
    let w := mergeBits (resetWord e.1) (mask e.1) e.2
    if w = resetWord e.1 then none else some (e.1, w)

/-- A record after a start (R72, R151): configured points take 42h until refreshed, forced ones the forced value; a cold start
leaves no other value, and a warm start leaves an output at its safe value there (R485). -/
def State.startRec (s : State) (cold : Bool) (p : Nat) (r : PRec) : PRec :=
  if p ≥ 8064 then (if cold then ({ (defaultRec p) with share := r.share } : PRec).sealed else r)
  else if r.quality = 0xC1 then (if cold then ({ r with value := 0, stamp := 0, chg := 0 } : PRec).sealed else r)
  else
    let f := s.pnt.forces.find? fun e => e.2.point == p
    let v := match f with
      | some e => e.2.value
      | none => if cold then 0 else r.value
    let keep := !cold && isOutput r.src && decide (r.quality = 0x84)
    let fidx := BitVec.ofNat 10 ((f.map fun (x : Nat × _) => x.1).getD 0)
    let v := if keep then r.value else v
    let q : Byte := if keep then 0x84 else 0x42
    let same := !cold && decide (v = r.value ∧ q = r.quality)
    let out : PRec := { r with value := v, quality := q, stamp := if same then r.stamp else s.stampAt 0,
                               chg := if cold then 0 else if same then r.chg else r.chg + 1, forced := f.isSome, fidx := fidx,
                               orphan := (f.map (·.2.orphan)).getD false }
    out.sealed

/-- The point table after a start. -/
def State.startPoints (s : State) (cold : Bool) : State :=
  let points := (s.pnt.points.map fun (e : Nat × PRec) => (e.1, s.startRec cold e.1 e.2)).filter fun (e : Nat × PRec) =>
    decide (e.2 ≠ defaultRec e.1)
  { s with pnt := { s.pnt with points } }

/-- The role a member starts in (R401, R418); TRAP_DELTA is at its Reset value until it founds a pair or joins one (R6, R402). -/
def State.startRole (s : State) : State :=
  let on := s.flag 0x7800 0
  s.setTrap { role := if on then .starting else .off, listenRev := s.rev, member := s.flag 0x7808 27, epoch := s.trap.epoch
              partnerMac := s.trap.partnerMac, barred := s.trap.barred, lastSw := s.trap.lastSw }

/-- The calendar's alignment after a start: RTC_ALIGN and RTC_INC_REV at their Reset values (R6). -/
def State.startRtc (s : State) : State := { s with rtc := { s.rtc with alignState := 0, phase := 0, incRev := 0 } }

/-- The start of PRG_CKPT from the newest complete checkpoint (R147). -/
def State.startCkpt (s : State) : State :=
  let c := s.prg.ckpt
  let s := (s.setFld 0x3014 31 16 (((c.newestRec.map (·.seq)).getD 0) % 65536)).setFld 0x3014 15 15 (c.newest.getD 0)
  s.setFld 0x3014 13 13 (if c.final.isSome then 1 else 0)

/-! ### Failed starts (R486) -/

/-- Days of a date in a running count (R426). -/
def dayNumber (y m d : Nat) : Nat :=
  let y' := if m ≤ 2 then y - 1 else y
  let m' := if m ≤ 2 then m + 9 else m - 3
  365 * y' + y' / 4 - y' / 100 + y' / 400 + (153 * m' + 2) / 5 + d

/-- The calendar as seconds in a running count. -/
def calSeconds (c : List Byte) : Nat :=
  let v := fun i => bcdVal (c.getD i 0)
  ((dayNumber (v 7 * 100 + v 6) (v 5) (v 4) * 24 + v 2) * 60 + v 1) * 60 + v 0

/-- A failed start recorded with its calendar time and the step that failed (R486). -/
def State.noteFailed (s : State) (step : Nat) : State :=
  { s with sys := { s.sys with failedRec := (calSeconds s.rtc.cal :: s.sys.failedRec).take 3, failedRow := s.sys.failedRow + 1,
                               failStep := step } }

/-- The next start enters rescue (R442, R486). -/
def State.rescueDue (s : State) : Bool :=
  decide (s.key.life = .scrapped) || decide (3 ≤ s.sys.failedRow ∧ s.rtc.lowBackup) ||
    (match s.sys.failedRec with
     | [a, _, c] => !s.rtc.lowBackup && decide (a ≤ c + 600 ∧ c ≤ a)
     | _ => false)

/-- The other slot holds a verified image at or above the rollback floor (R487). -/
def State.otherUsable (s : State) : Bool :=
  match s.upd.other with
  | some (v, _) => decide (s.upd.rollback ≤ v)
  | none => false

/-- The image of the other slot runs as the fall-back image (R483 step 5, R487). -/
def State.runOther (s : State) : State :=
  let s := s.setUpd s.upd.swapSlots
  { s with sys := { s.sys with fallbackImg := true } }

/-- A cold start reads the boot record anew: the slot that a fall-back image stood in for is tried again. -/
def State.bootSlot (s : State) : State :=
  if s.sys.fallbackImg ∧ s.upd.other.isSome then s.setUpd s.upd.swapSlots else s

/-- Rescue entered (R487, R499): the control domain does not start, the fall-back image serves, outputs are safe. -/
def State.enterRescue (s : State) : State :=
  let s := if s.sys.fallbackImg = false ∧ s.otherUsable then s.runOther else s
  let s := { s with sys := { s.sys with run := .rescue, rescue := true, outHold := false } }
  (s.setSQ 19 3).raise .critical 19 0x21 0xFF s.sys.failedRec.length

/-! ### Cold start (R483) -/

/-- Images that hold work for Jugglers are activated at a cold start: their tasks run, those of a Juggler that failed its BIST are
stopped (R488). -/
def State.startTasks (s : State) (bad : BitVec 16) : State :=
  { s with
    sys := { s.sys with jugState := (List.range 16).map fun k => if bad.getLsbD k then 2 else 0 }
    prg := { s.prg with tasks := s.prg.tasks.map fun (e : Nat × Task) =>
      if e.2.state = .retired then e
      else (e.1, { e.2 with state := if bad.getLsbD e.2.jug then TaskState.stoppedFault else TaskState.running,
                            lastRun := 0, maxRun := 0 }) } }

/-- What stands of the module when its volatile state is gone and the configuration store and FRAM have been read (R35, R243,
R366, R483 step 6). -/
def State.coldBase (s : State) (res : StartRes) (cause : Nat) : State :=
  let regs := keepRegs coldMask s.regs
  let depth := fun (n : Nat) => bits (sget (resetWord (0x6840 + 4 * n)) regs (0x6840 + 4 * n)) 27 24
  let limit : Int := if s.ledger.limitApplied then s.ledger.limit else ((sget (resetWord 0x1010) regs 0x1010).toNat : Int)
  { State.reset with
    pending := s.pending
    rev := 0
    fuse := s.fuse
    sys := { compat := bitAt (sget 0 regs 0x0008) 0, activeSv := res.sv0Fail, cause, failedRec := s.sys.failedRec,
             failedRow := if 60000000000 ≤ s.sys.runNs then 0 else s.sys.failedRow, failStep := s.sys.failStep,
             coldCnt := satNat 65535 (s.sys.coldCnt + 1), warmCnt := s.sys.warmCnt, ioeBad := res.ioeFail, coreBad := res.sv0Fail || res.sv1Fail,
             cmdOk := true }
    crsl := { absNs := res.timebaseNs, upNs := s.crsl.upNs, period := bits (sget (resetWord 0x0800) regs 0x0800) 1 0 }
    ledger := { cost := s.ledger.cost, quota := s.ledger.quota, limit, limitApplied := s.ledger.limitApplied,
                limitEff := uw limit, shed := s.ledger.shed }
    pnt := { points := s.pnt.points, forces := s.pnt.forces, maps := s.pnt.maps }
    loop := { ctx := s.loop.ctx }
    prg := { tasks := s.prg.tasks, active := s.prg.active, retired := s.prg.retired, durable := s.prg.durable,
             ckpt := { banks := s.prg.ckpt.banks, newest := s.prg.ckpt.newest, final := s.prg.ckpt.final } }
    prsm := { s.prsm with seen := false, seenLog := false, mirrorOk := false, mval := [] }
    can := { entries := s.can.entries }
    fan := s.fan.map fun (f : FanCh) => { base := f.base }
    net := { ifs := s.net.ifs, sc := s.net.sc.map fun (e : Nat × ScNode) =>
      (e.1, { e.2 with interval := 1, second := false, connected := false }) }
    hostp := { queues := (List.range 32).map fun n => { depthLog := depth n } }
    mbx := { nextIdent := s.mbx.nextIdent }
    trap := s.trap
    rtc := { s.rtc with shift := none }
    key := s.key
    upd := s.upd
    flt := { log := s.flt.log, slotNext := s.flt.slotNext, logSeq := s.flt.logSeq, wraps := s.flt.wraps, stream := s.flt.stream }
    dbg := s.dbg
    regs
    posted := []
    free := s.free }

/-- PNT_EPOCH set at a cold start with both words 0 (chapter 03). -/
def State.startEpoch (s : State) : State :=
  if s.reg 0x1810 = 0 ∧ s.reg 0x1814 = 0 then s.setPair 0x1810 (s.crsl.absNs / 1000000000).toNat else s

/-- A start's treatment of an update; the words a fall-back would restore are kept only through a trial. -/
def State.startUpdate (s : State) (kept trialStart : Bool) : State :=
  let t := s.updStart kept trialStart
  if t.upd.state = .trial then t else t.setUpd { t.upd with undo := [] }

/-- A module that no start brought up: only the Prism and backup domains serve (R488). -/
def State.setSysDown (s : State) : State := { s with sys := { s.sys with powered := false } }

/-- Control runs from a cold start of this cause on (R482, R483 step 8). -/
def State.runsFrom (s : State) (cause : Nat) : State := { s with sys := { s.sys with run := .running, powered := true, cause } }

/-- COLD_START (R482 to R488): `cause` 0h to 2h. -/
def coldStart (cause : Nat) (res : StartRes) (s : State) : State :=
  let kept := s.upd.saved && decide (cause = 0)
  if res.clockFail ∨ res.ringmasterFail ∨ (res.sv0Fail ∧ res.sv1Fail) then
    (s.noteFailed (if res.clockFail then 1 else 2)).setSysDown
  else
    let wasRescue := s.sys.rescue
    let s := if wasRescue then { s with sys := { s.sys with failedRec := [], failedRow := 0 } } else s
    let due := s.rescueDue
    let s := s.bootSlot.coldBase res cause
    let bist := res.sv0Fail || res.sv1Fail || res.sharedFail || decide (res.jugglerFail ≠ 0) || decide (res.ioeFail ≠ 0)
    let s := if bist then s.raise .fault 19 0x22 0xFF 2 else s
    let s := if cause ≤ 1 then s.scRestart res.rootFail else s
    let s := s.keyStart res.jrnA res.jrnB
    let rom := res.imageFail && !s.otherUsable
    let s := if res.imageFail then
        let s := s.noteFailed 5
        let s := if rom then { s with sys := { s.sys with romOnly := true } } else s.runOther
        s.raise .fault 19 0x22 0xFF 5
      else s
    let s := s.startUpdate kept false
    let s := ((s.restore 0).startPoints true).startEpoch
    let s := (s.startCkpt).startTasks res.jugglerFail
    let s := (List.range 16).foldl (fun (s : State) k =>
      if res.jugglerFail.getLsbD k then s.raise .fault 19 0x2D 0xFF (k * 256 + 3) else s) s
    let s := if s.rtc.lost then (rtcInit s).backupRootLost else s
    let s := s.rtcStart.startRole.startRtc
    if due ∨ res.sharedFail ∨ rom then s.periodCheck.enterRescue.driveSafe
    else (s.periodCheck.raise .note 19 0x20 0xFF cause).runsFrom cause

/-! ### Warm start (R484, R485) -/

/-- A warm start of this cause is carried out, and is no longer asked for (R482, R484). -/
def State.warmed (s : State) (cause : Nat) : State := { s with sys := { s.sys with cause, warm := true, startReq := none } }

/-- CTRL_OK and CMD_OK leave 1 when a warm start resets the engines and cores, and come back with the first revolution: two changes
of each (R34). -/
def State.pausedFrom (t s : State) : State :=
  let t := if s.ctrlOk && t.ctrlOk then (t.setSQ 0 16).setSQ 0 16 else t
  if s.sys.cmdOk && t.sys.cmdOk then (t.setSQ 0 16).setSQ 0 16 else t

/-- A WARM_START command that acts: its start was asked for, or an update asks for cause 6h (R477, R482). -/
def State.warmActs (s : State) (cause : Nat) : Bool :=
  if cause = 6 then s.paired && (s.upd.backDue || decide (s.upd.state = .verified ∨ s.upd.state = .armed))
  else decide (s.sys.startReq = some cause)

/-- The outputs that a warm start leaves at their safe values: those whose records it leaves at 84h (R485). -/
def State.keptSafe (s : State) : List Nat := s.pnt.safeNow.filter fun p => decide ((s.point p).quality = 0x84)

/-- The express buffers' RESULT and REPL at their Reset column (R6); the frames stay (R366), and the buses keep their error state
(R484). -/
def Can.atWarm (c : Can) : Can :=
  { c with bus := c.bus.map fun (u : CanBus) =>
      { u with express := u.express.map fun (e : Express) => { e with result := 0, repl := 0 } } }

/-- The counts of the final save that a warm start writes (R163, R484): it, its pages, and a checkpoint that it ends. -/
def State.warmSaved (s : State) (r : Retentive) : State :=
  let s := if s.prg.ckpt.writing.isSome && !s.prg.ckpt.writingFinal then s.count 0x30A0 1 else s
  (s.count 0x30A4 1).count 0x30A8 r.pages

/-- WARM_START (R484 to R487): `cause` 3h to 6h, carried out when it was asked for; cause 6h when an update asks. DESIGN CHOICE: the
status registers keep their SQ fields, SEQ and STALE, as the counters keep their counts; no Meaning says what a warm start leaves there
(R6). Unsafe (log entry 116). -/
def warmStart (cause : Nat) (s : State) : State :=
  if s.warmActs cause = false then s
  else
    let before := s
    let short := decide (s.sys.runNs < 60000000000)
    let s := if (cause = 4 ∨ cause = 5) ∧ short then s.noteFailed 0
      else { s with sys := { s.sys with failedRow := 0 } }
    let due := s.sys.rescue || s.rescueDue
    let final := (s.prg.ckpt.newestSeq, s.retentive s.prg.ckpt.newestSeq)
    let s := s.warmSaved final.2
    let s := s.restartAll.endSpots 5
    let hold := s.sys.thermalHold && !due
    let s := { s with
      sys := { s.sys with run := if hold then .stopped else .running, cause, warm := true, rescue := due, startReq := none, coreDue := false,
                          outHold := true, runNs := 0, warmCnt := satNat 65535 (s.sys.warmCnt + 1), cmdOk := true,
                          parityHold := 0, parityDue := 0, compat := s.flag 0x0008 0 }
      crsl := { s.crsl with moves := [], noRoom := [], pre := none, late := [], releaseSafe := [], ovrDue := false }
      ledger := ({ s.ledger with limit := if s.ledger.limitApplied then s.ledger.limit else ((s.reg 0x1010).toNat : Int) } : Ledger).fresh
      pnt := { s.pnt with netq := [], crcFound := [], unforced := [], heldBack := [], safeNow := s.keptSafe }
      loop := { s.loop with spots := List.replicate 4 {} }
      prg := { s.prg with ckpt := { s.prg.ckpt with final := some final, writing := none, writingFinal := false, waiting := none, finalDue := false } }
      pwr := { s.pwr with pMw := 0, tj10 := 0, measured := false }
      posted := s.posted.filter fun e => decide (e.1 < 100)
      fioGrp := s.fioGrp.map fun (g : FioGrp) => { g with newPending := none, newSent := false }
      fioCh := s.fioCh.map FioCh.atStart
      ui := List.replicate 16 {}
      can := s.can.atWarm
      net := { s.net with mpd := 0, logSync := 0 }
      hostp := { s.hostp with paths := serase s.hostp.paths 0, dout := [], shutMask := 0, hiLatch := [], prsmLatch := none }
      flt := { s.flt with queue := [], handling := none, critical := none, suspended := false, nest := false, faultsSince := 0,
                          criticalSince := false }
      regs := (keepRegs warmMask s.regs)
      image := []
      shadow := [] }
    let s := { s with mbx := { s.mbx with slotsMax := 0 } }.setReg 0x6808 0
    let s := (s.keyStart false false).startUpdate false (decide (cause = 6 ∧ s.upd.backDue = false))
    let s := ((s.restore s.rev).startPoints false).startCkpt
    let s := s.rtcStart.startRole.startRtc
    let s := if s.paired then s.dropServices else s
    let s := if due then s.periodCheck.enterRescue.driveSafe else s.periodCheck.raise .note 19 0x20 0xFF cause
    (s.pausedFrom before).warmed cause

/-- WARM_START_HOLD_EXPIRY (R485): no Commit by 300 ms. -/
def warmStartHoldExpiry (s : State) : State :=
  if s.sys.outHold then
    { s with sys := { s.sys with outHold := false } }.driveSafe.dropFrames
  else s

/-- SYS_RESET (R482): KEY 5253h asks for the start its KIND names; another value is ignored. -/
def sysReset (v : W32) (s : State) : State :=
  if bits v 31 16 = 0x5253 then { s with sys := { s.sys with startReq := some (if bitAt v 0 then 3 else 2) } } else s

/-- A COLD_START command that acts: the reset input needs a powered module, SYS_RESET must have asked. -/
def State.coldActs (s : State) (cause : Nat) : Bool :=
  !decide ((cause = 1 ∧ s.sys.powered = false) ∨ (cause = 2 ∧ s.sys.startReq ≠ some 2))

/-- A cold start whose steps 1 and 2 hold, so that it reaches the configuration (R483, R488). -/
def startBringsUp (r : StartRes) : Bool := !(r.clockFail || r.ringmasterFail || (r.sv0Fail && r.sv1Fail))

/-- COLD_START as a command: the reset input and SYS_RESET act on a powered module, a rise of the supply brings up one that was
not. -/
def coldStartCmd (cause : Nat) (res : StartRes) (s : State) : State :=
  if s.coldActs cause = false then s
  else
    let s := { s.draw with sys := { s.sys with powered := true } }
    coldStart cause res s

end Sys2Proof.Machine
end

