-- ==== Sys2Proof/Machine/Points.lean ====
section
/-! DEFINITION. The 0200h group (R387): reads and writes of points by command, forces (R87, R88), config accesses (R82) and
the binding of the point window (R89); and what applies of them at a boundary. -/

namespace Sys2Proof.Machine

/-- A command that waits and will change a point (R385). -/
def State.slotOnPoint (s : State) (x : Slot) (p : Nat) : Bool :=
  match x.wait with
  | .config q _ _ _ _ _ _ => q == p
  | .force q _ => q == p
  | .unforce q => q == p
  | .intake => s.pnt.netq.any fun r => r.slot == some x.ident && r.writes.any fun w => w.point == p
  | _ => false

/-- A command accepted before `ident` has yet to take effect on one of the points. -/
def State.pointsPending (s : State) (ident : Nat) (ps : List Nat) : Bool :=
  s.mbx.slots.any fun x => decide (x.ident < ident) && ps.any fun p => s.slotOnPoint x p

/-- Points first to first + count − 1. -/
def pointRange (first count : Nat) : List Nat := (List.range count).map fun i => first + i

/-- The answer to POINT_READ: records, or substitutes (R80, R387). -/
def State.pointsData (s : State) (booth first count : Nat) : State × List Byte :=
  let (s, rs) := s.taskReads booth (pointRange first count)
  (s, rs.flatMap fun r => bytesOf32 r.words)

/-- POINT_READ (R387): it waits for earlier commands on its points (R385). -/
def cmdPointRead (h : Hdr) (first count : Nat) (s : State) : State :=
  runCmd h { opcode := 0x0201, maxData := 32 * count
             bad := if 8191 < first then some 0 else if count = 0 ∨ 64 < count ∨ 8192 < first + count then some 2 else none }
    (fun s =>
      if s.pointsPending s.mbx.nextIdent (pointRange first count) then .later (.points first count) s
      else
        let (s, d) := s.pointsData (s.boothOf h) first count
        okRes d s) s

/-- The payload offset of the first point of a POINT_WRITE beyond the table. -/
def badWrite : List PWrite → Nat → Option Nat
  | [], _ => none
  | w :: t, off => if 8191 < w.point then some off else badWrite t (off + 16)

/-- POINT_WRITE (R387, R146): queued for Intake whole. The spec gives no reason code for more writes than NET_WR_MAX. -/
def cmdPointWrite (h : Hdr) (writes : List PWrite) (s : State) : State :=
  runCmd h { opcode := 0x0202, maxData := writes.length, changes := true
             bad := if writes.isEmpty ∨ 64 < writes.length then some 0 else badWrite writes 8 }
    (fun s =>
      if s.fld 0x0800 19 10 < writes.length then .now 0x0E (s.drawn.toNat % 65536) [] 0 (s.count 0x30B8 1)
      else .later .intake { s with pnt := { s.pnt with netq := s.pnt.netq ++
        [{ slot := some s.mbx.nextIdent, window := false, booth := BitVec.ofNat 8 (s.boothOf h), writes, rev := s.rev }] } }) s

/-- The forced points once every force command already accepted has taken effect. -/
def State.forcesAfter (s : State) : List Nat :=
  s.mbx.slots.foldl (fun l x => match x.wait with
    | .force p _ => if p ∈ l then l else p :: l
    | .unforce p => l.filter fun q => q != p
    | _ => l) (s.pnt.forces.map fun e => e.2.point)

/-- FORCE_SET (R87, R88, R387). DESIGN CHOICE: a full table answers BUSY before the access check of R79, which would answer DENIED; the
spec orders the two nowhere. Unsafe (log entry 139). -/
def cmdForceSet (h : Hdr) (p : Nat) (v : W64) (s : State) : State :=
  runCmd h { opcode := 0x0203, maxData := 8, changes := true, bad := if 8191 < p then some 0 else none }
    (fun s =>
      if p ∉ s.forcesAfter ∧ 1024 ≤ s.forcesAfter.length then .now 0x0D 1 [] 0 (s.setSQ 3 3)
      else match s.check (s.boothOf h) .force p false false with
        | .allow => .later (.force p v) s
        | r => .now 9 p [] 0 (s.noteDenial (s.boothOf h) .force p r)) s

/-- FORCE_CLEAR (R88, R387). -/
def cmdForceClear (h : Hdr) (p : Nat) (s : State) : State :=
  runCmd h { opcode := 0x0204, maxData := 8, changes := true, bad := if 8191 < p then some 0 else none }
    (fun s => match s.check (s.boothOf h) .force p false false with
      | .allow => .later (.unforce p) s
      | r => .now 9 p [] 0 (s.noteDenial (s.boothOf h) .force p r)) s

/-- A config access would change a field other than SHARE. DESIGN CHOICE: one that changes no field of a system point is allowed, as R71
reads; the words f <> SHARE of R79 would deny it. Unsafe (log entry 140). -/
def State.changesOther (s : State) (p : Nat) (owner : Byte) (typ src : BitVec 4) (unit : BitVec 16) : Bool :=
  let r := s.point p
  decide (r.owner ≠ owner ∨ r.typ ≠ typ ∨ r.src ≠ src ∨ r.unit ≠ unit)

/-- R82 refuses a change of OWNER under a writer of another booth. -/
def State.ownerRefused (s : State) (p : Nat) (owner : Byte) : Bool :=
  decide (s.ownerAfter p ≠ owner.toNat) && (s.futureWriters p none none).any fun b => b != owner.toNat

/-- POINT_CONFIG (R71, R82, R387). DESIGN CHOICE: one that the opcode's booth check refuses is no denial of R80 and is not counted there.
Unsafe (log entry 141). -/
def cmdPointConfig (h : Hdr) (p : Nat) (owner : Byte) (typ src : BitVec 4) (share unit : BitVec 16) (s : State) : State :=
  runCmd h { opcode := 0x0205, maxData := 8, changes := true, denied := !s.landlord h
             bad := if 8191 < p then some 0 else if 8 < typ.toNat ∨ 12 < src.toNat then some 3 else none
             refuse := if s.ownerRefused p owner then some 1 else none }
    (fun s => match s.check (s.boothOf h) .config p false (s.changesOther p owner typ src unit) with
      | .allow => .later (.config p owner typ src share unit s.dueNow) s
      | r => .now 9 p [] 0 (s.noteDenial (s.boothOf h) .config p r)) s

/-- WINDOW_BIND (R89, R387). -/
def cmdWindowBind (h : Hdr) (s : State) : State :=
  let n := h.session.val
  runCmd h { opcode := 0x0206, denied := decide (4 ≤ n)
             busy := if s.pnt.winSession.isSome ∧ s.pnt.winSession ≠ some n then some 0 else none }
    (fun s => okRes [] { s with pnt := { s.pnt with winSession := some n
                                                    winStage := if s.pnt.winSession = some n then s.pnt.winStage else none } }) s

/-- WINDOW_UNBIND (R387). -/
def cmdWindowUnbind (h : Hdr) (s : State) : State :=
  runCmd h { opcode := 0x0207, denied := decide (s.pnt.winSession ≠ some h.session.val) }
    (fun s => okRes [] { s with pnt := { s.pnt with winSession := none, winStage := none } }) s

/-- The entries of the force table that a FORCE_LIST returns (R387): those of its index range that the booth may read. -/
def State.forcesData (s : State) (booth first count : Nat) : List Byte :=
  (s.pnt.forces.filter fun e => decide (first ≤ e.1 ∧ e.1 < first + count) &&
      decide (s.check booth .read e.2.point false false = .allow)).flatMap fun e =>
    leBytes 2 e.2.point ++ [e.2.setter, BitVec.ofNat 8 e.2.orphan.toNat] ++ leBytes 4 0 ++ leBytes 8 e.2.value.toNat

/-- A force command accepted before `ident` has yet to take effect. -/
def State.forcesPending (s : State) (ident : Nat) : Bool :=
  s.mbx.slots.any fun x => decide (x.ident < ident) && match x.wait with
    | .force _ _ => true
    | .unforce _ => true
    | .config _ _ _ _ _ _ _ => true
    | _ => false

/-- FORCE_LIST (R387). -/
def cmdForceList (h : Hdr) (first count : Nat) (s : State) : State :=
  runCmd h { opcode := 0x0208, maxData := 16 * count
             bad := if 1023 < first then some 0 else if count = 0 ∨ 64 < count then some 2 else none }
    (fun s =>
      if s.forcesPending s.mbx.nextIdent then .later (.forces first count) s
      else okRes (s.forcesData (s.boothOf h) first count) s) s

/-! ### At a boundary -/

/-- The lowest free index of the force table. -/
def State.freeForce (s : State) : Option Nat := idxWhere 1024 fun i => (s.force i).isNone

/-- What a primary sends its standby of a force applied at a boundary (R407). -/
def State.mirrorForce (s : State) (p : Nat) (v : Option W64) (setter : Byte) : State :=
  s.noteOut fun (c : SyncChange) => { c with forces := c.forces ++ [{ point := p, value := v, setter }] }

/-- The record of a point as its force is entered in the Guard window (R39, R73, R88): VALUE is the forced one and an output takes
the quality of its channel, but an output at its safe value keeps both under order 1 of R25, and so does one in state 85h, which the
Commit puts there (R93). A software point leaves 43h with the request that the force drops. -/
def State.forcedRec (s : State) (p : Nat) (e : Force) (i : Nat) : PRec :=
  let r := s.readRec p
  let n : PRec := { r with forced := true, fidx := BitVec.ofNat 10 i, stamp := e.stamp, orphan := e.orphan }
  if isOutput r.src then
    (if s.heldSafe p ∨ r.quality = 0x85 then n else { n with value := e.value, quality := s.outQuality p })
  else { n with value := e.value, quality := if r.quality = 0x43 then 0 else r.quality }

/-- What a force on an output or software point moves enters HELD in the next Commit, and its request is dropped (R230, R233). -/
def State.chargeForce (s : State) (p : Nat) (v : W64) : State :=
  if commitSrc (s.point p).src = false ∨ (isOutput (s.point p).src && s.heldSafe p) then s
  else
    let c := s.moveCost p v
    let s := s.dropReq p
    if c = 0 then s
    else { s with ledger := { s.ledger with arb := { s.ledger.arb with
            held := s.ledger.arb.held ++ [{ rev := s.rev + 1, cost := c }] } } }

/-- The entry that a force of a point takes: its own, else the lowest free one. -/
def State.forceIndex (s : State) (p : Nat) : Option Nat :=
  if (s.readRec p).forced then some (s.readRec p).fidx.toNat else s.freeForce

/-- A force entered at index i of the force table (R87, R88): every reader sees it at once, the field at the next Commit. -/
def State.enterForce (s : State) (p : Nat) (v : W64) (setter : Byte) (i : Nat) (ts : Stamp) : State :=
  let old := s.force i
  let e : Force := { point := p, value := v, live := (old.map fun (f : Force) => f.live).getD (s.lastSupplied p), setter,
                     stamp := ts, orphan := ((old.map fun (f : Force) => f.orphan).getD false) }
  let s := { s with pnt := { s.pnt with forces := sput s.pnt.forces i e, unforced := s.pnt.unforced.filter fun u => u.1 != p } }
  (s.chargeForce p v).writeRec p (s.forcedRec p e i)

/-- A force cleared (R88): the live value follows in the next Intake or Commit. -/
def State.leaveForce (s : State) (p : Nat) (ts : Stamp) : State :=
  let r := s.readRec p
  let i := r.fidx.toNat
  let live := (s.force i).map fun (f : Force) => f.live
  let s := { s with pnt := { s.pnt with forces := serase s.pnt.forces i, unforced := s.pnt.unforced ++ [(p, live)] } }
  s.writeRec p { r with forced := false, fidx := 0, orphan := false, stamp := ts }

/-- A force entered at boundary b for a command (R87, R88). -/
def State.applyForce (s : State) (x : Slot) (p : Nat) (v : W64) (b : Nat) : State :=
  match s.check x.booth.toNat .force p false false with
  | .allow =>
    let s := s.verifyRead p
    match s.forceIndex p with
    | none => (s.setSQ 3 3).complete x 0x0D 1 []
    | some i =>
      let s := s.enterForce p v x.booth i (s.stampAt 0)
      ((s.mirrorForce p (some v) x.booth).count 0x1898 1).complete x 0 0 (leBytes 8 b)
  | r => (s.noteDenial x.booth.toNat .force p r).complete x 9 p []

/-- A force cleared at boundary b for a command (R88). -/
def State.applyUnforce (s : State) (x : Slot) (p : Nat) (b : Nat) : State :=
  match s.check x.booth.toNat .force p false false with
  | .allow =>
    let s := s.verifyRead p
    if (s.readRec p).forced then
      let s := s.leaveForce p (s.stampAt 0)
      ((s.mirrorForce p none x.booth).count 0x189C 1).complete x 0 0 (leBytes 8 b)
    else s.complete x 0 0 (leBytes 8 b)
  | r => (s.noteDenial x.booth.toNat .force p r).complete x 9 p []

/-- A record takes the configuration of a config access (R71, R82): it brings an unused point into use; a PRISM point has no source on
the LYF-8192-MN and reads C1h (R70). -/
def State.takeConf (s : State) (c : SyncConf) (ts : Stamp) : State :=
  let p := c.point
  let s := s.verifyRead p
  let r := s.readRec p
  let s := if r.owner ≠ c.owner then s.count 0x18BC 1 else s
  let n : PRec := { r with owner := c.owner, typ := c.typ, src := c.src, share := c.share, unit := c.unit }
  let n : PRec := if r.quality = 0xC1 ∧ p < 8064 then { n with value := 0, stamp := ts, quality := 0x42 } else n
  let n : PRec := if c.src = 6 ∧ s.isMr = false ∧ p < 8064 then { n with stamp := ts, quality := 0xC1 } else n
  (s.writeRec p n).count 0x089C 1

/-- A config access applied at boundary b for a command (R82). -/
def State.applyConfig (s : State) (x : Slot) (p : Nat) (owner : Byte) (typ src : BitVec 4) (share unit : BitVec 16) (b : Nat) :
    State :=
  let c : SyncConf := { point := p, owner, typ, src, share, unit }
  ((s.takeConf c (s.stampAt 0)).noteOut fun (o : SyncChange) => { o with confs := o.confs ++ [c] }).complete x 0 0 (leBytes 8 b)

end Sys2Proof.Machine
end

