-- ==== Sys2Proof/Machine/Works.lean ====
section
/-! DEFINITION. The 0300h, 0400h and 0500h groups (R388 to R390): loops and Spotlight, images, Switchback and tasks, the ledger's
commands; and the house steps of R247. -/

namespace Sys2Proof.Machine

/-! ### Loops (R388) -/

/-- The booth may read or command a context: 0, 255, or its owner; a context without a loop has none (R388). -/
def State.ctxBooth (s : State) (h : Hdr) (c : Nat) : Bool :=
  s.landlord h || ((s.ctx c).inUse && decide ((s.ctx c).owner = s.boothOf h))

/-- A context as LOOP_READ returns it: 64 words, 0 where it holds no loop (R96). -/
def LoopCtx.bytes (c : LoopCtx) : List Byte := bytesOf32 ((List.range 64).map c.w)

/-- A command accepted before `ident` has yet to change the context. -/
def State.ctxPending (s : State) (ident c : Nat) : Bool :=
  s.mbx.slots.any fun x => decide (x.ident < ident) && match x.wait with
    | .load q _ => q == c
    | .mode q _ _ => q == c
    | .permit q _ _ => q == c
    | .spotStart q _ => q == c
    | .spotStop k => (s.spot k).ctx == c
    | _ => false

/-- LOOP_READ (R388). -/
def cmdLoopRead (h : Hdr) (c : Nat) (s : State) : State :=
  runCmd h { opcode := 0x0301, maxData := 256, denied := !s.ctxBooth h c, bad := if 511 < c then some 0 else none }
    (fun s =>
      if s.ctxPending s.mbx.nextIdent c then .later (.loopRead c) s else okRes (s.ctx c).bytes s) s

/-- The payload offset of the first word of a load that R97, R100, R101 or R113 refuses; words 0 to 23 are one field of the payload (R388) for R101 and R113. -/
def State.loadBad (s : State) (c : Nat) (ws : List W32) : Option Nat :=
  if 511 < c then some 0
  else if bits (ws.getD 0 0) 31 30 = 3 then some 4
  else match badWord ws with
    | some w => some (4 + 4 * w)
    | none => if s.ctxOk ws then none else some 4

/-- Only booth 0 changes the OWNER of a context in use (R388). -/
def State.loadDenied (s : State) (h : Hdr) (c : Nat) (ws : List W32) : Bool :=
  !s.ctxBooth h c ||
    (decide (s.boothOf h ≠ 0) && (s.ctxAfter c).inUse && decide ((s.ctxAfter c).owner ≠ ({ words := ws } : LoopCtx).owner))

/-- A second writer, or an output point of another booth (R24, R77, R388). -/
def State.loadRefused (s : State) (c : Nat) (ws : List W32) : Bool :=
  let n : LoopCtx := { words := ws }
  !(s.everWriters n.outPoint (some c) none).isEmpty || decide (s.ownerAfter n.outPoint ≠ n.owner)

/-- What R384 judges of a LOOP_LOAD. -/
def State.loadSpec (s : State) (h : Hdr) (c : Nat) (ws : List W32) : CmdSpec :=
  { opcode := 0x0302, maxData := 8, changes := true, denied := s.loadDenied h c ws
    bad := s.loadBad c ws, refuse := if s.loadRefused c ws then some 4 else none }

/-- A load refused with BAD_PARAM because the context fails R101 or R113. -/
def State.gainFails (s : State) (h : Hdr) (c : Nat) (ws : List W32) : Bool :=
  let x := s.loadSpec h c ws
  s.canTake h x && decide ((s.firstFail h x).map (·.1) = some 8 ∧ c ≤ 511 ∧ bits (ws.getD 0 0) 31 30 ≠ 3 ∧ badWord ws ≠ some 1)

/-- LOOP_LOAD (R113, R388): a failure of R101 or R113 sets GAIN_REJ. -/
def cmdLoopLoad (h : Hdr) (c : Nat) (ws : List W32) (s : State) : State :=
  let t := runCmd h (s.loadSpec h c ws) (fun s => .later (.load c ws) s) s
  if s.gainFails h c ws then (t.setSQ 5 6).count 0x28BC 1 else t

/-- LOOP_MODE (R388). -/
def cmdLoopMode (h : Hdr) (c mode : Nat) (manOut : W32) (s : State) : State :=
  runCmd h { opcode := 0x0303, maxData := 8, changes := true, denied := !s.ctxBooth h c
             bad := if 511 < c then some 0 else if 2 < mode then some 2 else none }
    (fun s => .later (.mode c mode manOut) s) s

/-- SPOT_PERMIT set or withdrawn by a booth (R121): the loop's own permission is that of its own booth. -/
def permitRes (c permit : Nat) (b : Byte) (s : State) : Res :=
  let own := decide ((s.ctx c).owner = b.toNat)
  okRes [] (if (s.ctx c).inUse then s.setCtx c { s.ctx c with
    permit := decide (permit = 1), permitOwn := decide (permit = 1) && (own || (s.ctx c).permitOwn) } else s)

/-- SPOT_PERMIT (R121, R388): the loop's own booth, and booth 255, whose permission opens no test to booth 0. -/
def cmdSpotPermit (h : Hdr) (c permit : Nat) (s : State) : State :=
  let own := (s.ctx c).inUse && decide ((s.ctx c).owner = s.boothOf h)
  runCmd h { opcode := 0x0304, changes := true, denied := !(own || decide (s.boothOf h = 255))
             bad := if 511 < c then some 0 else if 1 < permit then some 2 else none }
    (fun s => if s.ctxPending s.mbx.nextIdent c then .later (.permit c permit h.booth) s else permitRes c permit h.booth s) s

/-- A booth that R121 lets start or stop a test on a context. -/
def State.spotBooth (s : State) (h : Hdr) (c : Nat) : Bool :=
  let x := s.ctx c
  x.inUse && (decide (s.boothOf h = x.owner) || (decide (s.boothOf h = 0) && x.permit && x.permitOwn))

/-- F0 or F1 above 0.25 / T (R122). -/
def State.tooFast (s : State) (c : Nat) (f : W32) : Bool := decide (65536 * 1000000 < 4 * s32 f * (s.loopUs (s.ctx c) : Int))

/-- The payload offset of the first field of SPOT_START out of its range (R122, R123, R388). -/
def State.spotBad (s : State) (c : Nat) (p : SpotParams) : Option Nat :=
  if 511 < c then some 0
  else if 2 < p.signal then some 2
  else if 2 < p.target then some 3
  else if 3 < p.queue then some 4
  else if p.signal = 1 ∧ (p.order < 5 ∨ 12 < p.order) then some 5
  else if p.samples = 0 ∨ 4096 < p.samples then some 6
  else if 1023 < p.pre ∨ p.samples ≤ p.pre then some 8
  else if p.signal = 1 ∧ (p.hold = 0 ∨ 255 < p.hold) then some 10
  else if p.signal = 2 ∧ s.tooFast c p.f0 then some 16
  else if p.signal = 2 ∧ s.tooFast c p.f1 then some 20
  else none

/-- A slot free for a test. -/
def State.freeSpot (s : State) : Option Nat := idxWhere 4 fun k => decide ((s.spot k).state ≠ 1)

/-- The reason of R121 that refuses a start, by its position; a start while Spotlight is shed has no code (R247). -/
def State.spotRefused (s : State) (c : Nat) : Option Nat :=
  let x := s.ctx c
  if s.freeSpot.isNone then some 1
  else if x.mode = 0 ∨ x.mode = 3 then some 2
  else if s.flag 0x2800 0 = false then some 3
  else if 600 * 2 ^ s.crsl.period < s.fld (0x0840 + 4 * (c / 32)) 15 0 then some 4
  else s.openDetail (decide (3 ≤ s.ledger.house))

/-- A number with a bit set for each true place, bit 0 first. -/
def maskOf (l : List Bool) : Nat := (l.zipIdx.map fun e => if e.1 then 2 ^ e.2 else 0).sum

/-- A capture packet (R126). -/
def SpotBuf.packet (b : SpotBuf) : List W64 :=
  let hdr := b.ctx * 2 ^ 55 + b.signal * 2 ^ 52 + b.target * 2 ^ 50 + b.first * 2 ^ 38 + b.samples.length * 2 ^ 32 +
    b.rev % 2 ^ 32
  let body := b.samples.map fun e => (e.1 ++ e.2 : W64)
  [BitVec.ofNat 64 hdr] ++ body ++ List.replicate (32 - b.samples.length) 0 ++
    [BitVec.ofNat 64 (maskOf b.deferred * 2 ^ 32 + maskOf b.clamped)]

/-- SPOT_PACKET_FORWARD (R126, R127): the oldest complete packet of a slot moved to its queue, or dropped for want of room. -/
def State.spotForward (s : State) (k : Nat) : State :=
  let x := s.spot k
  match x.full with
  | [] => s
  | b :: t =>
    let s := s.setSpot k { x with full := t }
    let ws := b.packet
    if s.qRoom (8 + b.queue) ws.length then s.produce (8 + b.queue) ws
    else (s.setSQ 5 1).count 0x28B8 1

/-- A test started in the first free slot; packets of the slot's earlier tests keep their places. -/
def spotStartRes (c : Nat) (p : SpotParams) (s : State) : Res :=
  match s.spotRefused c with
  | some d => refusedRes d s
  | none =>
    let k := s.freeSpot.getD 0
    let x : Spot := { state := 1, ctx := c, params := p, lfsr := 2 ^ p.order - 1, bias := (s.ctx c).w 31
                      full := (s.spot k).full, old := (s.spot k).old }
    let s := (s.setSpot k x).count 0x28A8 1
    okRes [BitVec.ofNat 8 k] (s.setCtx c ((s.ctx c).status 9 true).sealed)

/-- SPOT_START (R121 to R124, R388), after the earlier commands on its context (R385). -/
def cmdSpotStart (h : Hdr) (c : Nat) (p : SpotParams) (s : State) : State :=
  runCmd h { opcode := 0x0305, maxData := 1, changes := true, denied := !s.spotBooth h c
             bad := s.spotBad c p, refuse := if s.ctxPending (s.mbx.nextIdent + 1) c then none else s.spotRefused c }
    (fun s => if s.ctxPending s.mbx.nextIdent c then .later (.spotStart c p) s else spotStartRes c p s) s

/-- SPOT_STOP (R121, R125), after the earlier commands on the slot's context (R385): cause 1h. -/
def cmdSpotStop (h : Hdr) (slot : Nat) (s : State) : State :=
  runCmd h { opcode := 0x0306, changes := true
             denied := decide ((s.spot slot).state = 1) && !s.spotBooth h (s.spot slot).ctx
             bad := if 3 < slot then some 0 else none }
    (fun s => if s.ctxPending s.mbx.nextIdent (s.spot slot).ctx then .later (.spotStop slot) s else okRes [] (s.endSpot slot 1)) s

/-! ### Programs (R389) -/

/-- "Image booth" of R389: the booth named is the session's, or the session is of booth 0 or 255. -/
def State.notImageBooth (s : State) (h : Hdr) (booth : Nat) : Bool := !s.boothIs h booth

/-- Bytes placed in a staging slot; a byte between that nothing has written reads 00h. -/
def stageBytes (old : List Byte) (off : Nat) (b : List Byte) : List Byte :=
  old.take off ++ List.replicate (off - old.length) 0 ++ b ++ old.drop (off + b.length)

/-- A command accepted before `ident` has yet to change a booth's images (R385). -/
def State.imagePending (s : State) (ident booth : Nat) : Bool :=
  s.mbx.slots.any fun x => decide (x.ident < ident) && match x.wait with
    | .image b _ _ => b == booth
    | .stage b _ _ _ => b == booth
    | .arm b _ _ _ => b == booth
    | .disarm b => b == booth
    | .releaseImage b => b == booth
    | .taskStop i => (s.task i).booth == booth
    | .taskRestart i => (s.task i).booth == booth
    | _ => false

/-- Bytes staged, and sent to a standby by a primary (R407). -/
def stageRes (booth slot off : Nat) (bytes : List Byte) (s : State) : Res :=
  let new := stageBytes (sget [] s.prg.staged slot) off bytes
  let s := { s with prg := { s.prg with staged := sset [] s.prg.staged slot new } }
  okRes [] (s.noteOut fun (c : SyncChange) => { c with stages := c.stages ++ [({ booth, slot, off, bytes } : SyncStage)] })

/-- IMAGE_STAGE (R132, R389), after the earlier commands on the booth's images (R385). -/
def cmdImageStage (h : Hdr) (booth slot off : Nat) (bytes : List Byte) (s : State) : State :=
  runCmd h { opcode := 0x0401, changes := true, denied := s.notImageBooth h booth
             bad := if 254 < booth then some 0 else if 7 < slot then some 1 else if 1048576 < off + bytes.length then some 4 else none }
    (fun s => if s.imagePending s.mbx.nextIdent booth then .later (.stage booth slot off bytes) s
      else stageRes booth slot off bytes s) s

/-- A booth's active image is suspended (R144). -/
def State.suspended (s : State) (booth : Nat) : Bool :=
  s.prg.tasks.any fun e => e.2.booth == booth && e.2.state == .suspendedPeriod

/-- A booth that IMAGE_LOAD may serve: without an active image, or with a suspended one, and no load waiting (R389). -/
def State.loadable (s : State) (booth : Nat) : Bool :=
  (s.imageAfter booth).isNone || (s.suspended booth && !s.mbx.slots.any fun x => match x.wait with
    | .image b _ _ => b == booth
    | _ => false)

/-- IMAGE_LOAD (R136, R144, R389): the spec gives no reason code for a booth with a running image. -/
def cmdImageLoad (h : Hdr) (booth slot : Nat) (s : State) : State :=
  runCmd h { opcode := 0x0402, maxData := 8, changes := true, denied := s.notImageBooth h booth
             bad := if 254 < booth then some 0 else if 7 < slot then some 1 else none, refuse := s.openDetail (!s.loadable booth) }
    (fun s =>
      let img := parseImage (sget [] s.prg.staged slot)
      match s.imageReason booth (s.boothOf h) s.rev img false, img with
      | some r, _ => .now 0x0E r [] 0 (s.imageRefused r)
      | none, some i => .later (.image booth slot i) s
      | none, none => .now 0x0E 1 [] 0 s) s

/-- The boundary an SWB_ARM names, and whether it is late (R153, R377). -/
def State.swbBoundary (s : State) (eff : Option W64) (b : W64) : Nat × Bool :=
  match eff with
  | some e => s.boundaryFor e
  | none => (b.toNat, false)

/-- A boundary that R153 refuses: less than 16 revolutions ahead, or with four exchanges armed for it. -/
def State.swbTooSoon (s : State) (b : Nat) : Bool :=
  decide (b < s.rev + 16) || decide (4 ≤ (s.prg.armed.filter fun e => e.2.boundary == b).length)

/-- An exchange armed by a command with the number `ident` of a session of booth `own` (R153, R154). A boundary refused under R153 has no
reason code. -/
def armRes (ident booth slot : Nat) (own : Nat) (b : W64) (eff : Option W64) (s : State) : Res :=
  let img := parseImage (sget [] s.prg.staged slot)
  let at_ := s.swbBoundary eff b
  match s.imageReason booth own at_.1 img true, img with
  | some r, _ => .now 0x0E r [] 0 (s.imageRefused r)
  | none, none => .now 0x0E 1 [] 0 s
  | none, some i =>
    if s.swbTooSoon at_.1 then .now 0x0E (s.drawn.toNat % 65536) [] 0 (s.setSQ 6 6)
    else
      let s := { s with prg := { s.prg with armed := sput s.prg.armed booth { slot, image := i, boundary := at_.1, dropped := 0 } } }
      let s := (s.setReg 0x3008 (place 1 30 ||| place (s.fld 0x3008 27 24) 24 ||| place booth 16)).setPair 0x300C at_.1
      let s := (if eff.isSome then s.scheduleFor ident [.swb booth] at_.1 at_.2 else s).count 0x3088 1
      .now 0 0 (leBytes 8 at_.1) (if at_.2 then 0x1000 else 0) (s.noteLate at_.2)

/-- SWB_ARM (R136, R153, R154, R377), after the earlier commands on the booth's images (R385). -/
def cmdSwbArm (h : Hdr) (booth slot : Nat) (b : W64) (s : State) : State :=
  runCmd h { opcode := 0x0403, effOk := true, maxData := 8, changes := true, denied := s.notImageBooth h booth
             bad := if (s.badEff h).isSome then s.badEff h else if 254 < booth then some (Hdr.off h 0) else if 7 < slot then some (Hdr.off h 1) else none
             busy := if h.eff.isSome ∧ s.schedRoom [.swb booth] = false then some 0x10 else none }
    (fun s => if s.imagePending s.mbx.nextIdent booth then .later (.arm booth slot b h.eff) s
      else armRes s.mbx.nextIdent booth slot (s.boothOf h) b h.eff s) s

/-- SWB_DISARM is accepted until the Guard window of revolution b − 1 (R389). -/
def State.disarmable (s : State) (booth : Nat) : Bool :=
  match s.prg.armed.find? fun e => e.1 == booth with
  | some e => decide (s.rev + 1 < e.2.boundary) || (decide (s.rev + 1 = e.2.boundary) && !s.inGuard)
  | none => false

/-- An exchange withdrawn, or refused without a reason code when its time has passed (R389). -/
def disarmRes (booth : Nat) (s : State) : Res :=
  if s.disarmable booth then
    okRes [] ({ s with
      prg := { s.prg with armed := serase s.prg.armed booth }
      mbx := { s.mbx with sched := s.mbx.sched.filter fun (x : Sched) => x.target != Target.swb booth } }.setFld 0x3008 31 30 0)
  else refusedRes (s.drawn.toNat % 65536) s

/-- SWB_DISARM (R389), after the earlier commands on the booth's images (R385); no reason code is given. -/
def cmdSwbDisarm (h : Hdr) (booth : Nat) (s : State) : State :=
  runCmd h { opcode := 0x0404, changes := true, denied := s.notImageBooth h booth, bad := if 254 < booth then some 0 else none
             refuse := s.openDetail (!s.imagePending (s.mbx.nextIdent + 1) booth && !s.disarmable booth) }
    (fun s => if s.imagePending s.mbx.nextIdent booth then .later (.disarm booth) s else disarmRes booth s) s

/-- A retired image of the booth is held and its exchange is not DURABLE (R158). -/
def State.unreleasable (s : State) (booth : Nat) : Bool :=
  (s.prg.retired.any fun e => e.1 == booth) && !sget false s.prg.durable booth

/-- The booth's retired images and their tasks released (R158). -/
def releaseRes (booth : Nat) (s : State) : Res :=
  if s.unreleasable booth then refusedRes (s.drawn.toNat % 65536) s
  else
    let t : State := { s with prg := { s.prg with
      retired := s.prg.retired.filter fun (e : Nat × Image) => e.1 != booth
      tasks := s.prg.tasks.filter fun (e : Nat × Task) => !(e.2.booth == booth && e.2.state == TaskState.retired) } }
    okRes [] (t.count 0x30BC (s.prg.retired.filter fun e => e.1 == booth).length)

/-- IMAGE_RELEASE (R158, R389): the booth's retired images and their tasks leave; refused before DURABLE, without a reason code. -/
def cmdImageRelease (h : Hdr) (booth : Nat) (s : State) : State :=
  runCmd h { opcode := 0x0405, changes := true, denied := s.notImageBooth h booth, bad := if 254 < booth then some 0 else none
             refuse := s.openDetail (!s.imagePending (s.mbx.nextIdent + 1) booth && s.unreleasable booth) }
    (fun s => if s.imagePending s.mbx.nextIdent booth then .later (.releaseImage booth) s else releaseRes booth s) s

/-- The session may command a task: booth 0, 255, or its own. -/
def State.taskBooth (s : State) (h : Hdr) (i : Nat) : Bool :=
  s.landlord h || (decide ((s.task i).state ≠ .empty) && decide ((s.task i).booth = s.boothOf h))

/-- A running task enters STOPPED_CMD; any other stays as it is (R143). -/
def taskStopRes (i : Nat) (s : State) : Res :=
  okRes [] (if (s.task i).state = .running then (s.stopTask i .stoppedCmd).count 0x30B4 1 else s)

/-- TASK_STOP (R143), after the earlier commands on the booth's images and tasks (R385). -/
def cmdTaskStop (h : Hdr) (i : Nat) (s : State) : State :=
  runCmd h { opcode := 0x0406, changes := true, denied := !s.taskBooth h i, bad := if 255 < i then some 0 else none }
    (fun s => if s.imagePending s.mbx.nextIdent (s.task i).booth then .later (.taskStop i) s else taskStopRes i s) s

/-- A task that TASK_RESTART may restart (R60, R143): of states 2h and 3h, or one that runs, on a Juggler that is not stopped. -/
def State.restartable (s : State) (i : Nat) : Bool :=
  let st := (s.task i).state
  decide (st = .running ∨ st = .stoppedCmd ∨ st = .stoppedOverrun) && decide (s.sys.jugState.getD (s.task i).jug 0 ≠ 2)

/-- A task restarted, or refused without a reason code (R143). -/
def taskRestartRes (i : Nat) (s : State) : Res :=
  if s.restartable i then
    okRes [] (if (s.task i).state = .running then s
      else (s.setTask i { s.task i with state := .running }).count 0x30B0 1)
  else refusedRes (s.drawn.toNat % 65536) s

/-- TASK_RESTART (R60, R143), after the earlier commands on the booth's images and tasks (R385). -/
def cmdTaskRestart (h : Hdr) (i : Nat) (s : State) : State :=
  let wait := s.imagePending (s.mbx.nextIdent + 1) (s.task i).booth
  runCmd h { opcode := 0x0407, changes := true, denied := !s.taskBooth h i, bad := if 255 < i then some 0 else none
             refuse := s.openDetail (!wait && !s.restartable i) }
    (fun s => if s.imagePending s.mbx.nextIdent (s.task i).booth then .later (.taskRestart i) s else taskRestartRes i s) s

/-- One identifier of VAR_READ: found, kind, and value or ET; what stands for an edge detector is not stated. -/
def State.varData (s : State) (syms : List Sym) (id : W64) : List Byte :=
  match syms.find? fun x => x.ident == id with
  | none => List.replicate 16 0
  | some x =>
    let v : Nat := if x.kind = 0 then (x.words.headD 0).toNat else if x.kind ≤ 3 then (BitVec.ofInt 64 x.et).toNat
      else (s.drawnFor id.toNat).toNat
    [1, Config.kindCode x.kind] ++ List.replicate 6 0 ++ leBytes 8 v

/-- The answer to VAR_READ. -/
def State.varsData (s : State) (booth : Nat) (ids : List W64) : List Byte :=
  let syms := ((s.prg.active.find? fun e => e.1 == booth).map fun (e : Nat × Image) => e.2.syms).getD []
  ids.flatMap fun id => s.varData syms id

/-- VAR_READ (R389). -/
def cmdVarRead (h : Hdr) (booth : Nat) (ids : List W64) (s : State) : State :=
  runCmd h { opcode := 0x0408, maxData := 16 * ids.length, denied := s.notImageBooth h booth
             bad := if 254 < booth then some 0 else if ids.isEmpty ∨ 32 < ids.length then some 1 else none }
    (fun s =>
      if s.imagePending s.mbx.nextIdent booth then .later (.vars booth ids) s else okRes (s.varsData booth ids) s) s

/-! ### The ledger (R244, R390) -/

/-- A limit refused: its boundary lies less than 1,000 ms after that of the last applied limit (R244). -/
def State.limitEarly (s : State) (b : Nat) : Bool :=
  match s.ledger.limitBoundary with
  | some l => decide ((b - l) * s.periodNs < 1000000000)
  | none => false

/-- LIMIT_SET (R244, R377, R390). -/
def cmdLimitSet (h : Hdr) (limit : W32) (level : Nat) (valid : Bool) (s : State) : State :=
  let ts : List Target := .limit limit.toNat :: if valid then [.shed level] else []
  runCmd h { opcode := 0x0501, effOk := true, maxData := 8, changes := true, denied := !s.landlord h
             bad := if (s.badEff h).isSome then s.badEff h else if valid ∧ 2 < level then some (Hdr.off h 4) else none
             busy := if h.eff.isSome ∧ s.schedRoom ts = false then some 0x10 else none }
    (fun s =>
      let b := match h.eff with
        | some e => (s.boundaryFor e).1
        | none => s.rev
      if s.limitEarly b then .now 0x0E (s.drawn.toNat % 65536) [] 0 ((s.setSQ 2 0).count 0x109C 1)
      else match h.eff with
        | some e => scheduleRes e ts s
        | none => .later (.ledger (some limit.toNat) (if valid then some level else none)) s) s

/-- SHED_SET (R244, R377, R390). -/
def cmdShedSet (h : Hdr) (level : Nat) (s : State) : State :=
  runCmd h { opcode := 0x0502, effOk := true, maxData := 8, changes := true, denied := !s.landlord h
             bad := if (s.badEff h).isSome then s.badEff h else if 2 < level then some (Hdr.off h 0) else none
             busy := if h.eff.isSome ∧ s.schedRoom [.shed level] = false then some 0x10 else none }
    (fun s => match h.eff with
      | some e => scheduleRes e [.shed level] s
      | none => .later (.ledger none (some level)) s) s

/-- A command accepted before `ident` has yet to change the ledger. -/
def State.ledgerPending (s : State) (ident : Nat) : Bool :=
  s.mbx.slots.any fun x => decide (x.ident < ident) && match x.wait with
    | .ledger _ _ => true
    | _ => false

/-- The answer to LEDGER_READ. -/
def State.ledgerData (s : State) : List Byte :=
  bytesOf32 [s.tokState, s.tokLimit, s.tokLimitEff, s.reg 0x101C, s.reg 0x1020, s.reg 0x1024]

/-- LEDGER_READ (R390). -/
def cmdLedgerRead (h : Hdr) (s : State) : State :=
  runCmd h { opcode := 0x0503, maxData := 24, denied := !s.landlord h }
    (fun s => if s.ledgerPending s.mbx.nextIdent then .later .ledgerRead s else okRes s.ledgerData s) s

/-- The answer to REQUEST_LIST: the requests of the booth's own points, all for booths 0 and 255, in the order of their creation. -/
def State.requestsData (s : State) (booth first count : Nat) : List Byte :=
  let own := s.ledger.arb.reqs.filter fun r => decide (booth = 0 ∨ booth = 255) || decide ((s.point r.point).owner.toNat = booth)
  ((own.drop first).take count).flatMap fun r =>
    leBytes 2 r.point ++ leBytes 2 r.age ++ [BitVec.ofNat 8 r.cls, BitVec.ofNat 8 (r.reserved && !s.barred r.cls).toNat] ++
      leBytes 4 (BitVec.ofInt 32 (s.moveCost r.point r.value)).toNat ++ leBytes 2 0

/-- REQUEST_LIST (R390). -/
def cmdRequestList (h : Hdr) (first count : Nat) (s : State) : State :=
  runCmd h { opcode := 0x0504, maxData := 12 * count, bad := if count = 0 ∨ 64 < count then some 2 else none }
    (fun s =>
      if s.ledgerPending s.mbx.nextIdent then .later (.requests first count) s
      else okRes (s.requestsData (s.boothOf h) first count) s) s

/-! ### Reads that waited (R385) -/

/-- What a command does when its turn has come (R385). -/
def State.finishBy (s : State) (x : Slot) (f : State → Res) : State := State.finish x (f s)

/-- A command that waited for its turn completed when no earlier command on its object waits. -/
def State.finishRead (s : State) (x : Slot) : State :=
  let b := x.booth.toNat
  match x.wait with
  | .points f c =>
    if s.pointsPending x.ident (pointRange f c) then s
    else
      let (s, d) := s.pointsData b f c
      s.complete x 0 0 d
  | .forces f c => if s.forcesPending x.ident then s else s.complete x 0 0 (s.forcesData b f c)
  | .loopRead c => if s.ctxPending x.ident c then s else s.complete x 0 0 (s.ctx c).bytes
  | .vars o ids => if s.imagePending x.ident o then s else s.complete x 0 0 (s.varsData o ids)
  | .permit c v o => if s.ctxPending x.ident c then s else s.finishBy x (permitRes c v o)
  | .spotStart c p => if s.ctxPending x.ident c then s else s.finishBy x (spotStartRes c p)
  | .spotStop k => if s.ctxPending x.ident (s.spot k).ctx then s else s.finishBy x (fun s => okRes [] (s.endSpot k 1))
  | .stage o k off bs => if s.imagePending x.ident o then s else s.finishBy x (stageRes o k off bs)
  | .arm o k n e => if s.imagePending x.ident o then s else s.finishBy x (armRes x.ident o k b n e)
  | .disarm o => if s.imagePending x.ident o then s else s.finishBy x (disarmRes o)
  | .releaseImage o => if s.imagePending x.ident o then s else s.finishBy x (releaseRes o)
  | .taskStop i => if s.imagePending x.ident (s.task i).booth then s else s.finishBy x (taskStopRes i)
  | .taskRestart i => if s.imagePending x.ident (s.task i).booth then s else s.finishBy x (taskRestartRes i)
  | .ledgerRead => if s.ledgerPending x.ident then s else s.complete x 0 0 s.ledgerData
  | .requests f c => if s.ledgerPending x.ident then s else s.complete x 0 0 (s.requestsData b f c)
  | _ => s

/-- Every waiting read tried, in acceptance order. -/
def State.finishReads (s : State) : State := s.mbx.slots.foldl State.finishRead s

/-! ### House steps (R247) -/

/-- HOUSE_STEP_SHED: the next step is shed. -/
def State.houseShed (s : State) : State :=
  if s.ledger.throttling = false ∨ 4 ≤ s.ledger.house then s
  else
    let n := s.ledger.house + 1
    let s := { s with ledger := { s.ledger with house := n } }
    let s := if n = 1 then { s with dbg := { s.dbg with traceShed := s.dbg.traceOn } } else s
    let s := if n = 3 then s.endSpots 4 else s
    (s.report .note 2 1 0xFF n).count 0x10B0 1

/-- The budgets of R246 as they stand. -/
def State.houseBudgets (s : State) : Int × Int := (3900 - s.pwr.pMw, 1050 - s.pwr.tj10)

/-- HOUSE_STEP_RESTORE: the last shed step is restored. -/
def State.houseRestore (s : State) : State :=
  let (p, t) := s.houseBudgets
  if s.ledger.house = 0 ∨ p < 300 ∨ t < 120 then s
  else
    let n := s.ledger.house - 1
    let s := { s with ledger := { s.ledger with house := n } }
    let s := if n = 0 then { s with dbg := { s.dbg with traceShed := false } } else s
    (s.report .note 2 1 0xFF n).count 0x10B4 1

end Sys2Proof.Machine
end

