-- ==== Sys2Proof/Machine/Shadows.lean ====
section
/-! DEFINITION. Shadowed writes at their boundary (R44 to R46, R64, R94, R129): plain registers with what their change brings
about, and the entries behind the selector windows. -/

namespace Sys2Proof.Machine

/-! ### Entries behind selector windows -/

/-- The words of a cost entry (TOKN_COST_PT, COEF, CLAW). -/
def Cost.word (c : Cost) (off : Nat) : W32 :=
  if off = 0x103C then flagAt c.valid 31 ||| flagAt c.claw 30 ||| place c.point 0
  else if off = 0x1040 then c.coef else c.clawVal

/-- A cost entry with one of its words. -/
def Cost.setWord (c : Cost) (off : Nat) (w : W32) : Cost :=
  if off = 0x103C then { c with valid := bitAt w 31, claw := bitAt w 30, point := bits w 12 0 }
  else if off = 0x1040 then { c with coef := w } else { c with clawVal := w }

/-- The word of a booth's quota. -/
def Quota.word (q : Quota) : W32 := place q.weight 24 ||| place q.cap 0

/-- The meaningful bits of a booth-map entry by TABLE (PNT_MAP_DATA). -/
def mapMask (table : Nat) : W32 :=
  match table with
  | 0 => 0x0000FFFF
  | 1 => 0x000001FF
  | 2 => 0xFF001FFF
  | _ => 0x803FFFFF

/-- A selection of PNT_MAP_SEL inside the range of its TABLE (R94). -/
def mapInRange (table index : Nat) : Bool :=
  decide ((table = 0 ∧ index ≤ 254) ∨ (table = 1 ∧ index ≤ 4094) ∨ (table = 2 ∧ index ≤ 31) ∨ (table = 3 ∧ index ≤ 254))

/-- Offsets that are windows on entries chosen by a selector. -/
def windowed (off : Nat) : Bool :=
  decide (off = 0x182C ∨ off = 0x103C ∨ off = 0x1040 ∨ off = 0x1044 ∨ off = 0x104C) || inFam off 0x2940 4 32 ||
    inFam off 0x5814 4 7 || inFam off 0x6074 4 8

/-- The word in effect at an offset, of the entry `sel` where the offset is a window. -/
def State.selWord (s : State) (off sel : Nat) : W32 :=
  if off = 0x182C then sget 0 s.pnt.maps sel
  else if off = 0x103C ∨ off = 0x1040 ∨ off = 0x1044 then (sget {} s.ledger.cost sel).word off
  else if off = 0x104C then (s.quotaOf sel).word
  else if inFam off 0x2940 4 32 then (s.ctx (sel / 2)).w (sel % 2 * 32 + (off - 0x2940) / 4)
  else if inFam off 0x5814 4 7 then ew (s.canEntry sel) ((off - 0x5814) / 4)
  else if inFam off 0x6074 4 8 then ew (s.ifEntry sel) ((off - 0x6074) / 4)
  else s.reg off

/-- The word as it will stand once every pending write is applied. -/
def State.pendingWord (s : State) (off sel : Nat) : W32 :=
  s.shadow.foldl (fun w e => if e.off = off ∧ e.sel = sel then mergeBits w e.mask e.val else w) (s.selWord off sel)

/-! ### Booth map (R85, R86, R94) -/

/-- Two CAN segments share a node. -/
def segOverlap (a b : W32) : Bool :=
  bitAt a 12 && bitAt b 12 && decide (bits a 11 6 ≤ bits a 5 0 ∧ bits b 11 6 ≤ bits b 5 0 ∧ bits a 11 6 ≤ bits b 5 0 ∧
    bits b 11 6 ≤ bits a 5 0)

/-- A map entry that would break R85 or R86. -/
def State.mapBreaks (s : State) (key : Nat) (w : W32) : Bool :=
  if key / 0x1000 = 3 then
    bitAt w 31 && s.pnt.maps.any fun e => decide (e.1 / 0x1000 = 3 ∧ e.1 ≠ key) && bitAt e.2 31 && decide (bits e.2 21 0 = bits w 21 0)
  else if key / 0x1000 = 2 then
    s.pnt.maps.any fun e => decide (e.1 / 0x1000 = 2 ∧ e.1 ≠ key ∧ e.1 / 8 = key / 8) && segOverlap w e.2
  else false

/-- MAP_WRITE_APPLY (R94). -/
def State.applyMap (s : State) (e : Shadow) : State :=
  let w := mergeBits (sget 0 s.pnt.maps e.sel) e.mask e.val &&& mapMask (e.sel / 0x1000)
  if s.mapBreaks e.sel w then s.setSQ 3 4
  else { s with pnt := { s.pnt with maps := sset 0 s.pnt.maps e.sel w } }.count 0x089C 1

/-! ### Plain registers -/

/-- A host session's bit of HOST_SESS_EN read after an application: a session without it closes (R381). -/
def State.closeDisabled (s : State) : State :=
  (List.range 4).foldl (fun (s : State) n => if s.sessEnabled n then s else s.closeSession n) s

/-- What the change of a register brings about beside its new word. -/
def State.afterApply (s : State) (off : Nat) (old : W32) : State :=
  if off = 0x0008 then { s with sys := { s.sys with compat := s.flag 0x0008 0 } }
  else if off = 0x0800 then (if s.flag 0x0800 9 then s else s.setSync .free)
  else if off = 0x4000 then s.groupsChanged old
  else if off = 0x5000 then s.fansChanged old
  else if off = 0x7000 then s.closeDisabled
  else if inFam off 0x6840 4 32 then
    let n := (off - 0x6840) / 4
    if s.qEn n then s else (s.setQ n (s.q n).clear).clearTx n
  else if inFam off 0x4840 4 16 then
    (if bits old 18 15 = bits (s.reg off) 18 15 then s else s.uiRestart ((off - 0x4840) / 4))
  else s

/-- One register's pending write applied, its parity bit with it (R358). -/
def State.applyPlain (s : State) (e : Shadow) : State :=
  let old := s.reg e.off
  (s.applyReg e.off (mergeBits old e.mask e.val)).afterApply e.off old

/-- One pending write of a cost entry or a quota applied. -/
def State.applyLedgerWord (s : State) (e : Shadow) : State :=
  let w := mergeBits (s.selWord e.off e.sel) e.mask e.val
  if e.off = 0x104C then
    { s with ledger := { s.ledger with quota := sset {} s.ledger.quota e.sel { weight := bits w 31 24, cap := bits w 23 0 } } }
  else { s with ledger := { s.ledger with cost := sset {} s.ledger.cost e.sel ((sget {} s.ledger.cost e.sel).setWord e.off w) } }

/-! ### Application -/

/-- The entries a list of writes names, each once. -/
def selsOf (l : List Shadow) : List Nat := l.foldl (fun a e => if e.sel ∈ a then a else a ++ [e.sel]) []

/-- SHADOWED_WRITE_APPLY over a list of pending writes (R44, R45, R94, R129); CRSL_CNT7 counts those applied, not the refused
(R65). A primary sends its standby what it applies (R407). -/
def State.applyShadows (s : State) (l : List Shadow) : State :=
  let s := s.noteWrites l
  let plain := l.filter fun e => !windowed e.off
  let ledger := l.filter fun e => decide (0x103C ≤ e.off ∧ e.off ≤ 0x104C)
  let s := plain.foldl State.applyPlain (s.count 0x089C (plain.length + ledger.length))
  let s := (l.filter fun e => e.off == 0x182C).foldl State.applyMap s
  let s := ledger.foldl State.applyLedgerWord s
  let ctx := l.filter fun e => inFam e.off 0x2940 4 32
  let s := (selsOf ctx).foldl (fun (s : State) k =>
    s.applyCtxWrites (k / 2) ((ctx.filter fun e => e.sel == k).map fun (e : Shadow) =>
      { e with sel := k % 2 * 32 + (e.off - 0x2940) / 4 })) s
  let ent := l.filter fun e => inFam e.off 0x5814 4 7
  let s := (selsOf ent).foldl (fun (s : State) k => s.applyEntry k (ent.filter fun e => e.sel == k)) s
  let ifs := l.filter fun e => inFam e.off 0x6074 4 8
  (selsOf ifs).foldl (fun (s : State) k => s.applyIf k (ifs.filter fun e => e.sel == k)) s

/-- A pending write that boundary n applies: those of R46's own boundaries are left out. -/
def dueAt (n : Nat) (e : Shadow) : Bool := decide (e.due ≤ n) && !ownBoundary e.off

/-- A pending write that boundary n applies; the pair settings are held as last applied in the parity safe state of TRAP (R359). -/
def State.takesAt (s : State) (n : Nat) (e : Shadow) : Bool := dueAt n e && !(s.parityHeld 15 && decide (e.off / 0x800 = 15))

/-- Every write pending for boundary n applied. -/
def State.applyDue (s : State) (n : Nat) : State :=
  let due := s.shadow.filter (s.takesAt n)
  ({ s with shadow := s.shadow.filter fun e => !s.takesAt n e }).applyShadows due

/-- The register writes of a configuration package pending for boundary n, and the words they replace kept for a fall-back
(R473, R476). -/
def State.packageAt (s : State) (n : Nat) : State :=
  let ws := Config.packageWrites s.upd.content
  let mask := fun (off : Nat) => if windowed off then 0xFFFFFFFF else cfgMask off
  let undo := ws.map fun (w : Nat × Nat × W32) => ({ off := w.1, sel := w.2.1, mask := mask w.1, val := s.selWord w.1 w.2.1, due := n } : Shadow)
  let s := s.setUpd { s.upd with undo, switched := true }
  { s with shadow := ws.foldl (fun (l : List Shadow) (w : Nat × Nat × W32) =>
      putShadow l { off := w.1, sel := w.2.1, mask := mask w.1, val := w.2.2 &&& mask w.1, due := n }) s.shadow }.noteAtB

/-- The old configuration of a package put back at a start (R476, R478); a write that only restores is not counted in
CRSL_CNT7. -/
def State.restorePackage (s : State) : State :=
  let t := s.applyShadows s.upd.undo
  let t := { t with cnt := s.cnt }
  t.setUpd { t.upd with undo := [] }

/-- COLD_START with the old configuration put back where the start ends a package's trial (R478). -/
def coldStartRow (cause : Nat) (res : StartRes) (s : State) : State :=
  let ends := s.coldActs cause && startBringsUp res && s.startEndsPackage (s.upd.saved && decide (cause = 0)) false
  coldStartCmd cause res (if ends then s.restorePackage else s)

/-- WARM_START with the old configuration put back where the start ends a package's trial (R478). -/
def warmStartRow (cause : Nat) (s : State) : State :=
  let ends := s.warmActs cause && s.startEndsPackage false (decide (cause = 6) && !s.upd.backDue)
  warmStart cause (if ends then s.restorePackage else s)

/-- The old configuration of a package that fell back, pending for boundary n (R476). -/
def State.undoAt (s : State) (n : Nat) : State :=
  { s with shadow := s.upd.undo.foldl (fun (l : List Shadow) e => putShadow l { e with due := n }) s.shadow }

end Sys2Proof.Machine
end

