-- ==== Sys2Proof/Machine/Sync.lean ====
section
/-! DEFINITION. The state sync of a pair (R407 to R409, R411): the packet of a revolution through Q28, what a member in SYNCING or
STANDBY applies of it, joining, and mirror compare. -/

namespace Sys2Proof.Machine

/-! ### Sending (R407, R408) -/

/-- A demand sample for the partner: value, validity and age in ms (R407). -/
def State.ownDemand (s : State) : Int × Bool × Nat :=
  (s32 (s.reg 0x3808), s.flag 0x380C 31, (s.crsl.upNs - s.prsm.ageSince) / 1000000)

/-- The health report of a standby (R411): BIST slices since its start. -/
def State.ownHealth (s : State) : HealthRep :=
  { passed := s.trap.passed, failed := s.trap.failed, lag := s.pairRev - s.trap.lastSyncRev, power := s.pwr.pMw
    unfit := s.trap.unfit, house := s.ledger.house, tj := s.pwr.tj10.toNat, mc := s.trap.mcTimes.length }

/-- The configuration of a point record. -/
def PRec.conf (r : PRec) (p : Nat) : SyncConf :=
  { point := p, owner := r.owner, typ := r.typ, src := r.src, share := r.share, unit := r.unit }

/-- What a joining member receives (R408 step 2): the snapshot is of the state after this revolution's Commit (R148). The channels are
each member's own, and their counts with them (R403). -/
def State.joinData (s : State) : SyncJoin :=
  { regs := (keepRegs cfgMask s.regs).filter fun e => !ownBlock e.1
    maps := s.pnt.maps, cost := s.ledger.cost, quota := s.ledger.quota, entries := s.can.entries, ifs := s.net.ifs
    hubs := s.net.sc.map fun (e : Nat × ScNode) => (e.1, { primary := e.2.primary, failover := e.2.failover })
    confs := (s.pnt.points.filter fun (e : Nat × PRec) => decide (e.1 < 8064)).map fun (e : Nat × PRec) => e.2.conf e.1
    images := s.prg.active, tasks := s.prg.tasks, retentive := { s.retentive 0 with counts := [] } }

/-- A partner in SYNCING has yet to be sent the join data. -/
def State.joinDue (s : State) : Bool := (s.trap.partner.any fun p => decide (p.role = 3)) && !s.trap.joinSent

/-- The sync packet of a revolution's Housekeeping (R407): of a primary, the whole; of a standby, its demand, and every
1,000 revolutions its health. -/
def State.buildSync (s : State) : SyncPacket :=
  let d := s.ownDemand
  let prim := decide (s.trap.role = .primary)
  let base : SyncPacket := { (default : SyncPacket) with
    seq := BitVec.ofNat 32 (s.trap.syncSent + 1), pairRev := BitVec.ofNat 64 s.pairRev
    demand := d.1, demandValid := d.2.1, demandAgeMs := d.2.2
    health := if prim = false ∧ s.pairRev % 1000 = 0 then some s.ownHealth else none }
  if prim then
    let a := s.ledger.arb
    { base with
      records := (s.pnt.fresh.filter fun (e : Nat × Nat) => e.2 == s.rev).map fun (e : Nat × Nat) =>
        let r := s.point e.1
        ({ point := e.1, value := r.value, quality := r.quality, stamp := r.stamp } : SyncRec)
      moves := ((s.trap.moved.find? fun e => e.1 == s.pairRev).map fun e => e.2.map fun (m : OwnMove) => m.move).getD []
      requests := a.reqs.map fun (r : Req) => ({ point := r.point, value := r.value, age := r.age, cls := r.cls } : SyncReq)
      held := a.held.map fun (x : Held) => ({ cost := x.cost, age := ((s.rev : Int) - x.rev).toNat } : SyncHeld)
      protections := a.prots.map fun (x : Nat × Int) => ({ cost := 0, age := ((s.rev : Int) - x.2).toNat } : SyncHeld)
      protPoints := a.prots.map fun (x : Nat × Int) => x.1
      limit := s.ledger.limit, limitEff := s.ledger.limitEff, shed := s.ledger.shed
      changes := s.trap.out
      join := if s.joinDue then some s.joinData else none }
  else base

/-- The frame of the packet at the head of Q28 on NET-P, or on the ring while NET-P is lost (R407); IOE-NET out of service sends none
(R488). -/
def State.sendQ28 (s : State) : State :=
  if s.sys.ioeBad.getLsbD 3 then s
  else
    let payload := bytesOf (s.q 28).headPacket
    let dest := (s.trap.partnerMac.getD ((s.drawnFor 9300).setWidth 48)).toNat
    let s := s.setQ 28 (s.q 28).dropHead
    if s.trap.lostP then s.sendRing dest payload else s.send 2 (s.pairFrame false dest payload)

/-- SYNC_SEND (R407): the packet of this revolution, through Q28; without room there it is lost. -/
def State.sendSync (s : State) : State :=
  if s.trap.role ≠ .primary ∧ s.trap.role ≠ .standby then s
  else
    let p := s.buildSync
    let ws := Config.syncWords p
    let s := s.setTrap { s.trap with syncSent := s.trap.syncSent + 1, out := {} }
    if s.qRoom 28 ws.length = false then s.setTrap { s.trap with lossDue := true }
    else
      let t := s.trap
      (((s.produce 28 ws).setTrap { t with lastSync := some p, joinSent := t.joinSent || p.join.isSome }).count 0x7890 1).sendQ28

/-! ### Own moves (R407, R409) -/

/-- The points of a Commit's moves, each once, with value and quality before it. -/
def State.beforeMoves (s : State) : List (Nat × W64 × Byte) :=
  (s.crsl.moves.map fun (m : Move) => m.point).eraseDups.map fun p => (p, (s.point p).value, (s.point p).quality)

/-- The outcome of a Commit's moves, for the sync packet of a primary and the mirror compare of a standby; those of four Commits are
kept. -/
def State.noteMoves (s : State) (before : List (Nat × W64 × Byte)) : State :=
  if s.paired = false then s
  else
    let own := before.map fun (e : Nat × W64 × Byte) =>
      ({ move := { point := e.1, value := (s.point e.1).value, deferred := (s.reqOf e.1).isSome }, prev := e.2.1, prevQ := e.2.2 } : OwnMove)
    s.setTrap { s.trap with moved := ((s.pairRev, own) :: s.trap.moved).take 4 }

/-! ### Mirror compare (R409) -/

/-- This member's outcome for a move the primary lists: of its own move of that revolution, else what its record holds. -/
def State.ownOutcome (s : State) (own : List OwnMove) (p : Nat) : W64 × Bool :=
  match own.find? fun o => o.move.point == p with
  | some o => (o.move.value, o.move.deferred)
  | none => ((s.point p).value, (s.reqOf p).isSome)

/-- The points whose outcome differs: of the moves listed, and of own moves that the primary did not make. -/
def State.mirrorDiffs (s : State) (own : List OwnMove) (ms : List SyncMove) : List Nat :=
  let listed := (ms.filter fun m => decide (s.ownOutcome own m.point ≠ (m.value, m.deferred))).map fun (m : SyncMove) => m.point
  let extra := (own.filter fun o => !(ms.any fun m => m.point == o.move.point) &&
    (decide (o.move.value ≠ o.prev) || (o.move.deferred && decide (o.prevQ ≠ 0x43)))).map fun (o : OwnMove) => o.move.point
  (listed ++ extra).filter fun p => isOutput (s.point p).src

/-- The differences of one comparison: counted, the first point recorded, and a FAULT for each that differs a third time in a row. -/
def State.noteDiffs (s : State) (l : List Nat) : State :=
  let runs := l.foldl (fun (m : Sparse Nat) p => sset 0 m p (sget 0 s.trap.mcRuns p + 1)) []
  let s := (s.setTrap { s.trap with
    mcRuns := runs
    mcTimes := s.trap.mcTimes ++ List.replicate l.length s.rev
    mcFirst := s.trap.mcFirst.or l.head? }).count 0x78B0 l.length
  (runs.filter fun e => e.2 == 3).foldl (fun (s : State) e => s.report .fault 15 6 (s.point e.1).owner e.1) s

/-- The primary's value and quality adopted for an output or software point. -/
def State.adoptMove (s : State) (p : Nat) (v : W64) (q : Byte) : State :=
  let r := s.point p
  if r.value = v ∧ r.quality = q then s else s.writeRec p { r with value := v, quality := q, stamp := s.phaseStamp }

/-- The moves of the primary's Commit of a revolution: compared with the own ones of a STANDBY where it made that Commit, and adopted;
a point that the primary did not move returns to what it held. -/
def State.mirrorMoves (s : State) (rev : Nat) (ms : List SyncMove) : State :=
  let own := (s.trap.moved.find? fun e => e.1 == rev).map fun e => e.2
  let s := match own with
    | some o => if s.trap.role = .standby then s.noteDiffs (s.mirrorDiffs o ms) else s
    | none => s
  let s := ms.foldl (fun (s : State) m =>
    let q := (s.point m.point).quality
    s.adoptMove m.point m.value (if m.deferred then 0x43 else if q = 0x43 then 0 else q)) s
  (own.getD []).foldl (fun (s : State) o =>
    if ms.any fun m => m.point == o.move.point then s else s.adoptMove o.move.point o.prev o.prevQ) s

/-! ### Applying a packet (R242, R407, R408) -/

/-- The ledger's synchronised state taken over, aged by the revolutions the packet trails (R242, R407). DEDUCED: the packet does not carry
whether the test of R240 has held; a request keeps what this member's own Commits have found, and one it did not know counts as having
met it. Unsafe (log entry 143). -/
def State.takeLedger (s : State) (p : SyncPacket) (lag : Nat) : State :=
  let revOf := fun (age : Nat) => (s.rev : Int) - (age + lag : Nat)
  let reqs := p.requests.map fun (r : SyncReq) =>
    let w := (s.writerOf r.point).getD (.loop 0)
    ({ point := r.point, value := r.value, age := satNat 4095 (r.age + lag), cls := r.cls,
       booth := (s.point r.point).owner.toNat, writer := w, tested := ((s.reqOf r.point).map (·.tested)).getD true
       missed := ((s.reqOf r.point).map (·.missed)).getD false } : Req)
  let a := { s.ledger.arb with
    held := p.held.map fun (h : SyncHeld) => ({ rev := revOf h.age, cost := h.cost } : Held)
    reqs
    prots := (p.protPoints.zip p.protections).map fun (e : Nat × SyncHeld) => (e.1, revOf e.2.age) }
  { s with ledger := { s.ledger with arb := a, limit := p.limit, limitApplied := true, limitEff := p.limitEff, shed := p.shed } }

/-- The primary's force entries taken over (R88, R407). -/
def State.takeForce (s : State) (f : SyncForce) : State :=
  let s := s.verifyRead f.point
  match f.value with
  | some v => match s.forceIndex f.point with
    | some i => s.enterForce f.point v f.setter i s.phaseStamp
    | none => s
  | none => if (s.readRec f.point).forced then s.leaveForce f.point s.phaseStamp else s

/-- A staged part of an image taken over. -/
def State.takeStage (s : State) (x : SyncStage) : State :=
  { s with prg := { s.prg with staged := sset [] s.prg.staged x.slot (stageBytes (sget [] s.prg.staged x.slot) x.off x.bytes) } }

/-- A register that holds a setting of an FIO channel. -/
def fioSetting (off : Nat) : Bool := decide (0x4040 ≤ off ∧ off < 0x4140)

/-- What the primary applied at its boundary, applied here (R404, R407). -/
def State.applyChanges (s : State) (c : SyncChange) : State :=
  let ws := c.writes.filter fun e => !ownBlock e.off
  let s := s.applyShadows (ws.filter fun e => !fioSetting e.off)
  let s := (ws.filter fun e => fioSetting e.off).foldl (fun (s : State) e => s.takeSetting e.off e.val) s
  let s := c.confs.foldl (fun (s : State) x => s.takeConf x s.phaseStamp) s
  let s := c.loads.foldl (fun (s : State) x => (s.applyLoad x.1 x.2).markOrphans) s
  let s := c.modes.foldl (fun (s : State) x => s.applyMode x.1 x.2.1 x.2.2) s
  let s : State := { s with net := { s.net with sc := c.hubs.foldl (fun m x => sput m x.1 x.2) s.net.sc } }
  let s := c.images.foldl (fun (s : State) x => s.switchImage x.1 x.2) s
  let s := c.stages.foldl State.takeStage s
  c.forces.foldl State.takeForce s

/-- One register of the primary's configuration store adopted. -/
def State.joinReg (regs : Sparse W32) (s : State) (off : Nat) : State :=
  let w := sget (resetWord off) regs off
  if mergeBits (s.reg off) (cfgMask off) w = s.reg off then s
  else s.applyPlain { off, mask := cfgMask off, val := w, due := 0 }

/-- The records marked as the force table has them (R87). -/
def State.markForces (s : State) : State :=
  let mark := fun (e : Nat × PRec) => match s.pnt.forces.find? (fun f => f.2.point == e.1) with
    | some f => (e.1, ({ e.2 with forced := true, fidx := BitVec.ofNat 10 f.1, orphan := f.2.orphan, value := f.2.value } : PRec).sealed)
    | none => if e.2.forced then (e.1, ({ e.2 with forced := false, fidx := 0, orphan := false } : PRec).sealed) else e
  { s with pnt := { s.pnt with points := s.pnt.points.map mark } }

/-- The primary's configuration store, images and retentive state adopted, but for the TRAP and KEY blocks (R408 step 2). Timers keep
their last calls, which are pair revolution numbers (R402). -/
def State.takeJoin (s : State) (j : SyncJoin) : State :=
  let offs := ((j.regs.map (·.1)) ++ (s.regs.map (·.1))).eraseDups.filter fun o => !ownBlock o
  let s := offs.foldl (State.joinReg j.regs) s
  let syms := fun (e : Nat × Image) => match j.retentive.syms.find? (fun x => x.1 == e.1) with
    | some x => (e.1, { e.2 with syms := x.2 })
    | none => e
  let s : State := { s with
    pnt := { s.pnt with maps := j.maps, forces := j.retentive.forces
                        points := s.pnt.points.filter fun e => decide (8064 ≤ e.1) || j.confs.any fun c => c.point == e.1 }
    ledger := { s.ledger with cost := j.cost, quota := j.quota }
    can := { s.can with entries := j.entries }
    net := { s.net with ifs := j.ifs, sc := j.hubs }
    loop := { s.loop with ctx := j.retentive.ctx }
    prg := { s.prg with tasks := j.tasks, active := j.images.map syms } }
  (j.confs.foldl (fun (s : State) c => s.takeConf c s.phaseStamp) s).markForces

/-- The primary's packet applied by a member in SYNCING or STANDBY (R407, R408, R409): what one in SYNCING receives before the join data
is not applied, and the packets after that count. -/
def State.applySync (s : State) (p : SyncPacket) : State :=
  let t := { s.trap with syncApplied := p.seq.toNat, lastSyncRev := p.pairRev.toNat }
  match s.trap.role, p.join, s.trap.based with
  | .syncing, some j, _ => ((s.takeJoin j).setTrap { t with based := true, joined := 0 }).count 0x7894 1
  | .syncing, none, false => s
  | _, _, _ =>
    let lag := (s.pairRev - p.pairRev.toNat : Nat)
    let joined := if p.seq = BitVec.ofNat 32 (s.trap.syncApplied + 1) then s.trap.joined + 1 else 1
    let s := s.applyChanges p.changes
    let s := p.records.foldl (fun (s : State) r => s.supply r.point r.value r.quality r.stamp r.stamp) s
    let s := (s.mirrorMoves p.pairRev.toNat p.moves).takeLedger p lag
    let role := if s.trap.role = Role.syncing ∧ 100 ≤ joined then Role.standby else s.trap.role
    (s.setTrap { s.trap with syncApplied := p.seq.toNat, lastSyncRev := p.pairRev.toNat, joined, role }).count 0x7894 1

/-- The partner's demand and health taken in (R226, R407, R411). -/
def State.takeDemand (s : State) (p : SyncPacket) : State :=
  let s : State := { s with ledger := { s.ledger with
    partnerDemand := p.demand, partnerValid := p.demandValid
    partnerFromNs := (s.crsl.upNs : Int) - p.demandAgeMs * 1000000 } }
  match p.health with
  | some h => (s.setTrap { s.trap with health := some h, healthNs := s.crsl.upNs }).count 0x78BC 1
  | none => s

/-- A packet applied, its words leaving Q29, or held while the point table is frozen (R40). -/
def State.receiveSync (s : State) (p : SyncPacket) : State :=
  if s.tableFree then (s.setQ 29 (s.q 29).dropHead).applySync p else s.setTrap { s.trap with inSync := s.trap.inSync ++ [p] }

/-- The packets held through Loops and Logic applied, while this member still is in SYNCING or STANDBY. -/
def State.applyHeldSync (s : State) : State :=
  (s.trap.inSync).foldl (fun (s : State) p =>
    let s := s.setQ 29 (s.q 29).dropHead
    if s.trap.role = .syncing ∨ s.trap.role = .standby then s.applySync p else s) (s.setTrap { s.trap with inSync := [] })

/-- SYNC_PACKET_RECEIVE (R407): into Q29, or lost without room there. -/
def syncPacketReceive (p : SyncPacket) (s : State) : State :=
  let ws := Config.syncWords p
  if s.qRoom 29 ws.length = false ∨ (s.trap.role ≠ .primary ∧ s.trap.role ≠ .syncing ∧ s.trap.role ≠ .standby) then s
  else
    let t := ((s.produce 29 ws).setTrap { s.trap with syncSeen := p.seq.toNat }).takeDemand p
    if s.trap.role = .primary then t.setQ 29 (t.q 29).dropHead else t.receiveSync p

/-- SYNC_LOSS (R407): a STANDBY that has not applied a packet by the second boundary after its own returns to SYNCING, and joins anew; a
packet that found Q28 without room is a loss of its sender. -/
def syncLoss (s : State) : State :=
  let t := s.trap
  if t.role = .standby ∧ (t.lastSyncRev + 4 ≤ s.pairRev ∨ t.lossDue) then
    (s.setTrap { t with role := .syncing, joined := 0, based := false, lossDue := false }).count 0x7898 1
  else if t.lossDue then (s.setTrap { t with lossDue := false }).count 0x7898 1
  else s

end Sys2Proof.Machine
end

