-- ==== Sys2Proof/Machine/Carousel.lean ====
section
/-! DEFINITION. The Carousel (chapter 02): the work of a boundary (R47, R54, R363), and of the five phases (R36, R39): Intake
with the network-write latch (R42, R146) and the system points (R503), Loops, Logic, Commit under the order of R25, Housekeeping with
the record and parity checks (R92, R93, R358). -/

namespace Sys2Proof.Machine

/-! ### The boundary -/

/-- The length of the revolution in progress in ns: lengthened by at most 2 % of the period while aligning (R50). -/
def State.revLength (s : State) : Nat :=
  if s.crsl.slewing then s.periodNs + Nat.min (s.periodNs / 50) s.crsl.slewNs else s.periodNs

/-- The timebase at the boundary: SLEW_LENGTHEN (R50), the time in HOLDOVER (R52), running time. -/
def State.advanceTime (s : State) : State :=
  let len := s.revLength
  let add := len - s.periodNs
  let s := if 0 < add then s.count 0x0880 1 else s
  let c := s.crsl
  { s with
    crsl := { c with absNs := c.absNs + len, upNs := c.upNs + len, slewNs := c.slewNs - add, slewing := c.slewing && decide (add < c.slewNs),
                     holdNs := if c.sync = SyncState.holdover then c.holdNs + len else c.holdNs }
    sys := { s.sys with runNs := if s.running then s.sys.runNs + len else s.sys.runNs } }

/-- A period accepted under R37 runs from this boundary; one that does not lie on the PTP grid of the new period (R49) moves LOCKED or
HOLDOVER to ACQUIRING. The boundary's place is the multiple of the old period nearest to its measured time. -/
def State.periodTakes (s : State) : State :=
  let p := s.fld 0x0800 1 0
  if p = s.crsl.period then s
  else
    let g := s.gridNs
    let s : State := { s with crsl := { s.crsl with period := p } }
    if (s.crsl.sync = .locked ∨ s.crsl.sync = .holdover) ∧ Int.emod g s.periodNs ≠ 0 then
      s.enterAcquiring (Int.emod g s.periodNs)
    else s

/-- The live counters of a block copied into their holding pairs (R363). -/
def State.holdBlock (s : State) (blk : Nat) : State :=
  match holdMap.find? fun e => e.1 == blk with
  | none => s
  | some e => (List.range e.2.2.2).foldl (fun (s : State) k =>
      s.setPair (e.2.2.1 + 8 * k) (s.total (e.2.1 + 4 * k))) s

/-- SHUTTER_SNAPSHOT (R363), with the SHUTTER commands that waited for it (R386). -/
def State.snapshotAt (s : State) (n : Nat) : State :=
  let m := s.shutPending
  if m = 0 ∨ n < s.hostp.shutDue then s
  else
    let s := (List.range 22).foldl (fun (s : State) b => if m.getLsbD b then s.holdBlock b else s) s
    let s := ((s.setFld 0x6820 30 23 (s.fld 0x6820 30 23 + 1)).setPair 0x6824 n).setSQ 13 3
    let s := { s with hostp := { s.hostp with shutMask := 0 } }.count 0x69F4 1
    s.mbx.slots.foldl (fun (s : State) x => match x.wait with
      | .shutter _ => s.complete x 0 0 (leBytes 8 n)
      | _ => s) s

/-- PARITY_REWRITE, and the end of the parity safe states once the host has cleared PARITY (R358). -/
def State.parityRewrite (s : State) : State :=
  let free := s.image.isEmpty && !s.sq 13 7
  let s := s.image.foldl (fun (s : State) e => s.setReg e.1 e.2) s
  { s with image := [], sys := { s.sys with parityHold := if free then 0 else s.sys.parityHold } }

/-- A command in flight that takes effect at boundary n (R88, R82, R113 to R115, R244, R144); one on a point whose earlier command has
yet to take effect waits on (R385). -/
def State.applyWait (n : Nat) (s : State) (x : Slot) : State :=
  match x.wait with
  | .config p o t c sh u due => if n < due ∨ s.pointsPending x.ident [p] then s else s.applyConfig x p o t c sh u n
  | .force p v => if s.pointsPending x.ident [p] then s else s.applyForce x p v n
  | .unforce p => if s.pointsPending x.ident [p] then s else s.applyUnforce x p n
  | .load c ws => (((s.applyLoad c ws).markOrphans).noteOut fun (o : SyncChange) =>
      { o with loads := o.loads ++ [(c, ws)] }).complete x 0 0 (leBytes 8 n)
  | .mode c m v => ((s.applyMode c m v).noteOut fun (o : SyncChange) =>
      { o with modes := o.modes ++ [(c, m, v)] }).complete x 0 0 (leBytes 8 n)
  | .ledger l v =>
    let s := match l with
      | some w => s.applyLimit w n
      | none => s
    let s := match v with
      | some k => s.applyShed k
      | none => s
    s.complete x 0 0 (leBytes 8 n)
  | .image b _ img => (s.applyImage b img).complete x 0 0 (leBytes 8 n)
  | _ => s

/-- A scheduled target applied at its boundary; an exchange and an activation have work of their own (R154, R377, R473). -/
def State.applyTarget (n : Nat) (s : State) (t : Sched) : State :=
  match t.target with
  | .limit w => s.applyLimit w n
  | .shed k => s.applyShed k
  | .pairSwitch => s.relinquishAt n
  | .swb _ => s
  | .activation => s

/-- EFFECTIVE_BOUNDARY_APPLY (R54, R377): the scheduled commands of boundary n, those on time counted once each. -/
def State.applySched (s : State) (n : Nat) : State :=
  let due := s.mbx.sched.filter fun t => decide (t.boundary ≤ n)
  let s := { s with mbx := { s.mbx with sched := s.mbx.sched.filter fun t => !decide (t.boundary ≤ n) } }
  let s := due.foldl (State.applyTarget n) s
  s.count 0x08B0 (schedIdents (due.filter fun t => !t.late)).length

/-- SWB_SWITCH of every exchange armed for boundary n; one whose boundary comes while control does not run aborts (R154, R157). -/
def State.switchesAt (s : State) (n : Nat) : State :=
  (s.prg.armed.filter fun e => decide (e.2.boundary ≤ n)).foldl (fun (s : State) e =>
    if s.running then s.swbSwitch e.1 e.2 else s.swbAbort e.1) s

/-- ACTIVATION_SWITCH (R473, R477): a package becomes the writes of boundary n; an unpaired member's firmware changes core; a
primary relinquishes first. -/
def State.activationAt (s : State) (n : Nat) : State :=
  if s.upd.state = .armed ∧ s.upd.armedAt = some n ∧ s.upd.switched = false then
    if s.upd.manifest.target = 2 then s.packageAt n
    else if s.paired then
      s.relinquishAt n
    else s.firmwareSwitch
  else s

/-- The switch back of a fall-back at boundary n (R476). -/
def State.fallBackAt (s : State) (n : Nat) : State :=
  if s.upd.backDue then
    (if s.upd.manifest.target = 2 then (s.undoAt n).switchBack else s.switchBack)
  else s

/-- CONTROL_RESTART_APPLY (R64, R489): the held writes, then the Carousel runs; a thermal hold that has come meanwhile refuses. -/
def State.restartAt (s : State) (n : Nat) : State :=
  match s.mbx.slots.find? fun x => match x.wait with
      | .restart b => decide (b ≤ n)
      | _ => false with
  | none => s
  | some x =>
    if s.sys.thermalHold then s.complete x 0x0E 2 []
    else ((s.applyDue n).restartControl n).complete x 0 0 (leBytes 8 n)

/-- The configuration of boundary n: all that is pending, or what a restart brings; a stopped domain holds it (R44, R64). -/
def State.configAt (s : State) (n : Nat) : State := if s.sys.run = .stopped then s.restartAt n else s.applyDue n

/-- A ledger at a boundary: LIMIT_RAMP_STEP, the demand latched for the next Intake, ages (R22, R231, R234). -/
def State.ledgerBoundary (s : State) : State := s.rampStep.latchSource.ageRequests

/-- The work of boundary n before the count advances. -/
def State.boundaryWork (s : State) (n : Nat) : State :=
  let s := s.ovrTakes.applyHeldSync.pairBoundary.advanceTime.periodTakes.changeCore
  let s := ((s.activationAt n).fallBackAt n).trialTick
  let s := ((s.snapshotAt n).parityRewrite).configAt n
  let s := s.mbx.slots.foldl (State.applyWait n) s
  let s := ((s.applySched n).switchesAt n).ledgerBoundary
  let s := finishTimeSets n (s.placeSync n).recovStep.drainBuffers
  (s.finishJugglers n).sendHeartbeats.finishReads.finishCloses.keyStage

/-- REVOLUTION_BOUNDARY (R47): boundary n ends revolution n, and the counter advances by one. -/
def boundary (s : State) : State :=
  let n := s.rev
  let t := s.boundaryWork n
  { t with rev := n + 1, crsl := { t.crsl with phase := PhasePos.start, moves := [], noRoom := [], pre := none, late := [] } }

/-! ### Phase ends (CRSL_PHASE_HWp, CRSL_JG_HWk) -/

/-- The end of a phase in 0.1 µs from the start of the revolution; not refreshed while statistics are shed (R247). -/
def State.notePhase (s : State) (p endT : Nat) : State :=
  if 2 ≤ s.ledger.house then s
  else
    let off := 0x0820 + 4 * p
    let e := satNat 65535 endT
    (s.setFld off 15 0 e).setFld off 31 16 (Nat.max (s.fld off 31 16) e)

/-- Juggler busy times of a phase: Logic in the upper half, Loops in the lower. -/
def State.noteBusy (s : State) (logic : Bool) (busy : List Nat) : State :=
  if 2 ≤ s.ledger.house then s
  else (List.range 16).foldl (fun (s : State) k =>
    let off := 0x0840 + 4 * k
    let b := satNat 65535 (busy.getD k 0)
    if logic then s.setFld off 31 16 (Nat.max (s.fld off 31 16) b) else s.setFld off 15 0 (Nat.max (s.fld off 15 0) b)) s

/-- A phase begun. -/
def State.enterPhase (s : State) (p : PhasePos) : State := { s with crsl := { s.crsl with phase := p } }

/-! ### Intake -/

/-- One write of a network request latched (R70, R79, R81, R91): 0 latched, 1 denied, 2 deny_source. DESIGN CHOICE: a VALUE outside the
encoding of its TYPE (R69) is stored as it was sent, by this and every other path. Unsafe (log entry 152). -/
def State.latchWrite (s : State) (r : NetReq) (w : PWrite) : State × Nat :=
  match s.check r.booth.toNat .write w.point false false with
  | .allow => (s.supply w.point w.value 0x00 s.intakeStamp s.intakeStamp, 0)
  | v =>
    let s := s.noteDenial r.booth.toNat .write w.point v
    (if r.window then s.setSQ 3 6 else s, if v = .denySource then 2 else 1)

/-- The writes of one request latched in order. -/
def State.latchWrites (s : State) (r : NetReq) : List PWrite → State × List Nat
  | [] => (s, [])
  | w :: t =>
    let (s, x) := s.latchWrite r w
    let (s, l) := s.latchWrites r t
    (s, x :: l)

/-- The first point of a request that was refused. -/
def firstRefused : List PWrite → List Nat → Nat
  | w :: t, x :: u => if x = 0 then firstRefused t u else w.point
  | _, _ => 0

/-- One request latched whole, its command or BACnet client answered (R340, R387). -/
def State.latchRequest (s : State) (r : NetReq) : State :=
  let (s, res) := s.latchWrites r r.writes
  let good := res.all fun x => x == 0
  let data := res.map fun x => BitVec.ofNat 8 x
  match r.slot with
  | some i => match s.mbx.slots.find? fun x => x.ident == i with
    | some x => if good then s.complete x 0 0 data else s.complete x 9 (firstRefused r.writes res) data
    | none => s
  | none => if r.window then s else s.bacnetAnswer (if good then .served else .errorDenied)

/-- A request with more writes than NET_WR_MAX now admits, refused whole (R146); the spec gives the command's refusal no reason code. -/
def State.refuseRequest (s : State) (r : NetReq) : State :=
  let s := s.count 0x30B8 1
  match r.slot with
  | some i => match s.mbx.slots.find? fun x => x.ident == i with
    | some x => s.complete x 0x0E ((s.drawnFor i).toNat % 65536) []
    | none => s
  | none => if r.window then s else s.bacnetAnswer .reject

/-- A POINT_WRITE one of whose points an earlier command has yet to take effect on (R385). -/
def State.writesWait (s : State) (r : NetReq) : Bool :=
  match r.slot with
  | some i => s.pointsPending i (r.writes.map fun w => w.point)
  | none => false

/-- NETWORK_WRITE_LATCH (R42, R146): requests in arrival order while they fit; the others wait, counted once each write. One that waits
for an earlier command on its point keeps its place (R385). -/
def latchQueue : List NetReq → Nat → State → State × List NetReq
  | [], _, s => (s, [])
  | r :: t, room, s =>
    if s.writesWait r then
      let x := latchQueue t room s
      (x.1, r :: x.2)
    else if s.fld 0x0800 19 10 < r.writes.length then latchQueue t room (s.refuseRequest r)
    else if r.writes.length ≤ room then latchQueue t (room - r.writes.length) (s.latchRequest r)
    else
      let all := r :: t
      let new := ((all.filter fun x => !x.held).map fun (x : NetReq) => x.writes.length).sum
      (s.count 0x0898 new, all.map fun (x : NetReq) => { x with held := true })

/-- The network point writes of one Intake: those received before the start of this revolution (R39), taken while a Ringmaster core
serves the command domain (R29). -/
def State.latchNet (s : State) : State :=
  if s.sys.cmdOk = false then s
  else
    let before := fun (r : NetReq) => decide (r.rev < s.rev)
    let q := s.pnt.netq.takeWhile before
    let x := latchQueue q (s.fld 0x0800 19 10) { s with pnt := { s.pnt with netq := [] } }
    { x.1 with pnt := { x.1.pnt with netq := x.2 ++ s.pnt.netq.dropWhile before } }

/-- Inputs whose force was cleared take their live value (R88). -/
def State.unforceInputs (s : State) : State :=
  let l := s.pnt.unforced.filter fun e => !commitSrc (s.point e.1).src
  let s := { s with pnt := { s.pnt with unforced := s.pnt.unforced.filter fun e => commitSrc (s.point e.1).src } }
  l.foldl (fun (s : State) e =>
    let s := s.verifyRead e.1
    let r := s.readRec e.1
    match e.2 with
    | some v => if r.forced then s else s.writeRec e.1 { r with value := v, stamp := s.intakeStamp }
    | none => s) s

/-- The binary32 number nearest to n / d. -/
def realRatio (n : Int) (d : Nat) : W64 :=
  let x : Nat := n.natAbs * 2 ^ 64 / d
  BitVec.ofNat 64 (floatOf 23 8 (if n < 0 then -(x : Int) else x) 64)

/-- A number as a BOOL, ENUM or integer value. -/
def intValue (x : Int) : W64 := BitVec.ofInt 64 x

/-- The number of a run state. -/
def RunState.num : RunState → Nat
  | .starting => 0
  | .running => 1
  | .rescue => 2
  | .stopped => 3

/-- The number of a synchronisation state. -/
def SyncState.num : SyncState → Nat
  | .free => 0
  | .acquiring => 1
  | .locked => 2
  | .holdover => 3

/-- The number of a demand state. -/
def DemState.num : DemState → Nat
  | .valid => 0
  | .holding => 1
  | .blind => 2

/-- The system points: number, TYPE, value (R503). -/
def State.systemValues (s : State) : List (Nat × Nat × W64) :=
  [(8064, 7, intValue s.sys.run.num), (8065, 7, intValue s.crsl.sync.num),
   (8066, 1, BitVec.ofInt 64 (s32 (BitVec.ofInt 32 (roundOpen s.demandUw 1000000)))),
   (8067, 1, BitVec.ofInt 64 (s32 s.tokLimitEff)), (8068, 1, BitVec.ofInt 64 (s32 (s.reg 0x1024))),
   (8069, 7, intValue s.ledger.shed), (8070, 7, intValue s.ledger.demState.num), (8071, 2, intValue s.ledger.house),
   (8072, 5, realRatio s.pwr.pMw 1000), (8073, 5, realRatio s.pwr.tj10 10), (8074, 7, intValue s.trap.role.num),
   (8075, 0, intValue (!s.rtc.lowBackup).toNat), (8076, 2, intValue s.flt.faultsSince),
   (8077, 0, intValue s.flt.criticalSince.toNat)] ++
  (List.range 16).map (fun k => (8078 + k, 7, intValue (bits (s.jugWord k) 31 30))) ++
  (List.range 4).map (fun g => (8094 + g, 7, intValue (s.fgrp g).link)) ++
  (List.range 4).map (fun b => (8098 + b, 7, intValue (bits (s.busStat b) 15 14))) ++
  (List.range 3).map (fun p => (8102 + p, 7, intValue (s.port p).link)) ++
  (List.range 16).map (fun m => (8105 + m, 8, if s.isMr then (s.prsmView (0x3840 + 4 * m)).setWidth 64 else 0))

/-- One system point written. -/
def State.writeSystem (s : State) (p typ : Nat) (v : W64) : State :=
  let q : Byte := if 8105 ≤ p ∧ s.isMr = false then 0xC1 else 0x00
  let s := s.verifyRead p
  let s := s.storeRec p ({ s.point p with typ := BitVec.ofNat 4 typ, src := 7, owner := 0xFF } : PRec).sealed
  s.supply p v q s.intakeStamp s.intakeStamp

/-- SYSTEM_POINTS_WRITE (R503). -/
def State.writeSystems (s : State) : State := s.systemValues.foldl (fun (s : State) e => s.writeSystem e.1 e.2.1 e.2.2) s

/-- An engine's share of a phase, left out where the engine failed its BIST (R488). -/
def State.byIoe (s : State) (k : Nat) (f : State → State) : State := if s.sys.ioeBad.getLsbD k then s else f s

/-- The engine that writes an input of a source class: IOE-ANA 0, IOE-FLD 1, IOE-CAN 2 (R70). -/
def engineOf (src : BitVec 4) : Option Nat :=
  match src.toNat with
  | 2 => some 1
  | 3 => some 0
  | 4 => some 0
  | 5 => some 2
  | _ => none

/-- Inputs of an engine that failed its BIST read 80h (R488). -/
def State.lostInputs (s : State) : State :=
  if s.sys.ioeBad = 0 ∨ s.bound then s
  else
    let lost := fun (r : PRec) => match engineOf r.src with
      | some k => s.sys.ioeBad.getLsbD k && decide (r.quality ≠ 0xC1 ∧ r.quality ≠ 0x85)
      | none => false
    ((s.pnt.points.filter fun e => lost e.2).map (·.1)).foldl (fun (s : State) p => s.setQuality p 0x80 s.intakeStamp) s

/-- The records of an Intake (R39). The table of a member in SYNCING or STANDBY is the one that the primary's Intake produced (R409). -/
def State.intakeRecords (s : State) : State :=
  let t := s.unforceInputs.writePrism
  let t := ((t.byIoe 1 State.latchField).byIoe 0 State.latchAnalogue).byIoe 2 State.decodeCan
  let t := t.lostInputs.latchNet.writeSystems
  if s.trap.role = .syncing ∨ s.trap.role = .standby then
    { t with pnt := { t.pnt with points := s.pnt.points, forces := s.pnt.forces, unforced := s.pnt.unforced, fresh := s.pnt.fresh } }
  else t

/-- INTAKE_PHASE (R39): phase work only while control runs. -/
def intakePhase (endT : Nat) (s : State) : State :=
  if s.running = false then s
  else
    let s := (s.enterPhase .intake).notePhase 0 endT
    let s := if s.trap.role = .catching then s.gapQuality else s
    let s := s.demandLatch.intakeRecords
    s.finishReads.finishCloses

/-! ### Loops and Logic -/

/-- LOOPS_PHASE (R97, R58): `unreached` are due contexts whose law is left unevaluated at the end of the window. -/
def loopsPhase (endT : Nat) (busy unreached : List Nat) (s : State) : State :=
  if s.running = false then s
  else
    let s := ((s.enterPhase .loops).notePhase 1 endT).noteBusy false busy
    let due := (s.loop.ctx.filter fun e => s.loopDue e.2 && decide (s.sys.jugState.getD (e.1 / 32) 0 ≠ 2)).map fun (e : Nat × LoopCtx) => e.1
    let live := fun (c : Nat) => decide ((s.ctx c).mode = 1 ∨ (s.ctx c).mode = 2)
    let late := due.filter fun c => unreached.contains c && live c
    let s := (due.filter fun c => !late.contains c).foldl State.evalLoop s
    { s with crsl := { s.crsl with late } }

/-- LOGIC_PHASE (R139). -/
def logicPhase (endT : Nat) (busy runTimes : List Nat) (s : State) : State :=
  if s.running = false then s
  else (((s.enterPhase .logic).notePhase 2 endT).noteBusy true busy).runTasks runTimes

/-! ### Commit (R25) -/

/-- The moves of a point taken out of the commit list. -/
def State.dropMoves (s : State) (p : Nat) : State :=
  { s with crsl := { s.crsl with moves := s.crsl.moves.filter fun m => m.point != p } }

/-- The value of the last move listed for a point. -/
def State.lastMove (s : State) (p : Nat) : Option W64 :=
  ((s.crsl.moves.filter fun m => m.point == p).getLast?).map fun (m : Move) => m.value

/-- Order 1: an output held at its safe value; a move of its writer goes to the live value of a force, or is kept for the end of a
watchdog. -/
def State.commitSafe (s : State) (p : Nat) : State :=
  if s.heldSafe p = false then
    { s with pnt := { s.pnt with heldBack := serase s.pnt.heldBack p } }
  else
    let s := match s.lastMove p with
      | some v =>
        let s : State := { s with pnt := { s.pnt with heldBack := sput s.pnt.heldBack p v } }
        if (s.point p).forced then s.setLive (s.point p).fidx.toNat v else s
      | none => s
    (s.dropMoves p).safeOut p

/-- Order 2: a force on an output or software point replaces its writer's value (R73, R88); the quality of a software point follows its
writer. -/
def State.commitForce (s : State) (p : Nat) : State :=
  let r := s.point p
  if r.forced = false ∨ commitSrc r.src = false ∨ (isOutput r.src && s.heldSafe p) ∨
      (isOutput r.src && decide (r.quality = 0x85) && (s.lastMove p).isNone) then s
  else
    let moved := (s.lastMove p).isSome
    let s := match s.lastMove p with
      | some v => s.setLive r.fidx.toNat v
      | none => s
    let s := (s.dropMoves p).dropReq p
    match s.force r.fidx.toNat with
    | none => s
    | some f =>
      let q := if isOutput r.src then s.outQuality p else if moved then 0x00 else if r.quality = 0x43 then 0x00 else r.quality
      if r.value = f.value ∧ r.quality = q then s else s.commitTo p f.value q

/-- An output in state 85h that its writer does not write, forced or not, is committed at its safe value (R93). -/
def State.commitBad (s : State) (p : Nat) : State :=
  if (s.point p).quality = 0x85 ∧ (s.lastMove p).isNone then s.safeOut p else s

/-- An output whose force or watchdog ended: the writer's latest value is submitted as a move of its class (R88, R295). One that finds
no room in the list (R66) waits for the next Commit; one of an output at its safe value is kept for the end of that. -/
def State.submitLive (s : State) (e : Nat × Option W64) : State :=
  let p := e.1
  let v := match e.2 with
    | some v => some v
    | none => (s.pnt.heldBack.find? fun (x : Nat × W64) => x.1 == p).map fun (x : Nat × W64) => x.2
  if (s.point p).forced ∨ (s.lastMove p).isSome then s
  else match v with
    | none => s
    | some v =>
      if s.heldSafe p then { s with pnt := { s.pnt with heldBack := sput s.pnt.heldBack p v } }
      else match s.writerOf p with
        | none => s
        | some w =>
          let (s, ok) := s.enterMove { point := p, value := v, cls := s.writerClass w, writer := w }
          if ok then s
          else { s with pnt := { s.pnt with unforced := s.pnt.unforced ++ [(p, some v)] }
                        crsl := { s.crsl with noRoom := p :: s.crsl.noRoom } }

/-- Every output whose force or watchdog ended. -/
def State.submitLives (s : State) : State :=
  s.pnt.unforced.foldl State.submitLive { s with pnt := { s.pnt with unforced := [] } }

/-- Outputs and software points whose move found no room are deferred (R66, R72). -/
def State.deferNoRoom (s : State) : State :=
  s.crsl.noRoom.foldl (fun (s : State) p =>
    if (s.point p).forced ∨ s.heldSafe p then s else s.setQuality p (s.deferQuality p) s.commitStamp) s

/-- Points that a Commit looks at for orders 1 and 2. -/
def State.commitPoints (s : State) : List Nat :=
  (s.pnt.points.filter fun e => commitSrc e.2.src && decide (e.2.quality ≠ 0xC1)).map fun (e : Nat × PRec) => e.1

/-- The safe states of R359 that begin with this Commit (R358 step 4). -/
def State.parityTakes (s : State) : State :=
  let d := s.sys.parityDue
  let s : State := { s with sys := { s.sys with parityHold := s.sys.parityHold ||| d, parityDue := 0 } }
  let s := if d.getLsbD 20 then { s with dbg := { s.dbg with port := 0 } } else s
  if d.toNat % 128 = 0 then s else s.controlStop

/-- What a Commit leaves: its list and release actions done, the outputs' hold of a warm start ended (R66, R159, R485). -/
def State.commitDone (s : State) : State :=
  { s with crsl := { s.crsl with releaseSafe := [], moves := [], noRoom := [] }, sys := { s.sys with outHold := false } }

/-- A Commit: the four orders of R25, the hand-off (R266) and the frames of R303. -/
def State.commitWork (s : State) : State :=
  let s := s.fieldOutputs
  let ps := s.commitPoints
  let outs := ps.filter fun p => isOutput (s.point p).src
  let s := s.releaseGroups.submitLives
  let before := s.beforeMoves
  let s := outs.foldl State.commitSafe s
  let s := outs.foldl State.commitBad (ps.foldl State.commitForce s)
  let s := (s.arbitrate s.crsl.moves).deferNoRoom.commitDone
  let s := outs.foldl (fun (s : State) p => (s.refreshOut p).handOff p) s
  ((s.byIoe 2 State.buildFrames).groupsDone.noteMoves before).endCatch

/-- The time of a Commit in a member that makes none (R415, R416): only its local outputs take their safe values where it may not drive
(R403). -/
def State.commitSkipped (s : State) : State :=
  if s.bound then s.outPoints.foldl State.handOff s.commitDone else s.commitDone

/-- COMMIT_PHASE (R25, R238, R246, R266, R303). -/
def commitPhase (endT pMw : Nat) (tj10 : Int) (s : State) : State :=
  let s := if s.running then (s.enterPhase .commit).applyHeldSync.parityTakes else s
  if s.running = false then s
  else
    let s := s.notePhase 3 endT
    let s : State := { s with crsl := { s.crsl with pre := some { arb := s.ledger.arb, points := s.pnt.points, forces := s.pnt.forces, unforced := s.pnt.unforced, heldBack := s.pnt.heldBack, safeNow := s.pnt.safeNow, cnt := s.cnt.filter (fun e => commitCounts.contains e.1), words := [s.reg 0x101C, s.reg 0x1020, s.reg 0x1024], claw := s.sq 2 5 } } }
    let s := (s.takeTj tj10).houseTokens pMw tj10
    if s.commits then s.commitWork else s.commitSkipped

/-! ### Housekeeping -/

/-- RECORD_VERIFY (R92, R93): 256 records in point order, and those a read had found bad. -/
def State.verifyRecords (s : State) : State :=
  let first := s.pnt.verifyNext
  let look := (s.pnt.points.filter fun e => decide (first ≤ e.1 ∧ e.1 < first + 256)).map fun (e : Nat × PRec) => e.1
  let s := (s.pnt.crcFound ++ look).foldl State.badRecord s
  { s with pnt := { s.pnt with verifyNext := (first + 256) % 8192, crcFound := [] } }.count 0x18B4 256

/-- PARITY (R358): a register in mismatch is reported; its block goes to its safe state from the next Commit. -/
def State.parityFound (s : State) (off : Nat) : State :=
  let s := (s.report .fault 13 7 0xFF off).count 0x69E8 1
  let s := if s.flag 0x682C 31 then s else s.setReg 0x682C (place 1 31 ||| place off 0)
  { s with sys := { s.sys with parityDue := s.sys.parityDue ||| BitVec.ofNat 22 (2 ^ (off / 0x800)) } }

/-- Every register with an LK or SH field checked (R358). -/
def State.parityCheck (s : State) : State := (s.image.map fun (e : Nat × W32) => e.1).foldl State.parityFound s

/-- TRIAL_START in Housekeeping of b + 1 (R473). -/
def State.trialStartDue (s : State) : State :=
  match s.upd.armedAt with
  | some b => if s.upd.switched ∧ b < s.rev then s.startTrial else s
  | none => s

/-- A final save holds the FRAM write port (R150). -/
def State.finalSaving (s : State) : Bool := s.prg.ckpt.writingFinal && s.prg.ckpt.writing.isSome

/-- The work of a Housekeeping window that waits while control does not run. -/
def State.houseWork (s : State) : State := s.restoreContexts.swbCopy.verifyRecords.parityCheck.trialStartDue

/-- HOUSEKEEPING_PHASE (R39, R44, R62 step 6, R150, R500): a domain that does not run still makes the snapshot of a final save and
writes the event log, which waits while a final save is written; the Guard window follows in every run state. `pages` of a checkpoint
were written to FRAM in this window; `bistFail` and `jugFail` are the outcomes of the slices of R410 and R490. -/
def housekeepingPhase (endT pages : Nat) (bistFail jugFail : Bool) (s : State) : State :=
  let run := s.running
  let s := s.enterPhase .guard
  let s := if run then (s.notePhase 4 endT).snapshotDue else if s.prg.ckpt.finalDue then s.snapshotDue else s
  let s := if s.prg.ckpt.writing.isSome && !s.prg.ckpt.writingFinal then s.count 0x30A8 pages else s
  let s := if run then s.houseWork else s
  let s := if s.finalSaving then s else s.writeLog
  if run then (s.sendSync.bistSlice bistFail).jugSlices jugFail else s

/-- HOUSEKEEPING_CARRY_OVER (R59). -/
def housekeepingCarryOver (s : State) : State := if s.running then s.count 0x088C 1 else s

end Sys2Proof.Machine
end

