-- ==== Sys2Proof/Machine/Views.lean ====
section
/-! DEFINITION. What every register reads as (the register tables of chapters 01 to 20): the word in effect, with the fields that
show the state of an engine taken from that state. -/

namespace Sys2Proof.Machine

/-- Number of a run state (SYS_STATUS.RUN_STATE); after a hard-phase overrun 3h shows from the boundary on (R62 step 6). -/
def State.runNum (s : State) : Nat :=
  match s.sys.run with
  | .starting => 0
  | .running => 1
  | .rescue => 2
  | .stopped => if s.crsl.ovrDue then 1 else 3

/-- Number of a synchronisation state (CRSL_STATUS.SYNC_STATE). -/
def State.syncNum (s : State) : Nat :=
  match s.crsl.sync with
  | .free => 0
  | .acquiring => 1
  | .locked => 2
  | .holdover => 3

/-- The lower 32 bits of a number. -/
def lo32 (n : Nat) : W32 := BitVec.ofNat 32 n

/-- The next 32 bits of a number. -/
def hi32 (n : Nat) : W32 := BitVec.ofNat 32 (n / 2 ^ 32)

/-- The fields of a status register beside SEQ, STALE and the SQ fields. -/
def State.statusExtra (s : State) (blk : Nat) : W32 :=
  if blk = 0 then
    flagAt s.backupOk 11 ||| flagAt s.prismOk 10 ||| flagAt s.ctrlOk 9 ||| flagAt s.sys.cmdOk 8 ||| place s.runNum 4 |||
      flagAt s.sys.compat 3 ||| flagAt s.sys.spareReady 2 ||| flagAt s.sys.activeSv 0
  else if blk = 1 then place s.syncNum 2 ||| flagAt s.crsl.slewing 1 ||| flagAt s.running 0
  else if blk = 7 then flagAt s.prsm.mirrorOk 0
  else 0

/-- A status register (R360). -/
def State.statusWord (s : State) (blk : Nat) : W32 := (s.statOf blk).word ||| s.statusExtra blk

/-- Registers whose bit 31 is APPLY_PENDING of their block: the CONFIG registers at +0, and RTC_CTRL. -/
def pendingAt (off : Nat) : Bool :=
  decide (off = 0x8020) ||
    (decide (off % 0x800 = 0) && decide (off / 0x800 ∈ [1, 2, 3, 5, 6, 8, 9, 10, 11, 12, 13, 14, 17, 18, 19, 21]))

/-- SYS_START. -/
def State.startWord (s : State) : W32 :=
  place (s.sys.cause % 16) 28 ||| flagAt s.sys.warm 27 ||| flagAt s.sys.rescue 26 ||| place (satNat 3 s.sys.failedRow) 24 |||
    flagAt s.sys.fallbackImg 23 ||| place (s.sys.failStep % 256) 8

/-- Registers of the SYS and CRSL blocks. -/
def State.viewCrsl (s : State) (off : Nat) : W32 :=
  match off with
  | 0x0000 => place 0x2000 16 ||| place (if s.isMr then 1 else 2) 8 ||| place 0x10 0
  | 0x0008 => s.reg 0x0008 ||| flagAt (s.applyPending 0) 31
  | 0x000C => s.startWord
  | 0x0010 => place (satNat 65535 s.sys.coldCnt) 16 ||| place (satNat 65535 s.sys.warmCnt) 0
  | 0x0014 => 0
  | 0x0808 => lo32 s.rev
  | 0x080C => hi32 s.rev
  | 0x0810 => s.ptpStatus
  | 0x081C => place (satNat 65535 (s.crsl.slewNs / 1000)) 0
  | _ => s.reg off

/-- The entry of a selector window that its selector names now. -/
def State.selOf (s : State) (off : Nat) : Nat :=
  if off = 0x182C then s.fld 0x1828 31 28 * 0x1000 + s.fld 0x1828 11 0
  else if off = 0x103C ∨ off = 0x1040 ∨ off = 0x1044 then s.fld 0x1038 10 0
  else if off = 0x104C then s.fld 0x1048 7 0
  else if inFam off 0x2940 4 32 then s.fld 0x2808 8 0 * 2 + s.fld 0x2808 16 16
  else if inFam off 0x5814 4 7 then s.fld 0x5810 8 0
  else if inFam off 0x6074 4 8 then s.fld 0x6070 7 0
  else 0

/-- The loop context LOOP_SEL names. -/
def State.selCtx (s : State) : LoopCtx := s.ctx (s.fld 0x2808 8 0)

/-- Booth of the session that binds the point window, none while it is unbound (R89). -/
def State.winBooth (s : State) : Option Nat := s.pnt.winSession.map fun n => (s.sess n).booth.toNat

/-- The context window is open for the context it selects (R129). -/
def State.ctxOpen (s : State) : Bool :=
  match s.winBooth with
  | some b => decide (b = 0) || (s.selCtx.inUse && decide (b = s.selCtx.owner))
  | none => false

/-- Registers of the TOKN, PNT, JUG, LOOP and PRG blocks. -/
def State.viewLoop (s : State) (off : Nat) : W32 :=
  if off = 0x1008 then s.tokState
  else if off = 0x100C then s.tokLimit
  else if off = 0x1014 then s.tokLimitEff
  else if off = 0x1034 then s.tokDefer
  else if off = 0x104C ∧ s.fld 0x1048 7 0 = 255 then 0
  else if off = 0x180C then
    match s.winBooth with
    | some b => place 1 8 ||| place b 0
    | none => 0
  else if off = 0x1820 then
    place (s.pnt.forces.filter fun e => e.2.orphan).length 16 ||| place s.pnt.forces.length 0
  else if off = 0x182C then
    if mapInRange (s.fld 0x1828 31 28) (s.fld 0x1828 11 0) then s.selWord off (s.selOf off) else 0
  else if inFam off 0x2000 4 16 then s.jugWord ((off - 0x2000) / 4)
  else if inFam off 0x2040 4 16 then s.jugMem ((off - 0x2040) / 4)
  else if off = 0x280C then (s.selCtx.w 0 &&& fieldMask 31 29) ||| (s.selCtx.w 35 &&& fieldMask 9 0)
  else if off = 0x2810 then s.selCtx.w 25
  else if off = 0x2814 then s.selCtx.w 24
  else if off = 0x2818 then s.selCtx.w 30
  else if off = 0x281C then s.selCtx.w 32
  else if inFam off 0x2820 4 4 then s.spotWord ((off - 0x2820) / 4)
  else if inFam off 0x2940 4 32 then if s.ctxOpen then s.selWord off (s.selOf off) else 0
  else if off = 0x3014 then s.reg off ||| flagAt s.prg.ckpt.writing.isSome 14
  else if off = 0x3024 then s.taskWord
  else if off = 0x3028 then
    let t := s.task (s.fld 0x3020 7 0)
    place (satNat 65535 t.maxRun) 16 ||| place (satNat 65535 t.lastRun) 0
  else if off = 0x3030 ∨ off = 0x3034 then
    let id := (sget {} s.prg.active (s.fld 0x302C 7 0)).ident.toNat
    if off = 0x3030 then lo32 id else hi32 id
  else if windowed off then s.selWord off (s.selOf off)
  else s.reg off

/-- Registers of the PRSM block; all read 0 on the LYF-8192-MN (R2) and in its parity safe state (R359). -/
def State.viewPrsm (s : State) (off : Nat) : W32 :=
  if s.isMr = false ∨ s.parityHeld 7 then 0
  else if off = 0x3880 then s.reg off
  else if (decide (0x3808 ≤ off ∧ off ≤ 0x3814) || inFam off 0x3840 4 16 || decide (0x3900 ≤ off)) then
    if s.prsm.seen = false then 0
    else if off = 0x380C then
      s.reg off ||| place (satNat 65535 ((s.crsl.upNs - s.prsm.ageSince) / 1000000)) 0
    else s.reg off
  else s.prsmView off

/-- FIO_GRPg. -/
def State.grpWord (s : State) (g : Nat) : W32 :=
  let x := s.fioGrp.getD g {}
  place x.link 30 ||| flagAt (s.busyDom (100 + g)) 29 ||| flagAt x.supplyLow 28 ||| flagAt x.wsafe 27 |||
    place x.temp.toNat 16 ||| place (satNat 511 x.vsup) 0

/-- FIO_CHk_STAT. -/
def State.fioStat (s : State) (k : Nat) : W32 :=
  let c := s.fch k
  flagAt c.countGap 7 ||| flagAt c.safeAct 6 ||| flagAt (c.diagSeen.getLsbD 0) 5 ||| flagAt (c.diagSeen.getLsbD 1) 4 |||
    flagAt (c.diagSeen.getLsbD 2) 3 ||| flagAt (c.diagSeen.getLsbD 3) 2 ||| flagAt c.cmd 1 ||| flagAt c.shown 0

/-- A word of one bit per FIO channel. -/
def State.fioBits (s : State) (f : FioCh → Bool) : W32 :=
  (List.range 32).foldl (fun (w : W32) k => w ||| flagAt (f (s.fch k)) k) 0

/-- ANA_UIk_STAT. -/
def State.uiStat (s : State) (k : Nat) : W32 :=
  let u := s.ui.getD k {}
  place u.raw.toNat 8 ||| flagAt u.sensor 3 ||| flagAt u.brk 2 ||| flagAt u.range 1 |||
    flagAt (decide (s.uiMode k = 5) && (u.contact != s.flag (0x4840 + 4 * k) 14)) 0

/-- ANA_AOj_STAT. -/
def State.aoStat (s : State) (j : Nat) : W32 :=
  let a := s.ao.getD j {}
  place (a.code % 65536) 16 ||| flagAt a.safeAct 2 ||| flagAt a.clamp 1 ||| flagAt a.overload 0

/-- Number of a fan state (R288). -/
def FanState.num : FanState → Nat
  | .stopped => 0
  | .kick => 1
  | .wait => 2
  | .run => 3
  | .openLoop => 4
  | .stall => 5

/-- FAN_CHc_STAT. -/
def State.fanStat (s : State) (c : Nat) : W32 :=
  let f := s.fch8 c
  (List.range 8).foldl (fun (w : W32) i => w ||| flagAt (decide ((f.base.getD i {}).n ≠ 0)) (16 + i)) 0 |||
    flagAt f.learning 6 ||| flagAt f.ageing 5 ||| flagAt (f.safe || f.watchdog) 4 |||
    flagAt (decide (f.state = .kick ∨ f.state = .wait)) 3 ||| place f.state.num 0

/-- FAN_CHc_MEAS. -/
def State.fanMeas (s : State) (c : Nat) : W32 :=
  let f := s.fch8 c
  place (satNat 65535 f.duty) 16 ||| place (satNat 65535 f.speed) 0

/-- FAN_CHc_AGE. -/
def State.fanAge (s : State) (c : Nat) : W32 :=
  let f := s.fch8 c
  place (satNat 65535 f.current) 16 ||| place (satNat 65535 f.ratio) 0

/-- Registers of the FIO, ANA and FAN blocks. -/
def State.viewField (s : State) (off : Nat) : W32 :=
  if off = 0x4008 then s.fioBits (·.shown)
  else if off = 0x400C then
    (List.range 4).foldl (fun (w : W32) g => w ||| place (fbits (s.fioGrp.getD g {}).lastOut 55 48) (8 * g)) 0
  else if inFam off 0x4010 4 4 then s.grpWord ((off - 0x4010) / 4)
  else if inFam off 0x4140 4 32 then s.fioStat ((off - 0x4140) / 4)
  else if inFam off 0x41C0 4 32 then (s.fch ((off - 0x41C0) / 4)).count
  else if inFam off 0x4240 4 32 then (s.fch ((off - 0x4240) / 4)).rate
  else if inFam off 0x4900 4 16 then (s.ui.getD ((off - 0x4900) / 4) {}).val
  else if inFam off 0x4940 4 16 then s.uiStat ((off - 0x4940) / 4)
  else if inFam off 0x49E0 4 8 then s.aoStat ((off - 0x49E0) / 4)
  else if off = 0x5008 then s.reg off ||| flagAt s.fanSilent 16
  else if inFam off 0x5090 4 8 then s.fanStat ((off - 0x5090) / 4)
  else if inFam off 0x50B0 4 8 then s.fanMeas ((off - 0x50B0) / 4)
  else if inFam off 0x50D0 4 8 then s.fanAge ((off - 0x50D0) / 4)
  else s.reg off

/-- Registers of the CAN and NET blocks. -/
def State.viewNet (s : State) (off : Nat) : W32 :=
  if off = 0x580C then s.reg 0x580C
  else if inFam off 0x584C 0x40 4 then s.busStat ((off - 0x584C) / 0x40)
  else if inFam off 0x5850 0x40 4 then s.busErr ((off - 0x5850) / 0x40)
  else if (decide (0x5854 ≤ off ∧ off < 0x5940) && decide (0x14 ≤ off % 0x40 ∧ off % 0x40 < 0x24)) then
    s.expWord ((off - 0x5840) / 0x40) ((off % 0x40 - 0x14) / 4)
  else if inFam off 0x6020 4 3 then s.portStat ((off - 0x6020) / 4)
  else if inFam off 0x6030 4 2 then
    s.reg off ||| place (satNat 65535 (s.port ((off - 0x6030) / 4)).twTx) 16
  else if off = 0x6040 then lo32 s.fuse.mac.toNat
  else if off = 0x6044 then hi32 s.fuse.mac.toNat
  else if off = 0x6054 then s.ptpPort
  else if inFam off 0x60A4 4 4 then s.netSess ((off - 0x60A4) / 4)
  else if windowed off then s.selWord off (s.selOf off)
  else s.reg off

/-- HOST_QCFGn. -/
def State.qcfg (s : State) (n : Nat) : W32 := s.reg (0x6840 + 4 * n) ||| place (s.q n).depthLog 20

/-- HOST_QSTATn. -/
def State.qstat (s : State) (n : Nat) : W32 :=
  let q := s.q n
  place q.free 19 ||| place q.packets 6 ||| flagAt (decide (q.free = 0)) 5 ||| flagAt q.overrun 4 ||| flagAt q.discarding 3 |||
    flagAt q.marked 2 ||| flagAt (s.notice n) 1 ||| flagAt (s.qEn n) 0

/-- HOST_QPTRn, also the status word of Q_RD. -/
def State.qptr (s : State) (n : Nat) : W32 := place (s.q n).unread 19 ||| place (s.q n).len 0

/-- A word of one bit per block. -/
def blockBits (f : Nat → Bool) : W32 := (List.range 22).foldl (fun (w : W32) i => w ||| flagAt (f i) i) 0

/-- A posted write of a block is in flight (HOST_BUSY). -/
def State.busyBlk (s : State) (blk : Nat) : Bool :=
  s.posted.any fun e => e.2.isSome && decide ((if 100 ≤ e.1 then 8 else e.1) = blk)

/-- Registers of the HOST, MBX and TRAP blocks. -/
def State.viewHost (s : State) (off : Nat) : W32 :=
  if off = 0x6814 then s.irqBlk &&& 0x003FFFFF
  else if off = 0x6818 then s.irqQ
  else if off = 0x681C then 0
  else if off = 0x6820 then flagAt (decide (s.shutPending ≠ 0)) 31 ||| (s.reg off &&& fieldMask 30 23)
  else if off = 0x6830 then blockBits s.busyBlk
  else if off = 0x6834 then blockBits s.applyPending
  else if inFam off 0x6840 4 32 then s.qcfg ((off - 0x6840) / 4)
  else if inFam off 0x68C0 4 32 then s.qstat ((off - 0x68C0) / 4)
  else if inFam off 0x6940 4 32 then s.qptr ((off - 0x6940) / 4)
  else if off = 0x7008 then place (s.mbx.slotsMax % 512) 16 ||| place (satNat 511 s.mbx.slots.length) 0
  else if inFam off 0x7010 4 8 then s.mbxSess ((off - 0x7010) / 4)
  else if inFam off 0x7030 4 8 then (s.sess ((off - 0x7030) / 4)).expected
  else if off = 0x7800 then s.reg off ||| flagAt (s.applyPending 15) 15
  else if off = 0x7808 then s.trapState
  else if off = 0x780C then s.trap.epoch
  else if off = 0x7810 then BitVec.ofInt 32 s.trap.delta
  else if off = 0x7814 then BitVec.ofInt 32 (Int.ediv s.trap.delta 4294967296)
  else if off = 0x781C then s.trapHb
  else if off = 0x7820 then s.trapHealth
  else if off = 0x7824 then s.trapMc
  else s.reg off

/-- Registers of the RTC, KEY and DBG blocks. -/
def State.viewKey (s : State) (off : Nat) : W32 :=
  if inFam off 0x8000 4 8 then ((s.rtc.cal.getD ((off - 0x8000) / 4) 0).setWidth 32)
  else if off = 0x8020 then
    flagAt (s.applyPending 16) 31 ||| (s.reg off &&& fieldMask 2 2) ||| flagAt (s.busyDom 16) 1 ||| flagAt s.rtc.halt 0
  else if off = 0x8028 then s.rtcBackup
  else if off = 0x802C then s.rtc.fswLo
  else if off = 0x8030 then s.rtc.fswHi
  else if off = 0x8034 then s.rtcAlign
  else if off = 0x8038 then lo32 s.rtc.incRev
  else if off = 0x803C then hi32 s.rtc.incRev
  else if off = 0x8800 then s.reg off ||| flagAt s.fuse.rootSrc 1
  else if off = 0x8808 then s.keyLc
  else if off = 0x880C then lo32 s.fuse.serial.toNat
  else if off = 0x8810 then hi32 s.fuse.serial.toNat
  else if off = 0x8814 then s.keySlots
  else if off = 0x8818 then s.keyCache
  else if off = 0x8820 then s.keySlotInfo
  else if off = 0x8824 then s.keyTamper
  else if off = 0xA000 then s.dbgState
  else if off = 0xA004 then lo32 s.dbg.nonce.toNat
  else if off = 0xA008 then hi32 s.dbg.nonce.toNat
  else if off = 0xA00C then lo32 s.dbg.expiry
  else if off = 0xA010 then hi32 s.dbg.expiry
  else if off = 0xA014 then s.dbgTrace
  else if off = 0xA018 then place s.dbg.traceSel.toNat 0
  else s.reg off

/-- A temperature in 0.1 °C over 11 bits. -/
def temp11 (x : Int) : Nat := (BitVec.ofInt 11 x).toNat

/-- A field measured by a converter no command of the table carries: a free value, 0 until the first measurement of a start (R6). -/
def State.measure (s : State) (off : Nat) (mask : W32) : W32 :=
  if s.pwr.measured then (s.drawnFor off).setWidth 32 &&& mask else 0

/-- Registers of the UPD, FLT and PWR blocks. The input voltage, the VAOUT power and the board temperature are measured by
converters no command of the table carries: their fields are free values. -/
def State.viewUpd (s : State) (off : Nat) : W32 :=
  if off = 0x9008 then s.updState
  else if off = 0x900C then s.updProgress
  else if off = 0x9010 then lo32 s.upd.verActive
  else if off = 0x9014 then if s.upd.state = .idle then 0 else lo32 s.upd.manifest.version
  else if off = 0x9018 then s.trialRemain
  else if off = 0x901C then s.updCondWord
  else if off = 0x9020 then lo32 s.upd.nonce.toNat
  else if off = 0x9024 then hi32 s.upd.nonce.toNat
  else if off = 0x9028 then lo32 s.upd.rollback
  else if off = 0x9808 then s.fltFirst
  else if off = 0x980C then lo32 ((s.flt.first.map (·.rev)).getD 0)
  else if off = 0x9810 then hi32 ((s.flt.first.map (·.rev)).getD 0)
  else if off = 0x9814 then lo32 ((s.flt.first.map fun e => e.data.toNat).getD 0)
  else if off = 0x9818 then hi32 ((s.flt.first.map fun e => e.data.toNat).getD 0)
  else if off = 0x981C then s.fltQueue
  else if off = 0x9820 then flagAt s.flt.stream.isSome 31 ||| place (s.flt.slotNext % 4096) 0
  else if off = 0x9824 then lo32 s.flt.logSeq
  else if off = 0x9828 then lo32 s.flt.wraps
  else if off = 0x982C then place (satNat 2047 s.flt.tjMax) 16 ||| place (temp11 s.pwr.tj10) 0
  else if off = 0xA808 then place (satNat 65535 s.pwr.pMw) 16 ||| s.measure 0xA808 0xFFFF
  else if off = 0xA80C then s.measure 0xA80C 0xFFFF
  else if off = 0xA810 then
    if s.pwr.holdValid then
      place 1 31 ||| place (satNat 127 s.pwr.holdPct) 24 ||| place (satNat 4095 s.pwr.holdUf) 12 |||
        place (satNat 4095 ((s.crsl.upNs - s.pwr.atNs) / 3600000000000)) 0
    else 0
  else if off = 0xA814 then place (temp11 s.pwr.tj10) 16 ||| s.measure 0xA814 0x7FF
  else if off = 0xA818 then flagAt (s.busyDom 21) 31
  else s.reg off

/-- The word a register shows, before the latches of the reading path. Reserved offsets read 0 (R355): nothing is ever
stored at them. -/
def State.view (s : State) (off : Nat) : W32 :=
  if inBlock off = false ∨ off % 4 ≠ 0 then 0
  else if statusReg off then if off = 0x3800 ∧ s.isMr = false then 0 else s.statusWord (off / 0x800)
  else if isCounter off then lo32 (s.total off)
  else
    let w :=
      if off < 0x1000 then s.viewCrsl off
      else if off < 0x3800 then s.viewLoop off
      else if off < 0x4000 then s.viewPrsm off
      else if off < 0x5800 then s.viewField off
      else if off < 0x6800 then s.viewNet off
      else if off < 0x8000 then s.viewHost off
      else if off < 0x9000 then s.viewKey off
      else if 0xA000 ≤ off ∧ off < 0xA800 then s.viewKey off
      else s.viewUpd off
    if pendingAt off then w ||| flagAt (s.applyPending (off / 0x800)) 31 else w

end Sys2Proof.Machine
end

