-- ==== Sys2Proof/Machine/Registers.lean ====
section
/-! DEFINITION. Accesses to the registers by one word on one path: reads with the latches of R47, R90, R223, R360 and R427, and
writes under the access codes (R355 to R357, R361, R362) with the registers that have behaviour of their own. -/

namespace Sys2Proof.Machine

/-! ### Reads -/

/-- The record a window access reaches: page PAGE, record (offset − C000h) / 32 (R89). -/
def State.winPoint (s : State) (off : Nat) : Nat := s.fld 0x1808 3 0 * 512 + (off - 0xC000) / 32

/-- A read of a point by the window: the record or its substitute for the bound booth; while unbound always the substitute (R86,
R89). -/
def State.winRecord (s : State) (pt : Nat) : State × PRec :=
  match s.winBooth with
  | some b => s.readPoint b pt
  | none => (s, substitute)

/-- The window latch of a path replaced. -/
def State.setWin (s : State) (p : Path) (l : Option WinLatch) : State := s.setPath p { s.pathOf p with win := l }

/-- POINT_WINDOW_READ (R86, R90): word 0 latches the record; words 1 to 7 come from the latch of the same record, which word 7
ends; without it the read latches. DESIGN CHOICE (log 166): R90 does not say whether one latch serves all records; here it does, so that a
read of words 1 to 7 of another record replaces the latch of the first. DESIGN CHOICE (log 146): R90 does not say whether the latch survives an unbinding and a later binding;
it does here, and while unbound every word comes from the substitute. -/
def windowRead (p : Path) (off : Nat) (s : State) : State × W32 :=
  let pt := s.winPoint off
  let i := (off - 0xC000) % 32 / 4
  let s := if s.winBooth.isNone then s.count 0x1894 1 else s
  let use := match (s.pathOf p).win with
    | some l => if l.point = pt ∧ i ≠ 0 ∧ s.winBooth.isSome then some l else none
    | none => none
  match use with
  | some l => (if i = 7 then s.setWin p none else s, l.words.getD i 0)
  | none =>
    let (s, r) := s.winRecord pt
    (s.setWin p (if i = 7 then none else some { point := pt, words := r.words }), r.words.getD i 0)

/-- The lower words whose read latches the upper word (R47): CRSL_REV, PRG_SWB_REV, TRAP_DELTA, RTC_INC_REV, FLT_FIRST_REV. -/
def revLow (off : Nat) : Bool := decide (off ∈ [0x0808, 0x300C, 0x7810, 0x8038, 0x980C])

/-- LOW_WORD_READ_LATCH (R47): the upper word latched with the instant of the read. -/
def lowLatch (off : Nat) (s : State) : State × W32 :=
  ({ s with hostp := { s.hostp with hiLatch := sput s.hostp.hiLatch off (s.view (off + 4), s.instant) } }, s.view off)

/-- A read of an upper word (R47): the latched value until it is read or one revolution passes. -/
def highRead (off : Nat) (s : State) : State × W32 :=
  match (s.hostp.hiLatch.find? fun e => e.1 == off - 4).map (·.2) with
  | some (w, t) =>
    ({ s with hostp := { s.hostp with hiLatch := serase s.hostp.hiLatch (off - 4) } },
      if s.instant < t + 6 then w else s.view off)
  | none => (s, s.view off)

/-- The lower words of the 64-bit energy registers (R223). -/
def prsmLow (off : Nat) : Bool := inFam off 0x3900 8 128

/-- PRSM_LOW_WORD_READ (R223). -/
def prsmLatchLow (off : Nat) (s : State) : State × W32 :=
  ({ s with hostp := { s.hostp with prsmLatch := some (off, s.view (off + 4)) } }, s.view off)

/-- A read of the upper word of an energy register (R223). -/
def prsmHigh (off : Nat) (s : State) : State × W32 :=
  match s.hostp.prsmLatch with
  | some (o, w) =>
    if o = off - 4 then ({ s with hostp := { s.hostp with prsmLatch := none } }, w) else (s, s.view off)
  | none => (s, s.view off)

/-- PRSM_RING_DATA_READ (R223): the next half of the record at READ; the path's half index restarts after the last. -/
def ringDataRead (p : Path) (s : State) : State × W32 :=
  if s.isMr = false ∨ s.prsm.seenLog = false ∨ s.parityHeld 7 then (s, 0)
  else
    let ws := sget [] s.prsm.ring (s.prsm.ringRead % 4096)
    let r := s.pathOf p
    let w := (ws.getD (r.half / 2) 0).toNat
    (s.setPath p { r with half := if 2 * ws.length ≤ r.half + 1 then 0 else r.half + 1 },
      if r.half % 2 = 0 then lo32 w else hi32 w)

/-- A read of a counting register of the calendar (R427): RTC_SEC loads the latch, RTC_CENTURY ends it. -/
def calendarRead (p : Path) (off : Nat) (s : State) : State × W32 :=
  let r := (off - 0x8000) / 4
  if r = 0 then (rtcLatch p s, s.view off)
  else match s.calLive p with
    | some c => (if r = 7 then s.setPath p { s.pathOf p with cal := none } else s, (c.getD r 0).setWidth 32)
    | none => (s, s.view off)

/-- An access to the context window outside its rights (R129). -/
def State.ctxDeny (s : State) : State := (s.setSQ 5 0).count 0x28B4 1

/-- One word read by a path. -/
def regRead (p : Path) (off : Nat) (s : State) : State × W32 :=
  if 0xC000 ≤ off then (if off ≤ 0xFFFC ∧ off % 4 = 0 then windowRead p off s else (s, 0))
  else if statusReg off then
    if off = 0x3800 ∧ s.isMr = false then (s, 0) else (s.latchSeq p (off / 0x800), s.view off)
  else if revLow off then lowLatch off s
  else if 4 ≤ off ∧ revLow (off - 4) then highRead off s
  else if prsmLow off then prsmLatchLow off s
  else if 4 ≤ off ∧ prsmLow (off - 4) then prsmHigh off s
  else if off = 0x38C8 then ringDataRead p s
  else if inFam off 0x8000 4 8 then calendarRead p off s
  else if inFam off 0x2940 4 32 then (if s.ctxOpen then (s, s.view off) else (s.ctxDeny, 0))
  else (s, s.view off)

/-! ### Plain writes (R355 to R357) -/

/-- The writable fields of a register that are written: those at once, those held for a boundary, the parity bit recomputed with
the word (R358). -/
def State.putFields (s : State) (off : Nat) (j : Judged) (v : W32) : State :=
  let s := if j.denied then s.lkDeny else s
  let s := if j.now = 0 then s
    else { s.setReg off (mergeBits (s.reg off) j.now v) with image := serase s.image off }
  s.shadowWrite off (s.selOf off) j.held v

/-- The fields of a register judged for a write under its block's LOCK. -/
def State.judged (s : State) (off : Nat) (v : W32) : Judged := judge (s.locked (off / 0x800)) (fieldsOf off) v

/-- A write to a register without behaviour of its own; one without a writable field is ignored as a whole (R355). -/
def plainWrite (off : Nat) (v : W32) (s : State) : State :=
  if (fieldsOf off).isEmpty then s.wrRo else s.putFields off (s.judged off v) v

/-- A write refused as a whole by `bad`, the word the register would hold: the register stays and an SQ field is set (R277, R287,
R292, R300, R414). -/
def guardedWrite (off : Nat) (v : W32) (bad : W32 → Bool) (refuse : State → State) (s : State) : State :=
  let j := s.judged off v
  let m := j.now ||| j.held
  let w := mergeBits (s.pendingWord off (s.selOf off)) m v
  if m ≠ 0 ∧ bad w then refuse (if j.denied then s.lkDeny else s) else s.putFields off j v

/-! ### Registers with behaviour of their own -/

/-- CRSL_PERIOD_WRITE (R37): PERIOD judged under LOCK, then accepted only while the control domain is stopped, and refused at any other
time whatever its value; the other fields of the register as the codes say. -/
def periodWrite (v : W32) (s : State) : State :=
  let j := s.judged 0x0800 v
  let t := s.putFields 0x0800 { j with now := 0 } v
  if j.now = 0 then t
  else if s.sys.run = .starting ∨ (s.sys.run = .stopped ∧ s.crsl.ovrDue = false) then t.putFields 0x0800 { now := j.now } v
  else t.setSQ 1 11

/-- HIGH_WATER_CLEAR (R57, PRG_TASK_TIME, MBX_SLOTS). -/
def highWaterWrite (off : Nat) (s : State) : State :=
  if inFam off 0x0820 4 5 then s.setFld off 31 16 0
  else if inFam off 0x0840 4 16 then s.setReg off 0
  else if off = 0x3028 then
    let i := s.fld 0x3020 7 0
    if (s.task i).state = .empty then s else s.setTask i { s.task i with maxRun := 0 }
  else { s with mbx := { s.mbx with slotsMax := 0 } }

/-- A write to an entry of the cost table (TOKN_COST_PT, TOKN_COST_COEF): a point that another valid entry names, or a negative
coefficient, is refused when written. -/
def costWrite (off : Nat) (v : W32) (s : State) : State :=
  let sel := s.selOf off
  if off = 0x103C then
    guardedWrite off v (fun w =>
      (List.range 2048).any fun e => decide (e ≠ sel) && bitAt (s.pendingWord off e) 31 &&
        decide (bits (s.pendingWord off e) 12 0 = bits w 12 0)) id s
  else plainWrite off v s

/-- A write to TOKN_QUOTA; with booth 255 selected it changes nothing (TOKN_QUOTA_SEL). -/
def quotaWrite (v : W32) (s : State) : State :=
  if s.fld 0x1048 7 0 = 255 then s.wrRo else plainWrite 0x104C v s

/-- PNT_EPOCH_WRITE (R74): the epoch changes at once and WRAPS returns to 0. -/
def epochWrite (off : Nat) (v : W32) (s : State) : State :=
  let j := s.judged off v
  let s := s.putFields off j v
  if j.now = 0 then s else s.setFld 0x1818 7 0 0

/-- PNT_MAP_DATA_WRITE (R94): held for the boundary with the entry selected now; a reserved selection is refused at once. -/
def mapWrite (v : W32) (s : State) : State :=
  if s.locked 3 then s.lkDeny
  else if mapInRange (s.fld 0x1828 31 28) (s.fld 0x1828 11 0) then plainWrite 0x182C v s
  else s.setSQ 3 4

/-- The bits of a context word the window may write (R99, R129): words 0 and 5 to 23, of word 0 neither OWNER nor the reserved
bits, nor MODE where the value names HOLD. -/
def ctxMask (word : Nat) (v : W32) : W32 :=
  if word = 0 then (if bits v 31 30 = 3 then fieldMask 29 19 else fieldMask 31 19)
  else if 5 ≤ word ∧ word ≤ 23 then 0xFFFFFFFF else 0

/-- LOOP_CTX_WRITE (R129): checked for the window's rights and held for the boundary, where R101 and R113 test it. -/
def ctxWrite (off : Nat) (v : W32) (s : State) : State :=
  let sel := s.selOf off
  if s.ctxOpen = false ∨ s.selCtx.inUse = false then s.ctxDeny
  else
    let m := ctxMask (sel % 2 * 32 + (off - 0x2940) / 4) v
    if (if sel % 2 = 0 then decide ((off - 0x2940) / 4 = 0 ∨ (5 ≤ (off - 0x2940) / 4 ∧ (off - 0x2940) / 4 ≤ 23)) else false) = false
    then s.wrRo
    else if s.locked 5 then s.lkDeny
    else s.shadowWrite off sel m v

/-- A UI channel's CFG, an AO channel's limits (R277, R280). -/
def anaWrite (off : Nat) (v : W32) (s : State) : State :=
  let refuse := fun (s : State) => (s.setSQ 9 3).count 0x4A18 1
  if inFam off 0x4840 4 16 then guardedWrite off v s.uiRejects refuse s
  else if inFam off 0x49A0 4 16 then
    let other := if off % 8 = 0 then off + 4 else off - 4
    guardedWrite off v (fun w => decide (w = s.pendingWord other 0)) refuse s
  else plainWrite off v s

/-- The FAN channel a setting belongs to. -/
def fanOfReg (off : Nat) : Nat := if 0x5100 ≤ off then (off - 0x5100) / 16 else (off - 0x5010) / 4 % 8

/-- A FAN channel's settings (R287, R292). -/
def fanWrite (off : Nat) (v : W32) (s : State) : State :=
  guardedWrite off v (fun w => fanRejects (fun o => if o = off then w else s.pendingWord o 0) (fanOfReg off))
    (fun s => (s.setSQ 10 4).count 0x519C 1) s

/-- The bit timing of a bus (R300): refused for another rate, and while the bus is in use. -/
def timingWrite (off : Nat) (v : W32) (s : State) : State :=
  let b := (off - 0x5840) / 0x40
  let nbt := decide (off % 0x40 = 0)
  guardedWrite off v (fun w =>
      s.flag 0x5800 (8 + b) ||
        !(if nbt then timingOk w (s.pendingWord (off + 4) 0) else timingOk (s.pendingWord (off - 4) 0) w))
    (fun s => s.setSQ 11 1) s

/-- NET-P settings (R330, NET_PORTp_CFG): EEE_EN 1 and SPEED 1h are refused, the fields unchanged. -/
def netPWrite (v : W32) (s : State) : State :=
  let j := s.judged 0x6018 v
  let eee := bitAt v 26 && bitAt j.held 26
  let spd := decide (bits v 30 29 = 1) && bitAt j.held 29
  let drop := (if eee then fieldMask 26 26 else 0) ||| (if spd then fieldMask 30 29 else 0)
  let s := s.putFields 0x6018 { j with held := j.held &&& ~~~ drop } v
  if eee || spd then s.setSQ 12 0 else s

/-- HOST_LOCK_WRITE (R356). -/
def lockWrite (v : W32) (s : State) : State := s.setReg 0x6808 (s.reg 0x6808 ||| (v &&& fieldMask 21 0))

/-- The sum of the depths that DEPTH_NEXT of all queues ask for, with queue `n` at `x` (R366). -/
def State.depthSum (s : State) (n x : Nat) : Nat :=
  ((List.range 32).map fun k => 2 ^ (if k = n then x else s.fld (0x6840 + 4 * k) 27 24)).sum

/-- HOST_QCFG_WRITE (R366): DEPTH_NEXT refused beyond the pool, below the queue's least depth, or reserved. -/
def qcfgWrite (n : Nat) (v : W32) (s : State) : State :=
  let off := 0x6840 + 4 * n
  let j := s.judged off v
  let x := bits v 27 24
  let refused := decide (j.now ≠ 0) &&
    (decide (12 < x) || decide (2 ^ x < leastDepth n) || decide (16384 < s.depthSum n x))
  let s := s.putFields off (if refused then { j with now := 0 } else j) v
  if refused then s.setSQ 13 2 else s

/-- The boundary of the next snapshot: that of the blocks already pending, if any (R363). -/
def State.dueShutter (s : State) : State :=
  if s.shutPending = 0 then { s with hostp := { s.hostp with shutDue := s.dueNow } } else s

/-- Blocks added to the pending snapshot set by a register write (R363). -/
def State.addShutter (s : State) (m : W32) : State :=
  let b : BitVec 22 := m.setWidth 22
  if b = 0 then s
  else
    let s := s.dueShutter
    { s with hostp := { s.hostp with shutMask := s.hostp.shutMask ||| b } }

/-- TRAP_WIT (R414): WIT_SIL at least 3 × REF_PER and at least 10 revolutions. -/
def witWrite (v : W32) (s : State) : State :=
  guardedWrite 0x7818 v (fun w =>
      decide (bits w 15 0 < 3 * s.fld 0x5808 15 0 ∨ bits w 15 0 * 1000000 < 10 * s.periodNs))
    (fun s => s.setSQ 15 8) s

/-- RTC_CTRL (R362, R428): a write is dropped whole while BUSY; else ALIGN_EN is held for the boundary and the rest posted. In
the parity safe state of RTC nothing is posted (R359). -/
def rtcCtrlWrite (v : W32) (s : State) : State :=
  if s.busyDom 16 then s.post 0x8020 v
  else
    let s := s.putFields 0x8020 (s.judged 0x8020 v) v
    if s.parityHeld 16 then s else s.post 0x8020 v

/-- RTC_COUNT_WRITE (R428), refused in the parity safe state of RTC (R359). -/
def calendarWrite (off : Nat) (v : W32) (s : State) : State := if s.parityHeld 16 then s else s.rtcCountWrite off v

/-- KEY_TAMPER (R362): FILT posted, 0 leaving it unchanged. -/
def tamperWrite (v : W32) (s : State) : State :=
  if s.locked 17 then s.lkDeny else if bits v 7 0 = 0 then s else s.post 0x8824 v

/-! ### Queue operations (R370) -/

/-- A queue operation of the wrong kind of queue, or with a reserved action (R370). -/
def State.qcmdRej (s : State) : State := s.setSQ 13 1

/-- MARK. -/
def qMark (n : Nat) (s : State) : State :=
  if hostRead n then s.setQ n { s.q n with mark := (s.q n).cur, marked := true } else s.qcmdRej

/-- REWIND. -/
def qRewind (n : Nat) (s : State) : State :=
  if hostRead n then
    let q := s.q n
    s.setQ n { q with cur := if q.marked then q.mark else q.rl }
  else s.qcmdRej

/-- RELEASE, the packets released counted (R374). -/
def qRelease (n : Nat) (s : State) : State :=
  if hostRead n then
    let q := s.q n
    let r := q.release
    (s.setQ n r).count 0x69F8 (q.packets - r.packets)
  else s.qcmdRej

/-- RESET. -/
def qReset (n : Nat) (s : State) : State := if hostRead n then s.setQ n (s.q n).clear else s.qcmdRej

/-- ABORT. -/
def qAbort (n : Nat) (s : State) : State :=
  if hostWritten n then
    let q := s.q n
    s.setQ n { q with words := q.words.take (q.ps - q.rl), wr := q.ps, overrun := false, discarding := false }
  else s.qcmdRej

/-- A write to HOST_QCMD (R370). -/
def qcmdWrite (v : W32) (s : State) : State :=
  let n := bits v 4 0
  match bits v 7 5 with
  | 0 => qMark n s
  | 1 => qRewind n s
  | 2 => qRelease n s
  | 3 => qReset n s
  | 4 => qAbort n s
  | _ => s.qcmdRej

/-! ### The point window (R91) -/

/-- POINT_WINDOW_WRITE (R91): word 0 staged, word 1 of the same record submits one network point write. DESIGN CHOICE (log 167): R91
does not say whether paths share the staged word, nor whether it survives an ignored write in between; here all paths share one, and it
does. -/
def windowWrite (off : Nat) (v : W32) (s : State) : State :=
  match s.winBooth with
  | none => (s.setSQ 3 6).count 0x1894 1
  | some b =>
    let pt := s.winPoint off
    let i := (off - 0xC000) % 32 / 4
    if i = 0 then { s with pnt := { s.pnt with winStage := some (pt, v) } }
    else match s.pnt.winStage with
      | some (p0, lo) =>
        if i = 1 ∧ p0 = pt then
          { s with pnt := { s.pnt with
            winStage := none
            netq := s.pnt.netq ++ [{ slot := none, window := true, rev := s.rev, booth := BitVec.ofNat 8 b,
                                     writes := [{ point := pt, value := v ++ lo }] }] } }
        else s.setSQ 3 5
      | none => s.setSQ 3 5

/-! ### One word written by a path -/

/-- A register the configuration store holds fields of (R35). -/
def isConfig (off : Nat) : Bool := (fieldsOf off).any fun f => f.lk || f.sh

/-- Writes to the SYS to PRG blocks with behaviour of their own, else plain. -/
def writeLow (off : Nat) (v : W32) (s : State) : State :=
  if off = 0x0014 then sysReset v s
  else if off = 0x0800 then periodWrite v s
  else if highWater off then highWaterWrite off s
  else if off = 0x103C ∨ off = 0x1040 ∨ off = 0x1044 then costWrite off v s
  else if off = 0x104C then quotaWrite v s
  else if off = 0x1810 ∨ off = 0x1814 then epochWrite off v s
  else if off = 0x182C then mapWrite v s
  else if inFam off 0x2940 4 32 then ctxWrite off v s
  else plainWrite off v s

/-- Writes to the PRSM to CAN blocks. No write but PRSM_MSEL reaches the mirror (R223); on the LYF-8192-MN none does (R2). -/
def writeMid (off : Nat) (v : W32) (s : State) : State :=
  if off < 0x4000 then (if s.isMr ∧ off = 0x3880 then plainWrite off v s else s.wrRo)
  else if inFam off 0x4040 4 32 then s.channelWrite ((off - 0x4040) / 4) false v
  else if inFam off 0x40C0 4 32 then s.channelWrite ((off - 0x40C0) / 4) true v
  else if off < 0x5000 then anaWrite off v s
  else if inFam off 0x5010 4 8 || inFam off 0x5030 4 8 || inFam off 0x5070 4 8 || inFam off 0x5100 4 32 then fanWrite off v s
  else if inFam off 0x5840 0x40 4 || inFam off 0x5844 0x40 4 then timingWrite off v s
  else plainWrite off v s

/-- Writes to the NET to PWR blocks. -/
def writeHigh (off : Nat) (v : W32) (s : State) : State :=
  if off = 0x6018 then netPWrite v s
  else if off = 0x6808 then lockWrite v s
  else if off = 0x681C then qcmdWrite v s
  else if off = 0x6820 then s.addShutter v
  else if inFam off 0x6840 4 32 then qcfgWrite ((off - 0x6840) / 4) v s
  else if highWater off then highWaterWrite off s
  else if off = 0x7818 then witWrite v s
  else if inFam off 0x8000 4 8 then calendarWrite off v s
  else if off = 0x8020 then rtcCtrlWrite v s
  else if off = 0x8824 then tamperWrite v s
  else if off = 0xA818 then s.post off v
  else plainWrite off v s

/-- One word written by a path (R355). Status registers take a clearing write (R361); while a trial keeps the configuration in one
format, configuration is ignored (R474). -/
def regWrite (p : Path) (off : Nat) (v : W32) (s : State) : State :=
  if 0xC000 ≤ off then (if off ≤ 0xFFFC ∧ off % 4 = 0 then windowWrite off v s else s)
  else if off % 4 ≠ 0 ∨ inBlock off = false then s.wrRo
  else if statusReg off then
    if off = 0x3800 ∧ s.isMr = false then s.wrRo else s.seqClear p (off / 0x800) v
  else if s.cfgFrozen ∧ isConfig off then s.wrRo
  else if off < 0x3800 then writeLow off v s
  else if off < 0x6000 then writeMid off v s
  else writeHigh off v s

/-- POSTED_WRITE_COMPLETE (R362, R429): a block of the backup domain confirms; a Tightrope group confirms by ACK (R271). BAT_MEAS
measures BAT, whose voltage is a free value here. -/
def postedComplete (dom : Nat) (s : State) : State :=
  if 100 ≤ dom then s
  else match sget none s.posted dom with
    | none => s
    | some w =>
      let s := { s with posted := sset none s.posted dom none }
      if dom = 16 then s.rtcPosted w.off w.val else if dom = 17 then s.keyPosted w.off w.val
      else if bitAt w.val 0 then batMeasurement ((s.drawnFor 0xA818).toNat % 4096) s else s

end Sys2Proof.Machine
end

