-- ==== Sys2Proof/Machine/Service.lean ====
section
/-! DEFINITION. The rest of the command service (chapter 14): the 0100h commands on registers (R386), IO_STATUS (R392), TIMEOUT
(R385), the packets of the command queues read as commands (R375, R376, R396) and their acceptance in turn (R383). -/

namespace Sys2Proof.Machine

/-! ### Commands on registers (R386) -/

/-- IDENTIFY (R386). -/
def cmdIdentify (h : Hdr) (s : State) : State :=
  runCmd h { opcode := 0x0104, preOpen := true, maxData := 16 }
    (fun s => okRes (leBytes 4 (s.view 0x0000).toNat ++ leBytes 4 s.upd.verActive ++ leBytes 8 s.rev) s) s

/-- ECHO (R386). -/
def cmdEcho (h : Hdr) (bytes : List Byte) (s : State) : State :=
  runCmd h { opcode := 0x0108, preOpen := true, maxData := bytes.length } (fun s => okRes bytes s) s

/-- Words read as a REG_RD burst from an offset (R351): nothing beyond FFFCh. -/
def readBurst (p : Path) : Nat → Nat → State → State × List W32
  | 0, _, s => (s, [])
  | n + 1, off, s =>
    let (s, w) := if off ≤ 0xFFFC then regRead p off s else (s, 0)
    let (s, ws) := readBurst p n (off + 4) s
    (s, w :: ws)

/-- Words written as a REG_WR burst from an offset (R351): nothing beyond FFFCh. -/
def writeBurst (p : Path) : List W32 → Nat → State → State
  | [], _, s => s
  | w :: ws, off, s => writeBurst p ws (off + 4) (if off ≤ 0xFFFC then regWrite p off w s else s)

/-- REG_READ (R386). -/
def cmdRegRead (h : Hdr) (off count : Nat) (s : State) : State :=
  runCmd h { opcode := 0x0105, maxData := 4 * count, denied := !s.landlord h
             bad := if off % 4 ≠ 0 ∨ 0xFFFC < off then some 0 else if count = 0 ∨ 256 < count then some 2 else none }
    (fun s =>
      let (s, ws) := readBurst (.session h.session) count off s
      okRes (bytesOf32 ws) s) s

/-- A write that would give an LK field of a locked block another value (R356, R384). -/
def State.breaksLock (s : State) (off : Nat) (v : W32) : Bool :=
  s.locked (off / 0x800) && (fieldsOf off).any fun f =>
    f.lk && decide (bits v f.hi f.lo ≠ bits (s.pendingWord off (s.selOf off)) f.hi f.lo)

/-- Offsets and words of a burst. -/
def burstPairs (off : Nat) : List W32 → List (Nat × W32)
  | [] => []
  | w :: ws => (off, w) :: burstPairs (off + 4) ws

/-- What R384 judges of REG_WRITE beside its form: a locked block, the calendar in its safe state, a configuration
kept in one format (R474). -/
def State.regWriteSpec (s : State) (h : Hdr) (off : Nat) (words : List W32) : CmdSpec :=
  let ps := burstPairs off words
  { opcode := 0x0106, denied := !s.landlord h
    lockBlk := (ps.find? fun e => s.breaksLock e.1 e.2).map fun e => e.1 / 0x800
    safeBlk := if ps.any fun e => decide (0x8000 ≤ e.1 ∧ e.1 ≤ 0x8020) then some 16 else none
    bad := if off % 4 ≠ 0 ∨ 0xFFFC < off then some 0 else if words.isEmpty ∨ 256 < words.length then some 2 else none
    refuse := if s.cfgFrozen ∧ ps.any fun e => isConfig e.1 then some 9 else none }

/-- REG_WRITE (R385, R386): the session is the writing path. -/
def cmdRegWrite (h : Hdr) (off : Nat) (words : List W32) (s : State) : State :=
  runCmd h (s.regWriteSpec h off words) (fun s => okRes [] (writeBurst (.session h.session) words off s)) s

/-- SHUTTER (R363, R386): completes after the snapshot. -/
def cmdShutter (h : Hdr) (mask : W32) (s : State) : State :=
  runCmd h { opcode := 0x0107, maxData := 8, denied := !s.landlord h
             bad := if mask &&& fieldMask 21 0 = 0 then some 0 else none }
    (fun s => .later (.shutter (mask.setWidth 22)) s.dueShutter) s

/-! ### IO_STATUS (R392) -/

/-- The status register and the point of a channel, none where there is no such channel. -/
def State.ioChannel (s : State) (kind ch : Nat) : Option (W32 × Nat) :=
  if kind = 0 ∧ ch < 32 then some (s.fioStat ch, s.fioPoint ch)
  else if kind = 1 ∧ ch < 16 then some (s.uiStat ch, s.fld (0x4840 + 4 * ch) 31 19)
  else if kind = 2 ∧ ch < 8 then some (s.aoStat ch, s.fld (0x4980 + 4 * ch) 31 19)
  else if kind = 3 ∧ ch < 8 then some (s.fanStat ch, s.fanPoint ch)
  else none

/-- IO_STATUS (R392): the present value is the VALUE of the channel's point, read under the access check of the session's booth
(R23). -/
def cmdIoStatus (h : Hdr) (kind ch : Nat) (s : State) : State :=
  let x := s.ioChannel kind ch
  runCmd h { opcode := 0x0704, maxData := 8
             denied := (x.map fun e => !s.boothIs h (s.point e.2).owner.toNat).getD false
             bad := if 3 < kind then some 0 else if x.isNone then some 1 else none }
    (fun s =>
      let e := x.getD (0, 0)
      let (s, r) := s.readPoint (s.boothOf h) e.2
      okRes (leBytes 4 e.1.toNat ++ leBytes 4 r.value.toNat) s) s

/-! ### TIMEOUT (R385) -/

/-- A cancel applied to frames of a bus taken back. -/
def State.uncancel (s : State) (b : Nat) : State :=
  let u := s.cbus b
  let clear := fun (x : CanTx) => { x with cancelled := false }
  s.setBus b { u with queue := u.queue.map clear
                      express := u.express.map fun (e : Express) => { e with active := e.active.map clear } }

/-- The pending effect of a command withdrawn (R385). -/
def State.withdraw (s : State) (x : Slot) : State :=
  let s := s.withdrawWrites x.ident
  match x.wait with
  | .shift => { s with rtc := { s.rtc with shift := none } }
  | .timeSet old => s.timeUnset old
  | .prism => { s with prsm := { s.prsm with proposal := none, propResult := 2, propReason := 0 } }
  | .cancel b _ => s.uncancel b
  | .close => s.setSess x.session { s.sess x.session with state := .opened }
  | _ => s

/-- TIMEOUT (R385): a command not complete 2 s after its acceptance, an instant of the revolution in progress or before it. -/
def timeout (n : Nat) (tag : Byte) (s : State) : State :=
  match s.mbx.slots.find? fun x => x.session == n && x.tag == tag with
  | some x => if x.accepted + 2000000000 ≤ s.crsl.upNs + s.periodNs then (s.withdraw x).complete x 0x0F 0 [] else s
  | none => s

/-! ### Packets (R375, R376, R396) -/

/-- Opcodes whose Booths column names booth 0 alone. -/
def boothZeroOp (op : Nat) : Bool :=
  decide (op ∈ [0x0105, 0x0106, 0x0107, 0x0205, 0x0501, 0x0502, 0x0503, 0x0601, 0x0602, 0x0703, 0x0802, 0x0803, 0x0804, 0x0901,
    0x0B02, 0x0B03]) || decide (op / 256 = 10 ∨ op / 256 = 13 ∨ op / 256 = 14)

/-- A command whose payload is shorter or longer than its fields (R396). -/
def cmdMalformed (h : Hdr) (op : Nat) (s : State) : State :=
  runCmd h { opcode := op, effOk := decide (op ∈ [0x0403, 0x0501, 0x0502, 0x0A02, 0x0D04])
             preOpen := decide (op ∈ [0x0101, 0x0102, 0x0104, 0x0108]), absent := decide (op / 256 = 6) && !s.isMr
             denied := (boothZeroOp op && !s.landlord h) || (decide (op / 256 = 15) && s.notDebugger h)
             bad := some (s.drawn.toNat % 65536) } (fun s => okRes [] s) s

/-- A command one of whose fields has a value outside its range, at a payload offset, beside what its booth is denied (R384). -/
def badField (h : Hdr) (op off : Nat) (denied : State → Bool) (s : State) : State :=
  runCmd h { opcode := op, denied := denied s, bad := some off, changes := true } (fun s => okRes [] s) s

/-- An opcode outside R386 to R395 (R396). -/
def cmdUnknown (h : Hdr) (op : Nat) (s : State) : State :=
  runCmd h { opcode := op, undef := true } (fun s => okRes [] s) s

/-- What the packet of an opcode does; `d` is the payload past the effective time and without its CRC. -/
abbrev Parsed := Option (State → State)

/-- A payload of exactly `n` bytes. -/
def exact (n : Nat) (d : List Byte) (f : State → State) : Parsed := if d.length = n then some f else none

/-- `n` items of `w` bytes each, from an offset. -/
def items (d : List Byte) (off w n : Nat) : List Nat := (List.range n).map fun i => leAt d (off + w * i) w

/-- A 32-bit field. -/
def w32At (d : List Byte) (off : Nat) : W32 := BitVec.ofNat 32 (leAt d off 4)

/-- A 64-bit field. -/
def w64At (d : List Byte) (off : Nat) : W64 := BitVec.ofNat 64 (leAt d off 8)

/-- A one-byte field. -/
def byteAt (d : List Byte) (off : Nat) : Byte := d.getD off 0

/-- The 0100h and 0200h groups (R386, R387). -/
def parse12 (h : Hdr) (op : Nat) (d : List Byte) : Parsed :=
  match op with
  | 0x0101 => exact 0 d (cmdSessionChallenge h)
  | 0x0102 => some (cmdSessionOpen h d)
  | 0x0103 => exact 0 d (cmdSessionClose h)
  | 0x0104 => exact 0 d (cmdIdentify h)
  | 0x0105 => exact 4 d (cmdRegRead h (leAt d 0 2) (leAt d 2 2))
  | 0x0106 =>
    let n := leAt d 2 2
    if 4 ≤ d.length ∧ d.length = 4 + 4 * n then
      some (cmdRegWrite h (leAt d 0 2) ((items d 4 4 n).map fun x => BitVec.ofNat 32 x)) else none
  | 0x0107 => exact 4 d (cmdShutter h (w32At d 0))
  | 0x0108 => some (cmdEcho h d)
  | 0x0201 => exact 4 d (cmdPointRead h (leAt d 0 2) (leAt d 2 2))
  | 0x0202 =>
    let n := leAt d 0 2
    if 8 ≤ d.length ∧ d.length = 8 + 16 * n then
      some (cmdPointWrite h ((List.range n).map fun i => { point := leAt d (8 + 16 * i) 2, value := w64At d (16 + 16 * i) }))
    else none
  | 0x0203 => exact 16 d (cmdForceSet h (leAt d 0 2) (w64At d 8))
  | 0x0204 => exact 2 d (cmdForceClear h (leAt d 0 2))
  | 0x0205 => exact 8 d (cmdPointConfig h (leAt d 0 2) (byteAt d 2) (BitVec.ofNat 4 ((byteAt d 3).toNat / 16))
      (BitVec.ofNat 4 (byteAt d 3).toNat) (BitVec.ofNat 16 (leAt d 4 2)) (BitVec.ofNat 16 (leAt d 6 2)))
  | 0x0206 => exact 0 d (cmdWindowBind h)
  | 0x0207 => exact 0 d (cmdWindowUnbind h)
  | 0x0208 => exact 4 d (cmdForceList h (leAt d 0 2) (leAt d 2 2))
  | _ => some (cmdUnknown h op)

/-- The parameters of SPOT_START (R388). -/
def spotOf (d : List Byte) : SpotParams :=
  { signal := leAt d 2 1, target := leAt d 3 1, queue := leAt d 4 1, order := leAt d 5 1, samples := leAt d 6 2, pre := leAt d 8 2,
    hold := leAt d 10 1, amp := w32At d 12, f0 := w32At d 16, f1 := w32At d 20, abortLo := w32At d 24, abortHi := w32At d 28 }

/-- The 0300h to 0500h groups (R388 to R390). -/
def parse345 (h : Hdr) (op : Nat) (d : List Byte) : Parsed :=
  match op with
  | 0x0301 => exact 2 d (cmdLoopRead h (leAt d 0 2))
  | 0x0302 => exact 100 d (cmdLoopLoad h (leAt d 0 2) ((items d 4 4 24).map fun x => BitVec.ofNat 32 x))
  | 0x0303 => exact 8 d (cmdLoopMode h (leAt d 0 2) (leAt d 2 1) (w32At d 4))
  | 0x0304 => exact 3 d (cmdSpotPermit h (leAt d 0 2) (leAt d 2 1))
  | 0x0305 => exact 32 d (cmdSpotStart h (leAt d 0 2) (spotOf d))
  | 0x0306 => exact 1 d (cmdSpotStop h (leAt d 0 1))
  | 0x0401 => if 8 ≤ d.length then some (cmdImageStage h (leAt d 0 1) (leAt d 1 1) (leAt d 4 4) (d.drop 8)) else none
  | 0x0402 => exact 2 d (cmdImageLoad h (leAt d 0 1) (leAt d 1 1))
  | 0x0403 => exact 16 d (cmdSwbArm h (leAt d 0 1) (leAt d 1 1) (w64At d 8))
  | 0x0404 => exact 1 d (cmdSwbDisarm h (leAt d 0 1))
  | 0x0405 => exact 1 d (cmdImageRelease h (leAt d 0 1))
  | 0x0406 => exact 1 d (cmdTaskStop h (leAt d 0 1))
  | 0x0407 => exact 1 d (cmdTaskRestart h (leAt d 0 1))
  | 0x0408 =>
    let n := leAt d 1 1
    if 8 ≤ d.length ∧ d.length = 8 + 8 * n then
      some (cmdVarRead h (leAt d 0 1) ((items d 8 8 n).map fun x => BitVec.ofNat 64 x)) else none
  | 0x0501 => exact 8 d (cmdLimitSet h (w32At d 0) (leAt d 4 1) (decide (leAt d 5 1 % 2 = 1)))
  | 0x0502 => exact 1 d (cmdShedSet h (leAt d 0 1))
  | 0x0503 => exact 0 d (cmdLedgerRead h)
  | 0x0504 => exact 4 d (cmdRequestList h (leAt d 0 2) (leAt d 2 2))
  | _ => some (cmdUnknown h op)

/-- The frame of CAN_SEND: words 0 and 2 to 9 of the packet of R314, as many of the latter as its length needs. -/
def frameOf (d : List Byte) : CanFrame :=
  let w := leAt d 8 8
  let dlc := w / 2 ^ 41 % 16
  let fdf := decide (w / 2 ^ 46 % 2 = 1)
  { ide := decide (w / 2 ^ 47 % 2 = 1), fdf, brs := decide (w / 2 ^ 45 % 2 = 1), remote := false, dlc,
    ident := BitVec.ofNat 29 w, data := (d.drop 16).take (dlcLen fdf dlc) }

/-- The 0600h to 0900h groups (R391 to R394). -/
def parse6789 (h : Hdr) (op : Nat) (d : List Byte) : Parsed :=
  match op with
  | 0x0601 => exact 816 d (cmdPrismPropose h d)
  | 0x0602 => exact 1 d (cmdPrismRead h (leAt d 0 1))
  | 0x0701 => exact 1 d (fun s => cmdFioRetry h (leAt d 0 1) (s.drawn.getLsbD 0) s)
  | 0x0702 => exact 1 d (cmdFanRetry h (leAt d 0 1))
  | 0x0703 => exact 2 d (cmdFanLearn h (leAt d 0 1) (leAt d 1 1))
  | 0x0704 => exact 2 d (cmdIoStatus h (leAt d 0 1) (leAt d 1 1))
  | 0x0801 =>
    let n := leAt d 2 2
    let m := leAt d (4 + n) 2
    if 6 ≤ d.length ∧ d.length = 6 + n + m then
      some (cmdScHubs h (leAt d 0 1) ((d.drop 4).take n) ((d.drop (6 + n)).take m)) else none
  | 0x0802 => exact 1 d (cmdIfRead h (leAt d 0 1))
  | 0x0803 => exact 1 d (cmdNeighbourRead h (leAt d 0 1))
  | 0x0804 => exact 0 d (cmdSessionList h)
  | 0x0901 =>
    let f := frameOf d
    if 16 ≤ d.length ∧ d.length = 16 + (dlcLen f.fdf f.dlc + 7) / 8 * 8 then
      some (cmdCanSend h (leAt d 0 1) f) else none
  | 0x0902 =>
    if leAt d 1 1 < 2 then exact 4 d (cmdCanCancel h (leAt d 0 1) (decide (leAt d 1 1 = 1)) (leAt d 2 2))
    else exact 4 d (badField h 0x0902 (if 4 ≤ leAt d 0 1 then 0 else 1) (fun s => !s.mayCancel h (leAt d 0 1) false (leAt d 2 2)))
  | _ => some (cmdUnknown h op)

/-- The request of KEY_GENERATE (R463). -/
def keyGenOf (d : List Byte) : KeyGenReq :=
  { toBlob := decide (leAt d 0 1 = 1), target := leAt d 1 1, kind := leAt d 2 1, owner := byteAt d 3, usage := w32At d 4,
    replaces := leAt d 8 1, parent := leAt d 9 1 }

/-- The request of KEY_IMPORT into a slot (R463). -/
def keyImpOf (d : List Byte) : KeyImpReq :=
  { slot := leAt d 0 1, kind := leAt d 1 1, owner := byteAt d 2, usage := w32At d 4, unwrap := leAt d 8 1, replaces := leAt d 9 1,
    parent := leAt d 10 1, material := d.drop 12 }

/-- The 0A00h to 0C00h groups (R420, R437, R463). -/
def parseABC (h : Hdr) (op : Nat) (d : List Byte) : Parsed :=
  match op with
  | 0x0A01 => exact 0 d (cmdPairStatus h)
  | 0x0A02 => exact 0 d (cmdPairSwitch h)
  | 0x0A03 => exact 0 d (cmdWitnessRead h)
  | 0x0B01 => exact 0 d (cmdTimeRead h)
  | 0x0B02 => exact 8 d (cmdTimeSet h d)
  | 0x0B03 => exact 1 d (cmdHourShift h (byteAt d 0))
  | 0x0C01 =>
    if leAt d 0 1 < 2 then exact 10 d (cmdKeyGenerate h (keyGenOf d))
    else exact 10 d (badField h 0x0C01 0 (fun s => !s.mayOwn h (byteAt d 3) || s.privateDenied h (leAt d 2 1) (byteAt d 3)))
  | 0x0C02 =>
    if leAt d 0 1 = 0xFF then exact 97 d (cmdLifeCycle h (d.drop 1))
    else if d.length = 76 ∨ d.length = 52 then some (cmdKeyImport h (keyImpOf d)) else none
  | 0x0C03 => exact 1 d (cmdKeyRevoke h (leAt d 0 1))
  | 0x0C04 => exact 65 d (cmdBlobLoad h (d.take 64) (decide ((byteAt d 64).toNat % 2 = 1)))
  | 0x0C05 => exact 36 d (cmdAttest h (leAt d 0 1) (BitVec.ofNat 16 (leAt d 2 2)) (d.drop 4))
  | _ => some (cmdUnknown h op)

/-- The 0D00h to 0F00h groups (R463, R480, R504). -/
def parseDEF (h : Hdr) (op : Nat) (d : List Byte) : Parsed :=
  match op with
  | 0x0D01 => exact 260 d (cmdUpdManifest h (leAt d 0 1) (d.drop 4))
  | 0x0D02 =>
    if 36 ≤ d.length then some (cmdUpdChunk h (leAt d 0 2) (leAt d 2 1) ((d.drop 4).take 32) (d.drop 36)) else none
  | 0x0D03 => exact 4 d (cmdUpdStatus h (leAt d 0 2) (leAt d 2 2))
  | 0x0D04 => exact 16 d (cmdUpdActivate h (w64At d 8))
  | 0x0D05 => exact 0 d (cmdUpdConfirm h)
  | 0x0D06 => exact 72 d (cmdUpdLock h (byteAt d 0) (d.drop 8))
  | 0x0E01 => exact 0 d (cmdFaultRead h)
  | 0x0E02 => exact 8 d (cmdLogRead h (w32At d 0) (leAt d 4 2))
  | 0x0E03 => exact 8 d (cmdLogStream h (leAt d 0 1) (w32At d 4))
  | 0x0E04 => exact 2 d (cmdCtrlRestart h (leAt d 0 1) (leAt d 1 1))
  | 0x0F01 =>
    if d.length = 96 ∨ d.isEmpty then
      some (fun s => if (s.key.life = .deployed) ↔ d.length = 96 then cmdDebugOpen h d s else cmdMalformed h op s)
    else none
  | 0x0F02 => exact 8 d (cmdTraceStart h (w32At d 0) (w32At d 4))
  | 0x0F03 => exact 0 d (cmdTraceStop h)
  | _ => some (cmdUnknown h op)

/-- The command of an opcode and its payload. -/
def parseCmd (h : Hdr) (op : Nat) (d : List Byte) : Parsed :=
  if op / 256 ≤ 2 then parse12 h op d
  else if op / 256 ≤ 5 then parse345 h op d
  else if op / 256 ≤ 9 then parse6789 h op d
  else if op / 256 ≤ 12 then parseABC h op d
  else parseDEF h op d

/-- A packet whose header CRC holds, carried out for a session (R375 to R377). -/
def runPacket (n : Fin 8) (ws : List W64) (s : State) : State :=
  let b := bytesOf ws
  let flags := leAt b 4 2
  let len := leAt b 6 2
  let payload := (b.drop 16).take len
  let hasCrc := decide (flags / 2 ^ 13 % 2 = 1)
  let hasEff := decide (flags / 2 ^ 14 % 2 = 1)
  let body := if hasCrc then payload.take (len - 4) else payload
  let h : Hdr := {
    session := n, tag := byteAt b 2, booth := byteAt b 3, sseq := w32At b 8
    eff := if hasEff then some (w64At body 0) else none
    badHeader := decide (flags / 2 ^ 15 % 2 = 1) || decide (flags % 2 ^ 11 ≠ 0) || decide (4080 < len) ||
      decide (ws.length ≠ 2 + (len + 7) / 8)
    badPayload := hasCrc && (decide (len < 4) || decide ((crc32 body).toNat ≠ leAt payload (len - 4) 4)) }
  let op := leAt b 0 2
  if hasEff ∧ body.length < 8 then cmdMalformed h op s
  else match parseCmd h op (if hasEff then body.drop 8 else body) with
    | some f => f s
    | none => cmdMalformed h op s

/-! ### Acceptance in turn (R383) -/

/-- The command queue of a session (R379). -/
def cmdQueue (n : Nat) : Nat := if n < 4 then n else 8 + n

/-- A packet's header CRC holds (R384 order 1). -/
def headerOk (ws : List W64) : Bool :=
  let b := bytesOf (ws.take 2)
  decide (2 ≤ ws.length) && decide ((crc32 (b.take 12)).toNat = leAt b 12 4)

/-- The command at the front of a session's queue taken, discarded for its header CRC, or left for want of a slot or of response
room (R383, R384). The unaccepted commands of a session that is closing wait to be discarded (R381). -/
def takeOne (n : Fin 8) (s : State) : State :=
  let q := s.q (cmdQueue n.val)
  let ws := q.headPacket
  if ws.isEmpty ∨ (s.sess n.val).state = .closing then s
  else
    let t := s.setQ (cmdQueue n.val) q.dropHead
    if headerOk ws = false then ((t.count 0x7060 1).setSQ 14 4).count 0x7070 1
    else
      let u := runPacket n ws t
      if u.mbx.nextIdent = s.mbx.nextIdent then s
      else { u with mbx := { u.mbx with turn := (n.val + 1) % 8 } }

/-- Packets in the command queues. -/
def State.waitingCmds (s : State) : Nat := ((List.range 8).map fun n => (s.q (cmdQueue n)).packets).sum

/-- Turns over the command queues, one command per non-empty queue in each, while some command is taken. -/
def serveTurns : Nat → State → State
  | 0, s => s
  | k + 1, s =>
    let first := s.mbx.turn
    let t := (List.finRange 8).foldl (fun (u : State) i => takeOne ⟨(first + i.val) % 8, Nat.mod_lt _ (by decide)⟩ u) s
    if t.waitingCmds = s.waitingCmds then t else serveTurns k t

/-- The command service takes what it can (R383). -/
def serve (s : State) : State := if s.sys.cmdOk then serveTurns s.waitingCmds s else s

end Sys2Proof.Machine
end

