-- ==== Sys2Proof/Machine/HostPort.lean ====
section
/-! DEFINITION. Transactions of the host port (R348 to R351, R371, R372): register bursts, queue reads and writes, IRQ_RD. An operand
`cut` says that HOST_CS_N rose inside a further word (R350). The words the port drove stand in `dout`. -/

namespace Sys2Proof.Machine


/-- A queue transaction on a queue of the wrong kind (R372). -/
def State.badQueue (s : State) : State := (s.setSQ 13 1).count 0x69F0 1

/-- The end of a transaction served: a cut word noted (R350), the transaction counted (R374), the host-silence watchdog fed (R295). -/
def endTransaction (cut : Bool) (s : State) : State :=
  let s := if cut then (s.setSQ 13 4).count 0x69EC 1 else s
  (s.count 0x69C0 1).hostHeard

/-- The words driven in the last read. -/
def State.setDout (s : State) (ws : List W32) : State := { s with hostp := { s.hostp with dout := ws } }

/-- A transaction ignored for its address (R349): the IO lines stay high-impedance. -/
def State.badInstr (s : State) : State := ((s.setDout []).setSQ 13 5).count 0x69F0 1

/-- Words of a burst that lie on the map: none beyond FFFCh (R351). -/
def burstLen (addr n : Nat) : Nat := Nat.min n ((0x10000 - addr + 3) / 4)

/-- REG_RD (R349, R351). -/
def qspiRegRd (addr words : Nat) (cut : Bool) (s : State) : State :=
  if addr % 4 ≠ 0 then s.badInstr
  else
    let (s, ws) := readBurst .host words addr s
    endTransaction cut ((s.setDout ws).count 0x69C4 (burstLen addr words))

/-- REG_WR (R349, R351). -/
def qspiRegWr (addr : Nat) (words : List W32) (cut : Bool) (s : State) : State :=
  if addr % 4 ≠ 0 then s.badInstr
  else endTransaction cut ((writeBurst .host words addr s).count 0x69C8 (burstLen addr words.length))

/-- Q_RD (R371, R372): the status word, then words of one packet from CUR; clocks beyond LEN return 0. -/
def qspiQRd (addr words : Nat) (cut : Bool) (s : State) : State :=
  if 32 ≤ addr then s.badInstr
  else if hostRead addr = false then (s.setDout (List.replicate (2 * words + 1) 0)).badQueue
  else
    let q := s.q addr
    let n := Nat.min words q.len
    let ws := (q.ahead.take n).flatMap fun e => [lo32 e.1.toNat, hi32 e.1.toNat]
    let s' := s.setQ addr { q with cur := q.cur + n }
    let s' := s'.setDout (s.qptr addr :: (ws ++ List.replicate (2 * (words - n)) 0))
    endTransaction cut (s'.count 0x69D0 n)

/-- Words written by the host to a queue (R368): an overrun that starts is noted; stored words are counted. -/
def hostWords (n : Nat) : List W64 → State → State
  | [], s => s
  | w :: ws, s =>
    let r := (s.q n).writeWord w false
    let stored := decide (r.1.wr = (s.q n).wr + 1)
    let s := s.setQ n r.1
    let s := if r.2 then (s.setSQ 13 6).count 0x69E4 1 else s
    hostWords n ws (if stored then s.count 0x69CC 1 else s)

/-- The END of Q_WR_END (R368, R371): on the last whole word written; without one, on the last word of the open packet, or it ends
the discarding. -/
def hostEnd (n : Nat) (last : Option W64) (s : State) : State :=
  match last with
  | some w =>
    let r := (s.q n).writeWord w true
    let stored := decide (r.1.wr = (s.q n).wr + 1)
    let s := s.setQ n r.1
    let s := if r.2 then (s.setSQ 13 6).count 0x69E4 1 else s
    if stored then s.count 0x69CC 1 else s
  | none =>
    let q := s.q n
    if q.discarding then s.setQ n { q with discarding := false }
    else if q.ps < q.wr then
      s.setQ n { q with words := q.words.dropLast ++ (q.words.getLast?.toList.map fun e => (e.1, true)), ps := q.wr }
    else s

/-- Q_WR and Q_WR_END (R368, R371, R372): each word ignored while the queue is out of use (R355, R366), and in the parity safe state of HOST
(R359). -/
def qspiWrite (addr : Nat) (words : List W64) (ends cut : Bool) (s : State) : State :=
  if 32 ≤ addr then s.badInstr
  else if hostWritten addr = false then s.badQueue
  else if s.parityHeld 13 then endTransaction cut s
  else if s.qEn addr = false then endTransaction cut (words.foldl (fun (s : State) _ => s.wrRo) s)
  else if ends then serve (endTransaction cut (hostEnd addr words.getLast? (hostWords addr words.dropLast s)))
  else endTransaction cut (hostWords addr words s)

/-- IRQ_RD (R349, R354): both summaries, then 0. -/
def qspiIrqRd (addr words : Nat) (cut : Bool) (s : State) : State :=
  if addr ≠ 0 then s.badInstr
  else
    endTransaction cut (s.setDout (([s.view 0x6814, s.view 0x6818] ++ List.replicate (words - 2) 0).take words))

/-! ### Accesses by one word -/

/-- One word read by a path, as the row of its latch names it. -/
def readWord (p : Path) (off : Nat) (s : State) : State :=
  let (s, w) := regRead p off s
  s.setDout [w]

/-- One word written by a path; a queue operation may let the command service take more. -/
def writeWord (p : Path) (off : Nat) (v : W32) (s : State) : State :=
  let t := regWrite p off v s
  if off = 0x681C then serve t else t

/-- Registers with a PS field (R362). -/
def psReg (off : Nat) : Bool :=
  inFam off 0x4040 4 64 || inFam off 0x8000 4 9 || decide (off = 0x8824 ∨ off = 0xA818)

end Sys2Proof.Machine
end

