-- ==== Sys2Proof/Machine/ExecCan.lean ====
section
/-! DEFINITION. The meanings of the commands of room buses (R298 to R319): one definition a row, over the shared operations. -/

namespace Sys2Proof.Machine

/-- CAN_RECEPTION (R311): A completed CAN frame is stored for Intake, queued raw, or discarded with RX_LOST. -/
def execCanReception (b : Fin 4) (f : CanFrame) (stamp : Stamp) (rec : Fin 9) (s : State) : Host.Outcome State Fault Refusal :=
  liveIoe 2 (fun s => s.canReceive b.val f stamp rec.val) s

/-- CAN_ARBITRATION_OFFER (R305): On a free bus IOE-CAN offers the candidate that would win arbitration. -/
def execCanArbitrationOffer (b : Fin 4) (s : State) : Host.Outcome State Fault Refusal :=
  liveIoe 2 (fun s => s.offer b.val) s

/-- CAN_TX_COMPLETE (R306): A frame is transmitted and the next frame becomes head. -/
def execCanTxComplete (b : Fin 4) (stamp : Stamp) (s : State) : Host.Outcome State Fault Refusal :=
  liveIoe 2 (fun s => s.txDone b.val stamp) s

/-- TX_FAIL (R306): A transmit error retries the frame or fails it after RETRY. -/
def execTxFail (b : Fin 4) (s : State) : Host.Outcome State Fault Refusal := liveIoe 2 (fun s => s.txError b.val) s

/-- EXPIRED (R306): A frame older than LIFE is removed when it next waits or loses. -/
def execExpired (b : Fin 4) (c : CanCand) (s : State) : Host.Outcome State Fault Refusal :=
  liveIoe 2 (fun s => s.expire b.val c) s

/-- TREF_FAIL (R315): A SYNC not sent before the next is due expires without FOLLOW. -/
def execTrefFail (b : Fin 4) (s : State) : Host.Outcome State Fault Refusal := liveIoe 2 (fun s => s.trefExpire b.val) s

/-- BUS_OFF (R308): A bus reaches bus-off and its points take QUALITY 80h. -/
def execBusOff (b : Fin 4) (s : State) : Host.Outcome State Fault Refusal := liveIoe 2 (fun s => s.busOffOn b.val) s

/-- BUS_OFF_RECOVERY (R308): After 128 × 11 recessive bits the bus returns to error-active. -/
def execBusOffRecovery (b : Fin 4) (s : State) : Host.Outcome State Fault Refusal :=
  liveIoe 2 (fun s => s.busOffEnd b.val) s

/-- BUS_STUCK (R309): A bus dominant for DOM_TMO is STUCK and its transmitter is switched off. -/
def execBusStuck (b : Fin 4) (s : State) : Host.Outcome State Fault Refusal := liveIoe 2 (fun s => s.busStuckOn b.val) s

/-- BUS_STUCK_RECOVERY (R309): 10 ms recessive brings the transmitter back. -/
def execBusStuckRecovery (b : Fin 4) (s : State) : Host.Outcome State Fault Refusal :=
  liveIoe 2 (fun s => s.busStuckEnd b.val) s

/-- CAN_SEND (R303): Command 0901h enters a frame in a transmit queue. -/
def execCanSend (h : Hdr) (bus : Nat) (f : CanFrame) (s : State) : Host.Outcome State Fault Refusal :=
  live (fun s => cmdCanSend h bus f s) s

/-- CAN_CANCEL (R307): Command 0902h cancels a frame or an entry's frames. -/
def execCanCancel (h : Hdr) (bus : Nat) (byEntry : Bool) (key : Nat) (s : State) : Host.Outcome State Fault Refusal :=
  live (fun s => cmdCanCancel h bus byEntry key s) s

/-- ERROR_FRAME (R298): A bus error seen on a CAN bus raises or lowers the error counters and may move the bus between
error-active and error-passive, setting ERR_PASSIVE. -/
def execErrorFrame (b : Fin 4) (tec : Nat) (rec : Nat) (lec : Fin 8) (s : State) : Host.Outcome State Fault Refusal :=
  liveIoe 2 (fun s => s.errorFrame b.val tec rec lec.val) s

/-- ARBITRATION_LOSS (R307): A frame offered to arbitration loses, is counted, and is removed if cancelled or expired. -/
def execArbitrationLoss (b : Fin 4) (s : State) : Host.Outcome State Fault Refusal :=
  liveIoe 2 (fun s => s.arbLoss b.val) s

end Sys2Proof.Machine
end

