-- ==== Sys2Proof/Machine/ExecCarousel.lean ====
section
/-! DEFINITION. The meanings of the commands of the Carousel, starts, faults, supply and time alignment (R36 to R76, R482 to R512): one definition a row, over the shared operations. -/

namespace Sys2Proof.Machine

/-- REVOLUTION_BOUNDARY (R47): The sequencer ends revolution n, advances the revolution counter by one and does the work
placed at the boundary. -/
def execRevolutionBoundary (s : State) : Host.Outcome State Fault Refusal := liveTurn (fun s => serve (boundary s)) s

/-- INTAKE_PHASE (R39): I/O engines and the ledger latch write inputs, software points, network writes and the demand
latched at the previous boundary into the point table. -/
def execIntakePhase (endT : Nat) (s : State) : Host.Outcome State Fault Refusal :=
  livePhase .intake (fun s => serve (intakePhase endT s)) s

/-- LOOPS_PHASE (R97): Each Juggler evaluates its due loop contexts in ascending context number and proposes moves to the
commit list. -/
def execLoopsPhase (endT : Nat) (busy : List Nat) (unreached : List Nat) (s : State) : Host.Outcome State Fault Refusal :=
  livePhase .loops (fun s => loopsPhase endT busy unreached s) s

/-- LOGIC_PHASE (R139): Each Juggler runs its due program tasks in priority order and enters their output requests in the
commit list. -/
def execLogicPhase (endT : Nat) (busy : List Nat) (runTimes : List Nat) (s : State) : Host.Outcome State Fault Refusal :=
  livePhase .logic (fun s => logicPhase endT busy runTimes s) s

/-- COMMIT_PHASE (R25): The ledger arbitrates the commit list under the source order and the output engines take granted
outputs to the field. -/
def execCommitPhase (endT : Nat) (pMw : Nat) (tj10 : Int) (s : State) : Host.Outcome State Fault Refusal :=
  livePhase .commit (fun s => commitPhase endT pMw tj10 s) s

/-- HOUSEKEEPING_PHASE (R39): The Ringmaster and SC checkpoint dirty pages, scrub memory, verify records and update
statistics. -/
def execHousekeepingPhase (endT : Nat) (pages : Nat) (bistFail : Bool) (jugFail : Bool) (s : State) : Host.Outcome State Fault Refusal :=
  livePhase .guard (fun s => housekeepingPhase endT pages bistFail jugFail s) s

/-- LOOP_LATE (R58): At the end of the Loops window, loops still unevaluated make no proposal, report LATE and advance
CRSL_CNT4. -/
def execLoopLate (s : State) : Host.Outcome State Fault Refusal := live (fun s => s.loopsLate) s

/-- STOPPED_OVERRUN (R60): At the end of the Logic window a running task is stopped, its requests are removed and its
outputs go to safe values. -/
def execStoppedOverrun (task : Fin 256) (s : State) : Host.Outcome State Fault Refusal :=
  live (fun s => s.taskOverrun task.val) s

/-- PHASE_LATE (R61): A hard phase runs past its window but before the Guard; PHASE_LATE is set and the late counter
advances. -/
def execPhaseLate (ph : HardPhase) (s : State) : Host.Outcome State Fault Refusal := live (fun s => phaseLate ph s) s

/-- HARD_OVR (R62): A hard phase still running at the Guard stops the control domain, discards the Commit and drives every
output to its safe value. -/
def execHardOvr (ph : HardPhase) (demand : Bool) (ledger : Bool) (ioe : BitVec 4) (s : State) : Host.Outcome State Fault Refusal :=
  live (fun s => hardOvr ph demand ledger ioe s) s

/-- HOUSEKEEPING_CARRY_OVER (R59): Housekeeping work unfinished at the end of its window carries into the next revolution
and CRSL_CNT3 advances. -/
def execHousekeepingCarryOver (s : State) : Host.Outcome State Fault Refusal :=
  live (fun s => housekeepingCarryOver s) s

/-- CKPT_LATE (R59): A checkpoint not complete 100 revolutions after it began sets CKPT_LATE and advances CRSL_CNT14. -/
def execCkptLate (s : State) : Host.Outcome State Fault Refusal := live (fun s => s.ckptLate) s

/-- CHECKPOINT_COMPLETE (R149): A checkpoint commit record is written and read back correct, making it the newest complete
checkpoint. -/
def execCheckpointComplete (readBack : Bool) (s : State) : Host.Outcome State Fault Refusal :=
  live (fun s => s.checkpointDone readBack) s

/-- EARLY_WARNING (R511): VIN below 17 V for 50 µs drives EW_N low, logs code 2Bh and starts the final save. -/
def execEarlyWarning (mv : Nat) (s : State) : Host.Outcome State Fault Refusal := live (fun s => earlyWarning mv s) s

/-- FINAL_SAVE_COMPLETE (R150): The last final-save page and its commit record are written to FRAM. -/
def execFinalSaveComplete (readBack : Bool) (s : State) : Host.Outcome State Fault Refusal :=
  live (fun s => s.finalDone readBack) s

/-- EARLY_WARNING_END (R511): VIN stays at 18 V or above for 100 ms, early warning ends and the abandoned checkpoint begins
again. -/
def execEarlyWarningEnd (s : State) : Host.Outcome State Fault Refusal := live (fun s => earlyWarningEnd s) s

/-- POWER_LOSS (R511): The hold-up store falls below 12 V and the module stops, as does the Prism partition (R207), which serves also where no start brought the module up (R488). -/
def execPowerLoss (s : State) : Host.Outcome State Fault Refusal :=
  .next ((whenever (s.sys.powered || s.prsm.powered) powerLoss s).outside s s.rev)

/-- COLD_START (R483): On supply rise or reset input the module runs the cold-start steps up to the first revolution. The domain-health
fields begin at their reset value (R34). -/
def execColdStart (cause : Fin 3) (res : StartRes) (s : State) : Host.Outcome State Fault Refusal :=
  .next ((settle (if s.coldActs cause.val && startBringsUp res then s.atReset else s) (coldStartRow cause.val res s)).outside s (if s.coldActs cause.val && startBringsUp res then 0 else s.rev))

/-- WARM_START (R484): The module writes a final save, resets engines except SC, PE and backup, restores and runs within 250
ms. -/
def execWarmStart (cause : Fin 4) (s : State) : Host.Outcome State Fault Refusal :=
  live (fun s => warmStartRow (cause.val + 3) s) s

/-- WARM_START_HOLD_EXPIRY (R485): No Commit by 300 ms after a warm start drives every output to its safe value. -/
def execWarmStartHoldExpiry (s : State) : Host.Outcome State Fault Refusal := live (fun s => warmStartHoldExpiry s) s

/-- SYS_RESET (R482): A write with key 5253h requests a cold or warm start. -/
def execSysReset (p : Path) (v : W32) (s : State) : Host.Outcome State Fault Refusal :=
  live (fun s => writeWord p 0x0014 v s) s

/-- JUGGLER_STOP (R98): A fault such as an uncorrectable SRAM error stops a Juggler, sends its outputs to safe values and
logs FAULT 2Dh. -/
def execJugglerStop (k : Fin 16) (cause : Fin 4) (s : State) : Host.Outcome State Fault Refusal :=
  live (fun s => jugglerStop k.val cause.val s) s

/-- SRAM_UNCORRECTABLE (R499): An uncorrectable error in shared or Ringmaster SRAM enters CRITICAL 26h. -/
def execSramUncorrectable (addr : W64) (s : State) : Host.Outcome State Fault Refusal :=
  live (fun s => sramUncorrectable addr s) s

/-- LPDDR_UNCORRECTABLE (R16): An uncorrectable LPDDR4X error enters FAULT 27h and affects only Ringmaster services. -/
def execLpddrUncorrectable (addr : W64) (s : State) : Host.Outcome State Fault Refusal :=
  live (fun s => lpddrUncorrectable addr s) s

/-- FAULT_HANDLING (R494): The Ringmaster handles a FAULT in arrival order, or queues it, or overflows the queue with FQ_OVF. -/
def execFaultHandling (ev : Option FaultEv) (s : State) : Host.Outcome State Fault Refusal :=
  live (fun s => faultHandling ev s) s

/-- CRITICAL_HANDLING (R495): The Ringmaster handles a CRITICAL, suspending FAULT handling. -/
def execCriticalHandling (ev : Option FaultEv) (s : State) : Host.Outcome State Fault Refusal :=
  live (fun s => criticalHandling ev s) s

/-- WDOG (R496): Ringmaster watchdog unserved for 100 ms logs CRITICAL 25h and switches to the spare or warm-starts. -/
def execWdog (s : State) : Host.Outcome State Fault Refusal := live (fun s => wdog s) s

/-- THERMAL_STOP (R491): Junction at 105 °C for 10 ms stops the control domain and the idle engine clocks. -/
def execThermalStop (tj10 : Nat) (s : State) : Host.Outcome State Fault Refusal := live (fun s => thermalStop tj10 s) s

/-- THERMAL_CLEAR (R491): Junction at or below 95 °C for 60 s logs NOTE 24h and allows CTRL_RESTART. -/
def execThermalClear (tj10 : Nat) (s : State) : Host.Outcome State Fault Refusal :=
  live (fun s => thermalClear tj10 s) s

/-- OVER_P (R491): Input power above 3.9 W for 1 s enters WARN 2Ch. -/
def execOverP (mw : Nat) (s : State) : Host.Outcome State Fault Refusal := live (fun s => overP mw s) s

/-- HOLDUP_TEST (R512): The hold-up store is separated and discharged at 20 mA to time its fall from 24 V to 23 V. -/
def execHoldupTest (s : State) : Host.Outcome State Fault Refusal := live (fun s => holdupTest s) s

/-- HOLDUP_TEST_END (R512): The hold-up test completes, records C and sets HOLDUP_LOW below 658 µF, or is abandoned on early
warning. -/
def execHoldupTestEnd (timeUs : Option Nat) (s : State) : Host.Outcome State Fault Refusal :=
  live (fun s => holdupTestEnd timeUs s) s

/-- SYNC_MESSAGE_RECEIVE (R51): A usable PTP Sync message updates the boundary offset and may change the synchronisation
state. -/
def execSyncMessageReceive (port : Fin 2) (m : SyncMsg) (s : State) : Host.Outcome State Fault Refusal :=
  liveIoe 3 (fun s => syncReceive port.val m s) s

/-- SYNC_TIMEOUT (R51): No usable Sync for 3 intervals moves ACQUIRING to FREE or LOCKED to HOLDOVER. -/
def execSyncTimeout (s : State) : Host.Outcome State Fault Refusal := live (fun s => syncTimeout s) s

/-- LOCKED (R51): The offset stays within ±1 µs for 10 s and ACQUIRING moves to LOCKED. -/
def execLocked (ptpNs : Nat) (s : State) : Host.Outcome State Fault Refusal := live (fun s => lockedOn ptpNs s) s

/-- HOLDOVER_EXPIRY (R52): Time in HOLDOVER reaches HOLDOVER_MAX and the state moves to FREE. -/
def execHoldoverExpiry (s : State) : Host.Outcome State Fault Refusal := live (fun s => holdoverExpiry s) s

/-- ANNOUNCE_RECEIVE (R333): A received Announce runs the best-master algorithm and may change the slave port or grandmaster. -/
def execAnnounceReceive (port : Fin 2) (a : Announce) (s : State) : Host.Outcome State Fault Refusal :=
  liveIoe 3 (fun s => announceReceive port.val a s) s

/-- TS_WRAP (R74): The 48-bit timestamp wraps and PNT_TS_WRAP.WRAPS advances. -/
def execTsWrap (s : State) : Host.Outcome State Fault Refusal := live (fun s => tsWrap s) s

/-- UNCERTAIN_STALE (R76): A CAN_IN or NETIN point unrefreshed for its stale limit takes QUALITY 40h. -/
def execUncertainStale (point : Fin 8192) (s : State) : Host.Outcome State Fault Refusal :=
  live (fun s => uncertainStale point.val s) s

end Sys2Proof.Machine
end

