-- ==== Sys2Proof/Machine/ExecField.lean ====
section
/-! DEFINITION. The meanings of the commands of field, analogue and fan channels (R249 to R295): one definition a row, over the shared operations. -/

namespace Sys2Proof.Machine

/-- FIO_RETRY (R260): Command 0701h clears a latched output diagnosis. -/
def execFioRetry (h : Hdr) (ch : Nat) (cool : Bool) (s : State) : Host.Outcome State Fault Refusal :=
  live (fun s => cmdFioRetry h ch cool s) s

/-- FAN_RETRY (R288): Command 0702h moves a channel from STALL to STOPPED. -/
def execFanRetry (h : Hdr) (ch : Nat) (s : State) : Host.Outcome State Fault Refusal :=
  live (fun s => cmdFanRetry h ch s) s

/-- FAN_LEARN (R293): Command 0703h opens an ageing learning window. -/
def execFanLearn (h : Hdr) (ch : Nat) (days : Nat) (s : State) : Host.Outcome State Fault Refusal :=
  live (fun s => cmdFanLearn h ch days s) s

/-- IO_STATUS (R392): Command 0704h returns a channel's status and value. -/
def execIoStatus (h : Hdr) (kind : Nat) (ch : Nat) (s : State) : Host.Outcome State Fault Refusal :=
  live (fun s => cmdIoStatus h kind ch s) s

/-- TIGHTROPE_FRAME_SEND (R263): IOE-FLD sends an outbound frame to a group, which applies it at its end. -/
def execTightropeFrameSend (g : Fin 4) (cool : BitVec 8) (arrives : Bool) (s : State) : Host.Outcome State Fault Refusal :=
  liveIoe 1 (fun s => s.ropeSend g.val cool arrives) s

/-- TIGHTROPE_FRAME_RECEIVE (R265): An inbound frame is CRC-checked, sequence-checked and stored, with ACK, FIX and WSAFE
acted on. -/
def execTightropeFrameReceive (g : Fin 4) (noise : Option W64) (start : Int) (vsup : BitVec 9) (temp : Byte) (s : State) :
    Host.Outcome State Fault Refusal :=
  liveIoe 1 (fun s => s.ropeReceive g.val noise start vsup temp) s

/-- WDOG_SAFE (R268): The far side misses 8 outbound frames and drives every output to its safe value. -/
def execWdogSafe (g : Fin 4) (s : State) : Host.Outcome State Fault Refusal := live (fun s => s.ropeWdog g.val) s

/-- LINK_LOST (R269): 4 consecutive bad inbound frames declare the link lost. -/
def execLinkLost (g : Fin 4) (s : State) : Host.Outcome State Fault Refusal := liveIoe 1 (fun s => s.ropeLost g.val) s

/-- LINK_BACK (R269): 64 consecutive good inbound frames bring the link up. -/
def execLinkBack (g : Fin 4) (s : State) : Host.Outcome State Fault Refusal := liveIoe 1 (fun s => s.ropeBack g.val) s

/-- LINK_RETRAIN (R269): A link lost for 16 ms is retrained. -/
def execLinkRetrain (g : Fin 4) (s : State) : Host.Outcome State Fault Refusal :=
  liveIoe 1 (fun s => s.ropeRetrain g.val) s

/-- FIO_CHANNEL_WRITE (R271): A channel setting write is posted with NEW to the group and sets BUSY, or is dropped with
WR_LOST. -/
def execFioChannelWrite (p : Path) (k : Fin 32) (time : Bool) (v : W32) (s : State) : Host.Outcome State Fault Refusal :=
  live (fun s => writeWord p ((if time then 0x40C0 else 0x4040) + 4 * k.val) v s) s

/-- DEBOUNCE_CHANGE (R253): The raw input holds a new level for DEB and the debounced state changes. -/
def execDebounceChange (k : Fin 32) (level : Bool) (s : State) : Host.Outcome State Fault Refusal :=
  liveIoe 1 (fun s => s.debounce k.val level) s

/-- WIRE_BREAK (R254): Sink current below 0.20 mA for 100 ms signals a wire break. -/
def execWireBreak (k : Fin 32) (s : State) : Host.Outcome State Fault Refusal :=
  liveIoe 1 (fun s => s.wireBreakOn k.val) s

/-- OVERLOAD (R260): An output in current limit for 200 µs switches off and latches. -/
def execOverload (k : Fin 32) (s : State) : Host.Outcome State Fault Refusal :=
  liveIoe 1 (fun s => s.overloadOn k.val) s

/-- OVERTEMP (R260): Driver junction above 150 °C switches the output off and latches. -/
def execOvertemp (k : Fin 32) (s : State) : Host.Outcome State Fault Refusal :=
  liveIoe 1 (fun s => s.overtempOn k.val) s

/-- OPEN_WIRE (R260): An on output below 5 mA for 50 ms is diagnosed open. -/
def execOpenWire (k : Fin 32) (s : State) : Host.Outcome State Fault Refusal :=
  liveIoe 1 (fun s => s.openWireOn k.val) s

/-- SUPPLY_LOW (R249): A field supply below 18.0 V for 1 ms sets SUPPLY_LOW and suspends wire diagnosis. -/
def execSupplyLow (g : Fin 4) (v10 : Nat) (s : State) : Host.Outcome State Fault Refusal :=
  liveIoe 1 (fun s => s.fieldLow g.val v10) s

/-- RATE_GATE_END (R258): At the end of a gate the pulse rate is refreshed. -/
def execRateGateEnd (k : Fin 32) (s : State) : Host.Outcome State Fault Refusal :=
  liveIoe 1 (fun s => s.gateEnd k.val) s

/-- CONVERSION_FRAME (R276): A conversion frame is stored and CRC-checked, or discarded with ANA_CNT7. -/
def execConversionFrame (raw : List (BitVec 24)) (crc : BitVec 16) (stamp : Stamp) (s : State) : Host.Outcome State Fault Refusal :=
  liveIoe 0 (fun s => s.convFrame raw crc stamp) s

/-- FRAME_ERR (R276): 8 consecutive failed conversion frames set QUALITY 82h on UI and FAN_IN points. -/
def execFrameErr (s : State) : Host.Outcome State Fault Refusal := liveIoe 0 (fun s => s.frameErr) s

/-- UI_BAD_CONDITION (R279): A UI bad or range condition held for 100 ms sets its quality code. -/
def execUiBadCondition (k : Fin 16) (c : UiBad) (s : State) : Host.Outcome State Fault Refusal :=
  liveIoe 0 (fun s => s.uiBadOn k.val c) s

/-- AO_OVERLOAD (R282): An AO channel in current limit for 10 ms sets OVERLOAD and QUALITY 83h. -/
def execAoOverload (j : Fin 8) (s : State) : Host.Outcome State Fault Refusal := liveIoe 0 (fun s => s.aoOver j.val) s

/-- AO_OVERLOAD_CLEAR (R282): Out of current limit for 100 ms clears OVERLOAD. -/
def execAoOverloadClear (j : Fin 8) (s : State) : Host.Outcome State Fault Refusal :=
  liveIoe 0 (fun s => s.aoClear j.val) s

/-- PWM_PERIOD_END (R290): At the end of a PWM period pending fan settings and safe values take effect. -/
def execPwmPeriodEnd (c : Fin 8) (s : State) : Host.Outcome State Fault Refusal := liveIoe 0 (fun s => s.pwmEnd c.val) s

/-- SPEED_CONTROL_UPDATE (R285): Every 10 ms the speed controller changes the duty towards the ramped target. -/
def execSpeedControlUpdate (c : Fin 8) (s : State) : Host.Outcome State Fault Refusal :=
  liveIoe 0 (fun s => s.speedUpdate c.val) s

/-- TACH_TIMEOUT (R288): No tach edge for the timeout moves RUN to KICK or OPEN_LOOP. -/
def execTachTimeout (c : Fin 8) (s : State) : Host.Outcome State Fault Refusal :=
  liveIoe 0 (fun s => s.tachTimeout c.val) s

/-- KICK_END (R288): A 2 s kick ends in RUN, WAIT or STALL. -/
def execKickEnd (c : Fin 8) (s : State) : Host.Outcome State Fault Refusal := liveIoe 0 (fun s => s.kickEnd c.val) s

/-- WAIT_END (R288): 10 s after a failed kick the channel kicks again. -/
def execWaitEnd (c : Fin 8) (s : State) : Host.Outcome State Fault Refusal := liveIoe 0 (fun s => s.waitEnd c.val) s

/-- TACH_RECOVERY (R288): 8 consecutive good tach periods move OPEN_LOOP to RUN. -/
def execTachRecovery (c : Fin 8) (s : State) : Host.Outcome State Fault Refusal :=
  liveIoe 0 (fun s => s.tachBack c.val) s

/-- LEARNING_WINDOW_CLOSE (R293): A learning window closes and its bins hold the baselines. -/
def execLearningWindowClose (c : Fin 8) (s : State) : Host.Outcome State Fault Refusal :=
  liveIoe 0 (fun s => s.learnClose c.val) s

/-- STEADY_PERIOD (R294): Speed steady for 10 s in RUN adds a bin sample or forms an ageing ratio. -/
def execSteadyPeriod (c : Fin 8) (speed : Nat) (current : Nat) (s : State) : Host.Outcome State Fault Refusal :=
  liveIoe 0 (fun s => s.steady c.val speed current) s

/-- AGEING_STALE (R294): No ratio formed for 3,600 s gives the ageing point QUALITY 40h. -/
def execAgeingStale (c : Fin 8) (s : State) : Host.Outcome State Fault Refusal :=
  liveIoe 0 (fun s => s.ageStale c.val) s

/-- HOST_SILENT (R295): The host-silence watchdog expires and enabled fans hold or go to full speed. -/
def execHostSilent (s : State) : Host.Outcome State Fault Refusal := live (fun s => s.hostSilent) s

/-- WIRE_BREAK_END (R254): A sink current of 0.30 mA or more ends a wire break at once and clears QUALITY 81h. -/
def execWireBreakEnd (k : Fin 32) (s : State) : Host.Outcome State Fault Refusal :=
  liveIoe 1 (fun s => s.wireBreakOff k.val) s

/-- OPEN_WIRE_CLEAR (R260): An output that is on and draws 8 mA or more clears OPEN_WIRE. -/
def execOpenWireClear (k : Fin 32) (s : State) : Host.Outcome State Fault Refusal :=
  liveIoe 1 (fun s => s.openWireOff k.val) s

/-- FIELD_SUPPLY_RETURN (R249): A group's field supply returns to 18.0 V or above, clearing SUPPLY_LOW and resuming
wire-break and open-wire diagnosis. -/
def execFieldSupplyReturn (g : Fin 4) (v10 : Nat) (s : State) : Host.Outcome State Fault Refusal :=
  liveIoe 1 (fun s => s.fieldBack g.val v10) s

end Sys2Proof.Machine
end

