-- ==== Sys2Proof/Machine/ExecKeys.lean ====
section
/-! DEFINITION. The meanings of the commands of keys, debug, updates, faults and the log (R439 to R481, R489 to R504): one definition a row, over the shared operations. -/

namespace Sys2Proof.Machine

/-- KEY_GENERATE (R463): Command 0C01h generates a key. -/
def execKeyGenerate (h : Hdr) (r : KeyGenReq) (s : State) : Host.Outcome State Fault Refusal :=
  live (fun s => cmdKeyGenerate h r s) s

/-- KEY_IMPORT (R454): Command 0C02h imports a key. -/
def execKeyImport (h : Hdr) (r : KeyImpReq) (s : State) : Host.Outcome State Fault Refusal :=
  live (fun s => cmdKeyImport h r s) s

/-- LIFE_CYCLE_TRANSITION (R442): KEY_IMPORT slot FFh with a token blows fuses. -/
def execLifeCycleTransition (h : Hdr) (token : List Byte) (s : State) : Host.Outcome State Fault Refusal :=
  live (fun s => cmdLifeCycle h token s) s

/-- KEY_REVOKE (R452): Command 0C03h revokes a slot and descendants. -/
def execKeyRevoke (h : Hdr) (slot : Nat) (s : State) : Host.Outcome State Fault Refusal :=
  live (fun s => cmdKeyRevoke h slot s) s

/-- BLOB_LOAD (R450): Command 0C04h unwraps a blob into cache. -/
def execBlobLoad (h : Hdr) (blob : List Byte) (persist : Bool) (s : State) : Host.Outcome State Fault Refusal :=
  live (fun s => cmdBlobLoad h blob persist s) s

/-- ATTEST (R453): Command 0C05h returns a signed statement. -/
def execAttest (h : Hdr) (subject : Nat) (ref : BitVec 16) (nonce : List Byte) (s : State) : Host.Outcome State Fault Refusal :=
  live (fun s => cmdAttest h subject ref nonce s) s

/-- TAMPER (R456): TAMPER_N low for FILT µs zeroes roots and latches TAMPER. -/
def execTamper (s : State) : Host.Outcome State Fault Refusal :=
  anyPower (fun s => (if s.sys.powered then tamperPowered s else tamperUnpowered s)) s

/-- DEBUG_OPEN (R461): Command 0F01h opens the debug port. -/
def execDebugOpen (h : Hdr) (token : List Byte) (s : State) : Host.Outcome State Fault Refusal :=
  live (fun s => cmdDebugOpen h token s) s

/-- DEBUG_EXPIRY (R461): DURATION passes and the debug port closes. -/
def execDebugExpiry (s : State) : Host.Outcome State Fault Refusal := live (fun s => debugExpiry s) s

/-- TRACE_START (R462): Command 0F02h directs trace into Q30. -/
def execTraceStart (h : Hdr) (engines : W32) (mask : W32) (s : State) : Host.Outcome State Fault Refusal :=
  live (fun s => cmdTraceStart h engines mask s) s

/-- TRACE_STOP (R462): Command 0F03h stops trace. -/
def execTraceStop (h : Hdr) (s : State) : Host.Outcome State Fault Refusal := live (fun s => cmdTraceStop h s) s

/-- UPD_MANIFEST (R469): Command 0D01h accepts a manifest and starts DOWNLOADING. -/
def execUpdManifest (h : Hdr) (replace : Nat) (manifest : List Byte) (s : State) : Host.Outcome State Fault Refusal :=
  live (fun s => cmdUpdManifest h replace manifest s) s

/-- UPD_CHUNK (R471): Command 0D02h delivers half a chunk. -/
def execUpdChunk (h : Hdr) (index : Nat) (part : Nat) (hash : List Byte) (data : List Byte) (s : State) : Host.Outcome State Fault Refusal :=
  live (fun s => cmdUpdChunk h index part hash data s) s

/-- UPDATE_CHUNK_PACKET (R471): A Q31 chunk packet is hashed, stored and marked. -/
def execUpdateChunkPacket (s : State) : Host.Outcome State Fault Refusal := live (fun s => updateChunkPacket s) s

/-- VERIFY_COMPLETE (R472): Background verification ends in VERIFIED or failure. -/
def execVerifyComplete (s : State) : Host.Outcome State Fault Refusal := live (fun s => verifyComplete s) s

/-- UPD_STATUS (R480): Command 0D03h returns update state and bitmap. -/
def execUpdStatus (h : Hdr) (first : Nat) (count : Nat) (s : State) : Host.Outcome State Fault Refusal :=
  live (fun s => cmdUpdStatus h first count s) s

/-- UPD_ACTIVATE (R473): Command 0D04h arms activation at boundary b. -/
def execUpdActivate (h : Hdr) (b : W64) (s : State) : Host.Outcome State Fault Refusal :=
  live (fun s => cmdUpdActivate h b s) s

/-- UPD_CONFIRM (R475): Command 0D05h confirms content. -/
def execUpdConfirm (h : Hdr) (s : State) : Host.Outcome State Fault Refusal := live (fun s => cmdUpdConfirm h s) s

/-- UPD_LOCK (R479): Command 0D06h sets or clears the update lock. -/
def execUpdLock (h : Hdr) (value : Byte) (sig : List Byte) (s : State) : Host.Outcome State Fault Refusal :=
  live (fun s => cmdUpdLock h value sig s) s

/-- CONFIRMED (R475): Criteria held for the hold time confirm the content. -/
def execConfirmed (s : State) : Host.Outcome State Fault Refusal := live (fun s => confirmed s) s

/-- FALLBACK (R476): WINDOW passes without confirmation, or a CRITICAL, and the module falls back. -/
def execFallback (s : State) : Host.Outcome State Fault Refusal := live (fun s => fallback s) s

/-- FAULT_READ (R504): Command 0E01h returns the first-fault capture. -/
def execFaultRead (h : Hdr) (s : State) : Host.Outcome State Fault Refusal := live (fun s => cmdFaultRead h s) s

/-- LOG_READ (R504): Command 0E02h returns log entries. -/
def execLogRead (h : Hdr) (first : W32) (count : Nat) (s : State) : Host.Outcome State Fault Refusal :=
  live (fun s => cmdLogRead h first count s) s

/-- LOG_STREAM (R501): Command 0E03h streams log entries to Q27. -/
def execLogStream (h : Hdr) (enable : Nat) (first : W32) (s : State) : Host.Outcome State Fault Refusal :=
  live (fun s => cmdLogStream h enable first s) s

/-- CTRL_RESTART (R489): Command 0E04h restarts control or one Juggler. -/
def execCtrlRestart (h : Hdr) (scope : Nat) (jug : Nat) (s : State) : Host.Outcome State Fault Refusal :=
  live (fun s => cmdCtrlRestart h scope jug s) s

/-- SPARE_READY (R12): The spare Ringmaster core completes its self-test and takes command-service state, setting
SYS_STATUS.SPARE_READY. -/
def execSpareReady (s : State) : Host.Outcome State Fault Refusal := live (fun s => spareReady s) s

end Sys2Proof.Machine
end

