-- ==== Sys2Proof/Machine/ExecNet.lean ====
section
/-! DEFINITION. The meanings of the commands of Ethernet, tunnelled sessions and the command time limit (R320 to R346, R385, R393): one definition a row, over the shared operations. -/

namespace Sys2Proof.Machine

/-- ETH_FRAME_RECEIVE (R324): A received frame is length- and FCS-checked, then forwarded, served or dropped. -/
def execEthFrameReceive (port : Fin 3) (f : EthFrame) (s : State) : Host.Outcome State Fault Refusal :=
  liveIoe 3 (fun s => serve (s.ethTake port.val f)) s

/-- PAUSE (R327): A received PAUSE starts, reloads or ends transmission pause. -/
def execPause (port : Fin 3) (time : BitVec 16) (busy : Bool) (s : State) : Host.Outcome State Fault Refusal :=
  liveIoe 3 (fun s => s.pauseFrameIn port.val time busy) s

/-- PAUSE_EXPIRY (R327): The pause time ends and transmission resumes. -/
def execPauseExpiry (port : Fin 3) (s : State) : Host.Outcome State Fault Refusal :=
  liveIoe 3 (fun s => s.pauseEnd port.val) s

/-- PAUSE_LONG (R328): A port paused beyond one revolution sets PAUSE_LONG. -/
def execPauseLong (port : Fin 3) (s : State) : Host.Outcome State Fault Refusal :=
  liveIoe 3 (fun s => s.pauseLong port.val) s

/-- LINK_CHG (R322): A port gains or loses link and the address table is flushed. -/
def execLinkChg (port : Fin 3) (link : Fin 3) (s : State) : Host.Outcome State Fault Refusal :=
  liveIoe 3 (fun s => s.linkChange port.val link.val) s

/-- ADDRESS_AGEING (R321): A learnt address ages out after 300 s. -/
def execAddressAgeing (source : BitVec 48) (s : State) : Host.Outcome State Fault Refusal :=
  liveIoe 3 (fun s => s.ageAddress source) s

/-- LPI_ENTRY (R330): An idle transmitter enters low-power idle after LPI_IDLE. -/
def execLpiEntry (port : Fin 3) (s : State) : Host.Outcome State Fault Refusal :=
  liveIoe 3 (fun s => s.lpiEnter port.val) s

/-- LLDP_SEND (R331): Every 30 s an LLDPDU is sent. -/
def execLldpSend (port : Fin 2) (s : State) : Host.Outcome State Fault Refusal :=
  liveIoe 3 (fun s => s.lldpSend port.val) s

/-- LLDPDU_RECEIVE (R331): A neighbour's LLDPDU is kept and the wake time resolved. -/
def execLldpduReceive (port : Fin 2) (frame : List Byte) (intact : Bool) (s : State) : Host.Outcome State Fault Refusal :=
  liveIoe 3 (fun s => s.lldpReceive port.val frame intact) s

/-- BACNET_REQUEST (R340): A BACnet request to a virtual device is served, rejected or errored. -/
def execBacnetRequest (vid : Nat) (device : Nat) (op : BacnetOp) (s : State) : Host.Outcome State Fault Refusal :=
  liveIoe 3 (fun s => s.bacnet vid device op) s

/-- COV_NOTIFICATION (R340): A subscribed change is notified within 10 revolutions. -/
def execCovNotification (sub : Nat) (s : State) : Host.Outcome State Fault Refusal := liveIoe 3 (fun s => s.cov sub) s

/-- SC_HUB_RETRY (R341): After a lost hub connection the node retries at doubling intervals. -/
def execScHubRetry (booth : Byte) (connected : Bool) (s : State) : Host.Outcome State Fault Refusal :=
  liveIoe 3 (fun s => Sys2Proof.Machine.scHubRetry booth.toNat connected s) s

/-- TUNNEL_CONNECT (R342): A TCP connection becomes a TLS session, or is reset as a fifth. -/
def execTunnelConnect (vid : Nat) (profileOk : Bool) (cert : List Byte) (s : State) : Host.Outcome State Fault Refusal :=
  liveIoe 3 (fun s => s.tunnelHandshake vid profileOk cert) s

/-- SESSION_IDLE_TIMEOUT (R344): No record for IDLE_TMO s closes the tunnelled session. -/
def execSessionIdleTimeout (n : Fin 4) (s : State) : Host.Outcome State Fault Refusal :=
  liveIoe 3 (fun s => s.tunnelClose n.val) s

/-- RESPONSE_STALL_CLOSE (R344): Unsent response data held 10 s closes the session. -/
def execResponseStallClose (n : Fin 4) (s : State) : Host.Outcome State Fault Refusal :=
  liveIoe 3 (fun s => s.stallClose n.val) s

/-- HOST_FRAME_TX (R346): A Q24 packet is sent to a ring port, segmented under TSO, or refused. -/
def execHostFrameTx (s : State) : Host.Outcome State Fault Refusal := liveIoe 3 (fun s => s.hostTx) s

/-- SC_HUBS (R341): Command 0801h names the BACnet/SC hubs of a booth. -/
def execScHubs (h : Hdr) (booth : Nat) (primary : List Byte) (failover : List Byte) (s : State) : Host.Outcome State Fault Refusal :=
  live (fun s => cmdScHubs h booth primary failover s) s

/-- IF_READ (R393): Command 0802h returns an interface entry. -/
def execIfRead (h : Hdr) (idx : Nat) (s : State) : Host.Outcome State Fault Refusal :=
  live (fun s => cmdIfRead h idx s) s

/-- NEIGHBOUR_READ (R393): Command 0803h returns the latest LLDPDU of a port. -/
def execNeighbourRead (h : Hdr) (port : Nat) (s : State) : Host.Outcome State Fault Refusal :=
  live (fun s => cmdNeighbourRead h port s) s

/-- SESSION_LIST (R393): Command 0804h returns all session states. -/
def execSessionList (h : Hdr) (s : State) : Host.Outcome State Fault Refusal := live (fun s => cmdSessionList h s) s

/-- TIMEOUT (R385): A command not complete 2 s after acceptance withdraws its effect and completes with TIMEOUT. -/
def execTimeout (session : Fin 8) (tag : Byte) (s : State) : Host.Outcome State Fault Refusal :=
  live (fun s => Sys2Proof.Machine.timeout session.val tag s) s

/-- NEG_FAIL (R320): Auto-negotiation completes with no common ability, so the port gets no link and NEG_FAIL is set. -/
def execNegFail (port : Fin 3) (s : State) : Host.Outcome State Fault Refusal :=
  liveIoe 3 (fun s => s.negFail port.val) s

/-- END_OF_FRAME_IN_PROGRESS (R46): The frame in progress on an Ethernet port ends, so pending NET MAC settings and TW_TX
take effect and a received pause begins. -/
def execEndOfFrameInProgress (port : Fin 3) (s : State) : Host.Outcome State Fault Refusal :=
  liveIoe 3 (fun s => s.frameEnd port.val) s

end Sys2Proof.Machine
end

