-- ==== Sys2Proof/Machine/ExecPrism.lean ====
section
/-! DEFINITION. The meanings of the commands of Prism (R164 to R225): one definition a row, over the shared operations. -/

namespace Sys2Proof.Machine

/-- PRISM_PROPOSE (R215): Command 0601h writes a configuration set to the proposal buffer and completes at the final RESULT. -/
def execPrismPropose (h : Hdr) (set : List Byte) (s : State) : Host.Outcome State Fault Refusal :=
  live (fun s => cmdPrismPropose h set s) s

/-- PRISM_READ (R391): Command 0602h returns a meter's registers and status. -/
def execPrismRead (h : Hdr) (meter : Nat) (s : State) : Host.Outcome State Fault Refusal :=
  live (fun s => cmdPrismRead h meter s) s

/-- PRISM_SAMPLE (R184): At each sample instant the PE checks the frame, computes per-sample values and routes energy to the
registers. -/
def execPrismSample (codes : List (BitVec 24)) (crc : BitVec 16) (s : State) : Host.Outcome State Fault Refusal :=
  anyPower (fun s => prismSample codes crc s) s

/-- FE_FAULT (R194): After 16 consecutive failed frames every meter enters FE_FAULT and stops registering. -/
def execFeFault (s : State) : Host.Outcome State Fault Refusal := anyPower (fun s => feFaultOn s) s

/-- FE_FAULT_EXIT (R194): After 16,000 consecutive good frames meters leave FE_FAULT. -/
def execFeFaultExit (s : State) : Host.Outcome State Fault Refusal := anyPower (fun s => feFaultOff s) s

/-- AGGREGATION_END (R180): At the end of an aggregation interval the PE refreshes rms, power and angle quantities. -/
def execAggregationEnd (s : State) : Host.Outcome State Fault Refusal := anyPower (fun s => aggregationEnd s) s

/-- FREQUENCY_INTERVAL_END (R180): Each 10 s interval the class S frequency is refreshed. -/
def execFrequencyIntervalEnd (s : State) : Host.Outcome State Fault Refusal :=
  anyPower (fun s => frequencyIntervalEnd s) s

/-- SETTLE_END (R172): 6.0 s after an integrator reset the meter ends SETTLE and registers energy. -/
def execSettleEnd (meter : Fin 16) (s : State) : Host.Outcome State Fault Refusal :=
  anyPower (fun s => settleEnd meter.val s) s

/-- MIRROR_REFRESH (R222): Every 16 samples the PE writes demand, status, registers and counters to the mirror. -/
def execMirrorRefresh (s : State) : Host.Outcome State Fault Refusal := live (fun s => mirrorRefresh s) s

/-- MIRROR_LOST (R223): No refresh for 250 ms clears VALID and PRISM_OK and sets MIRROR_LOST. -/
def execMirrorLost (s : State) : Host.Outcome State Fault Refusal := live (fun s => mirrorLost s) s

/-- PERIODIC_SAVE (R204): Every 3,984 samples the PE snapshots its state into P0 or P1. -/
def execPeriodicSave (s : State) : Host.Outcome State Fault Refusal := anyPower (fun s => periodicSave s) s

/-- PRISM_SAVE_COMPLETE (R203): A save's CRC reads back correct, and during early warning the next residual snapshot begins. -/
def execPrismSaveComplete (s : State) : Host.Outcome State Fault Refusal := anyPower (fun s => prismSaveComplete s) s

/-- RESIDUAL_SAVE (R205): On its own early warning the PE abandons periodic writes and takes residual saves back to back. -/
def execResidualSave (s : State) : Host.Outcome State Fault Refusal := anyPower (fun s => residualSave s) s

/-- PRISM_SUPPLY_RETURN (R206): Supply at 18 V for 100 ms stops residual saves and resumes periodic saves. -/
def execPrismSupplyReturn (s : State) : Host.Outcome State Fault Refusal := anyPower (fun s => prismSupplyReturn s) s

/-- PRISM_START (R207): The partition restarts, restores the newest save, advances START_CNT and publishes a power-fail
record. -/
def execPrismStart (metEn : Bool) (package : Option (List Byte)) (s : State) : Host.Outcome State Fault Refusal :=
  anyPower (fun s => prismStart metEn package s) s

/-- BLOCK_CLOSE (R209): A meter closes its 15-minute block and writes an interval record to the ring. -/
def execBlockClose (meter : Fin 16) (s : State) : Host.Outcome State Fault Refusal :=
  anyPower (fun s => blockClose meter.val s) s

/-- ALIGNMENT_PROPOSAL (R210): The module sends one block-alignment proposal per block while the calendar is trusted and
time is locked. -/
def execAlignmentProposal (sample : W32) (s : State) : Host.Outcome State Fault Refusal :=
  live (fun s => alignmentProposal s.trusted sample s) s

/-- PROPOSAL_READ (R215): The PE reads a new proposal, checks it and adopts or refuses it whole. -/
def execProposalRead (s : State) : Host.Outcome State Fault Refusal := anyPower (fun s => proposalRead s) s

/-- RING_FORWARD (R214): The Ringmaster reads new ring records and appends each to Q26, setting RING_GAP on overwrite. -/
def execRingForward (s : State) : Host.Outcome State Fault Refusal := live (fun s => ringForward s) s

end Sys2Proof.Machine
end

