-- ==== Sys2Proof/Machine/ExecRegisters.lean ====
section
/-! DEFINITION. The meanings of the commands of register accesses, queue operations and host-port transactions (R47, R90 to R94, R348 to R374): one definition a row, over the shared operations. -/

namespace Sys2Proof.Machine

/-- POINT_WINDOW_READ (R90): A point-window word read latches and returns the record words under the booth check. -/
def execPointWindowRead (p : Path) (off : Nat) (s : State) : Host.Outcome State Fault Refusal :=
  live (fun s => whenever (decide (0xC000 ≤ off)) (readWord p off) s) s

/-- POINT_WINDOW_WRITE (R91): A point-window write stages word 0 or submits the 64-bit value as a network point write. -/
def execPointWindowWrite (p : Path) (off : Nat) (v : W32) (s : State) : Host.Outcome State Fault Refusal :=
  live (fun s => whenever (decide (0xC000 ≤ off)) (writeWord p off v) s) s

/-- PNT_MAP_DATA_WRITE (R94): A booth-map entry write is held for the boundary or refused at once for a reserved selection. -/
def execPntMapDataWrite (p : Path) (v : W32) (s : State) : Host.Outcome State Fault Refusal :=
  live (fun s => writeWord p 0x182C v s) s

/-- PNT_EPOCH_WRITE (R74): A write to PNT_EPOCH changes the module epoch and sets WRAPS to 0. -/
def execPntEpochWrite (p : Path) (upper : Bool) (v : W32) (s : State) : Host.Outcome State Fault Refusal :=
  live (fun s => writeWord p (if upper then 0x1814 else 0x1810) v s) s

/-- LOOP_CTX_WRITE (R129): A context-window write is checked for window rights and held for the boundary, where R113 tests
it. -/
def execLoopCtxWrite (p : Path) (w : Fin 32) (v : W32) (s : State) : Host.Outcome State Fault Refusal :=
  live (fun s => writeWord p (0x2940 + 4 * w.val) v s) s

/-- CRSL_PERIOD_WRITE (R37): A write to PERIOD is judged under LOCK and run state and takes effect at once or sets
PERIOD_REJ. -/
def execCrslPeriodWrite (p : Path) (v : W32) (s : State) : Host.Outcome State Fault Refusal :=
  live (fun s => writeWord p 0x0800 v s) s

/-- HIGH_WATER_CLEAR (R57): A write to a MAX high-water field sets it to zero. -/
def execHighWaterClear (p : Path) (off : Nat) (v : W32) (s : State) : Host.Outcome State Fault Refusal :=
  live (fun s => whenever (highWater off) (writeWord p off v) s) s

/-- LOW_WORD_READ_LATCH (R47): A read of the lower word of a latched 64-bit register latches the upper word. -/
def execLowWordReadLatch (p : Path) (off : Nat) (s : State) : Host.Outcome State Fault Refusal :=
  live (fun s => whenever (revLow off) (readWord p off) s) s

/-- PRSM_LOW_WORD_READ (R223): A read of a PRSM 64-bit lower word latches its upper word until read or another lower word is
read. -/
def execPrsmLowWordRead (p : Path) (off : Nat) (s : State) : Host.Outcome State Fault Refusal :=
  live (fun s => whenever (prsmLow off) (readWord p off) s) s

/-- PRSM_RING_DATA_READ (R223): A host or session read of PRSM_RING_DATA returns the next half of the record at READ without
moving READ. -/
def execPrsmRingDataRead (p : Path) (s : State) : Host.Outcome State Fault Refusal :=
  live (fun s => readWord p 0x38C8 s) s

/-- STATUS_REGISTER_READ (R360): A read of a status register loads the path's read latch with the full internal sequence. -/
def execStatusRegisterRead (p : Path) (off : Nat) (s : State) : Host.Outcome State Fault Refusal :=
  live (fun s => whenever (statusReg off) (readWord p off) s) s

/-- SEQUENCE_CLEAR_WRITE (R361): A clearing write clears SQ fields recorded at or before the latch, or sets STALE on
mismatch. -/
def execSequenceClearWrite (p : Path) (off : Nat) (v : W32) (s : State) : Host.Outcome State Fault Refusal :=
  live (fun s => whenever (statusReg off) (writeWord p off v) s) s

/-- HOST_LOCK_WRITE (R356): Writing 1 to a LOCK bit locks the block's LK fields until a start. -/
def execHostLockWrite (p : Path) (v : W32) (s : State) : Host.Outcome State Fault Refusal :=
  live (fun s => writeWord p 0x6808 v s) s

/-- HOST_QCFG_WRITE (R366): A DEPTH_NEXT write is accepted for the next cold start or refused with QCFG_REJ. -/
def execHostQcfgWrite (p : Path) (n : Fin 32) (v : W32) (s : State) : Host.Outcome State Fault Refusal :=
  live (fun s => writeWord p (0x6840 + 4 * n.val) v s) s

/-- HOST_SHUTTER_WRITE (R363): A non-zero MASK adds blocks to the pending snapshot set and sets PENDING. -/
def execHostShutterWrite (p : Path) (v : W32) (s : State) : Host.Outcome State Fault Refusal :=
  live (fun s => writeWord p 0x6820 v s) s

/-- MARK (R370): Queue operation MARK sets MK to CUR. -/
def execMark (q : Fin 32) (s : State) : Host.Outcome State Fault Refusal := live (fun s => qMark q.val s) s

/-- REWIND (R370): Queue operation REWIND returns CUR to the mark or to RL. -/
def execRewind (q : Fin 32) (s : State) : Host.Outcome State Fault Refusal := live (fun s => qRewind q.val s) s

/-- RELEASE (R370): Queue operation RELEASE frees whole packets read up to CUR. -/
def execRelease (q : Fin 32) (s : State) : Host.Outcome State Fault Refusal :=
  live (fun s => serve (qRelease q.val s)) s

/-- RESET (R370): Queue operation RESET discards all content of a host-read queue. -/
def execReset (q : Fin 32) (s : State) : Host.Outcome State Fault Refusal := live (fun s => serve (qReset q.val s)) s

/-- ABORT (R370): Queue operation ABORT withdraws the open packet of a host-written queue and clears OVERRUN. -/
def execAbort (q : Fin 32) (s : State) : Host.Outcome State Fault Refusal := live (fun s => qAbort q.val s) s

/-- POSTED_WRITE (R362): A write to a PS field is posted to its slow domain and sets BUSY, or is dropped with WR_LOST while
BUSY. -/
def execPostedWrite (p : Path) (off : Nat) (v : W32) (s : State) : Host.Outcome State Fault Refusal :=
  live (fun s => whenever (psReg off) (writeWord p off v) s) s

/-- POSTED_WRITE_COMPLETE (R362): The slow domain confirms a posted write and BUSY clears. -/
def execPostedWriteComplete (dom : Nat) (s : State) : Host.Outcome State Fault Refusal :=
  live (fun s => postedComplete dom s) s

/-- RTC_COUNT_WRITE (R428): A write to a counting register is posted while HALT is 1 or refused with CFG_REJ. -/
def execRtcCountWrite (p : Path) (r : Fin 8) (v : W32) (s : State) : Host.Outcome State Fault Refusal :=
  live (fun s => writeWord p (0x8000 + 4 * r.val) v s) s

/-- REGISTER_WRITE (R355): A write to a register without behaviour of its own acts on writable fields under the access
codes, or sets WR_RO. -/
def execRegisterWrite (p : Path) (off : Nat) (v : W32) (s : State) : Host.Outcome State Fault Refusal :=
  live (fun s => writeWord p off v s) s

/-- REG_RD (R349): QSPI instruction REG_RD returns register words from an offset as a burst. -/
def execRegRd (addr : BitVec 16) (words : Nat) (cut : Bool) (s : State) : Host.Outcome State Fault Refusal :=
  live (fun s => qspiRegRd addr.toNat words cut s) s

/-- REG_WR (R349): QSPI instruction REG_WR writes register words from an offset as a burst. -/
def execRegWr (addr : BitVec 16) (words : List W32) (cut : Bool) (s : State) : Host.Outcome State Fault Refusal :=
  live (fun s => qspiRegWr addr.toNat words cut s) s

/-- Q_RD (R371): QSPI instruction Q_RD returns the queue status word and up to LEN words from CUR. -/
def execQRd (addr : BitVec 16) (words : Nat) (cut : Bool) (s : State) : Host.Outcome State Fault Refusal :=
  live (fun s => qspiQRd addr.toNat words cut s) s

/-- Q_WR (R368): QSPI instruction Q_WR appends words to a host-written queue. -/
def execQWr (addr : BitVec 16) (words : List W64) (cut : Bool) (s : State) : Host.Outcome State Fault Refusal :=
  live (fun s => qspiWrite addr.toNat words false cut s) s

/-- Q_WR_END (R371): QSPI instruction Q_WR_END appends words and places END on the last word. -/
def execQWrEnd (addr : BitVec 16) (words : List W64) (cut : Bool) (s : State) : Host.Outcome State Fault Refusal :=
  live (fun s => qspiWrite addr.toNat words true cut s) s

/-- IRQ_RD (R354): QSPI instruction IRQ_RD returns HOST_IRQ_BLK and HOST_IRQ_Q. -/
def execIrqRd (addr : BitVec 16) (words : Nat) (cut : Bool) (s : State) : Host.Outcome State Fault Refusal :=
  live (fun s => qspiIrqRd addr.toNat words cut s) s

end Sys2Proof.Machine
end

