-- ==== Sys2Proof/Machine/ExecTrapeze.lean ====
section
/-! DEFINITION. The meanings of the commands of Trapeze and the calendar clock (R400 to R438): one definition a row, over the shared operations. -/

namespace Sys2Proof.Machine

/-- HEARTBEAT_RECEIVE (R405): A valid partner heartbeat counts for its path. -/
def execHeartbeatReceive (ring : Bool) (hb : Heartbeat) (s : State) : Host.Outcome State Fault Refusal :=
  liveIoe 3 (fun s => heartbeatReceive ring hb s) s

/-- HB_LOST (R406): A path missed 3 revolutions is declared lost. -/
def execHbLost (ring : Bool) (s : State) : Host.Outcome State Fault Refusal := live (fun s => hbLost ring s) s

/-- TAKEOVER (R406): Both paths missed 5 revolutions: a standby enters DECIDING, a primary sets PARTNER_LOST. -/
def execTakeover (s : State) : Host.Outcome State Fault Refusal := live (fun s => takeover s) s

/-- SYNC_PACKET_RECEIVE (R407): The standby applies a sync packet and joins after 100. -/
def execSyncPacketReceive (sp : SyncPacket) (s : State) : Host.Outcome State Fault Refusal :=
  liveIoe 3 (fun s => syncPacketReceive sp s) s

/-- SYNC_LOSS (R407): A sync packet lost or unapplied by the second boundary returns the standby to SYNCING. -/
def execSyncLoss (s : State) : Host.Outcome State Fault Refusal := live (fun s => syncLoss s) s

/-- PARTNER_STALE (R411): No health report for 3 s sets PARTNER_STALE. -/
def execPartnerStale (s : State) : Host.Outcome State Fault Refusal := live (fun s => partnerStale s) s

/-- WITNESS_REPLY (R413): A witness reply is classed confirming, barring or neutral. -/
def execWitnessReply (r : WitnessRep) (s : State) : Host.Outcome State Fault Refusal :=
  live (fun s => witnessReply r s) s

/-- WITNESS_RETRY (R413): A DECIDING member queries again every 5 ms. -/
def execWitnessRetry (s : State) : Host.Outcome State Fault Refusal := live (fun s => witnessRetry s) s

/-- WITNESS_WAIT_EXPIRY (R413): WIT_WAIT ms in DECIDING leads to ISOLATED. -/
def execWitnessWaitExpiry (s : State) : Host.Outcome State Fault Refusal := live (fun s => witnessWaitExpiry s) s

/-- ISOLATED_QUERY (R413): An ISOLATED member queries every 1 s. -/
def execIsolatedQuery (s : State) : Host.Outcome State Fault Refusal := live (fun s => isolatedQuery s) s

/-- EPOCH_JOURNALED (R415): EPOCH+1 is in FRAM and the catcher sends CLAIM. -/
def execEpochJournaled (s : State) : Host.Outcome State Fault Refusal := live (fun s => epochJournaled s) s

/-- CLAIM_RECEIVE (R417): A higher EPOCH makes a primary yield. -/
def execClaimReceive (pairId : BitVec 16) (member : Bool) (epoch : W32) (s : State) : Host.Outcome State Fault Refusal :=
  live (fun s => claimReceive pairId member epoch s) s

/-- STARTING_LISTEN_END (R418): After 50 revolutions a starting member picks its role. -/
def execStartingListenEnd (s : State) : Host.Outcome State Fault Refusal := live (fun s => startingListenEnd s) s

/-- PAIR_STATUS (R420): Command 0A01h returns pair state. -/
def execPairStatus (h : Hdr) (s : State) : Host.Outcome State Fault Refusal := live (fun s => cmdPairStatus h s) s

/-- PAIR_SWITCH (R416): Command 0A02h hands over without witnesses. -/
def execPairSwitch (h : Hdr) (s : State) : Host.Outcome State Fault Refusal := live (fun s => cmdPairSwitch h s) s

/-- WITNESS_READ (R420): Command 0A03h returns witness replies. -/
def execWitnessRead (h : Hdr) (s : State) : Host.Outcome State Fault Refusal := live (fun s => cmdWitnessRead h s) s

/-- RTC_INCREMENT (R425): Each second the clock increments and carries. -/
def execRtcIncrement (phaseUs : Int) (s : State) : Host.Outcome State Fault Refusal :=
  anyPower (fun s => (if s.sys.powered then Sys2Proof.Machine.rtcIncrement phaseUs s else rtcTick s)) s

/-- RTC_SEC_READ (R427): A read of RTC_SEC loads the calendar latch. -/
def execRtcSecRead (p : Path) (s : State) : Host.Outcome State Fault Refusal := live (fun s => readWord p 0x8000 s) s

/-- BAT_SWITCH (R432): The backup domain changes over to BAT. -/
def execBatSwitch (toBat : Bool) (s : State) : Host.Outcome State Fault Refusal :=
  anyPower (fun s => batSwitch toBat s) s

/-- BAT_MEASUREMENT (R433): Each second BAT is measured and LOW_BACKUP latched below 2.5 V. -/
def execBatMeasurement (mv : Nat) (s : State) : Host.Outcome State Fault Refusal :=
  anyPower (fun s => batMeasurement mv s) s

/-- INIT (R434): The backup domain is initialised after loss. -/
def execInit (s : State) : Host.Outcome State Fault Refusal := anyPower (fun s => (rtcInit s).backupRootLost) s

/-- TIME_READ (R437): Command 0B01h returns the calendar. -/
def execTimeRead (h : Hdr) (s : State) : Host.Outcome State Fault Refusal := live (fun s => cmdTimeRead h s) s

/-- TIME_SET (R437): Command 0B02h sets the clock and releases HALT. -/
def execTimeSet (h : Hdr) (regs : List Byte) (s : State) : Host.Outcome State Fault Refusal :=
  live (fun s => cmdTimeSet h regs s) s

/-- HOUR_SHIFT (R431): Command 0B03h schedules an hour shift. -/
def execHourShift (h : Hdr) (dir : Byte) (s : State) : Host.Outcome State Fault Refusal :=
  live (fun s => cmdHourShift h dir s) s

end Sys2Proof.Machine
end

