-- ==== Sys2Proof/Machine/ExecTrelton.lean ====
section
/-! DEFINITION. The meanings of the commands of Trelton commands 01xxh to 05xxh and the events of Spotlight and the ledger (R120 to R247, R375 to R390): one definition a row, over the shared operations. -/

namespace Sys2Proof.Machine

/-- SESSION_CHALLENGE (R380): Command 0101h returns a 32-byte nonce for one SESSION_OPEN. -/
def execSessionChallenge (h : Hdr) (s : State) : Host.Outcome State Fault Refusal :=
  live (fun s => cmdSessionChallenge h s) s

/-- SESSION_OPEN (R380): Command 0102h opens a session for a booth after its proof. -/
def execSessionOpen (h : Hdr) (proof : List Byte) (s : State) : Host.Outcome State Fault Refusal :=
  live (fun s => cmdSessionOpen h proof s) s

/-- SESSION_CLOSE (R381): Command 0103h closes the session after its earlier commands complete. -/
def execSessionClose (h : Hdr) (s : State) : Host.Outcome State Fault Refusal := live (fun s => cmdSessionClose h s) s

/-- IDENTIFY (R386): Command 0104h returns SYS_ID, firmware version and revolution counter. -/
def execIdentify (h : Hdr) (s : State) : Host.Outcome State Fault Refusal := live (fun s => cmdIdentify h s) s

/-- REG_READ (R386): Command 0105h reads register words as a burst. -/
def execRegRead (h : Hdr) (off : Nat) (count : Nat) (s : State) : Host.Outcome State Fault Refusal :=
  live (fun s => cmdRegRead h off count s) s

/-- REG_WRITE (R386): Command 0106h writes register words with the session as path. -/
def execRegWrite (h : Hdr) (off : Nat) (words : List W32) (s : State) : Host.Outcome State Fault Refusal :=
  live (fun s => cmdRegWrite h off words s) s

/-- SHUTTER (R363): Command 0107h adds blocks to the Shutter set and completes after the snapshot. -/
def execShutter (h : Hdr) (mask : W32) (s : State) : Host.Outcome State Fault Refusal :=
  live (fun s => cmdShutter h mask s) s

/-- ECHO (R386): Command 0108h returns its payload. -/
def execEcho (h : Hdr) (bytes : List Byte) (s : State) : Host.Outcome State Fault Refusal :=
  live (fun s => cmdEcho h bytes s) s

/-- POINT_READ (R387): Command 0201h returns point records, with substitutes for denied ones. -/
def execPointRead (h : Hdr) (first : Nat) (count : Nat) (s : State) : Host.Outcome State Fault Refusal :=
  live (fun s => cmdPointRead h first count s) s

/-- POINT_WRITE (R387): Command 0202h submits point writes latched in one Intake and completes after it. -/
def execPointWrite (h : Hdr) (writes : List PWrite) (s : State) : Host.Outcome State Fault Refusal :=
  live (fun s => cmdPointWrite h writes s) s

/-- FORCE_SET (R88): Command 0203h sets or changes a force entered at the next boundary. -/
def execForceSet (h : Hdr) (point : Nat) (value : W64) (s : State) : Host.Outcome State Fault Refusal :=
  live (fun s => cmdForceSet h point value s) s

/-- FORCE_CLEAR (R88): Command 0204h clears a force at the next boundary. -/
def execForceClear (h : Hdr) (point : Nat) (s : State) : Host.Outcome State Fault Refusal :=
  live (fun s => cmdForceClear h point s) s

/-- POINT_CONFIG (R82): Command 0205h holds a config write of a point for the next boundary. -/
def execPointConfig (h : Hdr) (point : Nat) (owner : Byte) (typ : BitVec 4) (src : BitVec 4) (share : BitVec 16) (unit : BitVec 16) (s : State) : Host.Outcome State Fault Refusal :=
  live (fun s => cmdPointConfig h point owner typ src share unit s) s

/-- WINDOW_BIND (R89): Command 0206h binds the point window to the session's booth. -/
def execWindowBind (h : Hdr) (s : State) : Host.Outcome State Fault Refusal := live (fun s => cmdWindowBind h s) s

/-- WINDOW_UNBIND (R89): Command 0207h unbinds the point window. -/
def execWindowUnbind (h : Hdr) (s : State) : Host.Outcome State Fault Refusal := live (fun s => cmdWindowUnbind h s) s

/-- FORCE_LIST (R387): Command 0208h lists the force entries readable by the booth. -/
def execForceList (h : Hdr) (first : Nat) (count : Nat) (s : State) : Host.Outcome State Fault Refusal :=
  live (fun s => cmdForceList h first count s) s

/-- LOOP_READ (R388): Command 0301h returns a loop context. -/
def execLoopRead (h : Hdr) (c : Nat) (s : State) : Host.Outcome State Fault Refusal :=
  live (fun s => cmdLoopRead h c s) s

/-- LOOP_LOAD (R388): Command 0302h loads words 0–23 of a context at the next boundary after its checks. -/
def execLoopLoad (h : Hdr) (c : Nat) (words : List W32) (s : State) : Host.Outcome State Fault Refusal :=
  live (fun s => cmdLoopLoad h c words s) s

/-- LOOP_MODE (R115): Command 0303h changes a loop's mode at the next boundary. -/
def execLoopMode (h : Hdr) (c : Nat) (mode : Nat) (manOut : W32) (s : State) : Host.Outcome State Fault Refusal :=
  live (fun s => cmdLoopMode h c mode manOut s) s

/-- SPOT_PERMIT (R121): Command 0304h sets or clears SPOT_PERMIT of a context. -/
def execSpotPermit (h : Hdr) (c : Nat) (permit : Nat) (s : State) : Host.Outcome State Fault Refusal :=
  live (fun s => cmdSpotPermit h c permit s) s

/-- SPOT_START (R121): Command 0305h starts a Spotlight test in a free slot. -/
def execSpotStart (h : Hdr) (c : Nat) (sp : SpotParams) (s : State) : Host.Outcome State Fault Refusal :=
  live (fun s => cmdSpotStart h c sp s) s

/-- SPOT_STOP (R125): Command 0306h aborts a Spotlight test. -/
def execSpotStop (h : Hdr) (slot : Nat) (s : State) : Host.Outcome State Fault Refusal :=
  live (fun s => cmdSpotStop h slot s) s

/-- SPOT_PACKET_FORWARD (R127): The Ringmaster moves a complete capture packet into its queue or drops it with SPOT_DROP. -/
def execSpotPacketForward (slot : Fin 4) (s : State) : Host.Outcome State Fault Refusal :=
  live (fun s => s.spotForward slot.val) s

/-- IMAGE_STAGE (R389): Command 0401h writes image bytes into a staging slot. -/
def execImageStage (h : Hdr) (booth : Nat) (slot : Nat) (off : Nat) (bytes : List Byte) (s : State) : Host.Outcome State Fault Refusal :=
  live (fun s => cmdImageStage h booth slot off bytes s) s

/-- IMAGE_LOAD (R136): Command 0402h checks and activates a staged image for a booth without an active or with a suspended
image. -/
def execImageLoad (h : Hdr) (booth : Nat) (slot : Nat) (s : State) : Host.Outcome State Fault Refusal :=
  live (fun s => cmdImageLoad h booth slot s) s

/-- SWB_ARM (R153): Command 0403h checks and arms a Switchback for boundary b. -/
def execSwbArm (h : Hdr) (booth : Nat) (slot : Nat) (b : W64) (s : State) : Host.Outcome State Fault Refusal :=
  live (fun s => cmdSwbArm h booth slot b s) s

/-- SWB_DISARM (R389): Command 0404h withdraws an armed exchange. -/
def execSwbDisarm (h : Hdr) (booth : Nat) (s : State) : Host.Outcome State Fault Refusal :=
  live (fun s => cmdSwbDisarm h booth s) s

/-- IMAGE_RELEASE (R158): Command 0405h releases the retired image after DURABLE. -/
def execImageRelease (h : Hdr) (booth : Nat) (s : State) : Host.Outcome State Fault Refusal :=
  live (fun s => cmdImageRelease h booth s) s

/-- TASK_STOP (R143): Command 0406h stops a task into STOPPED_CMD. -/
def execTaskStop (h : Hdr) (task : Nat) (s : State) : Host.Outcome State Fault Refusal :=
  live (fun s => cmdTaskStop h task s) s

/-- TASK_RESTART (R60): Command 0407h restarts a stopped task at its next due revolution. -/
def execTaskRestart (h : Hdr) (task : Nat) (s : State) : Host.Outcome State Fault Refusal :=
  live (fun s => cmdTaskRestart h task s) s

/-- VAR_READ (R389): Command 0408h reads symbols by identifier. -/
def execVarRead (h : Hdr) (booth : Nat) (ids : List W64) (s : State) : Host.Outcome State Fault Refusal :=
  live (fun s => cmdVarRead h booth ids s) s

/-- LIMIT_SET (R244): Command 0501h sets the commanded limit and optionally the shed level. -/
def execLimitSet (h : Hdr) (limit : W32) (level : Nat) (levelValid : Bool) (s : State) : Host.Outcome State Fault Refusal :=
  live (fun s => cmdLimitSet h limit level levelValid s) s

/-- SHED_SET (R245): Command 0502h sets the shed level. -/
def execShedSet (h : Hdr) (level : Nat) (s : State) : Host.Outcome State Fault Refusal :=
  live (fun s => cmdShedSet h level s) s

/-- LEDGER_READ (R390): Command 0503h returns the ledger state and arithmetic. -/
def execLedgerRead (h : Hdr) (s : State) : Host.Outcome State Fault Refusal := live (fun s => cmdLedgerRead h s) s

/-- REQUEST_LIST (R390): Command 0504h lists deferred requests. -/
def execRequestList (h : Hdr) (first : Nat) (count : Nat) (s : State) : Host.Outcome State Fault Refusal :=
  live (fun s => cmdRequestList h first count s) s

/-- REQUEST_RESERVED (R234): A request reaching age 3,840 becomes reserved. -/
def execRequestReserved (point : Fin 8192) (s : State) : Host.Outcome State Fault Refusal :=
  live (fun s => Sys2Proof.Machine.requestReserved point.val s) s

/-- BOUND_MISS (R240): A request reaching age 4,095 ungranted under the test sets BOUND_MISS and logs a FAULT. -/
def execBoundMiss (point : Fin 8192) (s : State) : Host.Outcome State Fault Refusal :=
  live (fun s => Sys2Proof.Machine.boundMiss point.val s) s

/-- BLIND (R227): HOLDING lasts HOLD_MAX s and DEM_STATE goes to BLIND. -/
def execBlind (s : State) : Host.Outcome State Fault Refusal := live (fun s => s.goBlind) s

/-- HOUSE_STEP_SHED (R247): While throttling applies the next house step is shed, at once and then every 100 ms. -/
def execHouseStepShed (s : State) : Host.Outcome State Fault Refusal := live (fun s => s.houseShed) s

/-- HOUSE_STEP_RESTORE (R247): After 10 s of margin the last shed house step is restored. -/
def execHouseStepRestore (s : State) : Host.Outcome State Fault Refusal := live (fun s => s.houseRestore) s

end Sys2Proof.Machine
end

