-- ==== Sys2Proof/Machine/Dispatch.lean ====
section
/-! DEFINITION. What each command does: one arm per command, each one call of its meaning. -/

namespace Sys2Proof.Machine

def exec (i : Instr) (s : State) : Host.Outcome State Fault Refusal :=
  match i with
  | .revolutionBoundary => Sys2Proof.Machine.execRevolutionBoundary s
  | .intakePhase endT => Sys2Proof.Machine.execIntakePhase endT s
  | .loopsPhase endT busy unreached => Sys2Proof.Machine.execLoopsPhase endT busy unreached s
  | .logicPhase endT busy runTimes => Sys2Proof.Machine.execLogicPhase endT busy runTimes s
  | .commitPhase endT pMw tj10 => Sys2Proof.Machine.execCommitPhase endT pMw tj10 s
  | .housekeepingPhase endT pages bistFail jugFail => Sys2Proof.Machine.execHousekeepingPhase endT pages bistFail jugFail s
  | .loopLate => Sys2Proof.Machine.execLoopLate s
  | .stoppedOverrun task => Sys2Proof.Machine.execStoppedOverrun task s
  | .phaseLate ph => Sys2Proof.Machine.execPhaseLate ph s
  | .hardOvr ph demand ledger ioe => Sys2Proof.Machine.execHardOvr ph demand ledger ioe s
  | .housekeepingCarryOver => Sys2Proof.Machine.execHousekeepingCarryOver s
  | .ckptLate => Sys2Proof.Machine.execCkptLate s
  | .checkpointComplete readBack => Sys2Proof.Machine.execCheckpointComplete readBack s
  | .earlyWarning mv => Sys2Proof.Machine.execEarlyWarning mv s
  | .finalSaveComplete readBack => Sys2Proof.Machine.execFinalSaveComplete readBack s
  | .earlyWarningEnd => Sys2Proof.Machine.execEarlyWarningEnd s
  | .powerLoss => Sys2Proof.Machine.execPowerLoss s
  | .coldStart cause res => Sys2Proof.Machine.execColdStart cause res s
  | .warmStart cause => Sys2Proof.Machine.execWarmStart cause s
  | .warmStartHoldExpiry => Sys2Proof.Machine.execWarmStartHoldExpiry s
  | .sysReset p v => Sys2Proof.Machine.execSysReset p v s
  | .jugglerStop k cause => Sys2Proof.Machine.execJugglerStop k cause s
  | .sramUncorrectable addr => Sys2Proof.Machine.execSramUncorrectable addr s
  | .lpddrUncorrectable addr => Sys2Proof.Machine.execLpddrUncorrectable addr s
  | .faultHandling ev => Sys2Proof.Machine.execFaultHandling ev s
  | .criticalHandling ev => Sys2Proof.Machine.execCriticalHandling ev s
  | .wdog => Sys2Proof.Machine.execWdog s
  | .thermalStop tj10 => Sys2Proof.Machine.execThermalStop tj10 s
  | .thermalClear tj10 => Sys2Proof.Machine.execThermalClear tj10 s
  | .overP mw => Sys2Proof.Machine.execOverP mw s
  | .holdupTest => Sys2Proof.Machine.execHoldupTest s
  | .holdupTestEnd timeUs => Sys2Proof.Machine.execHoldupTestEnd timeUs s
  | .syncMessageReceive port m => Sys2Proof.Machine.execSyncMessageReceive port m s
  | .syncTimeout => Sys2Proof.Machine.execSyncTimeout s
  | .locked ptpNs => Sys2Proof.Machine.execLocked ptpNs s
  | .holdoverExpiry => Sys2Proof.Machine.execHoldoverExpiry s
  | .announceReceive port a => Sys2Proof.Machine.execAnnounceReceive port a s
  | .tsWrap => Sys2Proof.Machine.execTsWrap s
  | .uncertainStale point => Sys2Proof.Machine.execUncertainStale point s
  | .pointWindowRead p off => Sys2Proof.Machine.execPointWindowRead p off s
  | .pointWindowWrite p off v => Sys2Proof.Machine.execPointWindowWrite p off v s
  | .pntMapDataWrite p v => Sys2Proof.Machine.execPntMapDataWrite p v s
  | .pntEpochWrite p upper v => Sys2Proof.Machine.execPntEpochWrite p upper v s
  | .loopCtxWrite p w v => Sys2Proof.Machine.execLoopCtxWrite p w v s
  | .crslPeriodWrite p v => Sys2Proof.Machine.execCrslPeriodWrite p v s
  | .highWaterClear p off v => Sys2Proof.Machine.execHighWaterClear p off v s
  | .lowWordReadLatch p off => Sys2Proof.Machine.execLowWordReadLatch p off s
  | .prsmLowWordRead p off => Sys2Proof.Machine.execPrsmLowWordRead p off s
  | .prsmRingDataRead p => Sys2Proof.Machine.execPrsmRingDataRead p s
  | .statusRegisterRead p off => Sys2Proof.Machine.execStatusRegisterRead p off s
  | .sequenceClearWrite p off v => Sys2Proof.Machine.execSequenceClearWrite p off v s
  | .hostLockWrite p v => Sys2Proof.Machine.execHostLockWrite p v s
  | .hostQcfgWrite p n v => Sys2Proof.Machine.execHostQcfgWrite p n v s
  | .hostShutterWrite p v => Sys2Proof.Machine.execHostShutterWrite p v s
  | .mark q => Sys2Proof.Machine.execMark q s
  | .rewind q => Sys2Proof.Machine.execRewind q s
  | .release q => Sys2Proof.Machine.execRelease q s
  | .reset q => Sys2Proof.Machine.execReset q s
  | .abort q => Sys2Proof.Machine.execAbort q s
  | .postedWrite p off v => Sys2Proof.Machine.execPostedWrite p off v s
  | .postedWriteComplete dom => Sys2Proof.Machine.execPostedWriteComplete dom s
  | .rtcCountWrite p r v => Sys2Proof.Machine.execRtcCountWrite p r v s
  | .registerWrite p off v => Sys2Proof.Machine.execRegisterWrite p off v s
  | .regRd addr words cut => Sys2Proof.Machine.execRegRd addr words cut s
  | .regWr addr words cut => Sys2Proof.Machine.execRegWr addr words cut s
  | .qRd addr words cut => Sys2Proof.Machine.execQRd addr words cut s
  | .qWr addr words cut => Sys2Proof.Machine.execQWr addr words cut s
  | .qWrEnd addr words cut => Sys2Proof.Machine.execQWrEnd addr words cut s
  | .irqRd addr words cut => Sys2Proof.Machine.execIrqRd addr words cut s
  | .sessionChallenge h => Sys2Proof.Machine.execSessionChallenge h s
  | .sessionOpen h proof => Sys2Proof.Machine.execSessionOpen h proof s
  | .sessionClose h => Sys2Proof.Machine.execSessionClose h s
  | .identify h => Sys2Proof.Machine.execIdentify h s
  | .regRead h off count => Sys2Proof.Machine.execRegRead h off count s
  | .regWrite h off words => Sys2Proof.Machine.execRegWrite h off words s
  | .shutter h mask => Sys2Proof.Machine.execShutter h mask s
  | .echo h bytes => Sys2Proof.Machine.execEcho h bytes s
  | .pointRead h first count => Sys2Proof.Machine.execPointRead h first count s
  | .pointWrite h writes => Sys2Proof.Machine.execPointWrite h writes s
  | .forceSet h point value => Sys2Proof.Machine.execForceSet h point value s
  | .forceClear h point => Sys2Proof.Machine.execForceClear h point s
  | .pointConfig h point owner typ src share unit => Sys2Proof.Machine.execPointConfig h point owner typ src share unit s
  | .windowBind h => Sys2Proof.Machine.execWindowBind h s
  | .windowUnbind h => Sys2Proof.Machine.execWindowUnbind h s
  | .forceList h first count => Sys2Proof.Machine.execForceList h first count s
  | .loopRead h c => Sys2Proof.Machine.execLoopRead h c s
  | .loopLoad h c words => Sys2Proof.Machine.execLoopLoad h c words s
  | .loopMode h c mode manOut => Sys2Proof.Machine.execLoopMode h c mode manOut s
  | .spotPermit h c permit => Sys2Proof.Machine.execSpotPermit h c permit s
  | .spotStart h c sp => Sys2Proof.Machine.execSpotStart h c sp s
  | .spotStop h slot => Sys2Proof.Machine.execSpotStop h slot s
  | .spotPacketForward slot => Sys2Proof.Machine.execSpotPacketForward slot s
  | .imageStage h booth slot off bytes => Sys2Proof.Machine.execImageStage h booth slot off bytes s
  | .imageLoad h booth slot => Sys2Proof.Machine.execImageLoad h booth slot s
  | .swbArm h booth slot b => Sys2Proof.Machine.execSwbArm h booth slot b s
  | .swbDisarm h booth => Sys2Proof.Machine.execSwbDisarm h booth s
  | .imageRelease h booth => Sys2Proof.Machine.execImageRelease h booth s
  | .taskStop h task => Sys2Proof.Machine.execTaskStop h task s
  | .taskRestart h task => Sys2Proof.Machine.execTaskRestart h task s
  | .varRead h booth ids => Sys2Proof.Machine.execVarRead h booth ids s
  | .limitSet h limit level levelValid => Sys2Proof.Machine.execLimitSet h limit level levelValid s
  | .shedSet h level => Sys2Proof.Machine.execShedSet h level s
  | .ledgerRead h => Sys2Proof.Machine.execLedgerRead h s
  | .requestList h first count => Sys2Proof.Machine.execRequestList h first count s
  | .requestReserved point => Sys2Proof.Machine.execRequestReserved point s
  | .boundMiss point => Sys2Proof.Machine.execBoundMiss point s
  | .blind => Sys2Proof.Machine.execBlind s
  | .houseStepShed => Sys2Proof.Machine.execHouseStepShed s
  | .houseStepRestore => Sys2Proof.Machine.execHouseStepRestore s
  | .prismPropose h set => Sys2Proof.Machine.execPrismPropose h set s
  | .prismRead h meter => Sys2Proof.Machine.execPrismRead h meter s
  | .prismSample codes crc => Sys2Proof.Machine.execPrismSample codes crc s
  | .feFault => Sys2Proof.Machine.execFeFault s
  | .feFaultExit => Sys2Proof.Machine.execFeFaultExit s
  | .aggregationEnd => Sys2Proof.Machine.execAggregationEnd s
  | .frequencyIntervalEnd => Sys2Proof.Machine.execFrequencyIntervalEnd s
  | .settleEnd meter => Sys2Proof.Machine.execSettleEnd meter s
  | .mirrorRefresh => Sys2Proof.Machine.execMirrorRefresh s
  | .mirrorLost => Sys2Proof.Machine.execMirrorLost s
  | .periodicSave => Sys2Proof.Machine.execPeriodicSave s
  | .prismSaveComplete => Sys2Proof.Machine.execPrismSaveComplete s
  | .residualSave => Sys2Proof.Machine.execResidualSave s
  | .prismSupplyReturn => Sys2Proof.Machine.execPrismSupplyReturn s
  | .prismStart metEn package => Sys2Proof.Machine.execPrismStart metEn package s
  | .blockClose meter => Sys2Proof.Machine.execBlockClose meter s
  | .alignmentProposal sample => Sys2Proof.Machine.execAlignmentProposal sample s
  | .proposalRead => Sys2Proof.Machine.execProposalRead s
  | .ringForward => Sys2Proof.Machine.execRingForward s
  | .fioRetry h ch cool => Sys2Proof.Machine.execFioRetry h ch cool s
  | .fanRetry h ch => Sys2Proof.Machine.execFanRetry h ch s
  | .fanLearn h ch days => Sys2Proof.Machine.execFanLearn h ch days s
  | .ioStatus h kind ch => Sys2Proof.Machine.execIoStatus h kind ch s
  | .tightropeFrameSend g cool arrives => Sys2Proof.Machine.execTightropeFrameSend g cool arrives s
  | .tightropeFrameReceive g noise start vsup temp => Sys2Proof.Machine.execTightropeFrameReceive g noise start vsup temp s
  | .wdogSafe g => Sys2Proof.Machine.execWdogSafe g s
  | .linkLost g => Sys2Proof.Machine.execLinkLost g s
  | .linkBack g => Sys2Proof.Machine.execLinkBack g s
  | .linkRetrain g => Sys2Proof.Machine.execLinkRetrain g s
  | .fioChannelWrite p k time v => Sys2Proof.Machine.execFioChannelWrite p k time v s
  | .debounceChange k level => Sys2Proof.Machine.execDebounceChange k level s
  | .wireBreak k => Sys2Proof.Machine.execWireBreak k s
  | .overload k => Sys2Proof.Machine.execOverload k s
  | .overtemp k => Sys2Proof.Machine.execOvertemp k s
  | .openWire k => Sys2Proof.Machine.execOpenWire k s
  | .supplyLow g v10 => Sys2Proof.Machine.execSupplyLow g v10 s
  | .rateGateEnd k => Sys2Proof.Machine.execRateGateEnd k s
  | .conversionFrame raw crc stamp => Sys2Proof.Machine.execConversionFrame raw crc stamp s
  | .frameErr => Sys2Proof.Machine.execFrameErr s
  | .uiBadCondition k c => Sys2Proof.Machine.execUiBadCondition k c s
  | .aoOverload j => Sys2Proof.Machine.execAoOverload j s
  | .aoOverloadClear j => Sys2Proof.Machine.execAoOverloadClear j s
  | .pwmPeriodEnd c => Sys2Proof.Machine.execPwmPeriodEnd c s
  | .speedControlUpdate c => Sys2Proof.Machine.execSpeedControlUpdate c s
  | .tachTimeout c => Sys2Proof.Machine.execTachTimeout c s
  | .kickEnd c => Sys2Proof.Machine.execKickEnd c s
  | .waitEnd c => Sys2Proof.Machine.execWaitEnd c s
  | .tachRecovery c => Sys2Proof.Machine.execTachRecovery c s
  | .learningWindowClose c => Sys2Proof.Machine.execLearningWindowClose c s
  | .steadyPeriod c speed current => Sys2Proof.Machine.execSteadyPeriod c speed current s
  | .ageingStale c => Sys2Proof.Machine.execAgeingStale c s
  | .hostSilent => Sys2Proof.Machine.execHostSilent s
  | .canReception b f stamp rec => Sys2Proof.Machine.execCanReception b f stamp rec s
  | .canArbitrationOffer b => Sys2Proof.Machine.execCanArbitrationOffer b s
  | .canTxComplete b stamp => Sys2Proof.Machine.execCanTxComplete b stamp s
  | .txFail b => Sys2Proof.Machine.execTxFail b s
  | .expired b c => Sys2Proof.Machine.execExpired b c s
  | .trefFail b => Sys2Proof.Machine.execTrefFail b s
  | .busOff b => Sys2Proof.Machine.execBusOff b s
  | .busOffRecovery b => Sys2Proof.Machine.execBusOffRecovery b s
  | .busStuck b => Sys2Proof.Machine.execBusStuck b s
  | .busStuckRecovery b => Sys2Proof.Machine.execBusStuckRecovery b s
  | .canSend h bus f => Sys2Proof.Machine.execCanSend h bus f s
  | .canCancel h bus byEntry key => Sys2Proof.Machine.execCanCancel h bus byEntry key s
  | .ethFrameReceive port f => Sys2Proof.Machine.execEthFrameReceive port f s
  | .pause port time busy => Sys2Proof.Machine.execPause port time busy s
  | .pauseExpiry port => Sys2Proof.Machine.execPauseExpiry port s
  | .pauseLong port => Sys2Proof.Machine.execPauseLong port s
  | .linkChg port link => Sys2Proof.Machine.execLinkChg port link s
  | .addressAgeing source => Sys2Proof.Machine.execAddressAgeing source s
  | .lpiEntry port => Sys2Proof.Machine.execLpiEntry port s
  | .lldpSend port => Sys2Proof.Machine.execLldpSend port s
  | .lldpduReceive port frame intact => Sys2Proof.Machine.execLldpduReceive port frame intact s
  | .bacnetRequest vid device op => Sys2Proof.Machine.execBacnetRequest vid device op s
  | .covNotification sub => Sys2Proof.Machine.execCovNotification sub s
  | .scHubRetry booth connected => Sys2Proof.Machine.execScHubRetry booth connected s
  | .tunnelConnect vid profileOk cert => Sys2Proof.Machine.execTunnelConnect vid profileOk cert s
  | .sessionIdleTimeout n => Sys2Proof.Machine.execSessionIdleTimeout n s
  | .responseStallClose n => Sys2Proof.Machine.execResponseStallClose n s
  | .hostFrameTx => Sys2Proof.Machine.execHostFrameTx s
  | .scHubs h booth primary failover => Sys2Proof.Machine.execScHubs h booth primary failover s
  | .ifRead h idx => Sys2Proof.Machine.execIfRead h idx s
  | .neighbourRead h port => Sys2Proof.Machine.execNeighbourRead h port s
  | .sessionList h => Sys2Proof.Machine.execSessionList h s
  | .timeout session tag => Sys2Proof.Machine.execTimeout session tag s
  | .heartbeatReceive ring hb => Sys2Proof.Machine.execHeartbeatReceive ring hb s
  | .hbLost ring => Sys2Proof.Machine.execHbLost ring s
  | .takeover => Sys2Proof.Machine.execTakeover s
  | .syncPacketReceive sp => Sys2Proof.Machine.execSyncPacketReceive sp s
  | .syncLoss => Sys2Proof.Machine.execSyncLoss s
  | .partnerStale => Sys2Proof.Machine.execPartnerStale s
  | .witnessReply r => Sys2Proof.Machine.execWitnessReply r s
  | .witnessRetry => Sys2Proof.Machine.execWitnessRetry s
  | .witnessWaitExpiry => Sys2Proof.Machine.execWitnessWaitExpiry s
  | .isolatedQuery => Sys2Proof.Machine.execIsolatedQuery s
  | .epochJournaled => Sys2Proof.Machine.execEpochJournaled s
  | .claimReceive pairId member epoch => Sys2Proof.Machine.execClaimReceive pairId member epoch s
  | .startingListenEnd => Sys2Proof.Machine.execStartingListenEnd s
  | .pairStatus h => Sys2Proof.Machine.execPairStatus h s
  | .pairSwitch h => Sys2Proof.Machine.execPairSwitch h s
  | .witnessRead h => Sys2Proof.Machine.execWitnessRead h s
  | .rtcIncrement phaseUs => Sys2Proof.Machine.execRtcIncrement phaseUs s
  | .rtcSecRead p => Sys2Proof.Machine.execRtcSecRead p s
  | .batSwitch toBat => Sys2Proof.Machine.execBatSwitch toBat s
  | .batMeasurement mv => Sys2Proof.Machine.execBatMeasurement mv s
  | .init => Sys2Proof.Machine.execInit s
  | .timeRead h => Sys2Proof.Machine.execTimeRead h s
  | .timeSet h regs => Sys2Proof.Machine.execTimeSet h regs s
  | .hourShift h dir => Sys2Proof.Machine.execHourShift h dir s
  | .keyGenerate h r => Sys2Proof.Machine.execKeyGenerate h r s
  | .keyImport h r => Sys2Proof.Machine.execKeyImport h r s
  | .lifeCycleTransition h token => Sys2Proof.Machine.execLifeCycleTransition h token s
  | .keyRevoke h slot => Sys2Proof.Machine.execKeyRevoke h slot s
  | .blobLoad h blob persist => Sys2Proof.Machine.execBlobLoad h blob persist s
  | .attest h subject ref nonce => Sys2Proof.Machine.execAttest h subject ref nonce s
  | .tamper => Sys2Proof.Machine.execTamper s
  | .debugOpen h token => Sys2Proof.Machine.execDebugOpen h token s
  | .debugExpiry => Sys2Proof.Machine.execDebugExpiry s
  | .traceStart h engines mask => Sys2Proof.Machine.execTraceStart h engines mask s
  | .traceStop h => Sys2Proof.Machine.execTraceStop h s
  | .updManifest h replace manifest => Sys2Proof.Machine.execUpdManifest h replace manifest s
  | .updChunk h index part hash data => Sys2Proof.Machine.execUpdChunk h index part hash data s
  | .updateChunkPacket => Sys2Proof.Machine.execUpdateChunkPacket s
  | .verifyComplete => Sys2Proof.Machine.execVerifyComplete s
  | .updStatus h first count => Sys2Proof.Machine.execUpdStatus h first count s
  | .updActivate h b => Sys2Proof.Machine.execUpdActivate h b s
  | .updConfirm h => Sys2Proof.Machine.execUpdConfirm h s
  | .updLock h value sig => Sys2Proof.Machine.execUpdLock h value sig s
  | .confirmed => Sys2Proof.Machine.execConfirmed s
  | .fallback => Sys2Proof.Machine.execFallback s
  | .faultRead h => Sys2Proof.Machine.execFaultRead h s
  | .logRead h first count => Sys2Proof.Machine.execLogRead h first count s
  | .logStream h enable first => Sys2Proof.Machine.execLogStream h enable first s
  | .ctrlRestart h scope jug => Sys2Proof.Machine.execCtrlRestart h scope jug s
  | .spareReady => Sys2Proof.Machine.execSpareReady s
  | .errorFrame b tec rec lec => Sys2Proof.Machine.execErrorFrame b tec rec lec s
  | .arbitrationLoss b => Sys2Proof.Machine.execArbitrationLoss b s
  | .wireBreakEnd k => Sys2Proof.Machine.execWireBreakEnd k s
  | .openWireClear k => Sys2Proof.Machine.execOpenWireClear k s
  | .fieldSupplyReturn g v10 => Sys2Proof.Machine.execFieldSupplyReturn g v10 s
  | .negFail port => Sys2Proof.Machine.execNegFail port s
  | .endOfFrameInProgress port => Sys2Proof.Machine.execEndOfFrameInProgress port s

end Sys2Proof.Machine
end

