-- ==== Sys2Proof/WellFormed.lean ====
section
/-! DEFINITION. When the operands of a command fit the fields that carry them: register offsets of whole words on the map (R4,
R348), the field widths and fixed payload lengths of the Trelton commands (R386 to R395, R437, R463, R480, R504), the ranges of an
event's own quantities. The meanings are total: they say what happens on operands that do not fit as well. -/

namespace Sys2Proof

/-- A quantity under a bound. -/
def under (n x : Nat) : Bool := decide (x < n)

/-- The offset of a register word. -/
def regOff (off : Nat) : Bool := decide (off % 4 = 0) && under 65536 off

/-- SOURCE and CODE of an event fit their fields of a log entry (R497). -/
def evOk (e : FaultEv) : Bool := under 32 e.source && under 64 e.code

/-- The writes of a POINT_WRITE: a 16-bit count, 16-bit point numbers (R387). -/
def writesOk (l : List PWrite) : Bool := under 65536 l.length && l.all fun w => under 65536 w.point

/-- The one-byte and two-byte fields of SPOT_START (R388). -/
def spotOk (p : SpotParams) : Bool :=
  under 256 p.signal && under 256 p.target && under 256 p.queue && under 256 p.order && under 65536 p.samples &&
    under 65536 p.pre && under 256 p.hold

/-- A CAN frame: a 4-bit length code, at most 64 data bytes, an 11-bit identifier without IDE (R298). -/
def frameOk (f : CanFrame) : Bool :=
  under 16 f.dlc && decide (f.data.length ≤ 64) && (f.ide || under 2048 f.ident.toNat)

/-- The check of every command. -/
def Instr.wellFormed : Instr → Bool
  | .revolutionBoundary => true
  | .intakePhase _ => true
  | .loopsPhase _ busy unreached => decide (busy.length ≤ 16) && unreached.all fun n => under 512 n
  | .logicPhase _ busy runTimes => decide (busy.length ≤ 16) && decide (runTimes.length ≤ 256)
  | .commitPhase _ _ _ => true
  | .housekeepingPhase _ _ _ _ => true
  | .loopLate => true
  | .stoppedOverrun _ => true
  | .phaseLate _ => true
  | .hardOvr _ _ _ _ => true
  | .housekeepingCarryOver => true
  | .ckptLate => true
  | .checkpointComplete _ => true
  | .earlyWarning _ => true
  | .finalSaveComplete _ => true
  | .earlyWarningEnd => true
  | .powerLoss => true
  | .coldStart _ _ => true
  | .warmStart _ => true
  | .warmStartHoldExpiry => true
  | .sysReset _ _ => true
  | .jugglerStop _ _ => true
  | .sramUncorrectable _ => true
  | .lpddrUncorrectable _ => true
  | .faultHandling ev => ev.all evOk
  | .criticalHandling ev => ev.all evOk
  | .wdog => true
  | .thermalStop _ => true
  | .thermalClear _ => true
  | .overP _ => true
  | .holdupTest => true
  | .holdupTestEnd _ => true
  | .syncMessageReceive _ _ => true
  | .syncTimeout => true
  | .locked _ => true
  | .holdoverExpiry => true
  | .announceReceive _ _ => true
  | .tsWrap => true
  | .uncertainStale _ => true
  | .pointWindowRead _ off => regOff off && decide (0xC000 ≤ off)
  | .pointWindowWrite _ off _ => regOff off && decide (0xC000 ≤ off)
  | .pntMapDataWrite _ _ => true
  | .pntEpochWrite _ _ _ => true
  | .loopCtxWrite _ _ _ => true
  | .crslPeriodWrite _ _ => true
  | .highWaterClear _ off _ => regOff off
  | .lowWordReadLatch _ off => regOff off
  | .prsmLowWordRead _ off => regOff off
  | .prsmRingDataRead _ => true
  | .statusRegisterRead _ off => regOff off
  | .sequenceClearWrite _ off _ => regOff off
  | .hostLockWrite _ _ => true
  | .hostQcfgWrite _ _ _ => true
  | .hostShutterWrite _ _ => true
  | .mark _ => true
  | .rewind _ => true
  | .release _ => true
  | .reset _ => true
  | .abort _ => true
  | .postedWrite _ off _ => regOff off
  | .postedWriteComplete dom => under 22 dom
  | .rtcCountWrite _ _ _ => true
  | .registerWrite _ off _ => regOff off
  | .regRd _ _ _ => true
  | .regWr _ _ _ => true
  | .qRd _ _ _ => true
  | .qWr _ _ _ => true
  | .qWrEnd _ _ _ => true
  | .irqRd _ _ _ => true
  | .sessionChallenge _ => true
  | .sessionOpen _ _ => true
  | .sessionClose _ => true
  | .identify _ => true
  | .regRead _ off count => regOff off && under 65536 count
  | .regWrite _ off words => regOff off && under 65536 words.length
  | .shutter _ _ => true
  | .echo _ _ => true
  | .pointRead _ first count => under 65536 first && under 65536 count
  | .pointWrite _ writes => writesOk writes
  | .forceSet _ point _ => under 65536 point
  | .forceClear _ point => under 65536 point
  | .pointConfig _ point _ _ _ _ _ => under 65536 point
  | .windowBind _ => true
  | .windowUnbind _ => true
  | .forceList _ first count => under 65536 first && under 65536 count
  | .loopRead _ c => under 65536 c
  | .loopLoad _ c words => under 65536 c && decide (words.length = 24)
  | .loopMode _ c mode _ => under 65536 c && under 256 mode
  | .spotPermit _ c permit => under 65536 c && under 256 permit
  | .spotStart _ c sp => under 65536 c && spotOk sp
  | .spotStop _ slot => under 256 slot
  | .spotPacketForward _ => true
  | .imageStage _ booth slot off _ => under 256 booth && under 256 slot && under 4294967296 off
  | .imageLoad _ booth slot => under 256 booth && under 256 slot
  | .swbArm _ booth slot _ => under 256 booth && under 256 slot
  | .swbDisarm _ booth => under 256 booth
  | .imageRelease _ booth => under 256 booth
  | .taskStop _ task => under 256 task
  | .taskRestart _ task => under 256 task
  | .varRead _ booth ids => under 256 booth && under 256 ids.length
  | .limitSet _ _ level _ => under 256 level
  | .shedSet _ level => under 256 level
  | .ledgerRead _ => true
  | .requestList _ first count => under 65536 first && under 65536 count
  | .requestReserved _ => true
  | .boundMiss _ => true
  | .blind => true
  | .houseStepShed => true
  | .houseStepRestore => true
  | .prismPropose _ set => decide (set.length = 816)
  | .prismRead _ meter => under 256 meter
  | .prismSample codes _ => decide (codes.length = 36)
  | .feFault => true
  | .feFaultExit => true
  | .aggregationEnd => true
  | .frequencyIntervalEnd => true
  | .settleEnd _ => true
  | .mirrorRefresh => true
  | .mirrorLost => true
  | .periodicSave => true
  | .prismSaveComplete => true
  | .residualSave => true
  | .prismSupplyReturn => true
  | .prismStart _ _ => true
  | .blockClose _ => true
  | .alignmentProposal _ => true
  | .proposalRead => true
  | .ringForward => true
  | .fioRetry _ ch _ => under 256 ch
  | .fanRetry _ ch => under 256 ch
  | .fanLearn _ ch days => under 256 ch && under 256 days
  | .ioStatus _ kind ch => under 256 kind && under 256 ch
  | .tightropeFrameSend _ _ _ => true
  | .tightropeFrameReceive _ _ _ _ _ => true
  | .wdogSafe _ => true
  | .linkLost _ => true
  | .linkBack _ => true
  | .linkRetrain _ => true
  | .fioChannelWrite _ _ _ _ => true
  | .debounceChange _ _ => true
  | .wireBreak _ => true
  | .overload _ => true
  | .overtemp _ => true
  | .openWire _ => true
  | .supplyLow _ _ => true
  | .rateGateEnd _ => true
  | .conversionFrame _ _ _ => true
  | .frameErr => true
  | .uiBadCondition _ _ => true
  | .aoOverload _ => true
  | .aoOverloadClear _ => true
  | .pwmPeriodEnd _ => true
  | .speedControlUpdate _ => true
  | .tachTimeout _ => true
  | .kickEnd _ => true
  | .waitEnd _ => true
  | .tachRecovery _ => true
  | .learningWindowClose _ => true
  | .steadyPeriod _ _ _ => true
  | .ageingStale _ => true
  | .hostSilent => true
  | .canReception _ f _ _ => frameOk f
  | .canArbitrationOffer _ => true
  | .canTxComplete _ _ => true
  | .txFail _ => true
  | .expired _ _ => true
  | .trefFail _ => true
  | .busOff _ => true
  | .busOffRecovery _ => true
  | .busStuck _ => true
  | .busStuckRecovery _ => true
  | .canSend _ bus f => under 256 bus && frameOk f
  | .canCancel _ bus _ key => under 256 bus && under 65536 key
  | .ethFrameReceive _ _ => true
  | .pause _ _ _ => true
  | .pauseExpiry _ => true
  | .pauseLong _ => true
  | .linkChg _ _ => true
  | .addressAgeing _ => true
  | .lpiEntry _ => true
  | .lldpSend _ => true
  | .lldpduReceive _ _ _ => true
  | .bacnetRequest vid device _ => under 4096 vid && under 4194304 device
  | .covNotification sub => under 4096 sub
  | .scHubRetry _ _ => true
  | .tunnelConnect vid _ _ => under 4096 vid
  | .sessionIdleTimeout _ => true
  | .responseStallClose _ => true
  | .hostFrameTx => true
  | .scHubs _ booth primary failover => under 256 booth && under 65536 primary.length && under 65536 failover.length
  | .ifRead _ idx => under 256 idx
  | .neighbourRead _ port => under 256 port
  | .sessionList _ => true
  | .timeout _ _ => true
  | .heartbeatReceive _ _ => true
  | .hbLost _ => true
  | .takeover => true
  | .syncPacketReceive _ => true
  | .syncLoss => true
  | .partnerStale => true
  | .witnessReply _ => true
  | .witnessRetry => true
  | .witnessWaitExpiry => true
  | .isolatedQuery => true
  | .epochJournaled => true
  | .claimReceive _ _ _ => true
  | .startingListenEnd => true
  | .pairStatus _ => true
  | .pairSwitch _ => true
  | .witnessRead _ => true
  | .rtcIncrement _ => true
  | .rtcSecRead _ => true
  | .batSwitch _ => true
  | .batMeasurement _ => true
  | .init => true
  | .timeRead _ => true
  | .timeSet _ regs => decide (regs.length = 8)
  | .hourShift _ _ => true
  | .keyGenerate _ r => under 256 r.target && under 256 r.kind && under 256 r.replaces && under 256 r.parent
  | .keyImport _ r => under 255 r.slot && under 256 r.kind && under 256 r.unwrap && under 256 r.replaces && under 256 r.parent
  | .lifeCycleTransition _ token => decide (token.length = 96)
  | .keyRevoke _ slot => under 256 slot
  | .blobLoad _ blob _ => decide (blob.length = 64)
  | .attest _ subject _ nonce => under 256 subject && decide (nonce.length = 32)
  | .tamper => true
  | .debugOpen _ token => decide (token = [] ∨ token.length = 96)
  | .debugExpiry => true
  | .traceStart _ _ _ => true
  | .traceStop _ => true
  | .updManifest _ replace manifest => under 256 replace && decide (manifest.length = 256)
  | .updChunk _ index part hash _ => under 65536 index && under 256 part && decide (hash.length = 32)
  | .updateChunkPacket => true
  | .verifyComplete => true
  | .updStatus _ first count => under 65536 first && under 65536 count
  | .updActivate _ _ => true
  | .updConfirm _ => true
  | .updLock _ _ sig => decide (sig.length = 64)
  | .confirmed => true
  | .fallback => true
  | .faultRead _ => true
  | .logRead _ _ count => under 65536 count
  | .logStream _ enable _ => under 256 enable
  | .ctrlRestart _ scope jug => under 256 scope && under 256 jug
  | .spareReady => true
  | .errorFrame _ tec rec _ => under 512 tec && under 256 rec
  | .arbitrationLoss _ => true
  | .wireBreakEnd _ => true
  | .openWireClear _ => true
  | .fieldSupplyReturn _ _ => true
  | .negFail _ => true
  | .endOfFrameInProgress _ => true

end Sys2Proof
end

