-- ==== Sys2Proof/Safety.lean ====
section
/-! DEFINITION. What a statement may mean by a safe run: a command that completes, a step that stays within the block's own rules. -/

namespace Sys2Proof.Machine

/-- An outcome that is a next state meeting `P`. -/
def Reaches (o : Host.Outcome State Fault Refusal) (P : State → Prop) : Prop := ∃ t, o = .next t ∧ P t

/-- A command completes in a state: it answers a next state. -/
def Completes (c : Instr) (s : State) : Prop := Reaches (exec c s) fun _ => True

/-- A step that answers a next state meeting `P` whenever it answers one at all. -/
def StepKeeps (P : State → State → Prop) : Prop := ∀ s t, step s = .next t → P s t

/-- A state every command waiting in which fits its fields. -/
def State.queueFits (s : State) : Bool := s.pending.all Instr.wellFormed

end Sys2Proof.Machine
end

