-- ==== Sys2Proof/Certificates/Slice0/Obligations.lean ====
section
/-! DEFINITION. The statements for the provers: what each command does in a state that its rule acts on, what it leaves alone, and
what every step keeps. -/

namespace Sys2Proof.Machine

/-- The module has its supply, and no nested CRITICAL waits to be acted on. -/
def State.up (s : State) : Bool := s.sys.powered && !s.flt.nest

/-- The module is up and its I/O engine `k` (0 analogue, 1 field, 2 CAN, 3 network) passed its BIST. -/
def State.engineUp (s : State) (k : Nat) : Bool := s.up && !s.sys.ioeBad.getLsbD k

/-- The module is up and control runs. -/
def State.control (s : State) : Bool := s.up && s.running

/-- No CRITICAL is being handled. -/
def State.calm (s : State) : Bool := s.flt.critical.isNone

/-- The units the spec numbers are all there (R31, R249, R276, R284, R297, R319, R344, R365, R380, R422, R450): every list of State
that stands for a fixed number of like units has that number. -/
def State.shaped (s : State) : Prop :=
  s.sys.jugState.length = 16 ∧ s.loop.spots.length = 4 ∧ s.fioGrp.length = 4 ∧ s.fioCh.length = 32 ∧ s.ui.length = 16 ∧
    s.ao.length = 8 ∧ s.fan.length = 8 ∧ s.can.bus.length = 4 ∧ s.net.ports.length = 3 ∧ s.net.tunnels.length = 4 ∧
    s.hostp.queues.length = 32 ∧ s.mbx.sessions.length = 8 ∧ s.key.cache.length = 32 ∧ s.rtc.cal.length = 8 ∧
    s.prsm.meters.length = 16 ∧ s.prsm.saves.length = 4

/-- No packet waits in a command queue. -/
def State.noCommands (s : State) : Bool := decide (s.waitingCmds = 0)

/-- HOST_IRQ_N agrees with what is pending, in a module with supply (R354). -/
def State.lineTrue (s : State) : Prop := s.sys.powered = true → s.hostp.irqLow = s.irqWanted

/-- The packet on the response path of a session, written whole behind what was there (R379). -/
def State.wrote (s t : State) (n : Nat) (ws : List W64) : Prop :=
  if n < 4 then t.q (4 + n) = (s.q (4 + n)).push ws else sget [] t.mbx.resp n = sget [] s.mbx.resp n ++ [ws]

/-- A command that the service can take, of a form R384 does not object to: a core that serves commands, a slot and room for a response of `n` data bytes free, no
slot with its tag, nothing of the block in a parity safe state, no rescue, a role that serves it. -/
def State.takes (s : State) (h : Hdr) (n : Nat) : Prop :=
  s.up = true ∧ s.sys.cmdOk = true ∧ h.badHeader = false ∧ h.badPayload = false ∧
    (s.mbx.slots.any fun x => x.session == h.session.val && x.tag == h.tag) = false ∧
    s.mbx.slots.length < 256 ∧ respWords n ≤ s.pathFree h.session.val ∧
    (h.session.val < 4 → s.qEn (4 + h.session.val) = true) ∧ s.hostp.queues.length = 32 ∧ s.mbx.sessions.length = 8 ∧
    s.sys.parityHold = 0 ∧ s.sys.run ≠ .rescue

/-- Such a command in its session's turn: the session open, SSEQ the expected one, BOOTH the session's, the effective time `e`. -/
def State.admitsAt (s : State) (h : Hdr) (e : Option W64) (n : Nat) : Prop :=
  s.takes h n ∧ h.eff = e ∧ (s.sess h.session.val).state = .opened ∧ h.sseq = (s.sess h.session.val).expected ∧
    h.booth = (s.sess h.session.val).booth

/-- Such a command without an effective time. -/
def State.admits (s : State) (h : Hdr) (n : Nat) : Prop := s.admitsAt h none n

/-- The command completed with OK and its data (R378): its response alone is on the path, no slot kept, the next SSEQ expected. -/
def State.answered (s t : State) (h : Hdr) (op flags : Nat) (data : List Byte) : Prop :=
  s.wrote t h.session.val (respPacket op h.tag h.booth h.sseq flags 0 0 data) ∧ t.mbx.slots = s.mbx.slots ∧
    (t.sess h.session.val).expected = (s.sess h.session.val).expected + 1

/-- The command in a slot, waiting (R383, R385), with no response yet; the next SSEQ expected. -/
def State.inFlightFor (s t : State) (h : Hdr) (op n : Nat) (w : Wait) : Prop :=
  t.mbx.slots = s.mbx.slots ++ [{ ident := s.mbx.nextIdent + 1, session := h.session.val, tag := h.tag, opcode := op,
                                  booth := h.booth, sseq := h.sseq, accepted := s.crsl.upNs, room := respWords n, wait := w }] ∧
    (t.sess h.session.val).expected = (s.sess h.session.val).expected + 1 ∧ t.hostp.queues = s.hostp.queues ∧
    t.mbx.resp = s.mbx.resp

/-- The command completed with another status (R384): its response alone is on the path. -/
def State.turnedDown (s t : State) (h : Hdr) (op flags status detail : Nat) (data : List Byte) : Prop :=
  s.wrote t h.session.val (respPacket op h.tag h.booth h.sseq flags status detail data) ∧ t.mbx.slots = s.mbx.slots

/-- Everything the module works with is as it was: all its units, points, tables, held and posted writes; left out are the command
service, the host port, the log, the counters, the status registers and the registers. -/
def State.works (s t : State) : Prop :=
  t.rev = s.rev ∧ t.sys = s.sys ∧ t.crsl = s.crsl ∧ t.ledger = s.ledger ∧ t.pnt = s.pnt ∧ t.loop = s.loop ∧ t.prg = s.prg ∧
    t.prsm = s.prsm ∧ t.fioGrp = s.fioGrp ∧ t.fioCh = s.fioCh ∧ t.ui = s.ui ∧ t.uiBad = s.uiBad ∧ t.ao = s.ao ∧ t.fan = s.fan ∧
    t.fanSilent = s.fanSilent ∧ t.can = s.can ∧ t.net = s.net ∧ t.trap = s.trap ∧ t.rtc = s.rtc ∧ t.key = s.key ∧ t.upd = s.upd ∧
    t.dbg = s.dbg ∧ t.pwr = s.pwr ∧ t.image = s.image ∧ t.shadow = s.shadow ∧ t.posted = s.posted

/-- The record of a point stands with a correct CRC, and no mismatch of it waits for Housekeeping (R92, R93). -/
def State.sound (s : State) (p : Nat) : Prop := (s.point p).crc = (s.point p).crcOf ∧ p ∉ s.pnt.crcFound

/-- Counter i of a port (R347). -/
def portCounter (p i : Nat) : Nat := 0x6100 + 0x20 * p + 4 * i

end Sys2Proof.Machine

open Sys2Proof Sys2Proof.Machine

/-! ### The queue of commands, and what every step keeps -/

/-- Step of a state with c at the front of its queue is exec of c with the queue's rest; an empty queue leaves the state as it is
(log entry 1). No command stops the block: exec answers a next state for every command and state. -/
def Obligations.StepRunsFront : Prop :=
  (∀ (c : Instr) (rest : List Instr) (s : State), step { s with pending := c :: rest } = exec c { s with pending := rest }) ∧
    (∀ s : State, s.pending = [] → step s = .next s) ∧
    ∀ c s, ∃ t, exec c s = .next t

/-- Every step, whatever the command, keeps HOST_IRQ_N at the level of R354: low exactly while IRQ_EN is 1 and some pending source's
enable bit is 1. -/
def Obligations.EveryStepKeepsInterruptLine : Prop :=
  ∀ s t : State, s.lineTrue → step s = .next t → t.lineTrue

/-- Every step takes at most the front command of the queue, leaves the fuses, and moves the revolution counter by nothing but a
boundary (by one) or a cold start (to 0) (R33, R47). -/
def Obligations.EveryStepQueueFusesRevolution : Prop :=
  ∀ s t : State, step s = .next t → t.pending = s.pending.tail ∧ t.fuse = s.fuse ∧
    (t.rev = s.rev ∨ (s.pending.head? = some .revolutionBoundary ∧ t.rev = s.rev + 1) ∨
      (∃ k r, s.pending.head? = some (.coldStart k r) ∧ t.rev = 0))

/-- Every step keeps the number of every kind of unit. -/
def Obligations.EveryStepKeepsUnits : Prop :=
  ∀ s t : State, s.shaped → step s = .next t → t.shaped

/-- A module without supply (R511): every command but a start, and but the events of the Prism partition and the backup domain,
leaves the whole state as it is; those events leave the state of its starts and its line to the host. -/
def Obligations.UnpoweredModule : Prop :=
  ∀ s : State, s.sys.powered = false →
       (∀ e, exec (.intakePhase e) s = .next s) ∧ (∀ p o v, exec (.registerWrite p o v) s = .next s) ∧
       (∀ h, exec (.identify h) s = .next s) ∧ (∀ a w c, exec (.regRd a w c) s = .next s) ∧
       (∀ g f k v x, exec (.tightropeFrameReceive g f k v x) s = .next s) ∧ (∀ b f st c, exec (.canReception b f st c) s = .next s) ∧
       (∀ p f, exec (.ethFrameReceive p f) s = .next s) ∧ (∀ r hb, exec (.heartbeatReceive r hb) s = .next s) ∧
       exec .verifyComplete s = .next s ∧ (s.prsm.powered = false → exec .powerLoss s = .next s) ∧
       (∀ l c, Reaches (exec (.prismSample l c) s) fun t => t.sys = s.sys ∧ t.hostp = s.hostp) ∧
       (∀ p, Reaches (exec (.rtcIncrement p) s) fun t => t.sys = s.sys ∧ t.hostp = s.hostp)

/-- The supply (R150, R511, R512). Each of EARLY_WARNING, EARLY_WARNING_END, HOLDUP_TEST, HOLDUP_TEST_END and POWER_LOSS completes in a
module that is up: early warning drives EW_N low, is counted in PWR_CNT0, starts the final save and abandons a hold-up test in
progress; its end drives EW_N high; a hold-up test starts, and its end gives C = 20 mA × time / 1 V or, abandoned, leaves the last
result; the loss of supply stops the module and its Prism partition, frees its line and drops a waiting hour shift (R382). -/
def Obligations.SupplyEvents : Prop :=
  ∀ s : State, s.up = true →
    (∀ mv, s.pwr.early = false → Reaches (exec (.earlyWarning mv) s) fun t =>
      t.pwr.early = true ∧ t.pwr.ewN = false ∧ t.pwr.testing = false ∧ t.sq 21 1 = true ∧
        t.total 0xA840 = s.total 0xA840 + 1 ∧ t.total 0xA848 = s.total 0xA848 + (if s.pwr.testing then 1 else 0) ∧
        t.prg.ckpt.finalDue = true ∧ t.prg.ckpt.writing = none) ∧
    (s.pwr.early = true → Reaches (exec .earlyWarningEnd s) fun t => t.pwr = { s.pwr with early := false, ewN := true }) ∧
    (bitAt (s.setting19 0xA800) 0 = true → s.pwr.early = false → s.upd.state ≠ .armed → s.upd.state ≠ .trial →
      s.switching = false → Reaches (exec .holdupTest s) fun t => t.pwr = { s.pwr with testing := true }) ∧
    (∀ us, s.pwr.testing = true → Reaches (exec (.holdupTestEnd (some us)) s) fun t =>
      t.pwr = { s.pwr with testing := false, holdValid := true, holdUf := us * 20 / 1000, atNs := s.crsl.upNs } ∧
        t.total 0xA844 = s.total 0xA844 + 1 ∧ (us * 20 / 1000 < 658 → t.sq 21 2 = true)) ∧
    (s.pwr.testing = true → Reaches (exec (.holdupTestEnd none) s) fun t =>
      t.pwr = { s.pwr with testing := false } ∧ t.total 0xA848 = s.total 0xA848 + 1) ∧
    Reaches (exec .powerLoss s) fun t => t.sys.powered = false ∧ t.prsm.powered = false ∧ t.hostp.irqLow = false ∧
      t.rtc = { s.rtc with shift := none } ∧ t.regs = s.regs ∧ t.pnt = s.pnt

/-! ### Starts and supply (chapters 19 and 20) -/

/-- What the block is right after reset (R6, R46, R47, R71, R356): revolution 0, no lock, queues empty, points unused, no session; the
invariant of the interrupt line holds, and every kind of unit has its number. -/
def Obligations.ResetState : Prop :=
  State.reset.lineTrue ∧ State.reset.shaped ∧
  State.reset.rev = 0 ∧ State.reset.pending = [] ∧ (∀ b, State.reset.locked b = false) ∧
    (∀ off, State.reset.reg off = resetWord off) ∧ (∀ off, State.reset.total off = 0) ∧
    (∀ b i, State.reset.sq b i = false) ∧ (∀ p, p < 8064 → (State.reset.point p).quality = 0xC1) ∧
    State.reset.hostp.queues.length = 32 ∧ (∀ n, (State.reset.q n).words = []) ∧ State.reset.shadow = [] ∧
    (∀ n, (State.reset.sess n).state = .closed)

/-- Starts (R47, R482 to R485): a cold start whose steps hold begins at revolution 0 with control running and its cause shown; a
warm start that was asked for is carried out and leaves the revolution counter; SYS_RESET with its key asks for the start KIND
names; 300 ms without a Commit end the hold of outputs. Each of COLD_START, WARM_START, SYS_RESET and WARM_START_HOLD_EXPIRY
completes. -/
def Obligations.StartsTakeEffect : Prop :=
  (∀ (s : State) (r : StartRes), startBringsUp r = true → r.sharedFail = false → r.imageFail = false →
    (s.sys.rescue = true ∨ s.rescueDue = false) → s.key.life ≠ .scrapped → Reaches (exec (.coldStart 0 r) s) fun t =>
      t.rev = 0 ∧ t.sys.run = .running ∧ t.sys.powered = true ∧ t.sys.cause = 0) ∧
    ∀ s : State, s.up = true →
      (∀ k : Fin 4, s.warmActs (k.val + 3) = true → Reaches (exec (.warmStart k) s) fun t =>
        t.rev = s.rev ∧ t.sys.cause = k.val + 3 ∧ t.sys.warm = true ∧ t.sys.startReq = none) ∧
      (∀ p v, bits v 31 16 = 0x5253 → Reaches (exec (.sysReset p v) s) fun t =>
        t.sys.startReq = some (if bitAt v 0 then 3 else 2) ∧ t.regs = s.regs) ∧
      (s.sys.outHold = true → Reaches (exec .warmStartHoldExpiry s) fun t => t.sys.outHold = false)

/-- Memory errors (R16, R98, R143, R492, R494, R499). Each of SRAM_UNCORRECTABLE, LPDDR_UNCORRECTABLE and JUGGLER_STOP completes in a
module that is up: an uncorrectable error of shared SRAM is a CRITICAL and one of LPDDR4X a FAULT, each counted and passed on for
handling with its address; a Juggler that stops is shown in JUG_STATE, its FAULT is counted, and its running tasks are
STOPPED_FAULT. -/
def Obligations.MemoryFaults : Prop :=
  ∀ s : State, s.up = true →
    (s.calm = true → ∀ a, Reaches (exec (.sramUncorrectable a) s) fun t =>
      t.flt.critical = some { source := 19, code := 0x26, booth := 0xFF, data := a } ∧ t.total 0x984C = s.total 0x984C + 1) ∧
    (s.calm = true → s.flt.handling = none → ∀ a, Reaches (exec (.lpddrUncorrectable a) s) fun t =>
      t.flt.handling = some { source := 19, code := 0x27, booth := 0xFF, data := a } ∧ t.total 0x9848 = s.total 0x9848 + 1) ∧
    (∀ (k : Fin 16) (c : Fin 4), s.sys.jugState.getD k 0 ≠ 2 → k.val < s.sys.jugState.length →
      Reaches (exec (.jugglerStop k c) s) fun t => t.sys.jugState.getD k 0 = 2 ∧ s.total 0x9848 < t.total 0x9848 ∧
        ∀ i, (s.task i).jug = k → (s.task i).state = .running → (t.task i).state = .stoppedFault)

/-- The watchdog and the heat (R29, R491, R496). Each of WDOG, THERMAL_STOP, THERMAL_CLEAR and OVER_P completes in a module that
is up: a watchdog expiry sets WDOG and asks for the change of core, or without a ready spare for a warm start with cause 5h, the
command domain out of service until then; at 105 °C control is stopped and held; at 95 °C the hold ends; power above 3.9 W is
reported. -/
def Obligations.FaultsTakeEffect : Prop :=
  ∀ s : State, s.up = true →
    (s.calm = true → Reaches (exec .wdog s) fun t => t.sq 19 0 = true ∧
      (s.sys.spareReady = true → t.sys.coreDue = true ∧ t.sys.cmdOk = s.sys.cmdOk) ∧
      (s.sys.spareReady = false → t.sys.startReq = some 5 ∧ t.sys.cmdOk = false)) ∧
    (s.calm = true → ∀ tj, 1050 ≤ tj → s.sys.thermalHold = false → Reaches (exec (.thermalStop tj) s) fun t =>
      t.sys.thermalHold = true ∧ t.sq 19 4 = true ∧ t.sys.run ≠ .running) ∧
    (∀ tj, tj ≤ 950 → s.sys.thermalHold = true → Reaches (exec (.thermalClear tj) s) fun t => t.sys.thermalHold = false) ∧
    (∀ mw, 3900 < mw → Reaches (exec (.overP mw) s) fun t => t.sq 21 3 = true)

/-- Fault handling (R494, R495): a FAULT that finds none in handling is handled; one that arrives while another is handled joins
the queue of depth 8, whose head the end of a handling takes; one that finds the queue full is logged, sets FQ_OVF, enters the
WARN and is counted in FLT_CNT5; a CRITICAL suspends the handling, and its end lets it resume. The end of a CRITICAL's handling
lets a suspended FAULT resume (R495). Each of FAULT_HANDLING and CRITICAL_HANDLING completes. -/
def Obligations.HandlingOrder : Prop :=
  (∀ s : State, s.up = true → s.calm = true →
       (∀ e : FaultEv, e.source < 32 → e.code < 64 → s.flt.handling = none →
         Reaches (exec (.faultHandling (some e)) s) fun t => t.flt.handling = some e) ∧
       (∀ e : FaultEv, e.source < 32 → e.code < 64 → s.flt.handling.isSome = true → s.flt.queue.length < 8 →
         Reaches (exec (.faultHandling (some e)) s) fun t => t.flt.handling = s.flt.handling ∧ t.flt.queue = s.flt.queue ++ [e]) ∧
       (∀ e : FaultEv, e.source < 32 → e.code < 64 → s.flt.handling.isSome = true → 8 ≤ s.flt.queue.length →
         Reaches (exec (.faultHandling (some e)) s) fun t => t.flt.handling = s.flt.handling ∧ t.flt.queue = s.flt.queue ∧
           t.total 0x9848 = s.total 0x9848 + 1 ∧ t.sq 19 6 = true ∧ t.total 0x9844 = s.total 0x9844 + 1 ∧
           t.total 0x9854 = s.total 0x9854 + 1) ∧
       Reaches (exec (.faultHandling none) s) (fun t => t.flt.handling = s.flt.queue.head? ∧ t.flt.queue = s.flt.queue.tail) ∧
       (∀ e : FaultEv, e.source < 32 → e.code < 64 →
         Reaches (exec (.criticalHandling (some e)) s) fun t =>
           t.flt.critical = some e ∧ t.flt.suspended = s.flt.handling.isSome ∧ t.flt.handling = s.flt.handling)) ∧
  (∀ s : State, s.up = true → s.flt.critical.isSome = true → s.flt.handling.isSome = true →
       Reaches (exec (.criticalHandling none) s) fun t =>
         t.flt.critical = none ∧ t.flt.suspended = false ∧ t.flt.handling = s.flt.handling)

/-! ### The Carousel (chapter 02) -/

/-- The places of a revolution (R36, R39, R47): each phase command takes the Carousel into its phase, Housekeeping leads into
the Guard window, and the boundary advances the revolution counter by one. A revolution's overruns (R58 to R62): a late law is
reported and counted, a late task stopped, a late hard phase flagged and counted; one still running at the Guard stops control,
with its CRITICAL to follow at the boundary. Each of REVOLUTION_BOUNDARY, INTAKE_PHASE, LOOPS_PHASE, LOGIC_PHASE, COMMIT_PHASE,
HOUSEKEEPING_PHASE, LOOP_LATE, STOPPED_OVERRUN, PHASE_LATE, HARD_OVR and HOUSEKEEPING_CARRY_OVER completes. -/
def Obligations.PhasesRun : Prop :=
  (∀ s : State, s.up = true →
       Reaches (exec .revolutionBoundary s) (fun t => t.rev = s.rev + 1 ∧ t.pending = s.pending) ∧
       (s.running = true →
         (∀ e, Reaches (exec (.intakePhase e) s) fun t => t.crsl.phase = .intake ∧ t.rev = s.rev) ∧
         (∀ e b u, Reaches (exec (.loopsPhase e b u) s) fun t => t.crsl.phase = .loops ∧ t.rev = s.rev) ∧
         (∀ e b r, Reaches (exec (.logicPhase e b r) s) fun t => t.crsl.phase = .logic ∧ t.rev = s.rev) ∧
         (∀ e p j, Reaches (exec (.commitPhase e p j) s) fun t => t.crsl.phase = .commit ∧ t.rev = s.rev)) ∧
       ∀ e p b j, Reaches (exec (.housekeepingPhase e p b j) s) fun t => t.crsl.phase = .guard ∧ t.rev = s.rev) ∧
  (∀ s : State, s.control = true →
       (s.crsl.late ≠ [] → Reaches (exec .loopLate s) fun t =>
         t.crsl.late = [] ∧ t.sq 1 13 = true ∧ t.total 0x0890 = s.total 0x0890 + s.crsl.late.length) ∧
       (∀ i : Fin 256, (s.task i).state = .running → s.taskDue (s.task i) = true →
         Reaches (exec (.stoppedOverrun i) s) fun t =>
           (t.task i).state = .stoppedOverrun ∧ t.sq 1 14 = true ∧ t.total 0x0894 = s.total 0x0894 + 1) ∧
       Reaches (exec (.phaseLate .intake) s) (fun t => t.sq 1 12 = true ∧ t.total 0x0884 = s.total 0x0884 + 1) ∧
       Reaches (exec (.phaseLate .commit) s) (fun t => t.sq 1 12 = true ∧ t.total 0x0888 = s.total 0x0888 + 1) ∧
       (∀ ph d l i, Reaches (exec (.hardOvr ph d l i) s) fun t => t.sys.run = .stopped ∧ t.crsl.ovrDue = true ∧
         t.crsl.moves = []) ∧
       Reaches (exec .housekeepingCarryOver s) fun t => t.total 0x088C = s.total 0x088C + 1)

/-- Checkpoints and the final save (R59, R149, R150, R154): a checkpoint still being written 100 revolutions after it began is
reported and counted; a commit record read back correct makes its bank the newest and is counted, another is not used; a
snapshot that waited is written next; a final save read back correct is held and shown. Each of CKPT_LATE, CHECKPOINT_COMPLETE
and FINAL_SAVE_COMPLETE completes. -/
def Obligations.Checkpoints : Prop :=
  ∀ (s : State) (r : Retentive), s.up = true → s.prg.ckpt.writing = some r → s.prg.ckpt.banks.length = 2 → r.crc = r.crcOf →
    (s.prg.ckpt.writingFinal = false → s.prg.ckpt.begun + 100 ≤ s.rev →
      Reaches (exec .ckptLate s) fun t => t.sq 1 8 = true ∧ t.total 0x08B8 = s.total 0x08B8 + 1 ∧ t.prg.ckpt.again = true) ∧
    (∀ w, s.prg.ckpt.writingFinal = false → s.prg.ckpt.waiting = some w → Reaches (exec (.checkpointComplete true) s) fun t =>
      t.prg.ckpt.newestRec = some r ∧ t.prg.ckpt.waiting = none ∧
        t.prg.ckpt.writing = some ({ w with seq := r.seq + 1 } : Retentive).sealed) ∧
    (s.prg.ckpt.writingFinal = false → s.prg.ckpt.waiting = none →
      Reaches (exec (.checkpointComplete true) s) (fun t => t.prg.ckpt.writing = none ∧ t.prg.ckpt.newestRec = some r ∧
        t.prg.ckpt.final = none ∧ t.total 0x309C = s.total 0x309C + 1) ∧
      Reaches (exec (.checkpointComplete false) s) (fun t => t.prg.ckpt.writing = none ∧ t.prg.ckpt.newest = s.prg.ckpt.newest ∧
        t.sq 6 1 = true ∧ t.total 0x30AC = s.total 0x30AC + 1)) ∧
    (s.prg.ckpt.writingFinal = true →
      Reaches (exec (.finalSaveComplete true) s) (fun t => t.prg.ckpt.final.map (·.2) = some r ∧ t.flag 0x3014 13 = true ∧
        t.total 0x30A4 = s.total 0x30A4 + 1 ∧ t.total 0x30A8 = s.total 0x30A8 + r.pages) ∧
      Reaches (exec (.finalSaveComplete false) s) (fun t => t.prg.ckpt.final = s.prg.ckpt.final ∧ t.sq 6 1 = true ∧
        t.total 0x30AC = s.total 0x30AC + 1))

/-! ### What commands leave alone -/

/-- Commands of the module's own words (R386, R391, R393, R420, R437, R480, R504): whatever their header, session and operands, and
whether they complete or are turned down, a command that only reads changes nothing but the command service, the queues, the
counters and the status registers. -/
def Obligations.ReadingCommandsChangeNothing : Prop :=
  ∀ (s : State) (h : Hdr), s.up = true → ∀ c,
    (c = .identify h ∨ (∃ bytes, c = .echo h bytes) ∨ (∃ m, c = .prismRead h m) ∨ (∃ i, c = .ifRead h i) ∨
      (∃ p, c = .neighbourRead h p) ∨ c = .sessionList h ∨ c = .pairStatus h ∨ c = .witnessRead h ∨ c = .timeRead h ∨
      (∃ first n, c = .updStatus h first n) ∨ c = .faultRead h ∨ (∃ first n, c = .logRead h first n)) →
    Reaches (exec c s) fun t => s.works t ∧ t.flt = s.flt ∧ (∀ off, off ≠ 0x700C → t.reg off = s.reg off)

/-- Events of one unit (R172, R194, R249, R253, R288, R298, R406, R411, R432, R513): they leave every other unit of the module, all
points and every register as they are; of error frames those that leave the bus short of bus-off (R308). -/
def Obligations.EventsStayInTheirUnit : Prop :=
  ∀ (s : State), s.up = true →
    (∀ c, (∃ b tec rec lec, (s.cbus b.val).tecCnt + 8 * tec ≤ 255 ∧ c = .errorFrame b tec rec lec) →
      Reaches (exec c s) fun t => s.works { t with can := s.can } ∧ t.regs = s.regs) ∧
    (∀ c, (∃ k b, c = .debounceChange k b) ∨ (∃ k, c = .wireBreakEnd k) →
      Reaches (exec c s) fun t => s.works { t with fioCh := s.fioCh } ∧ t.regs = s.regs) ∧
    (∀ c, (∃ k, c = .waitEnd k ∨ c = .speedControlUpdate k) →
      Reaches (exec c s) fun t => s.works { t with fan := s.fan } ∧ t.regs = s.regs) ∧
    (∀ c, (∃ ring, c = .hbLost ring) ∨ c = .syncLoss ∨ c = .partnerStale ∨ c = .witnessWaitExpiry →
      Reaches (exec c s) fun t => s.works { t with trap := s.trap } ∧ t.regs = s.regs) ∧
    (∀ c, c = .feFault ∨ c = .feFaultExit ∨ (∃ m, c = .settleEnd m) →
      Reaches (exec c s) fun t => s.works { t with prsm := s.prsm } ∧ t.regs = s.regs ∧ t.flt = s.flt) ∧
    (∀ c, (∃ b, c = .batSwitch b) ∨ (∃ mv, c = .batMeasurement mv) →
      Reaches (exec c s) fun t => s.works { t with rtc := s.rtc } ∧ t.regs = s.regs)

/-! ### Time alignment (R48 to R53, R74 to R76, R333) -/

/-- The synchronisation state (R51, R52, R53): a usable Sync message is counted and takes FREE to ACQUIRING; 10 s within ±1 µs,
no revolution being lengthened, lock; three intervals without one end ACQUIRING in FREE and LOCKED in HOLDOVER; HOLDOVER_MAX
ends HOLDOVER in FREE; every change sets SYNC_CHG. Announce messages and timestamps (R53, R74, R76, R333): an Announce is kept
for its port and the better master's port is the slave port; a wrap of the timestamp advances WRAPS; a point unrefreshed for its
limit takes 40h in Intake and is counted. Each of SYNC_MESSAGE_RECEIVE, SYNC_TIMEOUT, LOCKED, HOLDOVER_EXPIRY, ANNOUNCE_RECEIVE, TS_WRAP
and UNCERTAIN_STALE completes. -/
def Obligations.TimeAlignment : Prop :=
  (∀ s : State, s.up = true →
       (∀ (p : Fin 2) (m : SyncMsg), s.engineUp 3 = true → s.ptpFits m.via = true → -4 ≤ m.logInterval → m.logInterval ≤ 0 →
         s.net.slavePort = some p.val → s.crsl.sync = .free → Reaches (exec (.syncMessageReceive p m) s) fun t =>
           t.total 0x08A0 = s.total 0x08A0 + 1 ∧
             (s.flag 0x0800 9 = true → t.crsl.sync = .acquiring ∧ t.sq 1 10 = true) ∧
             (s.flag 0x0800 9 = false → t.crsl.sync = .free)) ∧
       (s.crsl.sync = .acquiring → Reaches (exec .syncTimeout s) fun t => t.crsl.sync = .free ∧ t.sq 1 10 = true) ∧
       (s.crsl.sync = .locked → Reaches (exec .syncTimeout s) fun t =>
         t.crsl.sync = .holdover ∧ t.sq 1 10 = true ∧ t.total 0x08A4 = s.total 0x08A4 + 1) ∧
       (∀ n, s.crsl.sync = .acquiring → within1us (s32 (s.reg 0x0814)) = true → s.crsl.slewing = false →
         Reaches (exec (.locked n) s) fun t => t.crsl.sync = .locked ∧ t.sq 1 10 = true ∧
           ((n : Int) - s.crsl.absNs > 1000000 ∨ (n : Int) - s.crsl.absNs < -1000000 →
             t.crsl.absNs = n ∧ t.total 0x18B8 = s.total 0x18B8 + 1)) ∧
       (s.crsl.sync = .holdover → s.fld 0x0818 9 0 * 1000000000 ≤ s.crsl.holdNs → Reaches (exec .holdoverExpiry s) fun t =>
         t.crsl.sync = .free ∧ t.sq 1 10 = true ∧ t.total 0x08A8 = s.total 0x08A8 + 1)) ∧
  (∀ s : State, s.up = true →
       (∀ (p : Fin 2) (a : Announce), s.engineUp 3 = true → s.ptpFits a.via = true → p.val < s.net.ports.length →
         Reaches (exec (.announceReceive p a) s) fun t =>
           (t.net.ports.getD p.val {}).announce = some a ∧
             t.net.slavePort = betterPort (t.net.ports.getD 0 {}).announce (t.net.ports.getD 1 {}).announce ∧
             (t.net.slavePort ≠ s.net.slavePort → t.sq 12 4 = true)) ∧
       Reaches (exec .tsWrap s) (fun t => t.fld 0x1818 7 0 = (s.fld 0x1818 7 0 + 1) % 256) ∧
       ∀ p : Fin 8192, (s.point p).src = 5 → s.fld 0x181C 15 0 ≤ s.rev - sget 0 s.pnt.fresh p.val →
         (s.point p).quality = 0 → s.sound p → s.crsl.phase = .intake → Reaches (exec (.uncertainStale p) s) fun t =>
           (t.point p).quality = 0x40 ∧ (t.point p).value = (s.point p).value ∧ t.total 0x18AC = s.total 0x18AC + 1)

/-! ### The calendar and its backup (chapter 16) -/

/-- The calendar (R425, R427, R430): a second carries by R425 while HALT is 0, is counted, and notes its revolution; a pending
forward shift adds an hour after the second's carries; a read of RTC_SEC latches all eight registers on its path. The calendar
of a module without supply counts on (R425, R428). A second's carry (R425): 59 s of the last minute of a year that is no leap
year. The second calendar is the one R425 gives. The backup supply (R432 to R434, R513): a change to BAT is shown and counted,
and its first since FSW_CLR is stamped; a measurement shows BAT_MV and below 2.5 V latches LOW_BACKUP; a lost domain starts at
its Reset column. Each of RTC_INCREMENT, RTC_SEC_READ, BAT_SWITCH, BAT_MEASUREMENT and INIT completes. -/
def Obligations.CalendarCounts : Prop :=
  (∀ s : State, s.up = true →
       (∀ ph, s.rtc.halt = false → s.rtc.lost = false → s.rtc.shift = none → Reaches (exec (.rtcIncrement ph) s) fun t =>
         t.rtc.cal = incSec s.rtc.cal ∧ t.rtc.incRev = s.rev ∧ t.total 0x8040 = s.total 0x8040 + 1) ∧
       (∀ ph, s.rtc.halt = true ∨ s.rtc.lost = true → Reaches (exec (.rtcIncrement ph) s) fun t => t.rtc = s.rtc) ∧
       (∀ ph, s.rtc.halt = false → s.rtc.lost = false → s.rtc.shift = some true → s.mbx.slots = [] → Reaches (exec (.rtcIncrement ph) s) fun t =>
         t.rtc.cal = incHour (incSec s.rtc.cal) ∧ t.rtc.shift = none) ∧
       ∀ p, Reaches (exec (.rtcSecRead p) s) fun t =>
         (t.pathOf p).cal = some (s.rtc.cal, s.instant) ∧ t.hostp.dout = [s.draw.view 0x8000]) ∧
  (∀ (s : State) (ph : Int), s.sys.powered = false → s.rtc.halt = false → s.rtc.lost = false →
       Reaches (exec (.rtcIncrement ph) s) fun t => t.rtc.cal = incSec s.rtc.cal) ∧
  (incSec [0x59, 0x59, 0x23, 0x03, 0x31, 0x12, 0x25, 0x20] = [0, 0, 0, 0x04, 0x01, 0x01, 0x26, 0x20] ∧
       incSec [0x59, 0x59, 0x23, 0x07, 0x28, 0x02, 0x24, 0x20] = [0, 0, 0, 0x01, 0x29, 0x02, 0x24, 0x20] ∧
       incSec [0x59, 0x59, 0x23, 0x07, 0x28, 0x02, 0x25, 0x20] = [0, 0, 0, 0x01, 0x01, 0x03, 0x25, 0x20] ∧
       incSec [0x59, 0x59, 0x23, 0x05, 0x31, 0x12, 0x99, 0x20] = [0, 0, 0, 0x06, 0x01, 0x01, 0x00, 0x21]) ∧
  (∀ s : State, s.up = true →
       (s.rtc.onBat = false → Reaches (exec (.batSwitch true) s) fun t => t.rtc.onBat = true ∧
         t.rtc.swCount = Nat.min 255 (s.rtc.swCount + 1) ∧ t.rtc.fswValid = true) ∧
       Reaches (exec (.batSwitch false) s) (fun t => t.rtc.onBat = false ∧ t.rtc.swCount = s.rtc.swCount) ∧
       (∀ mv, mv < 4096 → Reaches (exec (.batMeasurement mv) s) fun t => t.rtc.batMv = mv ∧
         t.rtc.lowBackup = (s.rtc.lowBackup || decide (mv < 2500)) ∧
         t.rtc.lost = (s.rtc.lost || (decide (mv < 2000) && s.rtc.onBat))) ∧
       Reaches (exec .init s) fun t => t.rtc.cal = [0x00, 0x00, 0x00, 0x06, 0x01, 0x01, 0x00, 0x20] ∧ t.rtc.halt = false ∧
         t.rtc.lowBackup = true ∧ t.rtc.swCount = 0 ∧ t.rtc.fswValid = false ∧ t.sq 16 5 = true)

/-! ### Register accesses (chapters 03, 13) -/

/-- Reads of one word drive the word (R47, R223, R360): the lower word of a latched pair latches the upper word, the lower word
of an energy register does the same, a status register loads the path's read latch with the full sequence. Each of
LOW_WORD_READ_LATCH, PRSM_LOW_WORD_READ, STATUS_REGISTER_READ and PRSM_RING_DATA_READ completes. -/
def Obligations.ReadsLatch : Prop :=
  ∀ (s : State) (p : Path) (off : Nat), s.up = true →
    (off ∈ [0x0808, 0x300C, 0x7810, 0x8038, 0x980C] → Reaches (exec (.lowWordReadLatch p off) s) fun t =>
      t.hostp.dout = [s.draw.view off] ∧
        t.hostp.hiLatch = sput s.hostp.hiLatch off (s.draw.view (off + 4), s.instant)) ∧
    (prsmLow off = true → Reaches (exec (.prsmLowWordRead p off) s) fun t =>
      t.hostp.dout = [s.draw.view off] ∧ t.hostp.prsmLatch = some (off, s.draw.view (off + 4))) ∧
    (∀ blk, blk < 22 → blk ≠ 4 → blk ≠ 20 → (blk = 7 → s.isMr = true) →
      Reaches (exec (.statusRegisterRead p (statusOff blk)) s) fun t =>
        t.hostp.dout = [s.draw.view (statusOff blk)] ∧ sget none (t.pathOf p).seqLatch blk = some (s.statOf blk).seq ∧
          t.statOf blk = s.statOf blk) ∧
    (s.isMr = true → s.prsm.seenLog = true → s.parityHeld 7 = false →
      Reaches (exec (.prsmRingDataRead p) s) fun t => t.prsm.ringRead = s.prsm.ringRead ∧
        t.hostp.dout = [(let w := ((sget [] s.prsm.ring (s.prsm.ringRead % 4096)).getD ((s.pathOf p).half / 2) 0).toNat
          if (s.pathOf p).half % 2 = 0 then lo32 w else hi32 w)])

/-- The point window (R86, R89 to R91): a read of word 0 of an allowed record returns and latches it, an unbound window counts
the access and returns the substitute; word 0 of a write is staged, and word 1 of the same record submits one network write.
Each of POINT_WINDOW_READ and POINT_WINDOW_WRITE completes. -/
def Obligations.PointWindow : Prop :=
  ∀ (s : State) (p : Path) (r : Nat), s.up = true → r < 512 →
    (s.winBooth = none → Reaches (exec (.pointWindowRead p (0xC000 + 32 * r)) s) fun t =>
      t.hostp.dout = [substitute.words.getD 0 0] ∧ t.total 0x1894 = s.total 0x1894 + 1) ∧
    (∀ b, s.winBooth = some b → s.check b .read (s.winPoint (0xC000 + 32 * r)) false false = .allow →
      Reaches (exec (.pointWindowRead p (0xC000 + 32 * r)) s) fun t =>
        t.hostp.dout = [(s.readRec (s.winPoint (0xC000 + 32 * r))).words.getD 0 0] ∧
          (t.pathOf p).win = some { point := s.winPoint (0xC000 + 32 * r),
                                    words := (s.readRec (s.winPoint (0xC000 + 32 * r))).words }) ∧
    (∀ b v, s.winBooth = some b → Reaches (exec (.pointWindowWrite p (0xC000 + 32 * r) v) s) fun t =>
      t.pnt.winStage = some (s.winPoint (0xC000 + 32 * r), v) ∧ t.pnt.netq = s.pnt.netq ∧ t.pnt.points = s.pnt.points) ∧
    (∀ b lo v, s.winBooth = some b → s.pnt.winStage = some (s.winPoint (0xC000 + 32 * r), lo) →
      Reaches (exec (.pointWindowWrite p (0xC004 + 32 * r) v) s) fun t =>
        t.pnt.winStage = none ∧
          t.pnt.netq = s.pnt.netq ++ [{ slot := none, window := true, rev := s.rev, booth := BitVec.ofNat 8 b,
                                        writes := [{ point := s.winPoint (0xC000 + 32 * r), value := v ++ lo }] }]) ∧
    (∀ v, s.winBooth = none → Reaches (exec (.pointWindowWrite p (0xC000 + 32 * r) v) s) fun t =>
      t.sq 3 6 = true ∧ t.total 0x1894 = s.total 0x1894 + 1 ∧ t.pnt = s.pnt)

/-- Shadowed writes through selector windows (R44, R94, R129): a map entry and a context word are held for the boundary, the
word in effect unchanged; a reserved selection is refused at once with MAP_REJ. Each of PNT_MAP_DATA_WRITE and LOOP_CTX_WRITE
completes. -/
def Obligations.WindowWritesHeld : Prop :=
  ∀ (s : State) (p : Path) (v : W32), s.up = true → s.cfgFrozen = false →
    (s.locked 3 = false → mapInRange (s.fld 0x1828 31 28) (s.fld 0x1828 11 0) = true →
      Reaches (exec (.pntMapDataWrite p v) s) fun t => t.pnt.maps = s.pnt.maps ∧
        t.shadow = putShadow s.shadow { off := 0x182C, sel := s.selOf 0x182C, mask := 0xFFFFFFFF, val := v, due := s.dueNow }) ∧
    (s.locked 3 = false → mapInRange (s.fld 0x1828 31 28) (s.fld 0x1828 11 0) = false →
      Reaches (exec (.pntMapDataWrite p v) s) fun t => t.sq 3 4 = true ∧ t.shadow = s.shadow) ∧
    (∀ w : Fin 32, 5 ≤ w.val → w.val ≤ 23 → s.ctxOpen = true → s.selCtx.inUse = true → s.locked 5 = false →
      s.selOf (0x2940 + 4 * w.val) % 2 = 0 → Reaches (exec (.loopCtxWrite p w v) s) fun t => t.loop = s.loop ∧
        t.shadow = putShadow s.shadow { off := 0x2940 + 4 * w.val, sel := s.selOf (0x2940 + 4 * w.val),
                                        mask := 0xFFFFFFFF, val := v, due := s.dueNow })

/-- Shadowed writes are held field by field (R45): of two shadowed writes to one register before the same boundary, each bit that
either writes is held once, at the later value, and the earlier value of a bit written twice is held nowhere. -/
def Obligations.ShadowMerge : Prop :=
  ∀ (s : State) (off sel : Nat) (m1 v1 m2 v2 : W32), m1 ≠ 0 → m2 ≠ 0 →
    (∀ x ∈ s.shadow, ¬ (x.off = off ∧ x.sel = sel ∧ x.due = s.dueNow)) →
    let t := (s.shadowWrite off sel m1 v1).shadowWrite off sel m2 v2
    t.regs = s.regs ∧ ∃ x ∈ t.shadow, x.off = off ∧ x.sel = sel ∧ x.due = s.dueNow ∧ x.mask = m1 ||| m2 ∧
      (∀ i, x.val.getLsbD i = if m2.getLsbD i then v2.getLsbD i else (m1.getLsbD i && v1.getLsbD i)) ∧
      (∀ y ∈ t.shadow, y.off = off → y.sel = sel → y.due = s.dueNow → y = x) ∧ ∀ y ∈ s.shadow, y ∈ t.shadow

/-- Registers with behaviour of their own (R37, R57, R74, R356, R363): PERIOD is taken while control is stopped and refused with
PERIOD_REJ while it runs or is stopping at the boundary (R62), whatever its value, PNT_EPOCH clears WRAPS, a write clears a high-water field, LOCK bits are set and
never cleared by a write, a Shutter mask adds its blocks. HOST_LOCK (R356): a LOCK bit at 1 stays 1 whatever is written to
HOST_LOCK. Each of CRSL_PERIOD_WRITE, PNT_EPOCH_WRITE, HIGH_WATER_CLEAR, HOST_LOCK_WRITE and HOST_SHUTTER_WRITE completes. -/
def Obligations.OwnRegisters : Prop :=
  (∀ (s : State) (p : Path) (v : W32), s.up = true → s.cfgFrozen = false →
       (s.locked 1 = false → s.sys.run = .stopped → s.crsl.ovrDue = false → Reaches (exec (.crslPeriodWrite p v) s) fun t =>
         t.fld 0x0800 1 0 = bits v 1 0) ∧
       (s.locked 1 = false → s.running = true ∨ (s.sys.run = .stopped ∧ s.crsl.ovrDue = true) → Reaches (exec (.crslPeriodWrite p v) s) fun t =>
         t.fld 0x0800 1 0 = s.fld 0x0800 1 0 ∧ t.sq 1 11 = true) ∧
       (∀ up, s.locked 3 = false → Reaches (exec (.pntEpochWrite p up v) s) fun t =>
         t.reg (if up then 0x1814 else 0x1810) = v ∧ t.fld 0x1818 7 0 = 0) ∧
       (∀ k, k < 5 → Reaches (exec (.highWaterClear p (0x0820 + 4 * k) v) s) fun t => t.fld (0x0820 + 4 * k) 31 16 = 0) ∧
       Reaches (exec (.hostLockWrite p v) s) (fun t => t.reg 0x6808 = s.reg 0x6808 ||| (v &&& fieldMask 21 0)) ∧
       Reaches (exec (.hostShutterWrite p v) s) fun t => t.hostp.shutMask = s.hostp.shutMask ||| v.setWidth 22) ∧
  (∀ (s : State) (p : Path) (v : W32) (b : Nat), s.up = true → s.locked b = true →
       Reaches (exec (.hostLockWrite p v) s) fun t => t.locked b = true)

/-- A clearing write (R361): with the sequence its path latched, modulo 256, it clears exactly the fields recorded at or before
the latch, and STALE; with another, or from a path that has not read the register, it clears nothing, sets STALE and is counted
in HOST_CNT8; none changes SEQ. SEQUENCE_CLEAR_WRITE completes. -/
def Obligations.SequenceClear : Prop :=
  ∀ (s : State) (p : Path) (v : W32) (blk : Nat), s.up = true → blk < 22 → blk ≠ 4 → blk ≠ 20 → (blk = 7 → s.isMr = true) →
    let latch := sget none (s.pathOf p).seqLatch blk
    (∀ l, latch = some l → l % 256 = bits v 31 24 → Reaches (exec (.sequenceClearWrite p (statusOff blk) v) s) fun t =>
      (t.statOf blk).set = (s.statOf blk).set.filter (fun e => l < e.2) ∧ (t.statOf blk).stale = false ∧
        (t.statOf blk).seq = (s.statOf blk).seq) ∧
    (latch = none ∨ (∃ l, latch = some l ∧ l % 256 ≠ bits v 31 24) →
      Reaches (exec (.sequenceClearWrite p (statusOff blk) v) s) fun t =>
        (t.statOf blk).set = (s.statOf blk).set ∧ (t.statOf blk).stale = true ∧ (t.statOf blk).seq = (s.statOf blk).seq ∧
          t.total 0x69E0 = s.total 0x69E0 + 1)

/-- Posted writes (R362, R428): a calendar write is posted while HALT is 1 and BUSY 0, refused with CFG_REJ while HALT is 0, and
dropped with WR_LOST while BUSY; its confirmation clears BUSY and gives the register its value. Each of RTC_COUNT_WRITE,
POSTED_WRITE and POSTED_WRITE_COMPLETE completes. -/
def Obligations.PostedWrites : Prop :=
  ∀ (s : State) (p : Path) (v : W32) (r : Fin 8), s.up = true → s.cfgFrozen = false → s.parityHeld 16 = false →
    (s.busyDom 16 = false → s.rtc.halt = true →
      Reaches (exec (.rtcCountWrite p r v) s) (fun t => sget none t.posted 16 = some { off := 0x8000 + 4 * r.val, val := v } ∧
        t.rtc = s.rtc) ∧
      Reaches (exec (.postedWrite p (0x8000 + 4 * r.val) v) s) fun t =>
        sget none t.posted 16 = some { off := 0x8000 + 4 * r.val, val := v } ∧ t.rtc = s.rtc) ∧
    (s.busyDom 16 = false → s.rtc.halt = false → Reaches (exec (.rtcCountWrite p r v) s) fun t =>
      t.posted = s.posted ∧ t.sq 16 1 = true ∧ t.total 0x8050 = s.total 0x8050 + 1) ∧
    (s.busyDom 16 = true → Reaches (exec (.postedWrite p (0x8000 + 4 * r.val) v) s) fun t =>
      t.posted = s.posted ∧ t.sq 16 0 = true ∧ t.total 0x69DC = s.total 0x69DC + 1) ∧
    (sget none s.posted 16 = some { off := 0x8000 + 4 * r.val, val := v } → r.val < s.rtc.cal.length →
      Reaches (exec (.postedWriteComplete 16) s) fun t => t.busyDom 16 = false ∧
        t.rtc.cal.getD r.val 0 = BitVec.ofNat 8 (bits v 7 0))

/-- Plain registers (R355, R356, R366): HOST_IRQ_QEN takes a write; a register without a writable field sets WR_RO and stays; an
LK field of a locked block stays and sets LK_DENY; DEPTH_NEXT is taken within the pool and refused with QCFG_REJ beyond 12. Each
of REGISTER_WRITE and HOST_QCFG_WRITE completes. -/
def Obligations.PlainRegisters : Prop :=
  ∀ (s : State) (p : Path) (v : W32), s.up = true → s.cfgFrozen = false →
    Reaches (exec (.registerWrite p 0x6810 v) s) (fun t => t.reg 0x6810 = v) ∧
    Reaches (exec (.registerWrite p 0x6818 v) s) (fun t => t.regs = s.regs ∧ t.sq 13 8 = true ∧ t.total 0x69D4 = s.total 0x69D4 + 1) ∧
    (s.locked 2 = true → Reaches (exec (.registerWrite p 0x1010 v) s) fun t =>
      t.regs = s.regs ∧ t.shadow = s.shadow ∧ t.sq 13 9 = true ∧ t.total 0x69D8 = s.total 0x69D8 + 1) ∧
    (∀ n : Fin 32, s.locked 13 = false → bits v 27 24 ≤ 12 → leastDepth n.val ≤ 2 ^ bits v 27 24 →
      s.depthSum n.val (bits v 27 24) ≤ 16384 → Reaches (exec (.hostQcfgWrite p n v) s) fun t =>
        t.fld (0x6840 + 4 * n.val) 27 24 = bits v 27 24) ∧
    (∀ n : Fin 32, s.locked 13 = false → 12 < bits v 27 24 → Reaches (exec (.hostQcfgWrite p n v) s) fun t =>
      t.fld (0x6840 + 4 * n.val) 27 24 = s.fld (0x6840 + 4 * n.val) 27 24 ∧ t.sq 13 2 = true)

/-! ### Queues and the host port (R348 to R372) -/

/-- Queue operations (R370): MARK sets the mark to CUR, REWIND returns CUR to the mark or to RL, RELEASE frees the whole packets
read up to CUR, RESET empties the queue with all positions equal, ABORT withdraws the open packet and clears OVERRUN. Queue
transactions (R368, R371, R372): Q_RD drives the status word and words from CUR and moves CUR past them; Q_WR appends a word to
a host-written queue with room; Q_WR_END places END on its last word. Each of MARK, REWIND, RELEASE, RESET, ABORT, Q_RD, Q_WR
and Q_WR_END completes. -/
def Obligations.QueuesServed : Prop :=
  (∀ (s : State) (n : Fin 32), s.up = true → s.noCommands = true → n.val < s.hostp.queues.length →
       (hostRead n.val = true →
         Reaches (exec (.mark n) s) (fun t => t.q n.val = { s.q n.val with mark := (s.q n.val).cur, marked := true }) ∧
         Reaches (exec (.rewind n) s) (fun t => t.q n.val =
           { s.q n.val with cur := if (s.q n.val).marked then (s.q n.val).mark else (s.q n.val).rl }) ∧
         Reaches (exec (.release n) s) (fun t => t.q n.val = (s.q n.val).release) ∧
         Reaches (exec (.reset n) s) (fun t => (t.q n.val).words = [] ∧ (t.q n.val).rl = (s.q n.val).wr ∧
           (t.q n.val).cur = (s.q n.val).wr ∧ (t.q n.val).wr = (s.q n.val).wr)) ∧
       (hostWritten n.val = true → Reaches (exec (.abort n) s) fun t =>
         (t.q n.val).wr = (s.q n.val).ps ∧ (t.q n.val).overrun = false ∧
           (t.q n.val).words = (s.q n.val).words.take ((s.q n.val).ps - (s.q n.val).rl)) ∧
       (hostRead n.val = false → Reaches (exec (.mark n) s) fun t => t.hostp.queues = s.hostp.queues ∧ t.sq 13 1 = true)) ∧
  (∀ (s : State) (n : Fin 32) (w : W64), s.up = true → n.val < s.hostp.queues.length →
       (hostRead n.val = true → ∀ k, k ≤ (s.q n.val).len → Reaches (exec (.qRd (BitVec.ofNat 16 n.val) k false) s) fun t =>
         (t.q n.val).cur = (s.q n.val).cur + k ∧ (t.q n.val).words = (s.q n.val).words ∧
           t.hostp.dout = s.draw.qptr n.val :: ((s.q n.val).ahead.take k).flatMap fun e => [lo32 e.1.toNat, hi32 e.1.toNat]) ∧
       (hostWritten n.val = true → s.parityHeld 13 = false → s.qEn n.val = true → (s.q n.val).discarding = false →
         0 < (s.q n.val).free →
         Reaches (exec (.qWr (BitVec.ofNat 16 n.val) [w] false) s) (fun t =>
           (t.q n.val).words = (s.q n.val).words ++ [(w, false)] ∧ (t.q n.val).wr = (s.q n.val).wr + 1 ∧
             (t.q n.val).ps = (s.q n.val).ps) ∧
         (n.val = 24 ∨ n.val = 31 ∨ s.sys.cmdOk = false → s.noCommands = true →
           Reaches (exec (.qWrEnd (BitVec.ofNat 16 n.val) [w] false) s) fun t =>
             (t.q n.val).words = (s.q n.val).words ++ [(w, true)] ∧ (t.q n.val).ps = (s.q n.val).wr + 1)))

/-- Register and summary transactions (R349, R351, R354): a burst of one word drives the word at its offset, a write changes
what the same write of one word changes, IRQ_RD drives the two summaries; each is counted, and a register address that is no
multiple of 4 is ignored with INSTR_ERR. Each of REG_RD, REG_WR and IRQ_RD completes. -/
def Obligations.RegisterTransactions : Prop :=
  ∀ (s : State) (a : BitVec 16), s.up = true →
    (a.toNat % 4 = 0 → Reaches (exec (.regRd a 1 false) s) fun t =>
      t.hostp.dout = [(regRead .host a.toNat s.draw).2] ∧ s.total 0x69C0 < t.total 0x69C0) ∧
    (∀ n c, a.toNat % 4 ≠ 0 → Reaches (exec (.regRd a n c) s) fun t => t.regs = s.regs ∧ t.hostp.dout = [] ∧ t.sq 13 5 = true) ∧
    (∀ v, a = 0x6810 → Reaches (exec (.regWr a [v] false) s) fun t =>
      t.reg 0x6810 = v ∧ s.total 0x69C0 < t.total 0x69C0 ∧ s.total 0x69C8 < t.total 0x69C8) ∧
    Reaches (exec (.irqRd 0 2 false) s) fun t =>
      t.hostp.dout = [s.draw.view 0x6814, s.draw.view 0x6818] ∧ s.total 0x69C0 < t.total 0x69C0

/-! ### The command service (chapter 14) -/

/-- Sessions (R380, R381): SESSION_CHALLENGE returns a nonce and keeps it with its instant; SESSION_OPEN with a proof that holds
opens the session for its booth with SSEQ 1 expected, one that fails is refused with AUTH_FAIL and consumes the nonce;
SESSION_CLOSE of a session without commands in flight completes and closes it. Each of SESSION_CHALLENGE, SESSION_OPEN and
SESSION_CLOSE completes. -/
def Obligations.SessionsOpenAndClose : Prop :=
  ∀ (s : State) (h : Hdr), h.eff = none → (4 ≤ h.session.val ∨ s.flag 0x7000 h.session.val = true) →
    (s.takes h 32 → (s.sess h.session.val).state ≠ .opened → Reaches (exec (.sessionChallenge h) s) fun t =>
      (t.sess h.session.val).state = .challenged ∧
        ∃ nonce : List Byte, nonce.length = 32 ∧ (t.sess h.session.val).nonce = some (nonce, s.crsl.upNs) ∧
          s.wrote t h.session.val (respPacket 0x0101 h.tag h.booth h.sseq 0 0 0 nonce)) ∧
    (s.takes h 4 → (s.sess h.session.val).state ≠ .opened → ∀ proof : List Byte,
      proof.length = (if h.session.val < 4 then 64 else 0) → (h.session.val < 4 ∨ h.booth ≠ 0xFF) →
      (∀ k, s.sessionProof h proof = some k → Reaches (exec (.sessionOpen h proof) s) fun t =>
        (t.sess h.session.val).state = .opened ∧ (t.sess h.session.val).booth = h.booth ∧
          (t.sess h.session.val).expected = 1 ∧ (t.sess h.session.val).nonce = none ∧
          s.wrote t h.session.val (respPacket 0x0102 h.tag h.booth h.sseq 0 0 0 [BitVec.ofNat 8 h.session.val, 0, 0, 0])) ∧
      (s.sessionProof h proof = none → Reaches (exec (.sessionOpen h proof) s) fun t =>
        (t.sess h.session.val).state = .closed ∧ (t.sess h.session.val).nonce = none ∧
          s.turnedDown t h 0x0102 0 0x12 0 [])) ∧
    (s.admits h 0 → s.mbx.slots = [] → Reaches (exec (.sessionClose h) s) fun t =>
      (t.sess h.session.val).state = .closed ∧ t.mbx.slots = [] ∧ t.sq 14 6 = true ∧
        s.wrote t h.session.val (respPacket 0x0103 h.tag h.booth h.sseq 0 0 0 []))

/-- Commands on the module and its registers (R363, R385, R386): IDENTIFY, ECHO, REG_READ and REG_WRITE complete with their data, a
register write with the effect of the same write of one word; SHUTTER waits with its blocks added to the set. Each of IDENTIFY,
ECHO, REG_READ, REG_WRITE and SHUTTER completes. -/
def Obligations.ModuleCommands : Prop :=
  ∀ (s : State) (h : Hdr),
    (s.admits h 16 → Reaches (exec (.identify h) s) fun t => s.answered t h 0x0104 0
      (leBytes 4 (s.view 0).toNat ++ leBytes 4 s.upd.verActive ++ leBytes 8 s.rev)) ∧
    (∀ bytes : List Byte, s.admits h bytes.length → Reaches (exec (.echo h bytes) s) fun t => s.answered t h 0x0108 0 bytes) ∧
    (∀ off, s.admits h 4 → s.landlord h = true → off ∈ [0x0000, 0x0800, 0x1800, 0x6808, 0x9800] →
      Reaches (exec (.regRead h off 1) s) fun t => s.answered t h 0x0105 0 (leBytes 4 (s.draw.view off).toNat) ∧ t.regs = s.regs) ∧
    (∀ v : W32, s.admits h 0 → s.landlord h = true → s.cfgFrozen = false → s.locked 13 = false →
      Reaches (exec (.regWrite h 0x6810 [v]) s) fun t => s.answered t h 0x0106 0 [] ∧ t.reg 0x6810 = v) ∧
    ∀ mask : W32, s.admits h 8 → s.landlord h = true → mask &&& fieldMask 21 0 ≠ 0 → s.shutPending = 0 →
      Reaches (exec (.shutter h mask) s) fun t => s.inFlightFor t h 0x0107 8 (.shutter (mask.setWidth 22)) ∧
        t.shutPending = mask.setWidth 22 ∧ t.hostp.shutDue = s.dueNow

/-- The checks of R384 in their order, on ECHO and REG_READ: a header of the wrong form, a session not open, SSEQ out of turn with
the expected one as data, a wrong BOOTH, a TAG in use with DUP set, a payload CRC that fails, an access of another booth, a
field out of range with its offset; a command that cannot be taken leaves the service and its queues as they are (R383). A
command is taken only while a slot is free (R383): with 256 in use, none of the service's state changes, nor any queue. -/
def Obligations.CommandChecks : Prop :=
  (∀ (s : State) (h : Hdr) (off n : Nat), s.up = true → s.sys.cmdOk = true → s.mbx.slots.length < 256 → respWords (4 * n) ≤ s.pathFree h.session.val →
       1 ≤ n → (h.session.val < 4 → s.qEn (4 + h.session.val) = true) → s.hostp.queues.length = 32 →
       let ss := s.sess h.session.val
       let tagUsed := s.mbx.slots.any fun x => x.session == h.session.val && x.tag == h.tag
       let ok1 := h.badHeader = false ∧ h.eff = none
       let ok2 := ok1 ∧ ss.state = .opened
       let ok3 := ok2 ∧ h.sseq = ss.expected
       let ok4 := ok3 ∧ h.booth = ss.booth
       let ok5 := ok4 ∧ tagUsed = false
       let ok6 := ok5 ∧ h.badPayload = false
       (h.badHeader = true ∨ h.eff.isSome → Reaches (exec (.regRead h off n) s) fun t => s.turnedDown t h 0x0105 0 5 0 []) ∧
       (ok1 → ss.state ≠ .opened → Reaches (exec (.regRead h off n) s) fun t => s.turnedDown t h 0x0105 0 1 0 []) ∧
       (ok2 → h.sseq ≠ ss.expected → Reaches (exec (.regRead h off n) s) fun t =>
         s.turnedDown t h 0x0105 0 3 0 (leBytes 4 ss.expected.toNat) ∧ t.sq 14 3 = true) ∧
       (ok3 → h.booth ≠ ss.booth → Reaches (exec (.regRead h off n) s) fun t => s.turnedDown t h 0x0105 0 2 0 []) ∧
       (ok4 → tagUsed = true → Reaches (exec (.regRead h off n) s) fun t => s.turnedDown t h 0x0105 0x0800 4 0 []) ∧
       (ok5 → h.badPayload = true → Reaches (exec (.regRead h off n) s) fun t => s.turnedDown t h 0x0105 0 6 0 []) ∧
       (ok6 → s.landlord h = false → Reaches (exec (.regRead h off n) s) fun t => s.turnedDown t h 0x0105 0 9 0 []) ∧
       (ok6 → s.landlord h = true → off % 4 ≠ 0 → Reaches (exec (.regRead h off n) s) fun t => s.turnedDown t h 0x0105 0 8 0 []) ∧
       (ok6 → s.landlord h = true → off % 4 = 0 → off ≤ 0xFFFC → 256 < n → Reaches (exec (.regRead h off n) s) fun t =>
         s.turnedDown t h 0x0105 0 8 2 [])) ∧
  (∀ (s : State) (h : Hdr) (bytes : List Byte), s.up = true → 256 ≤ s.mbx.slots.length →
       Reaches (exec (.echo h bytes) s) (fun t => t.mbx = s.mbx ∧ t.hostp.queues = s.hostp.queues) ∧
       Reaches (exec (.windowBind h) s) fun t => t.mbx = s.mbx ∧ t.pnt = s.pnt)

/-- The 0200h group (R80, R87 to R89, R387): POINT_READ returns records of points the booth may read; POINT_WRITE queues its
writes whole for Intake; force and config commands wait for their boundary, one the check of R79 denies is refused with the
point as DETAIL; the window is bound to the session and unbound. Each of POINT_READ, POINT_WRITE, FORCE_SET, FORCE_CLEAR,
POINT_CONFIG, WINDOW_BIND, WINDOW_UNBIND and FORCE_LIST completes. -/
def Obligations.PointCommands : Prop :=
  ∀ (s : State) (h : Hdr) (p : Nat), p < 8192 →
    (s.admits h 32 → s.mbx.slots = [] → s.check (s.boothOf h) .read p false false = .allow →
      Reaches (exec (.pointRead h p 1) s) fun t => s.answered t h 0x0201 0 (bytesOf32 (s.readRec p).words) ∧
        (∀ q, q ≠ p → t.point q = s.point q) ∧ (t.point p).value = (s.point p).value) ∧
    (∀ v : W64, s.trap.role.refuses = false → s.admits h 1 → 1 ≤ s.fld 0x0800 19 10 → Reaches (exec (.pointWrite h [{ point := p, value := v }]) s) fun t =>
      s.inFlightFor t h 0x0202 1 .intake ∧ t.pnt.points = s.pnt.points ∧
        t.pnt.netq = s.pnt.netq ++ [{ slot := some (s.mbx.nextIdent + 1), window := false, rev := s.rev, booth := h.booth,
                                      writes := [{ point := p, value := v }] }]) ∧
    (∀ v : W64, s.trap.role.refuses = false → s.admits h 8 → s.mbx.slots = [] → (p ∈ s.forcesAfter ∨ s.forcesAfter.length < 1024) →
      (s.check (s.boothOf h) .force p false false = .allow →
        Reaches (exec (.forceSet h p v) s) (fun t => s.inFlightFor t h 0x0203 8 (.force p v) ∧ t.pnt = s.pnt) ∧
        Reaches (exec (.forceClear h p) s) fun t => s.inFlightFor t h 0x0204 8 (.unforce p) ∧ t.pnt = s.pnt) ∧
      (s.check (s.boothOf h) .force p false false = .deny →
        Reaches (exec (.forceSet h p v) s) (fun t => s.turnedDown t h 0x0203 0 9 p [] ∧ t.sq 3 7 = true ∧ t.pnt = s.pnt) ∧
        Reaches (exec (.forceClear h p) s) fun t => s.turnedDown t h 0x0204 0 9 p [] ∧ t.sq 3 7 = true ∧ t.pnt = s.pnt)) ∧
    (∀ owner typ src share unit, s.trap.role.refuses = false → s.admits h 8 → s.landlord h = true → typ.toNat ≤ 8 → src.toNat ≤ 12 →
      s.ownerRefused p owner = false →
      s.check (s.boothOf h) .config p false (s.changesOther p owner typ src unit) = .allow →
      Reaches (exec (.pointConfig h p owner typ src share unit) s) fun t =>
        s.inFlightFor t h 0x0205 8 (.config p owner typ src share unit s.dueNow) ∧ t.pnt = s.pnt) ∧
    (s.admits h 0 → h.session.val < 4 → s.pnt.winSession = none → Reaches (exec (.windowBind h) s) fun t =>
      s.answered t h 0x0206 0 [] ∧ t.pnt.winSession = some h.session.val) ∧
    (s.admits h 0 → s.pnt.winSession = some h.session.val → Reaches (exec (.windowUnbind h) s) fun t =>
      s.answered t h 0x0207 0 [] ∧ t.pnt.winSession = none ∧ t.pnt.winStage = none) ∧
    (s.admits h 16 → s.mbx.slots = [] → (s.forcesData (s.boothOf h) p 1).length ≤ 16 → p < 1024 →
      Reaches (exec (.forceList h p 1) s) fun t => s.answered t h 0x0208 0 (s.forcesData (s.boothOf h) p 1) ∧ t.pnt = s.pnt)

/-- The access check (R79): booth 255 may do all but write a point of another source; a write outside the commit list needs a
software point and its owner, or a shared group that may write; a read of an unused point is denied; a force is for booth 0 and
the owner, who may not take a force of booth 0. The record is the one a read returns, its CRC verified (R92). -/
def Obligations.AccessCheck : Prop :=
  ∀ (s : State) (b p : Nat),
    (s.check b .write p false false = .allow → (s.point p).src = 1) ∧
    ((s.point p).src ≠ 1 → s.check b .write p false false = .denySource) ∧
    (p < 8064 → s.check 255 .read p false false = .allow ∧ s.check 255 .force p false false = .allow ∧
      s.check 255 .config p false true = .allow) ∧
    ((s.readRec p).quality = 0xC1 → b ≠ 255 → s.check b .read p false false = .deny) ∧
    ((s.readRec p).quality ≠ 0xC1 → b ≠ 255 → (s.check b .read p false false = .allow ↔
      b = 0 ∨ b = (s.point p).owner.toNat ∨ (s.point p).share.setWidth 32 &&& s.groups b ≠ 0)) ∧
    ((s.readRec p).quality ≠ 0xC1 → b ≠ 255 → b ≠ 0 → (s.check b .force p false false = .allow ↔
      b = (s.point p).owner.toNat ∧
        ¬ ((s.point p).forced = true ∧ (s.force (s.point p).fidx.toNat).map (·.setter) = some 0))) ∧
    (8064 ≤ p → s.check b .config p false true = .deny) ∧ (b ≠ 0 → b ≠ 255 → s.check b .config p false false = .deny)

/-- Forces and config accesses as they apply at a boundary (R71, R73, R82, R88): a force entered gives its point the forced value
and its FORCED flag, and a software point leaves 43h with the request it drops, one cleared takes the flag and the entry away, a config access gives the point its new fields and brings an
unused point into use with quality 42h, but for a PRISM point on the LYF-8192-MN, which reads C1h (R70). -/
def Obligations.ForcesAndConfigApply : Prop :=
  ∀ (s : State) (x : Slot) (p b : Nat) (v : W64),
    (s.check x.booth.toNat .force p false false = .allow → (s.point p).forced = false → isOutput (s.point p).src = false →
      (∀ i, s.freeForce = some i →
        ((s.applyForce x p v b).point p).value = v ∧ ((s.applyForce x p v b).point p).forced = true ∧
          (s.sound p → ((s.applyForce x p v b).point p).quality =
            if (s.point p).quality = 0x43 then 0 else (s.point p).quality))) ∧
    (s.check x.booth.toNat .force p false false = .allow → (s.point p).forced = true →
      ((s.applyUnforce x p b).point p).forced = false ∧ ((s.applyUnforce x p b).point p).value = (s.point p).value ∧
        (s.applyUnforce x p b).pnt.forces = serase s.pnt.forces (s.point p).fidx.toNat) ∧
    ∀ owner typ src share unit, p < 8064 →
      let r := (s.applyConfig x p owner typ src share unit b).point p
      r.owner = owner ∧ r.typ = typ ∧ r.src = src ∧ r.share = share ∧ r.unit = unit ∧
        (s.sound p → ((s.point p).quality = 0xC1 → r.value = 0) ∧ ((s.point p).quality ≠ 0xC1 → r.value = (s.point p).value) ∧
        r.quality = (if src = 6 ∧ s.isMr = false then 0xC1 else if (s.point p).quality = 0xC1 then 0x42 else (s.point p).quality))

/-! ### Loops, Spotlight, programs and the ledger by command (chapters 04, 05 and 08) -/

/-- The 0300h group on loops (R113, R115, R121, R388): LOOP_READ returns the 64 words; LOOP_LOAD and LOOP_MODE wait for their
boundary and leave the loop until then; a load that R101 or R113 refuses sets GAIN_REJ and gives the offset of its first word;
SPOT_PERMIT, once no earlier command waits on the context (R385), is kept with it, and whether the loop's own booth has given it. Each of LOOP_READ, LOOP_LOAD, LOOP_MODE and
SPOT_PERMIT completes. -/
def Obligations.LoopCommands : Prop :=
  ∀ (s : State) (h : Hdr) (c : Nat), c ≤ 511 → s.trap.role.refuses = false →
    (s.admits h 256 → s.mbx.slots = [] → s.ctxBooth h c = true → Reaches (exec (.loopRead h c) s) fun t =>
      s.answered t h 0x0301 0 (s.ctx c).bytes ∧ t.loop = s.loop) ∧
    (∀ ws, s.admits h 8 → s.loadDenied h c ws = false → s.loadBad c ws = none → s.loadRefused c ws = false →
      Reaches (exec (.loopLoad h c ws) s) fun t => s.inFlightFor t h 0x0302 8 (.load c ws) ∧ t.loop = s.loop) ∧
    (∀ ws off, s.admits h 8 → s.loadDenied h c ws = false → bits (ws.getD 0 0) 31 30 ≠ 3 → badWord ws ≠ some 1 →
      s.loadBad c ws = some off → Reaches (exec (.loopLoad h c ws) s) fun t =>
        s.turnedDown t h 0x0302 0 8 off [] ∧ t.sq 5 6 = true ∧ t.total 0x28BC = s.total 0x28BC + 1 ∧ t.loop = s.loop) ∧
    (∀ mode manOut, s.admits h 8 → s.ctxBooth h c = true → mode ≤ 2 → Reaches (exec (.loopMode h c mode manOut) s) fun t =>
      s.inFlightFor t h 0x0303 8 (.mode c mode manOut) ∧ t.loop = s.loop) ∧
    ∀ permit, s.admits h 0 → permit ≤ 1 → s.ctxPending (s.mbx.nextIdent + 1) c = false → (s.ctx c).inUse = true → (s.ctx c).owner = s.boothOf h ∨ s.boothOf h = 255 →
      Reaches (exec (.spotPermit h c permit) s) fun t => s.answered t h 0x0304 0 [] ∧
        t.ctx c = { s.ctx c with permit := decide (permit = 1)
                                 permitOwn := decide (permit = 1) &&
                                   (decide ((s.ctx c).owner = s.boothOf h) || (s.ctx c).permitOwn) }

/-- Spotlight (R121, R125 to R127, R388): with no earlier command waiting on the context (R385), SPOT_START takes a free slot and gives
its number and SPOT_STOP aborts a running test with cause 1h; the Ringmaster moves the oldest complete packet of a slot to its queue, or drops it with SPOT_DROP when the queue has
no room. Each of SPOT_START, SPOT_STOP and SPOT_PACKET_FORWARD completes. -/
def Obligations.SpotlightTests : Prop :=
  ∀ s : State, s.loop.spots.length = 4 → s.trap.role.refuses = false →
    (∀ (h : Hdr) (c : Nat) (p : SpotParams) (k : Nat), s.admits h 1 → s.ctxPending (s.mbx.nextIdent + 1) c = false → s.spotBooth h c = true → s.spotBad c p = none →
      s.spotRefused c = none → s.freeSpot = some k → Reaches (exec (.spotStart h c p) s) fun t =>
        s.answered t h 0x0305 0 [BitVec.ofNat 8 k] ∧ (t.spot k).state = 1 ∧ (t.spot k).ctx = c ∧ (t.spot k).params = p ∧
          (t.spot k).count = 0 ∧ t.total 0x28A8 = s.total 0x28A8 + 1) ∧
    (∀ (h : Hdr) (k : Nat), s.admits h 0 → k < 4 → s.ctxPending (s.mbx.nextIdent + 1) (s.spot k).ctx = false → (s.spot k).state = 1 → s.spotBooth h (s.spot k).ctx = true →
      Reaches (exec (.spotStop h k) s) fun t => s.answered t h 0x0306 0 [] ∧ (t.spot k).state = 3 ∧ (t.spot k).cause = 1 ∧
        (t.spot k).inject = 0 ∧ t.sq 5 2 = true ∧ t.total 0x28B0 = s.total 0x28B0 + 1) ∧
    ∀ (k : Fin 4) (b : SpotBuf) (rest : List SpotBuf), s.up = true → s.hostp.queues.length = 32 → (s.spot k.val).full = b :: rest →
      b.queue < 4 →
      let n := 8 + b.queue
      let ws := b.packet
      (s.qRoom n ws.length = true → Reaches (exec (.spotPacketForward k) s) fun t =>
        t.q n = (s.q n).push ws ∧ (t.spot k.val).full = rest) ∧
      (s.qRoom n ws.length = false → Reaches (exec (.spotPacketForward k) s) fun t => t.hostp.queues = s.hostp.queues ∧
        (t.spot k.val).full = rest ∧ t.sq 5 1 = true ∧ t.total 0x28B8 = s.total 0x28B8 + 1)

/-- Images and exchanges, no earlier command waiting on the booth's images (R136, R153, R158, R385, R389): bytes are staged; a checked image waits to be activated, one that fails a
check is refused with its REASON, shown and counted; an exchange is armed for its boundary and withdrawn; the retired images and
their tasks leave after DURABLE. Tasks and variables by command (R60, R143, R389): TASK_STOP takes a running task to
STOPPED_CMD, TASK_RESTART a stopped one back to RUNNING, each counted; VAR_READ returns 16 bytes for each identifier. Each of
IMAGE_STAGE, IMAGE_LOAD, SWB_ARM, SWB_DISARM, IMAGE_RELEASE, TASK_STOP, TASK_RESTART and VAR_READ completes. -/
def Obligations.ProgramCommands : Prop :=
  (∀ (s : State) (h : Hdr) (booth slot : Nat), booth ≤ 254 → slot ≤ 7 → s.boothIs h booth = true → s.trap.role.refuses = false →
       s.imagePending (s.mbx.nextIdent + 1) booth = false →
       (∀ off bytes, s.admits h 0 → bytes ≠ [] → off + bytes.length ≤ 1048576 →
         Reaches (exec (.imageStage h booth slot off bytes) s) fun t => s.answered t h 0x0401 0 [] ∧
           sget [] t.prg.staged slot = stageBytes (sget [] s.prg.staged slot) off bytes ∧ t.prg.active = s.prg.active) ∧
       (s.admits h 8 → s.loadable booth = true →
         let img := parseImage (sget [] s.prg.staged slot)
         (∀ i, img = some i → s.imageReason booth (s.boothOf h) s.rev img false = none →
           Reaches (exec (.imageLoad h booth slot) s) fun t => s.inFlightFor t h 0x0402 8 (.image booth slot i) ∧ t.prg = s.prg) ∧
         (∀ r, s.imageReason booth (s.boothOf h) s.rev img false = some r → Reaches (exec (.imageLoad h booth slot) s) fun t =>
           s.turnedDown t h 0x0402 0 0x0E r [] ∧ t.prg = s.prg ∧ t.sq 6 6 = true ∧ t.total 0x3084 = s.total 0x3084 + 1)) ∧
       (∀ (b : W64) (i : Image), s.admits h 8 →
         parseImage (sget [] s.prg.staged slot) = some i → s.imageReason booth (s.boothOf h) b.toNat (some i) true = none →
         s.swbTooSoon b.toNat = false → Reaches (exec (.swbArm h booth slot b) s) fun t =>
           s.answered t h 0x0403 0 (leBytes 8 b.toNat) ∧ t.total 0x3088 = s.total 0x3088 + 1 ∧
             (t.prg.armed.find? fun e => e.1 == booth) = some (booth, { slot, image := i, boundary := b.toNat, dropped := 0 })) ∧
       (s.admits h 0 → s.disarmable booth = true → Reaches (exec (.swbDisarm h booth) s) fun t =>
         s.answered t h 0x0404 0 [] ∧ t.prg.armed = serase s.prg.armed booth ∧ t.fld 0x3008 31 30 = 0) ∧
       (s.admits h 0 → (s.prg.retired.any fun e => e.1 == booth) = false ∨ sget false s.prg.durable booth = true →
         Reaches (exec (.imageRelease h booth) s) fun t => s.answered t h 0x0405 0 [] ∧
           t.prg.retired = s.prg.retired.filter (fun e => e.1 != booth) ∧
           t.total 0x30BC = s.total 0x30BC + (s.prg.retired.filter fun e => e.1 == booth).length ∧
           t.prg.tasks = s.prg.tasks.filter fun e => !(e.2.booth == booth && e.2.state == TaskState.retired))) ∧
  (∀ (s : State) (h : Hdr), s.trap.role.refuses = false →
       (∀ i, i < 256 → s.admits h 0 → s.taskBooth h i = true → s.imagePending (s.mbx.nextIdent + 1) (s.task i).booth = false →
         ((s.task i).state = .running → Reaches (exec (.taskStop h i) s) fun t => s.answered t h 0x0406 0 [] ∧
           (t.task i).state = .stoppedCmd ∧ t.sq 6 0 = true ∧ t.total 0x30B4 = s.total 0x30B4 + 1) ∧
         ((s.task i).state = .stoppedCmd ∨ (s.task i).state = .stoppedOverrun → s.sys.jugState.getD (s.task i).jug 0 ≠ 2 →
           Reaches (exec (.taskRestart h i) s) fun t =>
           s.answered t h 0x0407 0 [] ∧ t.task i = { s.task i with state := .running } ∧ t.total 0x30B0 = s.total 0x30B0 + 1)) ∧
       ∀ booth (ids : List W64), booth ≤ 254 → s.boothIs h booth = true → ids ≠ [] → ids.length ≤ 32 → s.admits h (16 * ids.length) →
         s.mbx.slots = [] → Reaches (exec (.varRead h booth ids) s) fun t =>
           s.answered t h 0x0408 0 (s.draw.varsData booth ids) ∧ t.prg = s.prg)

/-- The cost of a move (R229): COEF × (v1 − v0) rounded away from zero to whole W, with COEF in Q16.16 and the values as the numbers
their TYPE gives; the tracked load is COEF × the committed value, rounded the same way. -/
def Obligations.MoveCost : Prop :=
  ∀ (s : State) (p : Nat) (v : W64) (c : Cost) (i0 i1 : Int) (k0 k1 : Nat), s.costOf p = some c →
    numOf (s.point p).typ (s.point p).value = some (i0, k0) → numOf (s.point p).typ v = some (i1, k1) →
    let coef : ℚ := (s32 c.coef : ℚ) / 2 ^ 16
    let away := fun x : ℚ => if 0 ≤ x then ⌈x⌉ else ⌊x⌋
    s.moveCost p v = away (coef * ((i1 : ℚ) / 2 ^ k1 - (i0 : ℚ) / 2 ^ k0)) ∧ s.tracked p = away (coef * ((i0 : ℚ) / 2 ^ k0))

/-- The ledger by command (R244, R377, R390): LIMIT_SET and SHED_SET without an effective time wait for the next boundary, with
one they are scheduled for its boundary in place of an earlier one of their target; LEDGER_READ and REQUEST_LIST return the
ledger. Events of the ledger (R227, R234, R240, R247): HOLDING ends in BLIND after HOLD_MAX, not before; a request that misses its bound is marked,
reported once and counted; a request becomes reserved by its age alone; house steps are shed while throttling applies and
restored within the budgets, each counted. Each of LIMIT_SET, SHED_SET, LEDGER_READ, REQUEST_LIST, BLIND, BOUND_MISS,
REQUEST_RESERVED, HOUSE_STEP_SHED and HOUSE_STEP_RESTORE completes. -/
def Obligations.LedgerByCommand : Prop :=
  (∀ (s : State) (h : Hdr), s.landlord h = true → s.trap.role.refuses = false →
       (∀ limit level valid, s.admits h 8 → (valid = true → level ≤ 2) → s.limitEarly s.rev = false →
         Reaches (exec (.limitSet h limit level valid) s) fun t =>
           s.inFlightFor t h 0x0501 8 (.ledger (some limit.toNat) (if valid then some level else none)) ∧ t.ledger = s.ledger) ∧
       (∀ limit level valid, s.admits h 8 → (valid = true → level ≤ 2) → s.limitEarly s.rev = true →
         Reaches (exec (.limitSet h limit level valid) s) fun t => t.mbx.slots = s.mbx.slots ∧ t.ledger = s.ledger ∧
           t.sq 2 0 = true ∧ t.total 0x109C = s.total 0x109C + 1) ∧
       (∀ level, s.admits h 8 → level ≤ 2 → Reaches (exec (.shedSet h level) s) fun t =>
         s.inFlightFor t h 0x0502 8 (.ledger none (some level)) ∧ t.ledger = s.ledger) ∧
       (∀ level e, s.admitsAt h (some e) 8 → level ≤ 2 → s.effTooFar e = false → s.schedRoom [.shed level] = true →
         Reaches (exec (.shedSet h level) s) fun t =>
           s.answered t h 0x0502 (if (s.boundaryFor e).2 then 0x1000 else 0) (leBytes 8 (s.boundaryFor e).1) ∧
             t.ledger = s.ledger ∧ ((s.boundaryFor e).2 = true → t.sq 1 9 = true) ∧
             t.mbx.sched = s.schedKept [.shed level] ++ [{ ident := s.mbx.nextIdent + 1, target := .shed level,
                                                           boundary := (s.boundaryFor e).1, late := (s.boundaryFor e).2 }]) ∧
       (s.admits h 24 → s.mbx.slots = [] → Reaches (exec (.ledgerRead h) s) fun t =>
         s.answered t h 0x0503 0 s.draw.ledgerData ∧ t.ledger = s.ledger) ∧
       ∀ first n, 1 ≤ n → n ≤ 64 → s.admits h (12 * n) → s.mbx.slots = [] → Reaches (exec (.requestList h first n) s) fun t =>
         s.answered t h 0x0504 0 (s.draw.requestsData (s.boothOf h) first n) ∧ t.ledger = s.ledger) ∧
  (∀ s : State, s.up = true →
       (s.ledger.demState = .holding →
         (s.ledger.holdSince + s.fld 0x1028 18 10 * 1000000000 ≤ s.crsl.upNs + s.periodNs → Reaches (exec .blind s) fun t =>
           t.ledger.demState = .blind ∧ t.sq 2 3 = true ∧ t.ledger.limit = s.ledger.limit ∧ t.ledger.arb = s.ledger.arb) ∧
         (s.crsl.upNs + s.periodNs < s.ledger.holdSince + s.fld 0x1028 18 10 * 1000000000 → Reaches (exec .blind s) fun t =>
           t.ledger = s.ledger)) ∧
       (∀ (p : Fin 8192) (r : Req), (s.ledger.arb.reqs.find? fun r => r.point == p.val && decide (4095 ≤ r.age) && r.tested && !r.missed) = some r →
         Reaches (exec (.boundMiss p) s) fun t => t.sq 2 2 = true ∧ t.total 0x10AC = s.total 0x10AC + 1 ∧
           t.ledger.arb.reqs = s.ledger.arb.reqs.map fun x => if x.point = p.val then { x with missed := true } else x) ∧
       (∀ p : Fin 8192, Reaches (exec (.requestReserved p) s) fun t => t.ledger = s.ledger ∧ t.pnt = s.pnt) ∧
       (s.ledger.throttling = true → s.ledger.house < 4 → Reaches (exec .houseStepShed s) fun t =>
         t.ledger.house = s.ledger.house + 1 ∧ t.sq 2 1 = true ∧ t.total 0x10B0 = s.total 0x10B0 + 1) ∧
       (0 < s.ledger.house → 300 ≤ 3900 - (s.pwr.pMw : Int) → 120 ≤ 1050 - (s.pwr.tj10 : Int) →
         Reaches (exec .houseStepRestore s) fun t => t.ledger.house = s.ledger.house - 1 ∧ t.sq 2 1 = true ∧
           t.total 0x10B4 = s.total 0x10B4 + 1))

/-! ### Prism (chapters 06 and 07) -/

/-- One sample (R165, R194): SAMPLE_CNT advances; a failed frame is counted and ends the run of good ones, a good one ends the run
of bad ones; a meter not in use stays as it is, and none registers during FE_FAULT or after a lost save. Intervals of the
partition (R172, R178, R180, R194, R209): FE_FAULT after 16 failed frames and its end after 16,000 good ones; an aggregation
interval that has its cycles (log entry 147 where the reference does not cross) ends with its sums at 0, an adopted set in effect
and W for the next one; a 10 s interval gives the class S frequency; SETTLE ends once no integrator of the meter settles; a block
of its full length closes into a ring record with the registers as they are; before these times nothing ends. Each of PRISM_SAMPLE,
FE_FAULT, FE_FAULT_EXIT, AGGREGATION_END, FREQUENCY_INTERVAL_END, SETTLE_END and BLOCK_CLOSE completes. -/
def Obligations.PrismIntervals : Prop :=
  (∀ (s : State) (codes : List (BitVec 24)) (crc : BitVec 16), s.flt.nest = false → s.prismUp = true →
       Reaches (exec (.prismSample codes crc) s) fun t =>
         let good := codes.length = 36 ∧ frameCheck 1 codes = crc
         t.prsm.sample = (s.prsm.sample + 1) % 2 ^ 32 ∧
           (good → t.prsm.badRun = 0 ∧ t.prsm.goodRun = s.prsm.goodRun + 1 ∧ t.prsm.frameErrs = s.prsm.frameErrs) ∧
           (¬ good → t.prsm.badRun = s.prsm.badRun + 1 ∧ t.prsm.goodRun = 0 ∧ t.prsm.frameErrs = s.prsm.frameErrs + 1) ∧
           (∀ k, k < 16 → (s.prsm.cfg.m k).used = false → t.prsm.meter k = s.prsm.meter k) ∧
           (∀ k, k < 16 → s.prsm.feFault = true ∨ s.prsm.saveLost = true →
             (t.prsm.meter k).reg = (s.prsm.meter k).reg ∧ (t.prsm.meter k).rem = (s.prsm.meter k).rem) ∧
           t.prsm.saves = s.prsm.saves ∧ t.prsm.chain = s.prsm.chain ∧ t.regs = s.regs) ∧
  (∀ s : State, s.flt.nest = false → s.prismUp = true →
       (16 ≤ s.prsm.badRun → Reaches (exec .feFault s) fun t => t.prsm = { s.prsm with feFault := true }) ∧
       (16000 ≤ s.prsm.goodRun → Reaches (exec .feFaultExit s) fun t => t.prsm = { s.prsm with feFault := false }) ∧
       (s.prsm.intervalDone = true → Reaches (exec .aggregationEnd s) fun t =>
         t.prsm.aggSamples = 0 ∧ t.prsm.fastMhz = s.prsm.fast.mhz ∧
         (∀ k, k < 16 → (t.prsm.meter k).accP = [0, 0, 0] ∧ (t.prsm.meter k).accQ = [0, 0, 0] ∧
           (t.prsm.meter k).reg = (s.prsm.meter k).reg) ∧
         t.prsm.cfg = s.prsm.adopting.getD s.prsm.cfg ∧ t.prsm.adopting = none ∧
         t.prsm.windowNext = ((s.prsm.fast.mhz).map windowFor).getD t.prsm.cfg.w0) ∧
       (s.prsm.tenTick + 160000 ≤ s.prsm.tick → Reaches (exec .frequencyIntervalEnd s) fun t =>
         t.prsm.classS = (if s.prsm.refLow then none else s.prsm.tenS.mhz) ∧ t.prsm.tenS = {} ∧ t.prsm.refLow = false ∧
           t.prsm.tenTick = s.prsm.tick ∧ t.prsm.meters = s.prsm.meters ∧
             t.prsm.mval = ({ s.prsm with classS := t.prsm.classS } : Prism).classWords) ∧
       ∀ m : Fin 16, s.prsm.meters.length = 16 →
         (s.prsm.settling m = false → Reaches (exec (.settleEnd m) s) fun t =>
           (t.prsm.meter m).settle = false ∧ ∀ k, k ≠ m.val → t.prsm.meter k = s.prsm.meter k) ∧
         ((s.prsm.cfg.m m).used = true → (s.prsm.meter m).block.target ≤ (s.prsm.meter m).block.length →
           Reaches (exec (.blockClose m) s) fun t =>
             (t.prsm.meter m).blockSeq = (s.prsm.meter m).blockSeq + 1 ∧ (t.prsm.meter m).reg = (s.prsm.meter m).reg ∧
               (t.prsm.meter m).block.base = (s.prsm.meter m).reg ∧ (t.prsm.meter m).block.length = 0 ∧
               t.prsm.ringCount = s.prsm.ringCount + 1 ∧ ∀ k, k ≠ m.val → t.prsm.meter k = s.prsm.meter k)) ∧
  (∀ s : State, s.flt.nest = false → s.prismUp = true →
       (s.prsm.intervalDone = false → Reaches (exec .aggregationEnd s) fun t => t.prsm = s.prsm) ∧
       (s.prsm.tick < s.prsm.tenTick + 160000 → Reaches (exec .frequencyIntervalEnd s) fun t => t.prsm = s.prsm) ∧
       ∀ m : Fin 16, (s.prsm.settling m = true → Reaches (exec (.settleEnd m) s) fun t => t.prsm.meter m = s.prsm.meter m) ∧
         ((s.prsm.meter m).block.length < (s.prsm.meter m).block.target →
           Reaches (exec (.blockClose m) s) fun t => t.prsm = s.prsm))

/-- Energy registration (R184, R186 to R188): each sample's active energy goes whole to import or export by the sign of P, its
reactive energy to the quadrant of the signs of P and Q, its apparent energy by the sign of P, added in full to a register and
its remainder of 32 fraction bits. -/
def Obligations.EnergyIsRouted : Prop :=
  ∀ (x : Meter) (three : Bool) (ps : List Int) (p q : Int) (sa : Nat), x.reg.length = 8 → x.rem.length = 8 →
    let e := fun (y : Meter) (i : Nat) => y.reg.getD i 0 * 2 ^ 32 + y.rem.getD i 0
    let y := x.register three ps p q sa
    e y 0 = e x 0 + (if 0 < p then p.toNat else 0) ∧ e y 1 = e x 1 + (if p < 0 then p.natAbs else 0) ∧
      e y 2 = e x 2 + (if 0 ≤ p ∧ 0 < q then q.natAbs else 0) ∧ e y 3 = e x 3 + (if p < 0 ∧ 0 < q then q.natAbs else 0) ∧
      e y 4 = e x 4 + (if p < 0 ∧ q < 0 then q.natAbs else 0) ∧ e y 5 = e x 5 + (if 0 ≤ p ∧ q < 0 then q.natAbs else 0) ∧
      e y 6 = e x 6 + (if 0 ≤ p then sa else 0) ∧ e y 7 = e x 7 + (if p < 0 then sa else 0)

/-- Saves (R202 to R206): a periodic save snapshots the registers into P0 or P1; a save whose CRC reads back correct is the newest
and held in its slot; early warning starts residual saves, and the return of the supply ends them. A start of the partition
(R207): the newest complete save's registers stand again, START_CNT advances, SAMPLE_CNT starts at 0, and a power-fail record is
published; the set in the Configuration area is in effect; the module's own state is left alone. Each of PERIODIC_SAVE,
PRISM_SAVE_COMPLETE, RESIDUAL_SAVE, PRISM_SUPPLY_RETURN and PRISM_START completes. -/
def Obligations.PrismSaves : Prop :=
  (∀ s : State, s.flt.nest = false → s.prismUp = true → s.prsm.saves.length = 4 →
       let p := s.prsm
       let snap : Save := { seq := p.saveSeq + 1, startCnt := p.startCnt, sample := p.sample, meters := p.meters }
       (p.early = false → p.savePend = none → Reaches (exec .periodicSave s) fun t =>
         t.prsm.savePend = some (p.nextP, snap) ∧ t.prsm.meters = p.meters) ∧
       (∀ slot v, p.early = false → p.savePend = some (slot, v) → slot < 4 → Reaches (exec .prismSaveComplete s) fun t =>
         t.prsm.savePend = none ∧ t.prsm.saveSeq = v.seq ∧ t.prsm.saves.getD slot none = some v ∧
           (slot < 2 → t.prsm.nextP = 1 - slot) ∧ ∀ k, k ≠ slot → t.prsm.saves.getD k none = p.saves.getD k none) ∧
       (p.early = false → Reaches (exec .residualSave s) fun t => t.prsm.early = true ∧ t.prsm.savePend = some (p.nextF, snap)) ∧
       Reaches (exec .prismSupplyReturn s) fun t => t.prsm = { p with early := false }) ∧
  (∀ (s : State) (metEn : Bool) (v : Save), s.flt.nest = false → s.isMr = true → s.prsm.powered = false → s.prsm.newestSave = some v →
       Reaches (exec (.prismStart metEn none) s) fun t =>
         t.prsm.startCnt = (s.prsm.startCnt + 1) % 65536 ∧ t.prsm.sample = 0 ∧ t.prsm.running = true ∧ t.prsm.powered = true ∧
           s.prsm.ringCount < t.prsm.ringCount ∧ t.prsm.cfg = s.prsm.adopting.getD s.prsm.cfg ∧ (∀ k, k < 16 → (t.prsm.meter k).reg = (v.meters.getD k {}).reg) ∧
           t.prsm.saves = s.prsm.saves ∧ t.sys.run = s.sys.run ∧ t.pnt = s.pnt ∧
           (s.sys.powered = true → t.sq 7 4 = true))

/-- The mirror and its ring (R210, R213 to R215, R222, R223): a refresh writes demand and SAMPLE_CNT and makes the mirror valid; its
loss takes VALID away and sets MIRROR_LOST; an alignment proposal is written to the buffer and a proposal read gets its RESULT;
the next ring record goes to Q26 with its trailer. Each of MIRROR_REFRESH, MIRROR_LOST, ALIGNMENT_PROPOSAL, PROPOSAL_READ
and RING_FORWARD completes. -/
def Obligations.MirrorAndRing : Prop :=
  ∀ s : State, s.up = true → s.isMr = true →
    (s.prismUp = true → Reaches (exec .mirrorRefresh s) fun t => t.prsm.mirrorOk = true ∧ t.prsm.seen = true ∧
      t.prsm.ageSince = s.crsl.upNs ∧ t.reg 0x3808 = BitVec.ofInt 32 s.prsm.demandW ∧
        t.reg 0x3814 = BitVec.ofNat 32 s.prsm.sample ∧ t.flag 0x380C 31 = s.prsm.demandOk) ∧
    Reaches (exec .mirrorLost s) (fun t => t.prsm.mirrorOk = false ∧ t.sq 7 5 = true ∧ t.flag 0x380C 31 = false) ∧
    (∀ n, s.trusted = true → s.crsl.sync = .locked ∨ s.crsl.sync = .holdover → s.prsm.propResult ≠ 0 →
      Reaches (exec (.alignmentProposal n) s) fun t => t.prsm.proposal = some (.inr n) ∧ t.prsm.propKind = 1 ∧
        t.prsm.propSeq = (s.prsm.propSeq + 1) % 256 ∧ t.prsm.propResult = 0) ∧
    (s.prismUp = true → s.prsm.proposal.isSome = true → Reaches (exec .proposalRead s) fun t => t.prsm.proposal = none ∧
      (t.prsm.propResult, t.prsm.propReason) = s.prsm.judgeProposal ∧ t.sq 7 2 = true ∧
        (s.prsm.judgeProposal.1 ≠ 1 → t.prsm.adopting = s.prsm.adopting ∧ t.prsm.meters = s.prsm.meters)) ∧
    (s.prsm.seenLog = true → s.sys.run ≠ .starting → s.prsm.ringRead < s.prsm.ringCount → s.prsm.ringCount ≤ s.prsm.ringRead + 4096 →
      (sget [] s.prsm.ring (s.prsm.ringRead % 4096)).length = 13 → s.qRoom 26 14 = true → s.hostp.queues.length = 32 →
      Reaches (exec .ringForward s) fun t => t.prsm.ringRead = s.prsm.ringRead + 1 ∧
        t.q 26 = (s.q 26).push (sget [] s.prsm.ring (s.prsm.ringRead % 4096) ++ [s.phaseStamp.setWidth 64]))

/-- The 0600h group (R197, R215, R391): PRISM_PROPOSE, from booth 0, writes the set to the proposal buffer and waits for its RESULT;
PRISM_READ returns the 16 register words, status and block sequence of a meter. Each of PRISM_PROPOSE and PRISM_READ completes. -/
def Obligations.PrismCommands : Prop :=
  ∀ (s : State) (h : Hdr), s.isMr = true → s.landlord h = true →
    (∀ set : List Byte, set.length = 816 → s.boothOf h = 0 → s.prsm.propResult ≠ 0 → s.trap.role.refuses = false → s.admits h 4 → Reaches (exec (.prismPropose h set) s) fun t =>
      s.inFlightFor t h 0x0601 4 .prism ∧ t.prsm.proposal = some (.inl set) ∧ t.prsm.propKind = 0 ∧
        t.prsm.propSeq = (s.prsm.propSeq + 1) % 256 ∧ t.prsm.cfg = s.prsm.cfg) ∧
    ∀ m, m < 16 → s.admits h 72 → Reaches (exec (.prismRead h m) s) fun t =>
      s.answered t h 0x0602 0 (bytesOf32 (((List.range 16).map fun j => s.reg (0x3900 + 0x40 * m + 4 * j)) ++
        [s.reg (0x3840 + 4 * m), sget 0 s.prsm.mval (mvalKey m 0 1 6)])) ∧ t.prsm = s.prsm

/-! ### Field I/O (chapter 09) -/

/-- Tightrope frames and links (R257, R265 to R271): a frame sent advances its sequence and slot; one received with a correct CRC is
latched with its timestamp, one with a wrong CRC is discarded and counted; a lost link is reported, 64 good frames bring it
back, a link that stays lost is trained again; the far side's watchdog drives the safe values after 8 frames that did not reach it, not before. Each of
TIGHTROPE_FRAME_SEND, TIGHTROPE_FRAME_RECEIVE, LINK_LOST, LINK_BACK, LINK_RETRAIN and WDOG_SAFE completes. -/
def Obligations.TightropeLinks : Prop :=
  ∀ (s : State) (g : Fin 4), s.engineUp 1 = true → s.grpOn g = true → s.fioGrp.length = 4 → s.fioCh.length = 32 →
    let x := s.fgrp g
    (∀ cool, s.badOutputs g = [] → sget none s.posted (100 + g.val) = none →
      Reaches (exec (.tightropeFrameSend g cool false) s) (fun t => (t.fgrp g).outSeq = (x.outSeq + 1) % 4 ∧
        (t.fgrp g).slot = (x.slot + 1) % 8 ∧ (t.fgrp g).outBad = x.outBad + 1 ∧ t.fioCh = s.fioCh ∧ t.total 0x42CC = s.total 0x42CC + 1) ∧
      Reaches (exec (.tightropeFrameSend g cool true) s) fun t => t.total 0x42CC = s.total 0x42CC + 1 ∧ (t.fgrp g).outBad = 0 ∧
        ∀ c, c < 8 → c ≠ x.slot % 8 → x.safeCmd = false → (s.fch (8 * g + c)).farMode = 3 →
          (s.fch (8 * g + c)).overload = false → (s.fch (8 * g + c)).overtemp = false →
          (t.fch (8 * g + c)).driven = x.out.getLsbD c) ∧
    (∀ start vsup temp, Reaches (exec (.tightropeFrameReceive g none start vsup temp) s) fun t =>
      (t.fgrp g).badRun = x.badRun + 1 ∧ (t.fgrp g).goodRun = 0 ∧ (t.fgrp g).latest = x.latest ∧ t.fioCh = s.fioCh) ∧
    (∀ noise start vsup temp, ropeGood g 1 (s.farFrame g ^^^ noise) = false →
      Reaches (exec (.tightropeFrameReceive g (some noise) start vsup temp) s) fun t =>
        (t.fgrp g).badRun = x.badRun + 1 ∧ (t.fgrp g).goodRun = 0 ∧ (t.fgrp g).latest = x.latest ∧ t.fioCh = s.fioCh ∧
          t.total 0x42C4 = s.total 0x42C4 + 1) ∧
    (∀ noise start vsup temp, ropeGood g 1 (s.farFrame g ^^^ noise) = true →
      Reaches (exec (.tightropeFrameReceive g (some noise) start vsup temp) s) fun t =>
        (t.fgrp g).badRun = 0 ∧ (t.fgrp g).goodRun = x.goodRun + 1 ∧
          (t.fgrp g).latest = some (s.farFrame g ^^^ noise, s.stampAt (start / 1000)) ∧ (t.fgrp g).vsup = vsup.toNat ∧
          (t.fgrp g).farSeq = (x.farSeq + 1) % 4 ∧ (t.fgrp g).farSlot = (x.farSlot + 1) % 8 ∧
          t.total 0x42C0 = s.total 0x42C0 + 1) ∧
    (x.link = 1 → 4 ≤ x.badRun → Reaches (exec (.linkLost g) s) fun t => (t.fgrp g).link = 2 ∧ (t.fgrp g).lostNs = s.crsl.upNs ∧
      t.sq 8 6 = true ∧ t.total 0x42D0 = s.total 0x42D0 + 1) ∧
    (x.link = 2 → 64 ≤ x.goodRun → Reaches (exec (.linkBack g) s) fun t => (t.fgrp g).link = 1 ∧ t.sq 8 10 = true) ∧
    (x.link = 0 → 64 ≤ x.goodRun → Reaches (exec (.linkBack g) s) fun t => (t.fgrp g).link = 1 ∧
      t.total 0x42D4 = s.total 0x42D4 + 1) ∧
    (x.link = 2 → Reaches (exec (.linkRetrain g) s) fun t => (t.fgrp g).goodRun = 0 ∧ (t.fgrp g).inSeq = none ∧
      (t.fgrp g).training = true ∧ (t.fgrp g).link = 2) ∧
    (x.outBad < 8 → Reaches (exec (.wdogSafe g) s) fun t => t.fioGrp = s.fioGrp ∧ t.fioCh = s.fioCh) ∧
    (8 ≤ x.outBad → Reaches (exec (.wdogSafe g) s) fun t => (t.fgrp g).farSafe = true ∧
      ∀ c, c < 8 → (s.fch (8 * g + c)).farMode = 3 → bits (s.fch (8 * g + c)).farCfg 13 12 = 0 →
        (t.fch (8 * g + c)).driven = false)

/-- Channels of the far side (R249, R253, R254, R256, R258, R260): the debounced level with its count, wire break and its end,
overload and overtemperature that switch an output off, open wire that lets it drive, a low field supply and its return, and at
the end of a gate the rate, its edges × 65,536 over the gate in s (a rate beyond 31 bits is a free value). A setting of a field channel (R252, R271): it is posted to its group with the bits its ranges accept,
the register unchanged; while BUSY it is dropped with its own flag and count; PULSED with MODE 2h
is refused. Each of DEBOUNCE_CHANGE, WIRE_BREAK, WIRE_BREAK_END, OVERLOAD, OVERTEMP, OPEN_WIRE, OPEN_WIRE_CLEAR, RATE_GATE_END,
SUPPLY_LOW, FIELD_SUPPLY_RETURN and FIO_CHANNEL_WRITE completes. -/
def Obligations.FieldChannels : Prop :=
  (∀ (s : State) (k : Fin 32), s.engineUp 1 = true → s.grpOn (k.val / 8) = true → s.fioGrp.length = 4 → s.fioCh.length = 32 →
       let c := s.fch k
       (∀ b, c.farMode = 1 ∨ c.farMode = 2 → c.level ≠ b → Reaches (exec (.debounceChange k b) s) fun t => (t.fch k).level = b ∧
         (c.farMode = 1 → (t.fch k).farCount = c.farCount) ∧
         (c.farMode = 2 → bits c.farCfg 7 6 = 0 → (t.fch k).farCount = c.farCount + (if b then 1 else 0)) ∧
         (c.farMode = 2 → bits c.farCfg 7 6 = 1 → (t.fch k).farCount = c.farCount + (if b then 0 else 1)) ∧
         (c.farMode = 2 → bits c.farCfg 7 6 = 2 → (t.fch k).farCount = c.farCount + 1)) ∧
       (c.farMode = 1 ∨ c.farMode = 2 → bitAt c.farCfg 8 = true → (s.fgrp (k.val / 8)).supplyLow = false →
         Reaches (exec (.wireBreak k) s) fun t => t.fch k = { c with wireBreak := true }) ∧
       Reaches (exec (.wireBreakEnd k) s) (fun t => t.fch k = { c with wireBreak := false }) ∧
       (c.farMode = 3 → c.driven = true →
         Reaches (exec (.overload k) s) (fun t => t.fch k = { c with overload := true, latched := true, driven := false }) ∧
         Reaches (exec (.overtemp k) s) (fun t => t.fch k = { c with overtemp := true, latched := true, driven := false }) ∧
         ((s.fgrp (k.val / 8)).supplyLow = false → Reaches (exec (.openWire k) s) fun t => t.fch k = { c with openWire := true }) ∧
         Reaches (exec (.openWireClear k) s) fun t => t.fch k = { c with openWire := false }) ∧
       (s.fioMode k = 2 → s.flag (0x4040 + 4 * k.val) 5 = false → Reaches (exec (.rateGateEnd k) s) fun t =>
         (t.fch k).gateBase = c.count ∧ (t.fch k).count = c.count ∧
           (t.fch k).rate = s.draw.rateWord k (roundOpen ((c.count - c.gateBase).toNat * 65536000000000) (maxI 1 (s.gateNs k)))) ∧
       ∀ (g : Fin 4) (v : Nat), s.grpOn g = true →
         Reaches (exec (.supplyLow g v) s) (fun t => (t.fgrp g).supplyLow = true ∧ (t.fgrp g).vsup = v % 512 ∧ t.sq 8 0 = true) ∧
         Reaches (exec (.fieldSupplyReturn g v) s) fun t => (t.fgrp g).supplyLow = false ∧ (t.fgrp g).vsup = v % 512) ∧
  (∀ (s : State) (p : Path) (k : Fin 32) (time : Bool) (v : W32), s.up = true → s.cfgFrozen = false → s.locked 8 = false →
       s.sys.parityHold = 0 →
       let off := (if time then 0x40C0 else 0x4040) + 4 * k.val
       let held := (judge false (fieldsOf off) v).held
       let w := mergeBits (s.reg off) held v
       held ≠ 0 →
       (s.busyDom (100 + k.val / 8) = false → ¬ (time = false ∧ bitAt w 10 = true ∧ bits w 15 14 = 2) →
         Reaches (exec (.fioChannelWrite p k time v) s) fun t => t.regs = s.regs ∧
           sget none t.posted (100 + k.val / 8) = some { off, val := w }) ∧
       (s.busyDom (100 + k.val / 8) = false → time = false ∧ bitAt w 10 = true ∧ bits w 15 14 = 2 →
         Reaches (exec (.fioChannelWrite p k time v) s) fun t => t.regs = s.regs ∧ t.posted = s.posted ∧ t.sq 8 9 = true) ∧
       (s.busyDom (100 + k.val / 8) = true → Reaches (exec (.fioChannelWrite p k time v) s) fun t =>
         t.regs = s.regs ∧ t.posted = s.posted ∧ t.sq 8 8 = true ∧ t.total 0x42F4 = s.total 0x42F4 + 1))

/-- The 0700h group (R254, R260, R288, R293, R392): FIO_RETRY clears an output's latches, FAN_RETRY takes a stalled channel out of
STALL, FAN_LEARN starts a learning window, IO_STATUS returns a channel's status register and the VALUE of its
point, read under the check of R79. Each of
FIO_RETRY, FAN_RETRY, FAN_LEARN and IO_STATUS completes. -/
def Obligations.IoCommands : Prop :=
  ∀ (s : State) (h : Hdr), s.fioCh.length = 32 → s.fan.length = 8 →
    (∀ k cool, k < 32 → s.admits h 0 → s.boothIs h (s.point (s.fioPoint k)).owner.toNat = true →
      Reaches (exec (.fioRetry h k cool) s) fun t => s.answered t h 0x0701 0 [] ∧ (t.fch k).overload = false ∧
        (cool = true → (t.fch k).overtemp = false ∧ (t.fch k).latched = false)) ∧
    (∀ k, k < 8 → s.admits h 0 → s.boothIs h (s.point (s.fanPoint k)).owner.toNat = true → (s.fch8 k).state = .stall →
      Reaches (exec (.fanRetry h k) s) fun t => s.answered t h 0x0702 0 [] ∧ (t.fch8 k).state ≠ .stall ∧
        ((s.fch8 k).committed = 0 → (t.fch8 k).state = .stopped ∧ (t.fch8 k).duty = 0)) ∧
    (∀ k days, k < 8 → 1 ≤ days → days ≤ 7 → s.admits h 0 → s.landlord h = true → s.flag (0x5050 + 4 * k) 2 = true →
      Reaches (exec (.fanLearn h k days) s) fun t => s.answered t h 0x0703 0 [] ∧ (t.fch8 k).learning = true ∧
        (t.fch8 k).learnUntil = s.crsl.upNs + days * 86400000000000 ∧ (t.fch8 k).base = (s.fch8 k).base) ∧
    ∀ kind ch e, s.draw.ioChannel kind ch = some e → s.admits h 8 → s.boothIs h (s.point e.2).owner.toNat = true →
      s.check (s.boothOf h) .read e.2 false false = .allow → s.sound e.2 →
      Reaches (exec (.ioStatus h kind ch) s) fun t =>
        s.answered t h 0x0704 0 (leBytes 4 e.1.toNat ++ leBytes 4 (s.readRec e.2).value.toNat) ∧ t.pnt = s.pnt

/-! ### Analogue I/O and fans (chapter 10) -/

/-- Conversion frames and analogue events (R275, R276, R279, R282): a good frame ends the run of bad ones and is stamped, a bad one
is discarded and counted, eight in a row set FRAME_ERR; a bad condition of a channel is marked, reported and counted; an AO overload is reported
and ends. Each of CONVERSION_FRAME, FRAME_ERR, UI_BAD_CONDITION, AO_OVERLOAD and AO_OVERLOAD_CLEAR completes. -/
def Obligations.AnalogueEvents : Prop :=
  ∀ s : State, s.engineUp 0 = true → s.ui.length = 16 → s.ao.length = 8 →
    (∀ raw stamp, raw.length = 32 → Reaches (exec (.conversionFrame raw (frameCheck 0 raw) stamp) s) fun t =>
      t.uiBad = 0 ∧ t.uiStamp = stamp ∧ t.total 0x4A00 = s.total 0x4A00 + 1 ∧ t.pnt.points = s.pnt.points) ∧
    (∀ raw crc stamp, crc ≠ frameCheck 0 raw → Reaches (exec (.conversionFrame raw crc stamp) s) fun t =>
      t.uiBad = s.uiBad + 1 ∧ t.ui = s.ui ∧ t.fan = s.fan ∧ t.total 0x4A1C = s.total 0x4A1C + 1) ∧
    (8 ≤ s.uiBad → Reaches (exec .frameErr s) fun t => t.sq 9 4 = true ∧ t.ui = s.ui) ∧
    (∀ k : Fin 16, s.flag 0x4800 k = true → (s.uch k).cond = 1 → (s.uch k).brk = false →
      Reaches (exec (.uiBadCondition k .wireBreak) s) fun t => (t.uch k).brk = true ∧ (t.uch k).sensor = false ∧
        t.sq 9 0 = true ∧ t.total 0x4A04 = s.total 0x4A04 + 1) ∧
    (∀ k : Fin 16, s.flag 0x4800 k = true → (s.uch k).cond = 2 → (s.uch k).sensor = false →
      Reaches (exec (.uiBadCondition k .sensor) s) fun t => (t.uch k).sensor = true ∧ (t.uch k).brk = false ∧
        t.sq 9 1 = true ∧ t.total 0x4A08 = s.total 0x4A08 + 1) ∧
    ∀ j : Fin 8,
      (s.flag 0x4800 (16 + j.val) = true → (s.ao.getD j {}).overload = false → Reaches (exec (.aoOverload j) s) fun t =>
        (t.ao.getD j {}).overload = true ∧ t.sq 9 2 = true ∧ t.total 0x4A10 = s.total 0x4A10 + 1) ∧
      ((s.ao.getD j {}).overload = true → Reaches (exec (.aoOverloadClear j) s) fun t => (t.ao.getD j {}).overload = false)

/-- The states of a fan channel (R285, R288, R289): a kick ends in RUN, or in WAIT, or after the fifth in STALL, reported; WAIT ends
in the next kick; a silent tach kicks again, or with current flowing goes OPEN, reported, and back; the speed loop of a channel
at rest keeps its duty at 0. PWM periods, ageing and host silence (R290, R293 to R295): a request for the safe value acts at the
end of the period with the duty SAFE gives; a learning window gathers its steady periods and closes into the baseline, not before
its days have passed; a ratio too old is stale; host silence is reported, and moves no channel but in the 1024-compatible mode.
Each of KICK_END, WAIT_END, TACH_TIMEOUT, TACH_RECOVERY, SPEED_CONTROL_UPDATE, PWM_PERIOD_END, STEADY_PERIOD,
LEARNING_WINDOW_CLOSE, AGEING_STALE and HOST_SILENT completes. -/
def Obligations.Fans : Prop :=
  (∀ (s : State) (c : Fin 8), s.engineUp 0 = true → s.fan.length = 8 → s.fanOn c = true →
       let f := s.fch8 c
       (f.state = .kick → s.fanRunning c = true → Reaches (exec (.kickEnd c) s) fun t => (t.fch8 c).state = .run ∧
         (t.fch8 c).kicks = 0 ∧ t.total 0x5184 = s.total 0x5184 + 1) ∧
       (f.state = .kick → s.fanRunning c = false → f.kicks < 4 → Reaches (exec (.kickEnd c) s) fun t =>
         t.fch8 c = { f with state := .wait, duty := if f.safe then f.duty else 0 }) ∧
       (f.state = .kick → s.fanRunning c = false → 4 ≤ f.kicks → Reaches (exec (.kickEnd c) s) fun t =>
         t.fch8 c = { f with state := .stall, kicks := 0, duty := if f.safe then f.duty else 0 } ∧ t.sq 10 0 = true ∧
           t.total 0x5188 = s.total 0x5188 + 1) ∧
       (f.state = .wait → Reaches (exec (.waitEnd c) s) fun t =>
         t.fch8 c = { f with state := .kick, kicks := f.kicks + 1, duty := 10000 } ∧ t.total 0x5180 = s.total 0x5180 + 1) ∧
       (f.state = .run → s.flag (0x5050 + 4 * c.val) 2 = false →
         (f.safe = false ∨ f.full = true → Reaches (exec (.tachTimeout c) s) fun t =>
           t.fch8 c = { f with state := .kick, kicks := 1, duty := 10000 }) ∧
         (f.safe = true → f.full = false → Reaches (exec (.tachTimeout c) s) fun t => t.fch8 c = { f with state := .stopped })) ∧
       (f.state = .run → s.flag (0x5050 + 4 * c.val) 2 = true → s.fld (0x5070 + 4 * c.val) 7 0 * 10 ≤ f.current →
         Reaches (exec (.tachTimeout c) s) fun t => t.fch8 c = { f with state := .openLoop } ∧ t.sq 10 1 = true ∧
           t.total 0x518C = s.total 0x518C + 1) ∧
       (f.state = .openLoop → Reaches (exec (.tachRecovery c) s) fun t =>
         t.fch8 c = { f with state := .run, duty := if s.speedMode c ∨ f.safe then f.duty else s.dutyOf c } ∧
         t.total 0x5190 = s.total 0x5190 + 1) ∧
       (f.state = .run → f.safe = false → s.speedMode c = true → f.committed = 0 → Reaches (exec (.speedControlUpdate c) s) fun t =>
         t.fch8 c = { f with duty := 0, target := 0, oper := 0 }) ∧
       (f.state = .run → f.safe = false → s.speedMode c = true → f.committed ≠ 0 → Reaches (exec (.speedControlUpdate c) s) fun t =>
         (t.fch8 c).duty ≤ 10000 ∧ (t.fch8 c).state = .run ∧ (t.fch8 c).committed = f.committed ∧
           (s.fld (0x5050 + 4 * c.val) 15 4 = 0 → (t.fch8 c).target = f.committed))) ∧
  (∀ (s : State) (c : Fin 8), s.fan.length = 8 →
       let f := s.fch8 c
       (s.engineUp 0 = true → s.fanOn c = true → s.shadow = [] → f.safeReq = true →
         Reaches (exec (.pwmPeriodEnd c) s) fun t => (t.fch8 c).safe = true ∧ (t.fch8 c).duty = s.safeDuty c ∧
           (t.fch8 c).committed = f.committed) ∧
       (s.engineUp 0 = true → s.fanOn c = true → f.state = .run → s.flag (0x5050 + 4 * c.val) 2 = true → f.learning = true →
         ∀ speed current, Reaches (exec (.steadyPeriod c speed current) s) fun t =>
           (t.fch8 c).bins = lmod f.bins (s.binOf c speed) (fun b =>
             { n := b.n + 1, speed := b.speed + speed, current := b.current + current }) ∧ (t.fch8 c).base = f.base) ∧
       (s.engineUp 0 = true → f.learning = true → f.learnUntil < s.crsl.upNs + s.periodNs →
         Reaches (exec (.learningWindowClose c) s) fun t =>
           (t.fch8 c).learning = false ∧ (t.fch8 c).base = f.bins ∧ (t.fch8 c).ageing = false) ∧
       (s.crsl.upNs + s.periodNs ≤ f.learnUntil → s.up = true → Reaches (exec (.learningWindowClose c) s) fun t => t.fan = s.fan) ∧
       (s.engineUp 0 = true → s.fanOn c = true → f.ratioSeen = true → (s.point (s.fld (0x5010 + 4 * c.val) 18 6 + 2)).src = 4 →
         Reaches (exec (.ageingStale c) s) fun t => (t.fch8 c).ratioStale = true ∧ (t.fch8 c).ratio = f.ratio) ∧
       (s.up = true → s.fld 0x5008 7 0 ≠ 0 → s.fanSilent = false → Reaches (exec .hostSilent s) fun t => t.fanSilent = true ∧
         t.sq 10 3 = true ∧ t.total 0x5198 = s.total 0x5198 + 1 ∧ (s.sys.compat = false → t.fan = s.fan)))

/-! ### Room buses (chapter 11) -/

/-- Frames on a bus (R298, R305, R306, R311, R314, R315): a reception that matches an entry waits for Intake, or is lost when the store is
full; one that matches none goes to its bus's receive queue, or is lost when that has no room; an FD frame on a bus with FD_EN 0 is
no reception and steps the receive error counter; the module's own frames are no receptions; the offer, of frames none of which is too old, is one no other would beat; a frame sent leaves its queue, one hit by errors is sent
again within RETRY and then reported failed, one that lost arbitration waits again, one older than LIFE expires; a SYNC not sent
in time expires. The 0900h group (R303, R307, R394): CAN_SEND gives the frame's tag and puts it behind the others of its queue;
CAN_CANCEL removes the waiting frames of a tag and says whether there was one. Each of CAN_RECEPTION, CAN_ARBITRATION_OFFER, CAN_TX_COMPLETE,
TX_FAIL, ARBITRATION_LOSS, EXPIRED, TREF_FAIL, CAN_SEND and CAN_CANCEL completes. -/
def Obligations.CanFrames : Prop :=
  (∀ (s : State) (b : Fin 4), s.engineUp 2 = true → s.can.bus.length = 4 → s.busUp b = true →
       let u := s.cbus b
       (∀ f stamp c, f.remote = false → (f.fdf = true → s.flag (0x5848 + 0x40 * b.val) 9 = true) →
         (s.ownFrame b f = false → s.matchEntry b f ≠ none → u.store.length < 64 → Reaches (exec (.canReception b f stamp c) s) fun t =>
           (t.cbus b).store = u.store ++ [{ frame := f, stamp }] ∧ t.pnt = s.pnt ∧
             t.total (0x5A00 + 0x20 * b.val) = s.total (0x5A00 + 0x20 * b.val) + 1) ∧
         (s.ownFrame b f = false → s.matchEntry b f ≠ none → 64 ≤ u.store.length → Reaches (exec (.canReception b f stamp c) s) fun t =>
           (t.cbus b).store = u.store ∧ t.pnt = s.pnt ∧ t.sq 11 4 = true) ∧
         (s.ownFrame b f = false → s.matchEntry b f = none → s.flag 0x5800 (4 + b.val) = true → s.hostp.queues.length = 32 →
           let ws := framePacket f ((s.segmentBooth b (nodeOf f)).getD 255) (stamp.setWidth 64)
           (s.qRoom (20 + b) ws.length = true → Reaches (exec (.canReception b f stamp c) s) fun t =>
             t.q (20 + b) = (s.q (20 + b)).push ws ∧ (t.cbus b).store = u.store ∧ t.pnt = s.pnt ∧
               t.total (0x5A00 + 0x20 * b.val) = s.total (0x5A00 + 0x20 * b.val) + 1) ∧
           (s.qRoom (20 + b) ws.length = false → Reaches (exec (.canReception b f stamp c) s) fun t =>
             t.hostp.queues = s.hostp.queues ∧ (t.cbus b).store = u.store ∧ t.pnt = s.pnt ∧ t.sq 11 4 = true)) ∧
         (s.ownFrame b f = true → Reaches (exec (.canReception b f stamp c) s) fun t => t.can = s.can ∧ t.pnt = s.pnt)) ∧
       (∀ f stamp c, f.remote = false → f.fdf = true → s.flag (0x5848 + 0x40 * b.val) 9 = false → s.ownFrame b f = false →
         s.listenOnly b = false → u.tecCnt ≤ 255 → Reaches (exec (.canReception b f stamp c) s) fun t =>
           (t.cbus b).recCnt = Nat.min 255 (u.recCnt + 1) ∧ (t.cbus b).tecCnt = u.tecCnt ∧ (t.cbus b).store = u.store ∧
             t.pnt = s.pnt) ∧
       (u.active = none → s.listenOnly b = false → s.mayOffer b ≠ [] → (∀ x ∈ u.queue, s.tooOld b x = false) →
         (∀ (e : Fin 4) (x : CanTx), u.expressWaits e = some x → s.tooOld b x = false) → Reaches (exec (.canArbitrationOffer b) s) fun t =>
         ∃ c f, (c, f) ∈ s.mayOffer b ∧ (t.cbus b).active = some c ∧ (t.cbus b).sent = some f ∧
           ∀ e ∈ s.mayOffer b, arbKey f ≤ arbKey e.2) ∧
       (∀ x rest, u.active = some .queueHead → u.queue = x :: rest →
         (∀ stamp, Reaches (exec (.canTxComplete b stamp) s) fun t => (t.cbus b).active = none ∧ (t.cbus b).queue = rest ∧
           t.total (0x5A04 + 0x20 * b.val) = s.total (0x5A04 + 0x20 * b.val) + 1) ∧
         (x.cancelled = false → x.errors < s.retry b → Reaches (exec (.txFail b) s) fun t =>
           (t.cbus b).active = none ∧ (t.cbus b).queue = { x with errors := x.errors + 1 } :: rest) ∧
         (x.cancelled = false → s.retry b ≤ x.errors → Reaches (exec (.txFail b) s) fun t =>
           (t.cbus b).active = none ∧ (t.cbus b).queue = rest ∧ t.sq 11 3 = true) ∧
         (x.cancelled = false → s.tooOld b x = false → Reaches (exec (.arbitrationLoss b) s) fun t =>
           (t.cbus b).active = none ∧ (t.cbus b).queue = x :: rest ∧
             t.total (0x5A0C + 0x20 * b.val) = s.total (0x5A0C + 0x20 * b.val) + 1)) ∧
       (∀ x rest, u.active = none → u.queue = x :: rest → s.tooOld b x = true → Reaches (exec (.expired b .queueHead) s) fun t =>
         (t.cbus b).queue = rest ∧ t.sq 11 2 = true ∧
           t.total (0x5A14 + 0x20 * b.val) = s.total (0x5A14 + 0x20 * b.val) + 1) ∧
       (u.tref.kind = 1 → u.active ≠ some .timeRef → Reaches (exec (.trefFail b) s) fun t =>
         (t.cbus b).tref = { u.tref with kind := 0, after := none } ∧ t.sq 11 0 = true)) ∧
  (∀ (s : State) (h : Hdr) (b : Nat), s.can.bus.length = 4 → b < 4 → s.landlord h = true → s.trap.role.refuses = false →
       (∀ f x, x = ({ tag := s.can.nextTag, entry := none, owner := h.booth, frame := sendFrame f, entered := s.rev } : CanTx) →
         s.admits h 2 → s.qRoom (16 + b) x.packet.length = true → Reaches (exec (.canSend h b f) s) fun t =>
           s.answered t h 0x0901 0 (leBytes 2 s.can.nextTag) ∧ (t.cbus b).queue = (s.cbus b).queue ++ [x] ∧
             t.can.nextTag = (s.can.nextTag + 1) % 65536) ∧
       ∀ tag, s.admits h 1 → (s.cbus b).active = none → (∀ e ∈ (s.cbus b).express, e.pend = none ∧ e.active = none) →
         Reaches (exec (.canCancel h b false tag) s) fun t =>
           s.answered t h 0x0902 0 [if (s.cbus b).queue.any (fun x => x.tag == tag) then 0 else 2] ∧
             (t.cbus b).queue = (s.cbus b).queue.filter fun x => !(x.tag == tag))

/-- States of a bus (R298, R308, R309): bus-off takes the frame out of transmission and is reported, recovery is error-active with
the counters at 0; a stuck bus has its driver off and is reported, its end gives the state of its counters, or
bus-off again where it was; an error frame steps the counters, makes a bus with one at 128 error-passive, and beyond 255 sent ones
drives it to bus-off. Each of BUS_OFF,
BUS_OFF_RECOVERY, BUS_STUCK, BUS_STUCK_RECOVERY and ERROR_FRAME completes. -/
def Obligations.CanStates : Prop :=
  ∀ (s : State) (b : Fin 4), s.engineUp 2 = true → s.can.bus.length = 4 →
    let u := s.cbus b
    (s.busUp b = true → Reaches (exec (.busOff b) s) fun t => (t.cbus b).state = .busOff ∧ (t.cbus b).active = none ∧
      t.sq 11 6 = true ∧ t.total (0x5A1C + 0x20 * b.val) = s.total (0x5A1C + 0x20 * b.val) + 1) ∧
    (u.state = .busOff → Reaches (exec (.busOffRecovery b) s) fun t => (t.cbus b).state = .active ∧ (t.cbus b).recov = 128 ∧
      (t.cbus b).tecCnt = 0 ∧ (t.cbus b).recCnt = 0) ∧
    (s.flag 0x5800 (8 + b.val) = true → u.state ≠ .stuck → Reaches (exec (.busStuck b) s) fun t =>
      (t.cbus b).state = .stuck ∧ (t.cbus b).txOff = true ∧ t.sq 11 7 = true) ∧
    (u.state = .stuck → Reaches (exec (.busStuckRecovery b) s) fun t => (t.cbus b).txOff = false ∧
      (t.cbus b).state = if u.wasOff then .busOff else if 128 ≤ u.tecCnt ∨ 128 ≤ u.recCnt then .passive else .active) ∧
    ∀ tec rec lec, s.busUp b = true → Reaches (exec (.errorFrame b tec rec lec) s) fun t =>
      let tx := u.tecCnt + 8 * tec
      let rx := Nat.min 255 (u.recCnt + rec % 2 + 8 * (rec / 2))
      (t.cbus b).tecCnt = Nat.min 255 tx ∧ (t.cbus b).recCnt = rx ∧ (t.cbus b).lec = lec.val ∧
        (t.cbus b).state = (if 255 < tx then .busOff else if 128 ≤ tx ∨ 128 ≤ rx then .passive else .active) ∧
        (u.state = .active → 128 ≤ tx ∨ 128 ≤ rx → t.sq 11 5 = true) ∧ (255 < tx → t.sq 11 6 = true) ∧
        t.total (0x5A08 + 0x20 * b.val) = s.total (0x5A08 + 0x20 * b.val) + 1

/-! ### Ethernet (chapter 12) -/

/-- Frames received (R321, R324, R347): frames that are too short, too long or fail their FCS are counted and dropped, and on NET-P those
that are not the pair's; a good frame for another station, with room in the receive buffer, is counted with its bytes, its source
learnt, and goes on where the switch forwards it and the other port may start a frame. Flow control and links of a port (R320 to R322, R326 to
R331): PAUSE stops sending for its time, after the frame in progress, and its end lets go what waited; a pause past a boundary is reported; a
link change flushes the table of a ring port; an address ages out; an idle port enters low-power idle; LLDP is sent, and received with
its wake time. Each of ETH_FRAME_RECEIVE, PAUSE,
PAUSE_EXPIRY, PAUSE_LONG, LINK_CHG, NEG_FAIL, ADDRESS_AGEING, LPI_ENTRY, END_OF_FRAME_IN_PROGRESS, LLDP_SEND and LLDPDU_RECEIVE
completes. -/
def Obligations.EthernetPorts : Prop :=
  (∀ (s : State) (p : Fin 3) (f : EthFrame), s.engineUp 3 = true → s.noCommands = true → s.portUp p = true →
       let cnt := fun (t : State) (k : Nat) => t.total (portCounter p k)
       let n := ethLen f
       (n < 64 → Reaches (exec (.ethFrameReceive p f) s) fun t => cnt t 4 = cnt s 4 + 1 ∧ t.net = s.net ∧
         t.hostp.queues = s.hostp.queues) ∧
       (64 ≤ n → (if ethTagged f then 1522 else 1518) < n → Reaches (exec (.ethFrameReceive p f) s) fun t =>
         cnt t 5 = cnt s 5 + 1 ∧ t.net = s.net ∧ t.hostp.queues = s.hostp.queues) ∧
       (64 ≤ n → n ≤ 1518 → f.fcsOk = false → Reaches (exec (.ethFrameReceive p f) s) fun t =>
         cnt t 3 = cnt s 3 + 1 ∧ t.net = s.net ∧ t.hostp.queues = s.hostp.queues) ∧
       (64 ≤ n → n ≤ 1518 → f.fcsOk = true → p.val = 2 → ethTrapeze f = false → s.macControl p f = false →
         Reaches (exec (.ethFrameReceive p f) s) fun t =>
           cnt t 7 = cnt s 7 + 1 ∧ t.net = s.net ∧ t.hostp.queues = s.hostp.queues) ∧
       (64 ≤ n → n ≤ 1518 → f.fcsOk = true → p.val < 2 → s.ringOn = true → s.macControl p f = false → ethGroup f = false →
         ethBroadcast f = false → ethDest f ≠ s.ownMac p → ethDest f ≠ s.hostMac → s.flag (0x6010 + 4 * p.val) 27 = false →
         s.net.table.length < 1024 → s.net.ports.length = 3 → f.fill ≤ 100 → f.ends = none →
         Reaches (exec (.ethFrameReceive p f) s) fun t =>
           cnt t 0 = cnt s 0 + 1 ∧ cnt t 2 = cnt s 2 + n ∧ (ethSource f, p.val) ∈ t.net.table ∧ t.pnt = s.pnt ∧
             (s.forwards p f = true → s.portUp (1 - p.val) = true → (s.port (1 - p.val)).held = false →
               (t.port (1 - p.val)).sent = [s.draw.transparent f.data] ∧ t.total 0x6160 = s.total 0x6160 + 1) ∧
             (s.forwards p f = false → (t.port (1 - p.val)).sent = (s.port (1 - p.val)).sent))) ∧
  (∀ (s : State) (p : Fin 3), s.engineUp 3 = true → s.net.ports.length = 3 →
       let x := s.port p
       (∀ time : BitVec 16, time ≠ 0 → s.portUp p = true → s.flag (0x6010 + 4 * p.val) 28 = true →
         Reaches (exec (.pause p time false) s) (fun t => (t.port p).paused = true ∧ (t.port p).pauseRem = time.toNat) ∧
         (x.paused = false → Reaches (exec (.pause p time true) s) fun t =>
           (t.port p).paused = false ∧ (t.port p).pausePend = some time.toNat)) ∧
       (x.paused = true → Reaches (exec (.pauseExpiry p) s) fun t => (t.port p).paused = false ∧ (t.port p).egress = []) ∧
       (∀ r, x.paused = true → x.pausedRev = some r → r < s.rev → Reaches (exec (.pauseLong p) s) fun t => t.sq 12 5 = true) ∧
       (∀ l : Fin 3, s.flag (0x6010 + 4 * p.val) 31 = true → x.link ≠ l.val → s.canLink p l = true → Reaches (exec (.linkChg p l) s) fun t =>
         (t.port p).link = l.val ∧ (t.port p).lpiTx = false ∧ t.sq 12 7 = true ∧ (p.val < 2 → t.net.table = [])) ∧
       (s.flag (0x6010 + 4 * p.val) 31 = true → x.link = 0 → Reaches (exec (.negFail p) s) fun t => t.sq 12 6 = true) ∧
       (∀ a, Reaches (exec (.addressAgeing a) s) fun t => t.net.table = s.net.table.filter fun e => e.1 != a) ∧
       (p.val < 2 → s.portUp p = true → s.flag (0x6010 + 4 * p.val) 26 = true → x.twReq = none → x.egress = [] →
         Reaches (exec (.lpiEntry p) s) fun t => (t.port p).lpiTx = true) ∧
       (s.shadow = [] → x.pausePend = none → s.flag (0x6010 + 4 * p.val) 31 = true →
         Reaches (exec (.endOfFrameInProgress p) s) fun t =>
           (t.port p).twTx = x.twPend.getD x.twTx ∧ (t.port p).twPend = none ∧ (t.port p).link = x.link) ∧
       ∀ q : Fin 2, s.portUp q = true → s.flag 0x6000 1 = true →
         ((s.port q).held = false → Reaches (exec (.lldpSend q) s) fun t => (t.port q).lpiTx = false ∧
           (t.port q).sent = [padFrame (s.lldpFrame q)] ∧ t.total (portCounter q 1) = s.total (portCounter q 1) + 1) ∧
         ∀ frame, Reaches (exec (.lldpduReceive q frame true) s) (fun t => (t.port q).lldp = frame ∧
           (t.port q).twReq = (lldpTw frame).map (·.2) ∧ t.total 0x6164 = s.total 0x6164 + 1 ∧ ((s.port q).lldp ≠ frame → t.sq 12 1 = true)) ∧
           Reaches (exec (.lldpduReceive q frame false) s) fun t => t.net = s.net)

/-- Network services (R83, R85, R337, R339, R340, R342 to R344, R346): a BACnet read on a VID of its device's booth is served under the
check of R79, one on a VID of another booth is denied and counted; a changed point is notified on the booth's home VID where the booth
may read it, and a denial noted where it may not; a tunnelled connection whose client certificate rests on the owner's root takes the
first place when that is free, and ends with its session; a host frame leaves Q24, and goes out padded by the port it names. Each of
BACNET_REQUEST, COV_NOTIFICATION, TUNNEL_CONNECT, SESSION_IDLE_TIMEOUT, RESPONSE_STALL_CLOSE and HOST_FRAME_TX completes. -/
def Obligations.NetworkServices : Prop :=
  ∀ s : State, s.engineUp 3 = true →
    (∀ vid dev b d e p, s.servicesUp = true → s.vlanBooth vid = some b → s.ifOf vid = some e → s.deviceBooth dev = some d →
      bitAt (ew e 0) 30 = true → p < 8192 →
      (b = d → s.check b .read p false false = .allow → Reaches (exec (.bacnetRequest vid dev (.read p)) s) fun t =>
        t.total 0x616C = s.total 0x616C + 1 ∧ (s.sound p → t.pnt.points = s.pnt.points) ∧
          t.net.answer = .value (bacObject (s.readRec p)) (s.draw.bacValue (s.readRec p))
            (decide ((s.readRec p).quality.toNat / 64 = 2)) (s.readRec p).forced) ∧
      (b = d → s.check b .read p false false = .deny → Reaches (exec (.bacnetRequest vid dev (.read p)) s) fun t =>
        t.total 0x6170 = s.total 0x6170 + 1 ∧ t.sq 3 7 = true ∧ t.pnt = s.pnt ∧ t.net.answer = .errorUnknown) ∧
      (b ≠ d → Reaches (exec (.bacnetRequest vid dev (.read p)) s) fun t =>
        t.total 0x18A4 = s.total 0x18A4 + 1 ∧ t.pnt = s.pnt ∧ t.net = s.net)) ∧
    (∀ i x e, s.net.subs[i]? = some x → (s.point x.point).chg ≠ x.chg → s.homeIf x.booth = some e → s.servicesUp = true →
      s.running = true → x.point < 8192 → Reaches (exec (.covNotification i) s) fun t =>
        t.net.subs[i]? = some { x with chg := (s.point x.point).chg } ∧
        (s.check x.booth .read x.point false false = .allow → t.net.notified = [(x.booth, x.point, ifVid e)]) ∧
        (s.check x.booth .read x.point false false = .deny → t.net.notified = s.net.notified ∧ t.sq 3 7 = true)) ∧
    (∀ vid cert, s.servicesUp = true → s.sys.romOnly = false → s.flag 0x60A0 0 = true → s.net.tunnels.length = 4 →
      s.mbx.sessions.length = 8 → (s.vlanBooth vid).isSome = true → ((s.ifOf vid).map fun e => bitAt (ew e 0) 28) = some true → (s.net.tunnels.getD 0 {}).state = 0 →
      s.slotUsable s.key.ownerRoot = true → Config.certRests cert (s.slotAt s.key.ownerRoot).material = true →
      Reaches (exec (.tunnelConnect vid true cert) s) fun t => (t.net.tunnels.getD 0 {}).state = 1 ∧
        (t.net.tunnels.getD 0 {}).vid = vid ∧ (t.sess 4).vid = vid ∧ (t.sess 4).cert = cert ∧
          t.total 0x6174 = s.total 0x6174 + 1) ∧
    (∀ n : Fin 4, s.net.tunnels.length = 4 → s.mbx.sessions.length = 8 → (s.net.tunnels.getD n {}).state ≠ 0 →
      Reaches (exec (.sessionIdleTimeout n) s) (fun t => (t.net.tunnels.getD n {}).state = 0 ∧
        (t.sess (4 + n)).state = .closed ∧
          ((s.sess (4 + n)).state ≠ .closed → ∀ x ∈ t.mbx.slots, x.session = 4 + n.val → x.discard = true)) ∧
      (sget [] s.mbx.resp (4 + n) ≠ [] → Reaches (exec (.responseStallClose n) s) fun t =>
        (t.net.tunnels.getD n {}).state = 0 ∧ (t.sess (4 + n)).state = .closed)) ∧
    ∀ w0 rest, (s.q 24).headPacket = w0 :: rest → s.flag 0x6000 2 = true → s.hostp.queues.length = 32 →
      Reaches (exec .hostFrameTx s) fun t => t.q 24 = (s.q 24).dropHead ∧
        ∀ k : Fin 2, w0.toNat / 2 ^ 62 = k.val + 1 → w0.getLsbD 61 = false → s.net.ports.length = 3 → s.portUp k = true →
          (s.port k).held = false → w0.toNat % 65536 ≤ (bytesOf rest).length →
          let l := (bytesOf rest).take (w0.toNat % 65536)
          l.length + 4 ≤ (if isTagged l then 1522 else 1518) →
            (t.port k).sent = [padFrame l] ∧ t.total (portCounter k 1) = s.total (portCounter k 1) + 1

/-- The 0800h group (R341, R393): SC_HUBS names a booth's hubs, whose retries double their interval; IF_READ, NEIGHBOUR_READ and
SESSION_LIST return their tables; a command 2 s after its acceptance completes with TIMEOUT (R385). Each of SC_HUBS, IF_READ,
NEIGHBOUR_READ, SESSION_LIST, TIMEOUT and SC_HUB_RETRY completes. -/
def Obligations.NetworkCommands : Prop :=
  ∀ (s : State) (h : Hdr),
    (∀ booth primary failover, s.admits h 0 → s.boothIs h booth = true → wssOk primary = true → wssOk failover = true →
      Reaches (exec (.scHubs h booth primary failover) s) fun t => s.answered t h 0x0801 0 [] ∧
        t.net.sc.find? (fun e => e.1 == booth) = some (booth, { primary, failover })) ∧
    (∀ i, i < 256 → s.admits h 32 → s.landlord h = true → Reaches (exec (.ifRead h i) s) fun t =>
      s.answered t h 0x0802 0 (bytesOf32 ((s.ifEntry i ++ List.replicate 8 0).take 8)) ∧ t.net = s.net) ∧
    (∀ p, p < 2 → s.admits h 1500 → s.landlord h = true → Reaches (exec (.neighbourRead h p) s) fun t =>
      s.answered t h 0x0803 0 ((s.port p).lldp.take 1500) ∧ t.net = s.net) ∧
    (s.admits h 32 → s.landlord h = true → Reaches (exec (.sessionList h) s) fun t =>
      s.answered t h 0x0804 0 (bytesOf32 ((List.range 8).map s.mbxSess)) ∧ t.net = s.net) ∧
    (∀ (n : Fin 8) (tag : Byte) (x : Slot), s.up = true → s.mbx.slots.find? (fun y => y.session == n.val && y.tag == tag) = some x →
      (∃ m, x.wait = .shutter m) → x.discard = false → x.accepted + 2000000000 ≤ s.crsl.upNs + s.periodNs → (n.val < 4 → s.qRoom (4 + n.val) 3 = true) → s.hostp.queues.length = 32 →
      Reaches (exec (.timeout n tag) s) fun t => t.mbx.slots = s.mbx.slots.filter (fun y => y.ident != x.ident) ∧
        s.wrote t n.val (respPacket x.opcode x.tag x.booth x.sseq 0 0x0F 0 []) ∧ t.sq 14 2 = true) ∧
    ∀ (booth : Byte) (n : ScNode) (e : List W32), s.engineUp 3 = true → s.servicesUp = true →
      s.net.sc.find? (fun e => e.1 == booth.toNat) = some (booth.toNat, n) → s.homeIf booth.toNat = some e → bitAt (ew e 0) 29 = true →
      Reaches (exec (.scHubRetry booth false) s) fun t =>
        (t.net.sc.find? fun e => e.1 == booth.toNat).map (fun e => (e.2.connected, e.2.interval, e.2.second)) =
          some (false, Nat.min 64 (2 * n.interval), !n.second)

/-! ### Redundant pairs (chapter 15) -/

/-- What a pair hears (R405 to R409, R411): a heartbeat of the partner is taken and counted for its path; three revolutions without
one lose the path; five on both paths make a standby decide and tell a primary that its partner is lost; a sync packet with room in Q29
is applied by a standby, and in SYNCING once the join data has come, but is held while the point table is frozen, and gives a
primary its partner's demand; a packet without room is lost; a sync lost returns a standby to SYNCING; a health report 3 s old is stale. Each of HEARTBEAT_RECEIVE, HB_LOST, TAKEOVER, SYNC_PACKET_RECEIVE, SYNC_LOSS
and PARTNER_STALE completes. -/
def Obligations.PairHearing : Prop :=
  ∀ (s : State), s.up = true → s.calm = true →
    (∀ hb, s.hbCounts hb = true → s.sys.ioeBad.getLsbD 3 = false →
      Reaches (exec (.heartbeatReceive false hb) s) (fun t => t.trap.partner = some hb ∧ t.total 0x7880 = s.total 0x7880 + 1) ∧
      Reaches (exec (.heartbeatReceive true hb) s) fun t => t.trap.partner = some hb ∧ t.total 0x7884 = s.total 0x7884 + 1) ∧
    (s.paired = true → 3 ≤ s.trap.missR → s.trap.lostR = false → Reaches (exec (.hbLost true) s) fun t =>
      t.trap = { s.trap with lostR := true, upR := 0 } ∧ t.sq 15 0 = true) ∧
    (s.paired = true → 3 ≤ s.trap.missP → s.trap.lostP = false → Reaches (exec (.hbLost false) s) fun t =>
      t.trap = { s.trap with lostP := true, upP := 0 } ∧ t.sq 15 0 = true) ∧
    (5 ≤ s.trap.bothMissed → s.trap.role = .standby → Reaches (exec .takeover s) fun t =>
      t.trap.role = .deciding ∧ t.trap.replies = [] ∧ t.sq 15 2 = true ∧ t.total 0x789C = s.total 0x789C + 1 ∧
        t.total 0x78A0 = s.total 0x78A0 + 1) ∧
    (5 ≤ s.trap.bothMissed → s.trap.role = .primary → Reaches (exec .takeover s) fun t => t.trap = s.trap ∧ t.sq 15 3 = true) ∧
    (∀ sp : SyncPacket, s.sys.ioeBad.getLsbD 3 = false → s.qRoom 29 (Config.syncWords sp).length = false →
      Reaches (exec (.syncPacketReceive sp) s) fun t => t.trap = s.trap ∧ t.pnt = s.pnt ∧ t.ledger = s.ledger) ∧
    (∀ sp : SyncPacket, s.sys.ioeBad.getLsbD 3 = false → s.qRoom 29 (Config.syncWords sp).length = true →
      (s.trap.role = .primary → Reaches (exec (.syncPacketReceive sp) s) fun t => t.trap.syncSeen = sp.seq.toNat ∧
        t.ledger.partnerDemand = sp.demand ∧ t.ledger.partnerValid = sp.demandValid ∧ t.pnt = s.pnt ∧ t.regs = s.regs) ∧
      (s.trap.role = .syncing ∨ s.trap.role = .standby → s.tableFree = false → Reaches (exec (.syncPacketReceive sp) s) fun t =>
        t.trap.inSync = s.trap.inSync ++ [sp] ∧ t.trap.syncApplied = s.trap.syncApplied ∧ t.pnt = s.pnt) ∧
      (∀ j, s.trap.role = .syncing → sp.join = some j → s.tableFree = true → Reaches (exec (.syncPacketReceive sp) s) fun t =>
        t.trap.role = .syncing ∧ t.trap.based = true ∧ t.trap.joined = 0 ∧ t.trap.syncApplied = sp.seq.toNat) ∧
      (s.trap.role = .syncing ∧ s.trap.based = true ∧ sp.join = none ∨ s.trap.role = .standby → s.tableFree = true →
        Reaches (exec (.syncPacketReceive sp) s) fun t => t.trap.syncApplied = sp.seq.toNat ∧ t.ledger.limit = sp.limit ∧ t.ledger.shed = sp.shed ∧
          t.total 0x7894 = s.total 0x7894 + 1)) ∧
    (s.trap.role = .standby → s.trap.lastSyncRev + 4 ≤ s.pairRev → Reaches (exec .syncLoss s) fun t =>
      t.trap = { s.trap with role := .syncing, joined := 0, based := false, lossDue := false } ∧
        t.total 0x7898 = s.total 0x7898 + 1) ∧
    (s.trap.lossDue = true → s.trap.role ≠ .standby → Reaches (exec .syncLoss s) fun t =>
      t.trap = { s.trap with lossDue := false } ∧ t.total 0x7898 = s.total 0x7898 + 1) ∧
    (s.trap.role = .primary → s.trap.healthNs + 3000000000 ≤ s.crsl.upNs + s.periodNs →
      Reaches (exec .partnerStale s) fun t => t.trap = { s.trap with health := none } ∧ t.sq 15 4 = true)

/-- How a member takes over or yields (R412 to R418): a barring reply isolates, a confirming one lets a fit member catch, waiting
without an answer isolates, queries are counted; a written EPOCH makes the founder primary and lets a catcher claim, at once
past its first revolution; a CLAIM of
a higher EPOCH makes a relinquishing primary standby and is adopted by the others; after listening for 50 revolutions a start syncs or decides. Each of
WITNESS_REPLY, WITNESS_RETRY, WITNESS_WAIT_EXPIRY, ISOLATED_QUERY, EPOCH_JOURNALED, CLAIM_RECEIVE and STARTING_LISTEN_END completes. -/
def Obligations.PairDeciding : Prop :=
  ∀ (s : State), s.up = true →
    (∀ r, s.trap.role = .deciding →
      (s.bars r = true → Reaches (exec (.witnessReply r) s) fun t => t.trap.role = .isolated ∧ t.trap.barred = true ∧
        t.trap.replies = s.trap.replies ++ [r] ∧ t.total 0x78A8 = s.total 0x78A8 + 1) ∧
      (s.bars r = false → s.confirms r = true → s.trap.unfit = false → Reaches (exec (.witnessReply r) s) fun t =>
        t.trap.role = .catching ∧ t.trap.journalled = false ∧ t.trap.claimed = false ∧ t.trap.catchRev = s.rev ∧ t.total 0x78A4 = s.total 0x78A4 + 1) ∧
      (s.bars r = false → s.confirms r = false → Reaches (exec (.witnessReply r) s) fun t =>
        t.trap = { s.trap with replies := s.trap.replies ++ [r] })) ∧
    (s.trap.role = .deciding →
      Reaches (exec .witnessRetry s) (fun t => t.trap = { s.trap with replies := [], barred := false } ∧
        t.total 0x78A0 = s.total 0x78A0 + 1) ∧
      (s.trap.decideNs + s.fld 0x7818 31 16 * 1000000 ≤ s.crsl.upNs + s.periodNs →
        Reaches (exec .witnessWaitExpiry s) fun t => t.trap = { s.trap with role := .isolated }) ∧
      (s.crsl.upNs + s.periodNs < s.trap.decideNs + s.fld 0x7818 31 16 * 1000000 →
        Reaches (exec .witnessWaitExpiry s) fun t => t.trap = s.trap)) ∧
    (s.trap.role = .isolated → Reaches (exec .isolatedQuery s) fun t => t.trap = { s.trap with replies := [], barred := false } ∧
      t.total 0x78A0 = s.total 0x78A0 + 1) ∧
    (s.trap.role = .starting → s.trap.founding = true → Reaches (exec .epochJournaled s) fun t =>
      t.trap.role = .primary ∧ t.trap.epoch = s.trap.epoch + 1 ∧ t.trap.founding = false) ∧
    (s.trap.role = .catching → s.trap.journalled = false → Reaches (exec .epochJournaled s) fun t =>
      t.trap.role = .catching ∧ t.trap.journalled = true ∧ t.trap.epoch = s.trap.epoch + 1 ∧
        t.trap.claimed = (s.trap.claimed || decide (s.trap.catchRev < s.rev))) ∧
    (∀ (pairId : BitVec 16) (member : Bool) (epoch : W32), s.paired = true → pairId.toNat = s.pairId → member ≠ s.trap.member →
      s.trap.epoch.toNat < epoch.toNat →
      (s.trap.role = .primary → s.trap.relinquish.isSome = true → Reaches (exec (.claimReceive pairId member epoch) s) fun t =>
        t.trap = { s.trap with role := .standby, relinquish := none, epoch, based := true, lastSyncRev := s.pairRev, mcRuns := [],
                               moved := [], out := {} }) ∧
      (s.trap.role = .primary → s.trap.relinquish = none → s.trap.yieldDue = false → s.calm = true →
        Reaches (exec (.claimReceive pairId member epoch) s) fun t => t.trap = { s.trap with yieldDue := true } ∧ t.sq 15 7 = true) ∧
      (s.trap.role = .starting → Reaches (exec (.claimReceive pairId member epoch) s) fun t => t.trap = s.trap) ∧
      (s.trap.role ≠ .primary → s.trap.role ≠ .starting → Reaches (exec (.claimReceive pairId member epoch) s) fun t => t.trap = { s.trap with epoch })) ∧
    (s.trap.role = .starting → s.trap.founding = false → s.trap.listenRev + 50 ≤ s.rev →
      (s.trap.partner = none → Reaches (exec .startingListenEnd s) fun t => t.trap.role = .deciding ∧ t.sq 15 2 = true ∧
        t.total 0x789C = s.total 0x789C + 1) ∧
      ∀ hb, s.trap.partner = some hb → hb.role = 2 → Reaches (exec .startingListenEnd s) fun t =>
        t.trap.role = .syncing ∧ t.trap.joined = 0)

/-! ### The pair and the calendar by command -/

/-- The 0A00h and 0B00h groups (R420, R437): PAIR_STATUS and WITNESS_READ return the pair's state and replies; PAIR_SWITCH of a
primary with a fit standby hands over at the next boundary and is refused elsewhere; TIME_READ returns the calendar; TIME_SET
writes and releases it; HOUR_SHIFT waits for its second. Each of PAIR_STATUS, PAIR_SWITCH, WITNESS_READ,
TIME_READ, TIME_SET and HOUR_SHIFT completes. -/
def Obligations.PairAndTimeCommands : Prop :=
  ∀ (s : State) (h : Hdr), s.landlord h = true →
    (s.admits h 24 → Reaches (exec (.pairStatus h) s) fun t => s.answered t h 0x0A01 0
      (bytesOf32 [s.trapState, s.trap.epoch, s.trapHb, s.trapHealth] ++ leBytes 8 (BitVec.ofInt 64 s.trap.delta).toNat)) ∧
    (s.admits h 8 → s.trap.role = .primary → s.fitStandby = true → Reaches (exec (.pairSwitch h) s) fun t =>
      s.answered t h 0x0A02 0 (leBytes 8 s.dueNow) ∧ t.trap = { s.trap with relinquish := some s.dueNow }) ∧
    (s.admits h 8 → s.trap.role ≠ .primary ∨ s.fitStandby = false → Reaches (exec (.pairSwitch h) s) fun t =>
      s.turnedDown t h 0x0A02 0 0x0E 2 [] ∧ t.trap = s.trap) ∧
    (s.admits h (8 + 16 * s.trap.replies.length) → Reaches (exec (.witnessRead h) s) fun t => s.answered t h 0x0A03 0
      (BitVec.ofNat 8 s.trap.replies.length :: List.replicate 7 0 ++ s.trap.replies.flatMap WitnessRep.bytes)) ∧
    (s.admits h 24 → s.rtc.cal.length = 8 → Reaches (exec (.timeRead h) s) fun t => s.answered t h 0x0B01 0
      (s.rtc.cal ++ leBytes 4 s.rtcBackup.toNat ++ leBytes 4 0 ++ leBytes 8 s.rtc.incRev)) ∧
    (∀ regs : List Byte, regs.length = 8 → s.admits h 8 → s.mbx.slots = [] →
      s.flag 0x8020 2 = false ∨ s.crsl.sync ≠ .locked → Reaches (exec (.timeSet h regs) s) fun t =>
        s.answered t h 0x0B02 0 (leBytes 8 s.rev) ∧ t.rtc.cal = regs ∧ t.rtc.halt = false ∧ t.rtc.shift = none ∧ t.regs = s.regs) ∧
    ∀ dir : Byte, dir = 1 ∨ dir = 0xFF → s.admits h 8 → calValid s.rtc.cal = true → s.rtc.halt = false → s.rtc.shift = none →
      Reaches (exec (.hourShift h dir) s) fun t => s.inFlightFor t h 0x0B03 8 .shift ∧
        t.rtc = { s.rtc with shift := some (decide (dir = 1)) }

/-! ### Keys (chapter 17) -/

/-- The 0C00h group (R444, R450 to R454, R463), no earlier key operation in progress: a key generated or imported into an empty slot is
WRITING there with the request's fields, no other slot changed, and VALID after the SC's next step, until when the command is in flight;
a revocation revokes the slot and its descendants; a blob that opens is in the cache; an attestation is the signed statement, where the
identity key may sign; a revocation is refused while keys are shut. Each of KEY_GENERATE, KEY_IMPORT, KEY_REVOKE, BLOB_LOAD and ATTEST
completes. -/
def Obligations.KeyCommands : Prop :=
  ∀ (s : State) (h : Hdr), s.landlord h = true → s.keyBusy = false →
    (∀ r : KeyGenReq, s.admits h 68 → s.keysShut = false → r.toBlob = false → r.target < 64 → r.kind = 3 ∨ r.kind = 4 →
      usageOk r.kind r.usage = true → r.replaces = 0xFF → r.parent = 0xFF → s.kindFits r.target r.kind 0xFF = true →
      (s.slotAt r.target).state = .empty → s.noEmptySlot = false → Reaches (exec (.keyGenerate h r) s) fun t =>
        s.inFlightFor t h 0x0C01 68 (.keyWrite r.target [BitVec.ofNat 8 r.target, 0, 0, 0]) ∧
          (t.slotAt r.target).state = .writing ∧ (t.keyStage.slotAt r.target).state = .valid ∧
          (t.slotAt r.target).kind = r.kind ∧ (t.slotAt r.target).origin = 0 ∧ (t.slotAt r.target).owner = r.owner ∧
          (t.slotAt r.target).usage = r.usage.setWidth 10 ∧ (∀ j, j ≠ r.target → t.slotAt j = s.slotAt j) ∧
          t.total 0x8840 = s.total 0x8840 + 1) ∧
    (∀ r : KeyImpReq, s.admits h 1 → s.keysShut = false → r.slot < 64 → r.kind = 2 → usageOk 2 r.usage = true → r.replaces = 0xFF →
      r.parent = 0xFF → r.material.length = 64 → s.kindFits r.slot 2 0xFF = true → (s.slotAt r.slot).state = .empty →
      s.noEmptySlot = false → Reaches (exec (.keyImport h r) s) fun t =>
        s.inFlightFor t h 0x0C02 1 (.keyWrite r.slot [BitVec.ofNat 8 r.slot]) ∧
        (t.slotAt r.slot).state = .writing ∧ (t.keyStage.slotAt r.slot).state = .valid ∧
        (t.slotAt r.slot).kind = 2 ∧ (t.slotAt r.slot).origin = 2 ∧ (t.slotAt r.slot).owner = r.owner ∧
        (t.slotAt r.slot).material = r.material ∧ (∀ j, j ≠ r.slot → t.slotAt j = s.slotAt j) ∧
        t.total 0x8844 = s.total 0x8844 + 1) ∧
    (∀ k, s.admits h 16 → s.keysShut = false → k < 64 → k ≠ 0 → k ≠ s.key.ownerRoot → s.revokeSet k ≠ [] →
      Reaches (exec (.keyRevoke h k) s) fun t => (∀ j ∈ s.revokeSet k, (t.slotAt j).state = .revoked) ∧
        (∀ j, j ∉ s.revokeSet k → (t.slotAt j).state = (s.slotAt j).state) ∧ t.sq 17 4 = true ∧
        t.total 0x8848 = s.total 0x8848 + (s.revokeSet k).length) ∧
    (∀ (blob m : List Byte) (i : Nat) (persist : Bool), s.admits h 2 → s.keysShut = false → s.blobFits blob = true →
      s.slotUsable (leAt blob 6 1) = true → s.openBlob blob = some m → s.cacheVictim = some i → s.key.cache.length = 32 →
      Reaches (exec (.blobLoad h blob persist) s) fun t => (t.key.cache.getD i {}).loaded = true ∧
        (t.key.cache.getD i {}).material = m ∧ (t.key.cache.getD i {}).gen = ((s.key.cache.getD i {}).gen + 1) % 2048 ∧
        t.key.persisted = (if persist then s.key.persisted ++ [blob] else s.key.persisted) ∧
        s.answered t h 0x0C04 0 (leBytes 2 (i + 32 * (((s.key.cache.getD i {}).gen + 1) % 2048)))) ∧
    (∀ (k : Fin 64) (nonce : List Byte), s.admits h 200 → s.keysShut = false → nonce.length = 32 → s.slotUsable k.val = true →
      s.identSigns = true → Reaches (exec (.attest h 0 (BitVec.ofNat 16 k.val) nonce) s) fun t =>
        let x := s.slotAt k.val
        s.answered t h 0x0C05 0 (s.statement 0 k.val x.kind x.origin x.owner x.usage 0 nonce (s.keyOf k.val)) ∧ t.key = s.key ∧
          t.total 0x8854 = s.total 0x8854 + 1) ∧
    (∀ k, s.admits h 16 → s.keysShut = true → k < 64 → Reaches (exec (.keyRevoke h k) s) fun t =>
      s.turnedDown t h 0x0C03 0 0x0E 6 [] ∧ t.key = s.key)

/-- Life cycle, tamper and debug (R441, R442, R455 to R462): a token that holds blows the fuses of its transition and counts it, the effect
due and the command in flight; the SC's next step has the effect; a tamper event
erases the root and the cached keys at once and closes the sessions, and on BAT alone is kept for the next start; the debug port
opens by state outside DEPLOYED and falls back to it when a token's time is over, not before; trace is started for engines the port
reaches and stopped. Each of LIFE_CYCLE_TRANSITION, TAMPER, DEBUG_OPEN, DEBUG_EXPIRY, TRACE_START and TRACE_STOP completes. -/
def Obligations.LifeCycleTamperDebug : Prop :=
  ∀ (s : State) (h : Hdr),
    (∀ token : List Byte, s.admits h 1 → s.landlord h = true → token.length = 96 → leAt token 0 4 = 0x4C435431 →
      leAt token 8 8 = s.fuse.serial.toNat → leAt token 16 4 = s.key.lcCount → s.keysShut = false → leAt token 20 1 = 1 →
      leAt token 6 2 = 0 → (∀ b ∈ (token.drop 21).take 11, b = 0) → s.keyBusy = false →
      (∃ k, s.lcSigner 1 = some k ∧ Config.ecdsaOk k (Config.sha256 (token.take 32)) (token.drop 32) = true) →
      (s.key.life = .provisioned → leAt token 4 1 = 1 → leAt token 5 1 = 2 →
        Reaches (exec (.lifeCycleTransition h token) s) fun t => s.inFlightFor t h 0x0C02 1 .lifeCycle ∧
          t.key = { s.key with life := .deployed, lcCount := s.key.lcCount + 1, effectDue := some (.provisioned, .deployed) } ∧
          t.effectStep.key = { t.key with effectDue := none } ∧ t.effectStep.dbg.port = 0 ∧ t.effectStep.sq 17 5 = true) ∧
      (s.key.life = .deployed → leAt token 4 1 = 2 → leAt token 5 1 = 3 →
        Reaches (exec (.lifeCycleTransition h token) s) fun t => s.inFlightFor t h 0x0C02 1 .lifeCycle ∧
          t.key = { s.key with life := .returned, lcCount := s.key.lcCount + 1, effectDue := some (.deployed, .returned) } ∧
          t.effectStep.key.effectDue = none ∧ (∀ c ∈ t.effectStep.key.cache, c.loaded = false) ∧
          t.effectStep.dbg.port = 1 ∧ t.effectStep.sq 17 5 = true)) ∧
    (s.up = true → Reaches (exec .tamper s) fun t => t.key.tamperLatch = true ∧ t.key.rk = [] ∧
      t.key.cache = List.replicate 32 {} ∧ t.key.tamperFuse = s.key.tamperFuse ||| BitVec.ofNat 8 (2 ^ s.key.epoch) ∧
      t.sq 17 7 = true ∧ t.total 0x885C = s.total 0x885C + 1 ∧ (s.mbx.sessions.length = 8 → ∀ n, n < 4 → (t.sess n).state = .closed)) ∧
    (s.sys.powered = false → Reaches (exec .tamper s) fun t => t.key.tamperLatch = true ∧ t.key.rk = [] ∧
      t.key.tamperDue = true ∧ t.stat = s.stat ∧ t.mbx = s.mbx) ∧
    (s.notDebugger h = false → s.admits h 8 →
      s.key.life = .manufacture ∨ s.key.life = .provisioned ∨ s.key.life = .returned →
      Reaches (exec (.debugOpen h []) s) fun t => s.answered t h 0x0F01 0 (leBytes 8 0) ∧ t.dbg.port = 1 ∧ t.dbg.rights = 31) ∧
    (s.up = true → s.dbg.port = 2 → s.rev < s.dbg.expiry → Reaches (exec .debugExpiry s) fun t => t.dbg = s.dbg) ∧
    (s.up = true → s.dbg.port = 2 → s.dbg.expiry ≤ s.rev → s.key.life = .deployed → Reaches (exec .debugExpiry s) fun t => t.dbg.port = 0 ∧
      t.dbg.rights = 0 ∧ t.dbg.engines = 0 ∧ t.dbg.signer = none) ∧
    (s.notDebugger h = false → s.admits h 0 →
      (∀ engines mask : W32, engines.toNat < 2 ^ 22 → s.dbg.port = 1 → s.dbg.rights.getLsbD 4 = true →
        engines &&& ~~~ (s.dbg.engines.setWidth 32) = 0 → s.ledger.house = 0 → Reaches (exec (.traceStart h engines mask) s) fun t =>
          s.answered t h 0x0F02 0 [] ∧ t.dbg = { s.dbg with traceOn := true, traceSel := engines.setWidth 22, traceMask := mask,
                                                            traceShed := false }) ∧
      Reaches (exec (.traceStop h) s) fun t => s.answered t h 0x0F03 0 [] ∧
        t.dbg = { s.dbg with traceOn := false, traceShed := false })

/-! ### Updates (chapter 18) -/

/-- The 0D00h group (R469 to R475, R479, R480): a good manifest starts DOWNLOADING and is refused with its condition's DETAIL; half
a chunk is kept, the other half completes it; UPD_STATUS returns the state and the chunks; a verified firmware is ARMED for its
boundary; a held trial is confirmed on command; UPD_LOCK sets the lock the signature names. An update's own course (R471, R472,
R475, R476): a chunk packet of Q31 is taken; a verification that holds ends in VERIFIED, one whose chunk root does not discards
the download; a held trial is confirmed, one whose window is over falls back; the spare core is ready unless it failed its BIST. Each of UPD_MANIFEST, UPD_CHUNK,
UPD_STATUS, UPD_ACTIVATE, UPD_CONFIRM, UPD_LOCK, UPDATE_CHUNK_PACKET, VERIFY_COMPLETE, CONFIRMED, FALLBACK and SPARE_READY
completes. -/
def Obligations.UpdateCourse : Prop :=
  (∀ (s : State) (h : Hdr), s.landlord h = true →
       (∀ man : List Byte, s.admits h 2 → (s.slotAt (parseManifest man).signer).state = .valid →
         s.slotUsable (parseManifest man).signer = true → (s.slotAt (parseManifest man).signer).uses 7 = true →
         Config.ecdsaOk (s.slotAt (parseManifest man).signer).material (Config.sha256 (man.take 0xC0)) ((man.drop 0xC0).take 64) = true →
         s.manifestBad man = none → (parseManifest man).target ≠ 3 → s.upd.floor (parseManifest man).target ≤ (parseManifest man).version →
         s.upd.state = .idle →
         (s.updConds = [false, false, false, false, false] → Reaches (exec (.updManifest h 0 man) s) fun t =>
           s.answered t h 0x0D01 0 (leBytes 2 (parseManifest man).chunks) ∧ t.upd.state = .downloading ∧
             t.upd.manifest = parseManifest man ∧ t.upd.chunkHash = [] ∧ t.upd.parts = none ∧ t.total 0x904C = s.total 0x904C + 1) ∧
         (s.upd.lock = true → Reaches (exec (.updManifest h 0 man) s) fun t => s.turnedDown t h 0x0D01 0 0x0E 1 [] ∧
           t.upd = { s.upd with lastDetail := 1 } ∧ t.sq 18 1 = true ∧ t.total 0x9050 = s.total 0x9050 + 1)) ∧
       (∀ (i : Nat) (hash data : List Byte), s.admits h 1 → s.upd.state = .downloading → i < s.upd.manifest.chunks →
         data.length = s.upd.manifest.partLen i 1 → s.upd.lock = false → s.tampered = false → s.key.rootLost = false →
         hash.length = 32 → s.upd.has i = false →
         (s.upd.parts = none → Reaches (exec (.updChunk h i 1 hash data) s) fun t => s.answered t h 0x0D02 0 [3] ∧
           t.upd = { s.upd with parts := some (i, 1, hash, data) }) ∧
         (∀ head : List Byte, s.upd.parts = some (i, 0, hash, head) → Config.sha256 (head ++ data) = hash →
           Reaches (exec (.updChunk h i 1 hash data) s) fun t => s.answered t h 0x0D02 0 [0] ∧ t.upd.has i = true ∧
             t.upd.parts = none ∧ t.total 0x9040 = s.total 0x9040 + 1)) ∧
       (∀ first count, s.admits h (8 + (count + 7) / 8) → 1 ≤ count → count ≤ 16384 →
         Reaches (exec (.updStatus h first count) s) fun t => s.answered t h 0x0D03 0
           (leBytes 4 s.updState.toNat ++ leBytes 4 s.updProgress.toNat ++ bitmapBytes (fun i => s.upd.has (first + i)) count) ∧
             t.upd = s.upd) ∧
       (∀ b : W64, s.admits h 8 → s.upd.state = .verified → s.upd.manifest.target = 1 →
         s.updConds = [false, false, false, false, false] → s.soonest ≤ b.toNat →
         Reaches (exec (.updActivate h b) s) fun t => s.answered t h 0x0D04 0 (leBytes 8 b.toNat) ∧ t.upd.state = .armed ∧
           t.mbx.sched = s.mbx.sched ∧ t.upd.armedAt = some b.toNat ∧ (s.paired = false → t.sys.spareReady = false)) ∧
       (s.admits h 0 →
         (s.held = true → Reaches (exec (.updConfirm h) s) fun t => s.answered t h 0x0D05 0 [] ∧ t.upd.state = .idle ∧
           t.sq 18 3 = true) ∧
         (s.held = false → Reaches (exec (.updConfirm h) s) fun t => s.turnedDown t h 0x0D05 0 0x0E 7 [] ∧
           t.upd = { s.upd with lastDetail := 7 }) ∧
         ∀ (on : Bool) (sig : List Byte), s.slotUsable s.key.ownerRoot = true → s.upd.state = .idle →
           Config.ecdsaOk (s.slotAt s.key.ownerRoot).material (Config.sha256 (leBytes 8 s.fuse.serial.toNat ++
             leBytes 8 s.upd.nonce.toNat ++ [if on then 1 else 0])) sig = true →
           Reaches (exec (.updLock h (if on then 1 else 0) sig) s) fun t => s.answered t h 0x0D06 0 [] ∧ t.upd.lock = on ∧
             t.upd.state = .idle)) ∧
  (∀ (s : State), s.up = true →
       (∀ ws : List W64, s.upd.state = .downloading → (s.q 31).headPacket = ws → ws.length = 517 → s.hostp.queues.length = 32 →
         s.upd.lock = false → s.tampered = false → s.key.rootLost = false → s.parityHeld 18 = false →
         let i := (ws.getD 0 0).toNat / 2 ^ 16 % 2 ^ 13
         let data := (bytesOf (ws.drop 5)).take ((ws.getD 0 0).toNat % 2 ^ 13)
         (ws.getD 0 0).toNat / 2 ^ 48 = 0x5543 → i < s.upd.manifest.chunks →
         (ws.getD 0 0).toNat % 2 ^ 13 = s.upd.manifest.chunkLen i → s.upd.has i = false →
         Config.sha256 data = bytesOf ((ws.drop 1).take 4) → Reaches (exec .updateChunkPacket s) fun t =>
           t.q 31 = (s.q 31).dropHead ∧ t.upd.has i = true ∧ sget [] t.upd.chunkData i = data ∧
             t.total 0x9040 = s.total 0x9040 + 1) ∧
       (s.upd.state = .verifying →
         (Config.sha256 (s.upd.chunkHash.flatMap (·.2)) = s.upd.manifest.chunkRoot →
           (∀ e ∈ s.upd.chunkData, Config.sha256 e.2 = sget [] s.upd.chunkHash e.1) →
           Config.sha256 s.upd.content = s.upd.manifest.digest → (s.slotAt s.upd.manifest.signer).state = .valid →
           Reaches (exec .verifyComplete s) fun t =>
             if Config.contentOk s.upd.manifest.target s.upd.content = true then t.upd.state = .verified ∧ t.sq 18 5 = true
             else t.upd.state = .idle ∧ t.sq 18 6 = true ∧ t.total 0x9054 = s.total 0x9054 + 1) ∧
         (Config.sha256 (s.upd.chunkHash.flatMap (·.2)) ≠ s.upd.manifest.chunkRoot → Reaches (exec .verifyComplete s) fun t =>
           t.upd.state = .idle ∧ t.upd.chunkData = [] ∧ t.sq 18 6 = true ∧ t.total 0x9054 = s.total 0x9054 + 1)) ∧
       (s.held = true → s.flag 0x9000 12 = false → Reaches (exec .confirmed s) fun t => t.upd.state = .idle ∧ t.sq 18 3 = true) ∧
       (s.upd.state = .trial → s.upd.trialNs = 0 → Reaches (exec .fallback s) fun t => t.upd.state = .idle ∧
         t.upd.backDue = true ∧ t.sq 18 2 = true ∧ t.total 0x905C = s.total 0x905C + 1) ∧
       (s.sys.coreBad = false → s.upd.state ≠ .armed → Reaches (exec .spareReady s) fun t => t.sys.spareReady = true ∧ t.upd = s.upd))

/-! ### Faults and the log by command -/

/-- The 0E00h group (R504): FAULT_READ returns the first fault, the class counts and the queue; LOG_READ the entries from a sequence
on; LOG_STREAM stops the stream and gives the next sequence; CTRL_RESTART of a stopped control waits for its boundary, of a
running one, or during a thermal stop, is refused. Each of FAULT_READ, LOG_READ, LOG_STREAM
and CTRL_RESTART completes. -/
def Obligations.LogCommands : Prop :=
  ∀ (s : State) (h : Hdr), s.landlord h = true →
    (s.admits h 44 → Reaches (exec (.faultRead h) s) fun t => s.answered t h 0x0E01 0
      (leBytes 4 s.fltFirst.toNat ++ leBytes 4 0 ++ leBytes 8 ((s.flt.first.map (·.rev)).getD 0) ++
        leBytes 8 ((s.flt.first.map fun (x : LogEnt) => x.data.toNat).getD 0) ++
        (List.range 4).flatMap (fun k => leBytes 4 (s.total (0x9840 + 4 * k))) ++ leBytes 4 s.fltQueue.toNat)) ∧
    (∀ (first : W32) (n : Nat), 1 ≤ n → n ≤ 64 → s.admits h (8 + 32 * n) → Reaches (exec (.logRead h first n) s) fun t =>
      let es := (s.logList.filter fun e => decide (first.toNat ≤ e.seq)).take n
      s.answered t h 0x0E02 0 (leBytes 2 es.length ++ List.replicate 6 0 ++ es.flatMap fun e => bytesOf e.words)) ∧
    (∀ first : W32, s.admits h 4 → Reaches (exec (.logStream h 0 first) s) fun t =>
      s.answered t h 0x0E03 0 (leBytes 4 (s.flt.logSeq + 1)) ∧ t.flt.stream = none) ∧
    (s.admits h 8 → s.sys.run = .stopped → s.crsl.ovrDue = false → s.sys.thermalHold = true →
      Reaches (exec (.ctrlRestart h 0 0) s) fun t => s.turnedDown t h 0x0E04 0 0x0E 2 [] ∧ t.sys = s.sys) ∧
    (s.admits h 8 → s.sys.run = .stopped → s.crsl.ovrDue = false → s.sys.thermalHold = false → s.restartPending = false →
      Reaches (exec (.ctrlRestart h 0 0) s) fun t => s.inFlightFor t h 0x0E04 8 (.restart (s.rev + 100)) ∧ t.sys = s.sys) ∧
    (s.admits h 8 → s.running = true → Reaches (exec (.ctrlRestart h 0 0) s) fun t =>
      s.turnedDown t h 0x0E04 0 0x0E 1 [] ∧ t.sys = s.sys)
end

