-- ==== Sys2Proof/Laws/Bytes.lean ====
section
/-! SUPPORT. Bytes, words and what is known of the digests, signatures and wrapped keys: their lengths, that the signature named for
a key and a hash verifies, and that a wrapped key unwraps. -/

namespace Sys2Proof.Machine

@[simp] theorem leBytes_length (n v : Nat) : (leBytes n v).length = n := by
  induction n generalizing v with
  | zero => rfl
  | succ n ih => simp [leBytes, ih]

theorem leNat_lt (l : List Byte) : leNat l < 256 ^ l.length := by
  induction l with
  | nil => simp [leNat]
  | cons b t ih =>
    have := b.isLt
    simp only [leNat, List.length_cons, Nat.pow_succ]
    omega

/-- The bytes of the number that bytes spell are those bytes. -/
theorem leBytes_leNat (l : List Byte) : leBytes l.length (leNat l) = l := by
  induction l with
  | nil => rfl
  | cons b t ih =>
    have hb := b.isLt
    have hd : (b.toNat + 256 * leNat t) / 256 = leNat t := by omega
    have hm : BitVec.ofNat 8 (b.toNat + 256 * leNat t) = b := by
      apply BitVec.eq_of_toNat_eq; simp only [BitVec.toNat_ofNat]; omega
    simp only [leNat, List.length_cons, leBytes, hd, hm, ih]

/-- The number that the bytes of a number spell is the number, where they hold it. -/
theorem leNat_leBytes (n v : Nat) (h : v < 256 ^ n) : leNat (leBytes n v) = v := by
  induction n generalizing v with
  | zero => simp at h; subst h; rfl
  | succ n ih =>
    have h1 : v / 256 < 256 ^ n := by rw [Nat.pow_succ] at h; omega
    simp only [leBytes, leNat, ih _ h1, BitVec.toNat_ofNat]
    omega

/-- Whole words hold their bytes (R375). -/
theorem bytesOf_wordsOf (fuel k : Nat) (l : List Byte) (hl : l.length = 8 * k) (hf : k ≤ fuel) :
    bytesOf (wordsOf fuel l) = l ∧ (wordsOf fuel l).length = k := by
  induction k generalizing fuel l with
  | zero =>
    have : l = [] := List.length_eq_zero_iff.mp (by omega)
    subst this
    cases fuel <;> simp [wordsOf, bytesOf]
  | succ k ih =>
    obtain ⟨f, rfl⟩ : ∃ f, fuel = f + 1 := ⟨fuel - 1, by omega⟩
    cases l with
    | nil => simp at hl
    | cons b t =>
      have h8 : ((b :: t).take 8).length = 8 := by rw [List.length_take]; omega
      have hlt : leNat ((b :: t).take 8) < 2 ^ 64 := by have := leNat_lt ((b :: t).take 8); rw [h8] at this; omega
      obtain ⟨e, n⟩ := ih f ((b :: t).drop 8) (by rw [List.length_drop]; omega) (by omega)
      simp only [wordsOf]
      constructor
      · have hw : leBytes 8 (BitVec.ofNat 64 (leNat ((b :: t).take 8))).toNat = (b :: t).take 8 := by
          rw [BitVec.toNat_ofNat, Nat.mod_eq_of_lt hlt]
          have := leBytes_leNat ((b :: t).take 8)
          rwa [h8] at this
        rw [bytesOf, List.flatMap_cons, hw]
        have : List.flatMap (fun w : W64 => leBytes 8 w.toNat) (wordsOf f ((b :: t).drop 8)) = (b :: t).drop 8 := e
        rw [this, List.take_append_drop]
      · rw [List.length_cons, n]

/-- A field that lies in the first part of a payload is read from it. -/
theorem leAt_append (a b : List Byte) (off n : Nat) (h : off + n ≤ a.length) : leAt (a ++ b) off n = leAt a off n := by
  have h1 : off ≤ a.length := by omega
  have h2 : n ≤ (a.drop off).length := by rw [List.length_drop]; omega
  rw [leAt, leAt, List.drop_append_of_le_length h1, List.take_append_of_le_length h2]

@[simp] theorem sha256_length (l : List Byte) : (Config.sha256 l).length = 32 := Vector.length_toList
@[simp] theorem hkdf_length (n k i : List Byte) : (Config.hkdf n k i).length = 32 := Vector.length_toList
@[simp] theorem drbg_length (k n : Nat) : (Config.drbg k n).length = n := Vector.length_toList
@[simp] theorem ecdsaSign_length (k h : List Byte) : (Config.ecdsaSign k h).length = 64 := Vector.length_toList

/-- The signature named for a key and a hash verifies. -/
theorem ecdsaOk_some (pub hash : List Byte) : Config.ecdsaOk pub hash (Config.ecdsaSome pub hash).toList = true := by
  simp [Config.ecdsaOk]

@[simp] theorem aesWrap_length (key d : List Byte) : (Config.aesWrap key d).length = d.length + 8 := by
  simp [Config.aesWrap, Config.wrapCheck]

/-- A key wrapped unwraps under the same key (R449). -/
theorem aesUnwrap_aesWrap (key d : List Byte) : Config.aesUnwrap key (Config.aesWrap key d) = some d := by
  have inv : ∀ (n m : Nat) (h : n = m) (v : Vector Byte n) (l : List Byte) (hl : l.length = m),
      l = ((Config.wrapPerm key n) v).toList →
        (((Config.wrapPerm key m).symm ⟨l.toArray, by simp [hl]⟩).toList = v.toList) := by
    intro n m h v l hl e
    subst h
    have : (⟨l.toArray, by simp [hl]⟩ : Vector Byte n) = (Config.wrapPerm key n) v := by
      apply Vector.toArray_inj.mp
      subst e; rfl
    rw [this, Equiv.symm_apply_apply]
  unfold Config.aesUnwrap
  have := inv _ (Config.aesWrap key d).length (by simp [Config.wrapCheck])
    ⟨(Config.wrapCheck ++ d).toArray, rfl⟩ (Config.aesWrap key d) rfl rfl
  simp only [this]
  simp [Config.wrapCheck]

end Sys2Proof.Machine
end

