-- ==== Sys2Proof/Laws/State.lean ====
section
/-! SUPPORT. What each named update of the state leaves as it was: one lemma a field and update, each true by unfolding. -/

namespace Sys2Proof.Machine

/-! setReg -/

@[simp] theorem State.setReg_pending (s : State) (off : Nat) (w : W32) : (s.setReg off w).pending = s.pending := rfl
@[simp] theorem State.setReg_rev (s : State) (off : Nat) (w : W32) : (s.setReg off w).rev = s.rev := rfl
@[simp] theorem State.setReg_fuse (s : State) (off : Nat) (w : W32) : (s.setReg off w).fuse = s.fuse := rfl
@[simp] theorem State.setReg_sys (s : State) (off : Nat) (w : W32) : (s.setReg off w).sys = s.sys := rfl
@[simp] theorem State.setReg_crsl (s : State) (off : Nat) (w : W32) : (s.setReg off w).crsl = s.crsl := rfl
@[simp] theorem State.setReg_ledger (s : State) (off : Nat) (w : W32) : (s.setReg off w).ledger = s.ledger := rfl
@[simp] theorem State.setReg_pnt (s : State) (off : Nat) (w : W32) : (s.setReg off w).pnt = s.pnt := rfl
@[simp] theorem State.setReg_loop (s : State) (off : Nat) (w : W32) : (s.setReg off w).loop = s.loop := rfl
@[simp] theorem State.setReg_prg (s : State) (off : Nat) (w : W32) : (s.setReg off w).prg = s.prg := rfl
@[simp] theorem State.setReg_prsm (s : State) (off : Nat) (w : W32) : (s.setReg off w).prsm = s.prsm := rfl
@[simp] theorem State.setReg_fioGrp (s : State) (off : Nat) (w : W32) : (s.setReg off w).fioGrp = s.fioGrp := rfl
@[simp] theorem State.setReg_fioCh (s : State) (off : Nat) (w : W32) : (s.setReg off w).fioCh = s.fioCh := rfl
@[simp] theorem State.setReg_ui (s : State) (off : Nat) (w : W32) : (s.setReg off w).ui = s.ui := rfl
@[simp] theorem State.setReg_uiBad (s : State) (off : Nat) (w : W32) : (s.setReg off w).uiBad = s.uiBad := rfl
@[simp] theorem State.setReg_uiHeld (s : State) (off : Nat) (w : W32) : (s.setReg off w).uiHeld = s.uiHeld := rfl
@[simp] theorem State.setReg_uiStamp (s : State) (off : Nat) (w : W32) : (s.setReg off w).uiStamp = s.uiStamp := rfl
@[simp] theorem State.setReg_ao (s : State) (off : Nat) (w : W32) : (s.setReg off w).ao = s.ao := rfl
@[simp] theorem State.setReg_fan (s : State) (off : Nat) (w : W32) : (s.setReg off w).fan = s.fan := rfl
@[simp] theorem State.setReg_fanSilent (s : State) (off : Nat) (w : W32) : (s.setReg off w).fanSilent = s.fanSilent := rfl
@[simp] theorem State.setReg_can (s : State) (off : Nat) (w : W32) : (s.setReg off w).can = s.can := rfl
@[simp] theorem State.setReg_net (s : State) (off : Nat) (w : W32) : (s.setReg off w).net = s.net := rfl
@[simp] theorem State.setReg_hostp (s : State) (off : Nat) (w : W32) : (s.setReg off w).hostp = s.hostp := rfl
@[simp] theorem State.setReg_mbx (s : State) (off : Nat) (w : W32) : (s.setReg off w).mbx = s.mbx := rfl
@[simp] theorem State.setReg_trap (s : State) (off : Nat) (w : W32) : (s.setReg off w).trap = s.trap := rfl
@[simp] theorem State.setReg_rtc (s : State) (off : Nat) (w : W32) : (s.setReg off w).rtc = s.rtc := rfl
@[simp] theorem State.setReg_key (s : State) (off : Nat) (w : W32) : (s.setReg off w).key = s.key := rfl
@[simp] theorem State.setReg_upd (s : State) (off : Nat) (w : W32) : (s.setReg off w).upd = s.upd := rfl
@[simp] theorem State.setReg_flt (s : State) (off : Nat) (w : W32) : (s.setReg off w).flt = s.flt := rfl
@[simp] theorem State.setReg_dbg (s : State) (off : Nat) (w : W32) : (s.setReg off w).dbg = s.dbg := rfl
@[simp] theorem State.setReg_pwr (s : State) (off : Nat) (w : W32) : (s.setReg off w).pwr = s.pwr := rfl
@[simp] theorem State.setReg_image (s : State) (off : Nat) (w : W32) : (s.setReg off w).image = s.image := rfl
@[simp] theorem State.setReg_cnt (s : State) (off : Nat) (w : W32) : (s.setReg off w).cnt = s.cnt := rfl
@[simp] theorem State.setReg_stat (s : State) (off : Nat) (w : W32) : (s.setReg off w).stat = s.stat := rfl
@[simp] theorem State.setReg_shadow (s : State) (off : Nat) (w : W32) : (s.setReg off w).shadow = s.shadow := rfl
@[simp] theorem State.setReg_posted (s : State) (off : Nat) (w : W32) : (s.setReg off w).posted = s.posted := rfl
@[simp] theorem State.setReg_free (s : State) (off : Nat) (w : W32) : (s.setReg off w).free = s.free := rfl

/-! applyReg -/

@[simp] theorem State.applyReg_pending (s : State) (off : Nat) (w : W32) : (s.applyReg off w).pending = s.pending := rfl
@[simp] theorem State.applyReg_rev (s : State) (off : Nat) (w : W32) : (s.applyReg off w).rev = s.rev := rfl
@[simp] theorem State.applyReg_fuse (s : State) (off : Nat) (w : W32) : (s.applyReg off w).fuse = s.fuse := rfl
@[simp] theorem State.applyReg_sys (s : State) (off : Nat) (w : W32) : (s.applyReg off w).sys = s.sys := rfl
@[simp] theorem State.applyReg_crsl (s : State) (off : Nat) (w : W32) : (s.applyReg off w).crsl = s.crsl := rfl
@[simp] theorem State.applyReg_ledger (s : State) (off : Nat) (w : W32) : (s.applyReg off w).ledger = s.ledger := rfl
@[simp] theorem State.applyReg_pnt (s : State) (off : Nat) (w : W32) : (s.applyReg off w).pnt = s.pnt := rfl
@[simp] theorem State.applyReg_loop (s : State) (off : Nat) (w : W32) : (s.applyReg off w).loop = s.loop := rfl
@[simp] theorem State.applyReg_prg (s : State) (off : Nat) (w : W32) : (s.applyReg off w).prg = s.prg := rfl
@[simp] theorem State.applyReg_prsm (s : State) (off : Nat) (w : W32) : (s.applyReg off w).prsm = s.prsm := rfl
@[simp] theorem State.applyReg_fioGrp (s : State) (off : Nat) (w : W32) : (s.applyReg off w).fioGrp = s.fioGrp := rfl
@[simp] theorem State.applyReg_fioCh (s : State) (off : Nat) (w : W32) : (s.applyReg off w).fioCh = s.fioCh := rfl
@[simp] theorem State.applyReg_ui (s : State) (off : Nat) (w : W32) : (s.applyReg off w).ui = s.ui := rfl
@[simp] theorem State.applyReg_uiBad (s : State) (off : Nat) (w : W32) : (s.applyReg off w).uiBad = s.uiBad := rfl
@[simp] theorem State.applyReg_uiHeld (s : State) (off : Nat) (w : W32) : (s.applyReg off w).uiHeld = s.uiHeld := rfl
@[simp] theorem State.applyReg_uiStamp (s : State) (off : Nat) (w : W32) : (s.applyReg off w).uiStamp = s.uiStamp := rfl
@[simp] theorem State.applyReg_ao (s : State) (off : Nat) (w : W32) : (s.applyReg off w).ao = s.ao := rfl
@[simp] theorem State.applyReg_fan (s : State) (off : Nat) (w : W32) : (s.applyReg off w).fan = s.fan := rfl
@[simp] theorem State.applyReg_fanSilent (s : State) (off : Nat) (w : W32) : (s.applyReg off w).fanSilent = s.fanSilent := rfl
@[simp] theorem State.applyReg_can (s : State) (off : Nat) (w : W32) : (s.applyReg off w).can = s.can := rfl
@[simp] theorem State.applyReg_net (s : State) (off : Nat) (w : W32) : (s.applyReg off w).net = s.net := rfl
@[simp] theorem State.applyReg_hostp (s : State) (off : Nat) (w : W32) : (s.applyReg off w).hostp = s.hostp := rfl
@[simp] theorem State.applyReg_mbx (s : State) (off : Nat) (w : W32) : (s.applyReg off w).mbx = s.mbx := rfl
@[simp] theorem State.applyReg_trap (s : State) (off : Nat) (w : W32) : (s.applyReg off w).trap = s.trap := rfl
@[simp] theorem State.applyReg_rtc (s : State) (off : Nat) (w : W32) : (s.applyReg off w).rtc = s.rtc := rfl
@[simp] theorem State.applyReg_key (s : State) (off : Nat) (w : W32) : (s.applyReg off w).key = s.key := rfl
@[simp] theorem State.applyReg_upd (s : State) (off : Nat) (w : W32) : (s.applyReg off w).upd = s.upd := rfl
@[simp] theorem State.applyReg_flt (s : State) (off : Nat) (w : W32) : (s.applyReg off w).flt = s.flt := rfl
@[simp] theorem State.applyReg_dbg (s : State) (off : Nat) (w : W32) : (s.applyReg off w).dbg = s.dbg := rfl
@[simp] theorem State.applyReg_pwr (s : State) (off : Nat) (w : W32) : (s.applyReg off w).pwr = s.pwr := rfl
@[simp] theorem State.applyReg_cnt (s : State) (off : Nat) (w : W32) : (s.applyReg off w).cnt = s.cnt := rfl
@[simp] theorem State.applyReg_stat (s : State) (off : Nat) (w : W32) : (s.applyReg off w).stat = s.stat := rfl
@[simp] theorem State.applyReg_shadow (s : State) (off : Nat) (w : W32) : (s.applyReg off w).shadow = s.shadow := rfl
@[simp] theorem State.applyReg_posted (s : State) (off : Nat) (w : W32) : (s.applyReg off w).posted = s.posted := rfl
@[simp] theorem State.applyReg_free (s : State) (off : Nat) (w : W32) : (s.applyReg off w).free = s.free := rfl

/-! setFld -/

@[simp] theorem State.setFld_pending (s : State) (off hi lo v : Nat) : (s.setFld off hi lo v).pending = s.pending := rfl
@[simp] theorem State.setFld_rev (s : State) (off hi lo v : Nat) : (s.setFld off hi lo v).rev = s.rev := rfl
@[simp] theorem State.setFld_fuse (s : State) (off hi lo v : Nat) : (s.setFld off hi lo v).fuse = s.fuse := rfl
@[simp] theorem State.setFld_sys (s : State) (off hi lo v : Nat) : (s.setFld off hi lo v).sys = s.sys := rfl
@[simp] theorem State.setFld_crsl (s : State) (off hi lo v : Nat) : (s.setFld off hi lo v).crsl = s.crsl := rfl
@[simp] theorem State.setFld_ledger (s : State) (off hi lo v : Nat) : (s.setFld off hi lo v).ledger = s.ledger := rfl
@[simp] theorem State.setFld_pnt (s : State) (off hi lo v : Nat) : (s.setFld off hi lo v).pnt = s.pnt := rfl
@[simp] theorem State.setFld_loop (s : State) (off hi lo v : Nat) : (s.setFld off hi lo v).loop = s.loop := rfl
@[simp] theorem State.setFld_prg (s : State) (off hi lo v : Nat) : (s.setFld off hi lo v).prg = s.prg := rfl
@[simp] theorem State.setFld_prsm (s : State) (off hi lo v : Nat) : (s.setFld off hi lo v).prsm = s.prsm := rfl
@[simp] theorem State.setFld_fioGrp (s : State) (off hi lo v : Nat) : (s.setFld off hi lo v).fioGrp = s.fioGrp := rfl
@[simp] theorem State.setFld_fioCh (s : State) (off hi lo v : Nat) : (s.setFld off hi lo v).fioCh = s.fioCh := rfl
@[simp] theorem State.setFld_ui (s : State) (off hi lo v : Nat) : (s.setFld off hi lo v).ui = s.ui := rfl
@[simp] theorem State.setFld_uiBad (s : State) (off hi lo v : Nat) : (s.setFld off hi lo v).uiBad = s.uiBad := rfl
@[simp] theorem State.setFld_uiHeld (s : State) (off hi lo v : Nat) : (s.setFld off hi lo v).uiHeld = s.uiHeld := rfl
@[simp] theorem State.setFld_uiStamp (s : State) (off hi lo v : Nat) : (s.setFld off hi lo v).uiStamp = s.uiStamp := rfl
@[simp] theorem State.setFld_ao (s : State) (off hi lo v : Nat) : (s.setFld off hi lo v).ao = s.ao := rfl
@[simp] theorem State.setFld_fan (s : State) (off hi lo v : Nat) : (s.setFld off hi lo v).fan = s.fan := rfl
@[simp] theorem State.setFld_fanSilent (s : State) (off hi lo v : Nat) : (s.setFld off hi lo v).fanSilent = s.fanSilent := rfl
@[simp] theorem State.setFld_can (s : State) (off hi lo v : Nat) : (s.setFld off hi lo v).can = s.can := rfl
@[simp] theorem State.setFld_net (s : State) (off hi lo v : Nat) : (s.setFld off hi lo v).net = s.net := rfl
@[simp] theorem State.setFld_hostp (s : State) (off hi lo v : Nat) : (s.setFld off hi lo v).hostp = s.hostp := rfl
@[simp] theorem State.setFld_mbx (s : State) (off hi lo v : Nat) : (s.setFld off hi lo v).mbx = s.mbx := rfl
@[simp] theorem State.setFld_trap (s : State) (off hi lo v : Nat) : (s.setFld off hi lo v).trap = s.trap := rfl
@[simp] theorem State.setFld_rtc (s : State) (off hi lo v : Nat) : (s.setFld off hi lo v).rtc = s.rtc := rfl
@[simp] theorem State.setFld_key (s : State) (off hi lo v : Nat) : (s.setFld off hi lo v).key = s.key := rfl
@[simp] theorem State.setFld_upd (s : State) (off hi lo v : Nat) : (s.setFld off hi lo v).upd = s.upd := rfl
@[simp] theorem State.setFld_flt (s : State) (off hi lo v : Nat) : (s.setFld off hi lo v).flt = s.flt := rfl
@[simp] theorem State.setFld_dbg (s : State) (off hi lo v : Nat) : (s.setFld off hi lo v).dbg = s.dbg := rfl
@[simp] theorem State.setFld_pwr (s : State) (off hi lo v : Nat) : (s.setFld off hi lo v).pwr = s.pwr := rfl
@[simp] theorem State.setFld_image (s : State) (off hi lo v : Nat) : (s.setFld off hi lo v).image = s.image := rfl
@[simp] theorem State.setFld_cnt (s : State) (off hi lo v : Nat) : (s.setFld off hi lo v).cnt = s.cnt := rfl
@[simp] theorem State.setFld_stat (s : State) (off hi lo v : Nat) : (s.setFld off hi lo v).stat = s.stat := rfl
@[simp] theorem State.setFld_shadow (s : State) (off hi lo v : Nat) : (s.setFld off hi lo v).shadow = s.shadow := rfl
@[simp] theorem State.setFld_posted (s : State) (off hi lo v : Nat) : (s.setFld off hi lo v).posted = s.posted := rfl
@[simp] theorem State.setFld_free (s : State) (off hi lo v : Nat) : (s.setFld off hi lo v).free = s.free := rfl

/-! setPair -/

@[simp] theorem State.setPair_pending (s : State) (off v : Nat) : (s.setPair off v).pending = s.pending := rfl
@[simp] theorem State.setPair_rev (s : State) (off v : Nat) : (s.setPair off v).rev = s.rev := rfl
@[simp] theorem State.setPair_fuse (s : State) (off v : Nat) : (s.setPair off v).fuse = s.fuse := rfl
@[simp] theorem State.setPair_sys (s : State) (off v : Nat) : (s.setPair off v).sys = s.sys := rfl
@[simp] theorem State.setPair_crsl (s : State) (off v : Nat) : (s.setPair off v).crsl = s.crsl := rfl
@[simp] theorem State.setPair_ledger (s : State) (off v : Nat) : (s.setPair off v).ledger = s.ledger := rfl
@[simp] theorem State.setPair_pnt (s : State) (off v : Nat) : (s.setPair off v).pnt = s.pnt := rfl
@[simp] theorem State.setPair_loop (s : State) (off v : Nat) : (s.setPair off v).loop = s.loop := rfl
@[simp] theorem State.setPair_prg (s : State) (off v : Nat) : (s.setPair off v).prg = s.prg := rfl
@[simp] theorem State.setPair_prsm (s : State) (off v : Nat) : (s.setPair off v).prsm = s.prsm := rfl
@[simp] theorem State.setPair_fioGrp (s : State) (off v : Nat) : (s.setPair off v).fioGrp = s.fioGrp := rfl
@[simp] theorem State.setPair_fioCh (s : State) (off v : Nat) : (s.setPair off v).fioCh = s.fioCh := rfl
@[simp] theorem State.setPair_ui (s : State) (off v : Nat) : (s.setPair off v).ui = s.ui := rfl
@[simp] theorem State.setPair_uiBad (s : State) (off v : Nat) : (s.setPair off v).uiBad = s.uiBad := rfl
@[simp] theorem State.setPair_uiHeld (s : State) (off v : Nat) : (s.setPair off v).uiHeld = s.uiHeld := rfl
@[simp] theorem State.setPair_uiStamp (s : State) (off v : Nat) : (s.setPair off v).uiStamp = s.uiStamp := rfl
@[simp] theorem State.setPair_ao (s : State) (off v : Nat) : (s.setPair off v).ao = s.ao := rfl
@[simp] theorem State.setPair_fan (s : State) (off v : Nat) : (s.setPair off v).fan = s.fan := rfl
@[simp] theorem State.setPair_fanSilent (s : State) (off v : Nat) : (s.setPair off v).fanSilent = s.fanSilent := rfl
@[simp] theorem State.setPair_can (s : State) (off v : Nat) : (s.setPair off v).can = s.can := rfl
@[simp] theorem State.setPair_net (s : State) (off v : Nat) : (s.setPair off v).net = s.net := rfl
@[simp] theorem State.setPair_hostp (s : State) (off v : Nat) : (s.setPair off v).hostp = s.hostp := rfl
@[simp] theorem State.setPair_mbx (s : State) (off v : Nat) : (s.setPair off v).mbx = s.mbx := rfl
@[simp] theorem State.setPair_trap (s : State) (off v : Nat) : (s.setPair off v).trap = s.trap := rfl
@[simp] theorem State.setPair_rtc (s : State) (off v : Nat) : (s.setPair off v).rtc = s.rtc := rfl
@[simp] theorem State.setPair_key (s : State) (off v : Nat) : (s.setPair off v).key = s.key := rfl
@[simp] theorem State.setPair_upd (s : State) (off v : Nat) : (s.setPair off v).upd = s.upd := rfl
@[simp] theorem State.setPair_flt (s : State) (off v : Nat) : (s.setPair off v).flt = s.flt := rfl
@[simp] theorem State.setPair_dbg (s : State) (off v : Nat) : (s.setPair off v).dbg = s.dbg := rfl
@[simp] theorem State.setPair_pwr (s : State) (off v : Nat) : (s.setPair off v).pwr = s.pwr := rfl
@[simp] theorem State.setPair_image (s : State) (off v : Nat) : (s.setPair off v).image = s.image := rfl
@[simp] theorem State.setPair_cnt (s : State) (off v : Nat) : (s.setPair off v).cnt = s.cnt := rfl
@[simp] theorem State.setPair_stat (s : State) (off v : Nat) : (s.setPair off v).stat = s.stat := rfl
@[simp] theorem State.setPair_shadow (s : State) (off v : Nat) : (s.setPair off v).shadow = s.shadow := rfl
@[simp] theorem State.setPair_posted (s : State) (off v : Nat) : (s.setPair off v).posted = s.posted := rfl
@[simp] theorem State.setPair_free (s : State) (off v : Nat) : (s.setPair off v).free = s.free := rfl

/-! bumpMod -/

@[simp] theorem State.bumpMod_pending (s : State) (off hi lo : Nat) : (s.bumpMod off hi lo).pending = s.pending := rfl
@[simp] theorem State.bumpMod_rev (s : State) (off hi lo : Nat) : (s.bumpMod off hi lo).rev = s.rev := rfl
@[simp] theorem State.bumpMod_fuse (s : State) (off hi lo : Nat) : (s.bumpMod off hi lo).fuse = s.fuse := rfl
@[simp] theorem State.bumpMod_sys (s : State) (off hi lo : Nat) : (s.bumpMod off hi lo).sys = s.sys := rfl
@[simp] theorem State.bumpMod_crsl (s : State) (off hi lo : Nat) : (s.bumpMod off hi lo).crsl = s.crsl := rfl
@[simp] theorem State.bumpMod_ledger (s : State) (off hi lo : Nat) : (s.bumpMod off hi lo).ledger = s.ledger := rfl
@[simp] theorem State.bumpMod_pnt (s : State) (off hi lo : Nat) : (s.bumpMod off hi lo).pnt = s.pnt := rfl
@[simp] theorem State.bumpMod_loop (s : State) (off hi lo : Nat) : (s.bumpMod off hi lo).loop = s.loop := rfl
@[simp] theorem State.bumpMod_prg (s : State) (off hi lo : Nat) : (s.bumpMod off hi lo).prg = s.prg := rfl
@[simp] theorem State.bumpMod_prsm (s : State) (off hi lo : Nat) : (s.bumpMod off hi lo).prsm = s.prsm := rfl
@[simp] theorem State.bumpMod_fioGrp (s : State) (off hi lo : Nat) : (s.bumpMod off hi lo).fioGrp = s.fioGrp := rfl
@[simp] theorem State.bumpMod_fioCh (s : State) (off hi lo : Nat) : (s.bumpMod off hi lo).fioCh = s.fioCh := rfl
@[simp] theorem State.bumpMod_ui (s : State) (off hi lo : Nat) : (s.bumpMod off hi lo).ui = s.ui := rfl
@[simp] theorem State.bumpMod_uiBad (s : State) (off hi lo : Nat) : (s.bumpMod off hi lo).uiBad = s.uiBad := rfl
@[simp] theorem State.bumpMod_uiHeld (s : State) (off hi lo : Nat) : (s.bumpMod off hi lo).uiHeld = s.uiHeld := rfl
@[simp] theorem State.bumpMod_uiStamp (s : State) (off hi lo : Nat) : (s.bumpMod off hi lo).uiStamp = s.uiStamp := rfl
@[simp] theorem State.bumpMod_ao (s : State) (off hi lo : Nat) : (s.bumpMod off hi lo).ao = s.ao := rfl
@[simp] theorem State.bumpMod_fan (s : State) (off hi lo : Nat) : (s.bumpMod off hi lo).fan = s.fan := rfl
@[simp] theorem State.bumpMod_fanSilent (s : State) (off hi lo : Nat) : (s.bumpMod off hi lo).fanSilent = s.fanSilent := rfl
@[simp] theorem State.bumpMod_can (s : State) (off hi lo : Nat) : (s.bumpMod off hi lo).can = s.can := rfl
@[simp] theorem State.bumpMod_net (s : State) (off hi lo : Nat) : (s.bumpMod off hi lo).net = s.net := rfl
@[simp] theorem State.bumpMod_hostp (s : State) (off hi lo : Nat) : (s.bumpMod off hi lo).hostp = s.hostp := rfl
@[simp] theorem State.bumpMod_mbx (s : State) (off hi lo : Nat) : (s.bumpMod off hi lo).mbx = s.mbx := rfl
@[simp] theorem State.bumpMod_trap (s : State) (off hi lo : Nat) : (s.bumpMod off hi lo).trap = s.trap := rfl
@[simp] theorem State.bumpMod_rtc (s : State) (off hi lo : Nat) : (s.bumpMod off hi lo).rtc = s.rtc := rfl
@[simp] theorem State.bumpMod_key (s : State) (off hi lo : Nat) : (s.bumpMod off hi lo).key = s.key := rfl
@[simp] theorem State.bumpMod_upd (s : State) (off hi lo : Nat) : (s.bumpMod off hi lo).upd = s.upd := rfl
@[simp] theorem State.bumpMod_flt (s : State) (off hi lo : Nat) : (s.bumpMod off hi lo).flt = s.flt := rfl
@[simp] theorem State.bumpMod_dbg (s : State) (off hi lo : Nat) : (s.bumpMod off hi lo).dbg = s.dbg := rfl
@[simp] theorem State.bumpMod_pwr (s : State) (off hi lo : Nat) : (s.bumpMod off hi lo).pwr = s.pwr := rfl
@[simp] theorem State.bumpMod_image (s : State) (off hi lo : Nat) : (s.bumpMod off hi lo).image = s.image := rfl
@[simp] theorem State.bumpMod_cnt (s : State) (off hi lo : Nat) : (s.bumpMod off hi lo).cnt = s.cnt := rfl
@[simp] theorem State.bumpMod_stat (s : State) (off hi lo : Nat) : (s.bumpMod off hi lo).stat = s.stat := rfl
@[simp] theorem State.bumpMod_shadow (s : State) (off hi lo : Nat) : (s.bumpMod off hi lo).shadow = s.shadow := rfl
@[simp] theorem State.bumpMod_posted (s : State) (off hi lo : Nat) : (s.bumpMod off hi lo).posted = s.posted := rfl
@[simp] theorem State.bumpMod_free (s : State) (off hi lo : Nat) : (s.bumpMod off hi lo).free = s.free := rfl

/-! bumpSat -/

@[simp] theorem State.bumpSat_pending (s : State) (off hi lo : Nat) : (s.bumpSat off hi lo).pending = s.pending := rfl
@[simp] theorem State.bumpSat_rev (s : State) (off hi lo : Nat) : (s.bumpSat off hi lo).rev = s.rev := rfl
@[simp] theorem State.bumpSat_fuse (s : State) (off hi lo : Nat) : (s.bumpSat off hi lo).fuse = s.fuse := rfl
@[simp] theorem State.bumpSat_sys (s : State) (off hi lo : Nat) : (s.bumpSat off hi lo).sys = s.sys := rfl
@[simp] theorem State.bumpSat_crsl (s : State) (off hi lo : Nat) : (s.bumpSat off hi lo).crsl = s.crsl := rfl
@[simp] theorem State.bumpSat_ledger (s : State) (off hi lo : Nat) : (s.bumpSat off hi lo).ledger = s.ledger := rfl
@[simp] theorem State.bumpSat_pnt (s : State) (off hi lo : Nat) : (s.bumpSat off hi lo).pnt = s.pnt := rfl
@[simp] theorem State.bumpSat_loop (s : State) (off hi lo : Nat) : (s.bumpSat off hi lo).loop = s.loop := rfl
@[simp] theorem State.bumpSat_prg (s : State) (off hi lo : Nat) : (s.bumpSat off hi lo).prg = s.prg := rfl
@[simp] theorem State.bumpSat_prsm (s : State) (off hi lo : Nat) : (s.bumpSat off hi lo).prsm = s.prsm := rfl
@[simp] theorem State.bumpSat_fioGrp (s : State) (off hi lo : Nat) : (s.bumpSat off hi lo).fioGrp = s.fioGrp := rfl
@[simp] theorem State.bumpSat_fioCh (s : State) (off hi lo : Nat) : (s.bumpSat off hi lo).fioCh = s.fioCh := rfl
@[simp] theorem State.bumpSat_ui (s : State) (off hi lo : Nat) : (s.bumpSat off hi lo).ui = s.ui := rfl
@[simp] theorem State.bumpSat_uiBad (s : State) (off hi lo : Nat) : (s.bumpSat off hi lo).uiBad = s.uiBad := rfl
@[simp] theorem State.bumpSat_uiHeld (s : State) (off hi lo : Nat) : (s.bumpSat off hi lo).uiHeld = s.uiHeld := rfl
@[simp] theorem State.bumpSat_uiStamp (s : State) (off hi lo : Nat) : (s.bumpSat off hi lo).uiStamp = s.uiStamp := rfl
@[simp] theorem State.bumpSat_ao (s : State) (off hi lo : Nat) : (s.bumpSat off hi lo).ao = s.ao := rfl
@[simp] theorem State.bumpSat_fan (s : State) (off hi lo : Nat) : (s.bumpSat off hi lo).fan = s.fan := rfl
@[simp] theorem State.bumpSat_fanSilent (s : State) (off hi lo : Nat) : (s.bumpSat off hi lo).fanSilent = s.fanSilent := rfl
@[simp] theorem State.bumpSat_can (s : State) (off hi lo : Nat) : (s.bumpSat off hi lo).can = s.can := rfl
@[simp] theorem State.bumpSat_net (s : State) (off hi lo : Nat) : (s.bumpSat off hi lo).net = s.net := rfl
@[simp] theorem State.bumpSat_hostp (s : State) (off hi lo : Nat) : (s.bumpSat off hi lo).hostp = s.hostp := rfl
@[simp] theorem State.bumpSat_mbx (s : State) (off hi lo : Nat) : (s.bumpSat off hi lo).mbx = s.mbx := rfl
@[simp] theorem State.bumpSat_trap (s : State) (off hi lo : Nat) : (s.bumpSat off hi lo).trap = s.trap := rfl
@[simp] theorem State.bumpSat_rtc (s : State) (off hi lo : Nat) : (s.bumpSat off hi lo).rtc = s.rtc := rfl
@[simp] theorem State.bumpSat_key (s : State) (off hi lo : Nat) : (s.bumpSat off hi lo).key = s.key := rfl
@[simp] theorem State.bumpSat_upd (s : State) (off hi lo : Nat) : (s.bumpSat off hi lo).upd = s.upd := rfl
@[simp] theorem State.bumpSat_flt (s : State) (off hi lo : Nat) : (s.bumpSat off hi lo).flt = s.flt := rfl
@[simp] theorem State.bumpSat_dbg (s : State) (off hi lo : Nat) : (s.bumpSat off hi lo).dbg = s.dbg := rfl
@[simp] theorem State.bumpSat_pwr (s : State) (off hi lo : Nat) : (s.bumpSat off hi lo).pwr = s.pwr := rfl
@[simp] theorem State.bumpSat_image (s : State) (off hi lo : Nat) : (s.bumpSat off hi lo).image = s.image := rfl
@[simp] theorem State.bumpSat_cnt (s : State) (off hi lo : Nat) : (s.bumpSat off hi lo).cnt = s.cnt := rfl
@[simp] theorem State.bumpSat_stat (s : State) (off hi lo : Nat) : (s.bumpSat off hi lo).stat = s.stat := rfl
@[simp] theorem State.bumpSat_shadow (s : State) (off hi lo : Nat) : (s.bumpSat off hi lo).shadow = s.shadow := rfl
@[simp] theorem State.bumpSat_posted (s : State) (off hi lo : Nat) : (s.bumpSat off hi lo).posted = s.posted := rfl
@[simp] theorem State.bumpSat_free (s : State) (off hi lo : Nat) : (s.bumpSat off hi lo).free = s.free := rfl

/-! count -/

@[simp] theorem State.count_pending (s : State) (off n : Nat) : (s.count off n).pending = s.pending := rfl
@[simp] theorem State.count_rev (s : State) (off n : Nat) : (s.count off n).rev = s.rev := rfl
@[simp] theorem State.count_fuse (s : State) (off n : Nat) : (s.count off n).fuse = s.fuse := rfl
@[simp] theorem State.count_sys (s : State) (off n : Nat) : (s.count off n).sys = s.sys := rfl
@[simp] theorem State.count_crsl (s : State) (off n : Nat) : (s.count off n).crsl = s.crsl := rfl
@[simp] theorem State.count_ledger (s : State) (off n : Nat) : (s.count off n).ledger = s.ledger := rfl
@[simp] theorem State.count_pnt (s : State) (off n : Nat) : (s.count off n).pnt = s.pnt := rfl
@[simp] theorem State.count_loop (s : State) (off n : Nat) : (s.count off n).loop = s.loop := rfl
@[simp] theorem State.count_prg (s : State) (off n : Nat) : (s.count off n).prg = s.prg := rfl
@[simp] theorem State.count_prsm (s : State) (off n : Nat) : (s.count off n).prsm = s.prsm := rfl
@[simp] theorem State.count_fioGrp (s : State) (off n : Nat) : (s.count off n).fioGrp = s.fioGrp := rfl
@[simp] theorem State.count_fioCh (s : State) (off n : Nat) : (s.count off n).fioCh = s.fioCh := rfl
@[simp] theorem State.count_ui (s : State) (off n : Nat) : (s.count off n).ui = s.ui := rfl
@[simp] theorem State.count_uiBad (s : State) (off n : Nat) : (s.count off n).uiBad = s.uiBad := rfl
@[simp] theorem State.count_uiHeld (s : State) (off n : Nat) : (s.count off n).uiHeld = s.uiHeld := rfl
@[simp] theorem State.count_uiStamp (s : State) (off n : Nat) : (s.count off n).uiStamp = s.uiStamp := rfl
@[simp] theorem State.count_ao (s : State) (off n : Nat) : (s.count off n).ao = s.ao := rfl
@[simp] theorem State.count_fan (s : State) (off n : Nat) : (s.count off n).fan = s.fan := rfl
@[simp] theorem State.count_fanSilent (s : State) (off n : Nat) : (s.count off n).fanSilent = s.fanSilent := rfl
@[simp] theorem State.count_can (s : State) (off n : Nat) : (s.count off n).can = s.can := rfl
@[simp] theorem State.count_net (s : State) (off n : Nat) : (s.count off n).net = s.net := rfl
@[simp] theorem State.count_hostp (s : State) (off n : Nat) : (s.count off n).hostp = s.hostp := rfl
@[simp] theorem State.count_mbx (s : State) (off n : Nat) : (s.count off n).mbx = s.mbx := rfl
@[simp] theorem State.count_trap (s : State) (off n : Nat) : (s.count off n).trap = s.trap := rfl
@[simp] theorem State.count_rtc (s : State) (off n : Nat) : (s.count off n).rtc = s.rtc := rfl
@[simp] theorem State.count_key (s : State) (off n : Nat) : (s.count off n).key = s.key := rfl
@[simp] theorem State.count_upd (s : State) (off n : Nat) : (s.count off n).upd = s.upd := rfl
@[simp] theorem State.count_flt (s : State) (off n : Nat) : (s.count off n).flt = s.flt := rfl
@[simp] theorem State.count_dbg (s : State) (off n : Nat) : (s.count off n).dbg = s.dbg := rfl
@[simp] theorem State.count_pwr (s : State) (off n : Nat) : (s.count off n).pwr = s.pwr := rfl
@[simp] theorem State.count_regs (s : State) (off n : Nat) : (s.count off n).regs = s.regs := rfl
@[simp] theorem State.count_image (s : State) (off n : Nat) : (s.count off n).image = s.image := rfl
@[simp] theorem State.count_stat (s : State) (off n : Nat) : (s.count off n).stat = s.stat := rfl
@[simp] theorem State.count_shadow (s : State) (off n : Nat) : (s.count off n).shadow = s.shadow := rfl
@[simp] theorem State.count_posted (s : State) (off n : Nat) : (s.count off n).posted = s.posted := rfl
@[simp] theorem State.count_free (s : State) (off n : Nat) : (s.count off n).free = s.free := rfl

/-! setSQ -/

@[simp] theorem State.setSQ_pending (s : State) (blk bit : Nat) : (s.setSQ blk bit).pending = s.pending := rfl
@[simp] theorem State.setSQ_rev (s : State) (blk bit : Nat) : (s.setSQ blk bit).rev = s.rev := rfl
@[simp] theorem State.setSQ_fuse (s : State) (blk bit : Nat) : (s.setSQ blk bit).fuse = s.fuse := rfl
@[simp] theorem State.setSQ_sys (s : State) (blk bit : Nat) : (s.setSQ blk bit).sys = s.sys := rfl
@[simp] theorem State.setSQ_crsl (s : State) (blk bit : Nat) : (s.setSQ blk bit).crsl = s.crsl := rfl
@[simp] theorem State.setSQ_ledger (s : State) (blk bit : Nat) : (s.setSQ blk bit).ledger = s.ledger := rfl
@[simp] theorem State.setSQ_pnt (s : State) (blk bit : Nat) : (s.setSQ blk bit).pnt = s.pnt := rfl
@[simp] theorem State.setSQ_loop (s : State) (blk bit : Nat) : (s.setSQ blk bit).loop = s.loop := rfl
@[simp] theorem State.setSQ_prg (s : State) (blk bit : Nat) : (s.setSQ blk bit).prg = s.prg := rfl
@[simp] theorem State.setSQ_prsm (s : State) (blk bit : Nat) : (s.setSQ blk bit).prsm = s.prsm := rfl
@[simp] theorem State.setSQ_fioGrp (s : State) (blk bit : Nat) : (s.setSQ blk bit).fioGrp = s.fioGrp := rfl
@[simp] theorem State.setSQ_fioCh (s : State) (blk bit : Nat) : (s.setSQ blk bit).fioCh = s.fioCh := rfl
@[simp] theorem State.setSQ_ui (s : State) (blk bit : Nat) : (s.setSQ blk bit).ui = s.ui := rfl
@[simp] theorem State.setSQ_uiBad (s : State) (blk bit : Nat) : (s.setSQ blk bit).uiBad = s.uiBad := rfl
@[simp] theorem State.setSQ_uiHeld (s : State) (blk bit : Nat) : (s.setSQ blk bit).uiHeld = s.uiHeld := rfl
@[simp] theorem State.setSQ_uiStamp (s : State) (blk bit : Nat) : (s.setSQ blk bit).uiStamp = s.uiStamp := rfl
@[simp] theorem State.setSQ_ao (s : State) (blk bit : Nat) : (s.setSQ blk bit).ao = s.ao := rfl
@[simp] theorem State.setSQ_fan (s : State) (blk bit : Nat) : (s.setSQ blk bit).fan = s.fan := rfl
@[simp] theorem State.setSQ_fanSilent (s : State) (blk bit : Nat) : (s.setSQ blk bit).fanSilent = s.fanSilent := rfl
@[simp] theorem State.setSQ_can (s : State) (blk bit : Nat) : (s.setSQ blk bit).can = s.can := rfl
@[simp] theorem State.setSQ_net (s : State) (blk bit : Nat) : (s.setSQ blk bit).net = s.net := rfl
@[simp] theorem State.setSQ_hostp (s : State) (blk bit : Nat) : (s.setSQ blk bit).hostp = s.hostp := rfl
@[simp] theorem State.setSQ_mbx (s : State) (blk bit : Nat) : (s.setSQ blk bit).mbx = s.mbx := rfl
@[simp] theorem State.setSQ_trap (s : State) (blk bit : Nat) : (s.setSQ blk bit).trap = s.trap := rfl
@[simp] theorem State.setSQ_rtc (s : State) (blk bit : Nat) : (s.setSQ blk bit).rtc = s.rtc := rfl
@[simp] theorem State.setSQ_key (s : State) (blk bit : Nat) : (s.setSQ blk bit).key = s.key := rfl
@[simp] theorem State.setSQ_upd (s : State) (blk bit : Nat) : (s.setSQ blk bit).upd = s.upd := rfl
@[simp] theorem State.setSQ_flt (s : State) (blk bit : Nat) : (s.setSQ blk bit).flt = s.flt := rfl
@[simp] theorem State.setSQ_dbg (s : State) (blk bit : Nat) : (s.setSQ blk bit).dbg = s.dbg := rfl
@[simp] theorem State.setSQ_pwr (s : State) (blk bit : Nat) : (s.setSQ blk bit).pwr = s.pwr := rfl
@[simp] theorem State.setSQ_regs (s : State) (blk bit : Nat) : (s.setSQ blk bit).regs = s.regs := rfl
@[simp] theorem State.setSQ_image (s : State) (blk bit : Nat) : (s.setSQ blk bit).image = s.image := rfl
@[simp] theorem State.setSQ_cnt (s : State) (blk bit : Nat) : (s.setSQ blk bit).cnt = s.cnt := rfl
@[simp] theorem State.setSQ_shadow (s : State) (blk bit : Nat) : (s.setSQ blk bit).shadow = s.shadow := rfl
@[simp] theorem State.setSQ_posted (s : State) (blk bit : Nat) : (s.setSQ blk bit).posted = s.posted := rfl
@[simp] theorem State.setSQ_free (s : State) (blk bit : Nat) : (s.setSQ blk bit).free = s.free := rfl

/-! draw -/

@[simp] theorem State.draw_pending (s : State) : (s.draw).pending = s.pending := rfl
@[simp] theorem State.draw_rev (s : State) : (s.draw).rev = s.rev := rfl
@[simp] theorem State.draw_fuse (s : State) : (s.draw).fuse = s.fuse := rfl
@[simp] theorem State.draw_sys (s : State) : (s.draw).sys = s.sys := rfl
@[simp] theorem State.draw_crsl (s : State) : (s.draw).crsl = s.crsl := rfl
@[simp] theorem State.draw_ledger (s : State) : (s.draw).ledger = s.ledger := rfl
@[simp] theorem State.draw_pnt (s : State) : (s.draw).pnt = s.pnt := rfl
@[simp] theorem State.draw_loop (s : State) : (s.draw).loop = s.loop := rfl
@[simp] theorem State.draw_prg (s : State) : (s.draw).prg = s.prg := rfl
@[simp] theorem State.draw_prsm (s : State) : (s.draw).prsm = s.prsm := rfl
@[simp] theorem State.draw_fioGrp (s : State) : (s.draw).fioGrp = s.fioGrp := rfl
@[simp] theorem State.draw_fioCh (s : State) : (s.draw).fioCh = s.fioCh := rfl
@[simp] theorem State.draw_ui (s : State) : (s.draw).ui = s.ui := rfl
@[simp] theorem State.draw_uiBad (s : State) : (s.draw).uiBad = s.uiBad := rfl
@[simp] theorem State.draw_uiHeld (s : State) : (s.draw).uiHeld = s.uiHeld := rfl
@[simp] theorem State.draw_uiStamp (s : State) : (s.draw).uiStamp = s.uiStamp := rfl
@[simp] theorem State.draw_ao (s : State) : (s.draw).ao = s.ao := rfl
@[simp] theorem State.draw_fan (s : State) : (s.draw).fan = s.fan := rfl
@[simp] theorem State.draw_fanSilent (s : State) : (s.draw).fanSilent = s.fanSilent := rfl
@[simp] theorem State.draw_can (s : State) : (s.draw).can = s.can := rfl
@[simp] theorem State.draw_net (s : State) : (s.draw).net = s.net := rfl
@[simp] theorem State.draw_hostp (s : State) : (s.draw).hostp = s.hostp := rfl
@[simp] theorem State.draw_mbx (s : State) : (s.draw).mbx = s.mbx := rfl
@[simp] theorem State.draw_trap (s : State) : (s.draw).trap = s.trap := rfl
@[simp] theorem State.draw_rtc (s : State) : (s.draw).rtc = s.rtc := rfl
@[simp] theorem State.draw_key (s : State) : (s.draw).key = s.key := rfl
@[simp] theorem State.draw_upd (s : State) : (s.draw).upd = s.upd := rfl
@[simp] theorem State.draw_flt (s : State) : (s.draw).flt = s.flt := rfl
@[simp] theorem State.draw_dbg (s : State) : (s.draw).dbg = s.dbg := rfl
@[simp] theorem State.draw_pwr (s : State) : (s.draw).pwr = s.pwr := rfl
@[simp] theorem State.draw_regs (s : State) : (s.draw).regs = s.regs := rfl
@[simp] theorem State.draw_image (s : State) : (s.draw).image = s.image := rfl
@[simp] theorem State.draw_cnt (s : State) : (s.draw).cnt = s.cnt := rfl
@[simp] theorem State.draw_stat (s : State) : (s.draw).stat = s.stat := rfl
@[simp] theorem State.draw_shadow (s : State) : (s.draw).shadow = s.shadow := rfl
@[simp] theorem State.draw_posted (s : State) : (s.draw).posted = s.posted := rfl

/-! setQ -/

@[simp] theorem State.setQ_pending (s : State) (n : Nat) (q : Queue) : (s.setQ n q).pending = s.pending := rfl
@[simp] theorem State.setQ_rev (s : State) (n : Nat) (q : Queue) : (s.setQ n q).rev = s.rev := rfl
@[simp] theorem State.setQ_fuse (s : State) (n : Nat) (q : Queue) : (s.setQ n q).fuse = s.fuse := rfl
@[simp] theorem State.setQ_sys (s : State) (n : Nat) (q : Queue) : (s.setQ n q).sys = s.sys := rfl
@[simp] theorem State.setQ_crsl (s : State) (n : Nat) (q : Queue) : (s.setQ n q).crsl = s.crsl := rfl
@[simp] theorem State.setQ_ledger (s : State) (n : Nat) (q : Queue) : (s.setQ n q).ledger = s.ledger := rfl
@[simp] theorem State.setQ_pnt (s : State) (n : Nat) (q : Queue) : (s.setQ n q).pnt = s.pnt := rfl
@[simp] theorem State.setQ_loop (s : State) (n : Nat) (q : Queue) : (s.setQ n q).loop = s.loop := rfl
@[simp] theorem State.setQ_prg (s : State) (n : Nat) (q : Queue) : (s.setQ n q).prg = s.prg := rfl
@[simp] theorem State.setQ_prsm (s : State) (n : Nat) (q : Queue) : (s.setQ n q).prsm = s.prsm := rfl
@[simp] theorem State.setQ_fioGrp (s : State) (n : Nat) (q : Queue) : (s.setQ n q).fioGrp = s.fioGrp := rfl
@[simp] theorem State.setQ_fioCh (s : State) (n : Nat) (q : Queue) : (s.setQ n q).fioCh = s.fioCh := rfl
@[simp] theorem State.setQ_ui (s : State) (n : Nat) (q : Queue) : (s.setQ n q).ui = s.ui := rfl
@[simp] theorem State.setQ_uiBad (s : State) (n : Nat) (q : Queue) : (s.setQ n q).uiBad = s.uiBad := rfl
@[simp] theorem State.setQ_uiHeld (s : State) (n : Nat) (q : Queue) : (s.setQ n q).uiHeld = s.uiHeld := rfl
@[simp] theorem State.setQ_uiStamp (s : State) (n : Nat) (q : Queue) : (s.setQ n q).uiStamp = s.uiStamp := rfl
@[simp] theorem State.setQ_ao (s : State) (n : Nat) (q : Queue) : (s.setQ n q).ao = s.ao := rfl
@[simp] theorem State.setQ_fan (s : State) (n : Nat) (q : Queue) : (s.setQ n q).fan = s.fan := rfl
@[simp] theorem State.setQ_fanSilent (s : State) (n : Nat) (q : Queue) : (s.setQ n q).fanSilent = s.fanSilent := rfl
@[simp] theorem State.setQ_can (s : State) (n : Nat) (q : Queue) : (s.setQ n q).can = s.can := rfl
@[simp] theorem State.setQ_net (s : State) (n : Nat) (q : Queue) : (s.setQ n q).net = s.net := rfl
@[simp] theorem State.setQ_mbx (s : State) (n : Nat) (q : Queue) : (s.setQ n q).mbx = s.mbx := rfl
@[simp] theorem State.setQ_trap (s : State) (n : Nat) (q : Queue) : (s.setQ n q).trap = s.trap := rfl
@[simp] theorem State.setQ_rtc (s : State) (n : Nat) (q : Queue) : (s.setQ n q).rtc = s.rtc := rfl
@[simp] theorem State.setQ_key (s : State) (n : Nat) (q : Queue) : (s.setQ n q).key = s.key := rfl
@[simp] theorem State.setQ_upd (s : State) (n : Nat) (q : Queue) : (s.setQ n q).upd = s.upd := rfl
@[simp] theorem State.setQ_flt (s : State) (n : Nat) (q : Queue) : (s.setQ n q).flt = s.flt := rfl
@[simp] theorem State.setQ_dbg (s : State) (n : Nat) (q : Queue) : (s.setQ n q).dbg = s.dbg := rfl
@[simp] theorem State.setQ_pwr (s : State) (n : Nat) (q : Queue) : (s.setQ n q).pwr = s.pwr := rfl
@[simp] theorem State.setQ_regs (s : State) (n : Nat) (q : Queue) : (s.setQ n q).regs = s.regs := rfl
@[simp] theorem State.setQ_image (s : State) (n : Nat) (q : Queue) : (s.setQ n q).image = s.image := rfl
@[simp] theorem State.setQ_cnt (s : State) (n : Nat) (q : Queue) : (s.setQ n q).cnt = s.cnt := rfl
@[simp] theorem State.setQ_stat (s : State) (n : Nat) (q : Queue) : (s.setQ n q).stat = s.stat := rfl
@[simp] theorem State.setQ_shadow (s : State) (n : Nat) (q : Queue) : (s.setQ n q).shadow = s.shadow := rfl
@[simp] theorem State.setQ_posted (s : State) (n : Nat) (q : Queue) : (s.setQ n q).posted = s.posted := rfl
@[simp] theorem State.setQ_free (s : State) (n : Nat) (q : Queue) : (s.setQ n q).free = s.free := rfl

/-! setPath -/

@[simp] theorem State.setPath_pending (s : State) (p : Path) (r : PathRec) : (s.setPath p r).pending = s.pending := rfl
@[simp] theorem State.setPath_rev (s : State) (p : Path) (r : PathRec) : (s.setPath p r).rev = s.rev := rfl
@[simp] theorem State.setPath_fuse (s : State) (p : Path) (r : PathRec) : (s.setPath p r).fuse = s.fuse := rfl
@[simp] theorem State.setPath_sys (s : State) (p : Path) (r : PathRec) : (s.setPath p r).sys = s.sys := rfl
@[simp] theorem State.setPath_crsl (s : State) (p : Path) (r : PathRec) : (s.setPath p r).crsl = s.crsl := rfl
@[simp] theorem State.setPath_ledger (s : State) (p : Path) (r : PathRec) : (s.setPath p r).ledger = s.ledger := rfl
@[simp] theorem State.setPath_pnt (s : State) (p : Path) (r : PathRec) : (s.setPath p r).pnt = s.pnt := rfl
@[simp] theorem State.setPath_loop (s : State) (p : Path) (r : PathRec) : (s.setPath p r).loop = s.loop := rfl
@[simp] theorem State.setPath_prg (s : State) (p : Path) (r : PathRec) : (s.setPath p r).prg = s.prg := rfl
@[simp] theorem State.setPath_prsm (s : State) (p : Path) (r : PathRec) : (s.setPath p r).prsm = s.prsm := rfl
@[simp] theorem State.setPath_fioGrp (s : State) (p : Path) (r : PathRec) : (s.setPath p r).fioGrp = s.fioGrp := rfl
@[simp] theorem State.setPath_fioCh (s : State) (p : Path) (r : PathRec) : (s.setPath p r).fioCh = s.fioCh := rfl
@[simp] theorem State.setPath_ui (s : State) (p : Path) (r : PathRec) : (s.setPath p r).ui = s.ui := rfl
@[simp] theorem State.setPath_uiBad (s : State) (p : Path) (r : PathRec) : (s.setPath p r).uiBad = s.uiBad := rfl
@[simp] theorem State.setPath_uiHeld (s : State) (p : Path) (r : PathRec) : (s.setPath p r).uiHeld = s.uiHeld := rfl
@[simp] theorem State.setPath_uiStamp (s : State) (p : Path) (r : PathRec) : (s.setPath p r).uiStamp = s.uiStamp := rfl
@[simp] theorem State.setPath_ao (s : State) (p : Path) (r : PathRec) : (s.setPath p r).ao = s.ao := rfl
@[simp] theorem State.setPath_fan (s : State) (p : Path) (r : PathRec) : (s.setPath p r).fan = s.fan := rfl
@[simp] theorem State.setPath_fanSilent (s : State) (p : Path) (r : PathRec) : (s.setPath p r).fanSilent = s.fanSilent := rfl
@[simp] theorem State.setPath_can (s : State) (p : Path) (r : PathRec) : (s.setPath p r).can = s.can := rfl
@[simp] theorem State.setPath_net (s : State) (p : Path) (r : PathRec) : (s.setPath p r).net = s.net := rfl
@[simp] theorem State.setPath_mbx (s : State) (p : Path) (r : PathRec) : (s.setPath p r).mbx = s.mbx := rfl
@[simp] theorem State.setPath_trap (s : State) (p : Path) (r : PathRec) : (s.setPath p r).trap = s.trap := rfl
@[simp] theorem State.setPath_rtc (s : State) (p : Path) (r : PathRec) : (s.setPath p r).rtc = s.rtc := rfl
@[simp] theorem State.setPath_key (s : State) (p : Path) (r : PathRec) : (s.setPath p r).key = s.key := rfl
@[simp] theorem State.setPath_upd (s : State) (p : Path) (r : PathRec) : (s.setPath p r).upd = s.upd := rfl
@[simp] theorem State.setPath_flt (s : State) (p : Path) (r : PathRec) : (s.setPath p r).flt = s.flt := rfl
@[simp] theorem State.setPath_dbg (s : State) (p : Path) (r : PathRec) : (s.setPath p r).dbg = s.dbg := rfl
@[simp] theorem State.setPath_pwr (s : State) (p : Path) (r : PathRec) : (s.setPath p r).pwr = s.pwr := rfl
@[simp] theorem State.setPath_regs (s : State) (p : Path) (r : PathRec) : (s.setPath p r).regs = s.regs := rfl
@[simp] theorem State.setPath_image (s : State) (p : Path) (r : PathRec) : (s.setPath p r).image = s.image := rfl
@[simp] theorem State.setPath_cnt (s : State) (p : Path) (r : PathRec) : (s.setPath p r).cnt = s.cnt := rfl
@[simp] theorem State.setPath_stat (s : State) (p : Path) (r : PathRec) : (s.setPath p r).stat = s.stat := rfl
@[simp] theorem State.setPath_shadow (s : State) (p : Path) (r : PathRec) : (s.setPath p r).shadow = s.shadow := rfl
@[simp] theorem State.setPath_posted (s : State) (p : Path) (r : PathRec) : (s.setPath p r).posted = s.posted := rfl
@[simp] theorem State.setPath_free (s : State) (p : Path) (r : PathRec) : (s.setPath p r).free = s.free := rfl

/-! setDout -/

@[simp] theorem State.setDout_pending (s : State) (ws : List W32) : (s.setDout ws).pending = s.pending := rfl
@[simp] theorem State.setDout_rev (s : State) (ws : List W32) : (s.setDout ws).rev = s.rev := rfl
@[simp] theorem State.setDout_fuse (s : State) (ws : List W32) : (s.setDout ws).fuse = s.fuse := rfl
@[simp] theorem State.setDout_sys (s : State) (ws : List W32) : (s.setDout ws).sys = s.sys := rfl
@[simp] theorem State.setDout_crsl (s : State) (ws : List W32) : (s.setDout ws).crsl = s.crsl := rfl
@[simp] theorem State.setDout_ledger (s : State) (ws : List W32) : (s.setDout ws).ledger = s.ledger := rfl
@[simp] theorem State.setDout_pnt (s : State) (ws : List W32) : (s.setDout ws).pnt = s.pnt := rfl
@[simp] theorem State.setDout_loop (s : State) (ws : List W32) : (s.setDout ws).loop = s.loop := rfl
@[simp] theorem State.setDout_prg (s : State) (ws : List W32) : (s.setDout ws).prg = s.prg := rfl
@[simp] theorem State.setDout_prsm (s : State) (ws : List W32) : (s.setDout ws).prsm = s.prsm := rfl
@[simp] theorem State.setDout_fioGrp (s : State) (ws : List W32) : (s.setDout ws).fioGrp = s.fioGrp := rfl
@[simp] theorem State.setDout_fioCh (s : State) (ws : List W32) : (s.setDout ws).fioCh = s.fioCh := rfl
@[simp] theorem State.setDout_ui (s : State) (ws : List W32) : (s.setDout ws).ui = s.ui := rfl
@[simp] theorem State.setDout_uiBad (s : State) (ws : List W32) : (s.setDout ws).uiBad = s.uiBad := rfl
@[simp] theorem State.setDout_uiHeld (s : State) (ws : List W32) : (s.setDout ws).uiHeld = s.uiHeld := rfl
@[simp] theorem State.setDout_uiStamp (s : State) (ws : List W32) : (s.setDout ws).uiStamp = s.uiStamp := rfl
@[simp] theorem State.setDout_ao (s : State) (ws : List W32) : (s.setDout ws).ao = s.ao := rfl
@[simp] theorem State.setDout_fan (s : State) (ws : List W32) : (s.setDout ws).fan = s.fan := rfl
@[simp] theorem State.setDout_fanSilent (s : State) (ws : List W32) : (s.setDout ws).fanSilent = s.fanSilent := rfl
@[simp] theorem State.setDout_can (s : State) (ws : List W32) : (s.setDout ws).can = s.can := rfl
@[simp] theorem State.setDout_net (s : State) (ws : List W32) : (s.setDout ws).net = s.net := rfl
@[simp] theorem State.setDout_mbx (s : State) (ws : List W32) : (s.setDout ws).mbx = s.mbx := rfl
@[simp] theorem State.setDout_trap (s : State) (ws : List W32) : (s.setDout ws).trap = s.trap := rfl
@[simp] theorem State.setDout_rtc (s : State) (ws : List W32) : (s.setDout ws).rtc = s.rtc := rfl
@[simp] theorem State.setDout_key (s : State) (ws : List W32) : (s.setDout ws).key = s.key := rfl
@[simp] theorem State.setDout_upd (s : State) (ws : List W32) : (s.setDout ws).upd = s.upd := rfl
@[simp] theorem State.setDout_flt (s : State) (ws : List W32) : (s.setDout ws).flt = s.flt := rfl
@[simp] theorem State.setDout_dbg (s : State) (ws : List W32) : (s.setDout ws).dbg = s.dbg := rfl
@[simp] theorem State.setDout_pwr (s : State) (ws : List W32) : (s.setDout ws).pwr = s.pwr := rfl
@[simp] theorem State.setDout_regs (s : State) (ws : List W32) : (s.setDout ws).regs = s.regs := rfl
@[simp] theorem State.setDout_image (s : State) (ws : List W32) : (s.setDout ws).image = s.image := rfl
@[simp] theorem State.setDout_cnt (s : State) (ws : List W32) : (s.setDout ws).cnt = s.cnt := rfl
@[simp] theorem State.setDout_stat (s : State) (ws : List W32) : (s.setDout ws).stat = s.stat := rfl
@[simp] theorem State.setDout_shadow (s : State) (ws : List W32) : (s.setDout ws).shadow = s.shadow := rfl
@[simp] theorem State.setDout_posted (s : State) (ws : List W32) : (s.setDout ws).posted = s.posted := rfl
@[simp] theorem State.setDout_free (s : State) (ws : List W32) : (s.setDout ws).free = s.free := rfl

/-! storeRec -/

@[simp] theorem State.storeRec_pending (s : State) (p : Nat) (r : PRec) : (s.storeRec p r).pending = s.pending := rfl
@[simp] theorem State.storeRec_rev (s : State) (p : Nat) (r : PRec) : (s.storeRec p r).rev = s.rev := rfl
@[simp] theorem State.storeRec_fuse (s : State) (p : Nat) (r : PRec) : (s.storeRec p r).fuse = s.fuse := rfl
@[simp] theorem State.storeRec_sys (s : State) (p : Nat) (r : PRec) : (s.storeRec p r).sys = s.sys := rfl
@[simp] theorem State.storeRec_crsl (s : State) (p : Nat) (r : PRec) : (s.storeRec p r).crsl = s.crsl := rfl
@[simp] theorem State.storeRec_ledger (s : State) (p : Nat) (r : PRec) : (s.storeRec p r).ledger = s.ledger := rfl
@[simp] theorem State.storeRec_loop (s : State) (p : Nat) (r : PRec) : (s.storeRec p r).loop = s.loop := rfl
@[simp] theorem State.storeRec_prg (s : State) (p : Nat) (r : PRec) : (s.storeRec p r).prg = s.prg := rfl
@[simp] theorem State.storeRec_prsm (s : State) (p : Nat) (r : PRec) : (s.storeRec p r).prsm = s.prsm := rfl
@[simp] theorem State.storeRec_fioGrp (s : State) (p : Nat) (r : PRec) : (s.storeRec p r).fioGrp = s.fioGrp := rfl
@[simp] theorem State.storeRec_fioCh (s : State) (p : Nat) (r : PRec) : (s.storeRec p r).fioCh = s.fioCh := rfl
@[simp] theorem State.storeRec_ui (s : State) (p : Nat) (r : PRec) : (s.storeRec p r).ui = s.ui := rfl
@[simp] theorem State.storeRec_uiBad (s : State) (p : Nat) (r : PRec) : (s.storeRec p r).uiBad = s.uiBad := rfl
@[simp] theorem State.storeRec_uiHeld (s : State) (p : Nat) (r : PRec) : (s.storeRec p r).uiHeld = s.uiHeld := rfl
@[simp] theorem State.storeRec_uiStamp (s : State) (p : Nat) (r : PRec) : (s.storeRec p r).uiStamp = s.uiStamp := rfl
@[simp] theorem State.storeRec_ao (s : State) (p : Nat) (r : PRec) : (s.storeRec p r).ao = s.ao := rfl
@[simp] theorem State.storeRec_fan (s : State) (p : Nat) (r : PRec) : (s.storeRec p r).fan = s.fan := rfl
@[simp] theorem State.storeRec_fanSilent (s : State) (p : Nat) (r : PRec) : (s.storeRec p r).fanSilent = s.fanSilent := rfl
@[simp] theorem State.storeRec_can (s : State) (p : Nat) (r : PRec) : (s.storeRec p r).can = s.can := rfl
@[simp] theorem State.storeRec_net (s : State) (p : Nat) (r : PRec) : (s.storeRec p r).net = s.net := rfl
@[simp] theorem State.storeRec_hostp (s : State) (p : Nat) (r : PRec) : (s.storeRec p r).hostp = s.hostp := rfl
@[simp] theorem State.storeRec_mbx (s : State) (p : Nat) (r : PRec) : (s.storeRec p r).mbx = s.mbx := rfl
@[simp] theorem State.storeRec_trap (s : State) (p : Nat) (r : PRec) : (s.storeRec p r).trap = s.trap := rfl
@[simp] theorem State.storeRec_rtc (s : State) (p : Nat) (r : PRec) : (s.storeRec p r).rtc = s.rtc := rfl
@[simp] theorem State.storeRec_key (s : State) (p : Nat) (r : PRec) : (s.storeRec p r).key = s.key := rfl
@[simp] theorem State.storeRec_upd (s : State) (p : Nat) (r : PRec) : (s.storeRec p r).upd = s.upd := rfl
@[simp] theorem State.storeRec_flt (s : State) (p : Nat) (r : PRec) : (s.storeRec p r).flt = s.flt := rfl
@[simp] theorem State.storeRec_dbg (s : State) (p : Nat) (r : PRec) : (s.storeRec p r).dbg = s.dbg := rfl
@[simp] theorem State.storeRec_pwr (s : State) (p : Nat) (r : PRec) : (s.storeRec p r).pwr = s.pwr := rfl
@[simp] theorem State.storeRec_regs (s : State) (p : Nat) (r : PRec) : (s.storeRec p r).regs = s.regs := rfl
@[simp] theorem State.storeRec_image (s : State) (p : Nat) (r : PRec) : (s.storeRec p r).image = s.image := rfl
@[simp] theorem State.storeRec_cnt (s : State) (p : Nat) (r : PRec) : (s.storeRec p r).cnt = s.cnt := rfl
@[simp] theorem State.storeRec_stat (s : State) (p : Nat) (r : PRec) : (s.storeRec p r).stat = s.stat := rfl
@[simp] theorem State.storeRec_shadow (s : State) (p : Nat) (r : PRec) : (s.storeRec p r).shadow = s.shadow := rfl
@[simp] theorem State.storeRec_posted (s : State) (p : Nat) (r : PRec) : (s.storeRec p r).posted = s.posted := rfl
@[simp] theorem State.storeRec_free (s : State) (p : Nat) (r : PRec) : (s.storeRec p r).free = s.free := rfl

/-! writeRec -/

@[simp] theorem State.writeRec_pending (s : State) (p : Nat) (r : PRec) : (s.writeRec p r).pending = s.pending := rfl
@[simp] theorem State.writeRec_rev (s : State) (p : Nat) (r : PRec) : (s.writeRec p r).rev = s.rev := rfl
@[simp] theorem State.writeRec_fuse (s : State) (p : Nat) (r : PRec) : (s.writeRec p r).fuse = s.fuse := rfl
@[simp] theorem State.writeRec_sys (s : State) (p : Nat) (r : PRec) : (s.writeRec p r).sys = s.sys := rfl
@[simp] theorem State.writeRec_crsl (s : State) (p : Nat) (r : PRec) : (s.writeRec p r).crsl = s.crsl := rfl
@[simp] theorem State.writeRec_ledger (s : State) (p : Nat) (r : PRec) : (s.writeRec p r).ledger = s.ledger := rfl
@[simp] theorem State.writeRec_loop (s : State) (p : Nat) (r : PRec) : (s.writeRec p r).loop = s.loop := rfl
@[simp] theorem State.writeRec_prg (s : State) (p : Nat) (r : PRec) : (s.writeRec p r).prg = s.prg := rfl
@[simp] theorem State.writeRec_prsm (s : State) (p : Nat) (r : PRec) : (s.writeRec p r).prsm = s.prsm := rfl
@[simp] theorem State.writeRec_fioGrp (s : State) (p : Nat) (r : PRec) : (s.writeRec p r).fioGrp = s.fioGrp := rfl
@[simp] theorem State.writeRec_fioCh (s : State) (p : Nat) (r : PRec) : (s.writeRec p r).fioCh = s.fioCh := rfl
@[simp] theorem State.writeRec_ui (s : State) (p : Nat) (r : PRec) : (s.writeRec p r).ui = s.ui := rfl
@[simp] theorem State.writeRec_uiBad (s : State) (p : Nat) (r : PRec) : (s.writeRec p r).uiBad = s.uiBad := rfl
@[simp] theorem State.writeRec_uiHeld (s : State) (p : Nat) (r : PRec) : (s.writeRec p r).uiHeld = s.uiHeld := rfl
@[simp] theorem State.writeRec_uiStamp (s : State) (p : Nat) (r : PRec) : (s.writeRec p r).uiStamp = s.uiStamp := rfl
@[simp] theorem State.writeRec_ao (s : State) (p : Nat) (r : PRec) : (s.writeRec p r).ao = s.ao := rfl
@[simp] theorem State.writeRec_fan (s : State) (p : Nat) (r : PRec) : (s.writeRec p r).fan = s.fan := rfl
@[simp] theorem State.writeRec_fanSilent (s : State) (p : Nat) (r : PRec) : (s.writeRec p r).fanSilent = s.fanSilent := rfl
@[simp] theorem State.writeRec_can (s : State) (p : Nat) (r : PRec) : (s.writeRec p r).can = s.can := rfl
@[simp] theorem State.writeRec_net (s : State) (p : Nat) (r : PRec) : (s.writeRec p r).net = s.net := rfl
@[simp] theorem State.writeRec_hostp (s : State) (p : Nat) (r : PRec) : (s.writeRec p r).hostp = s.hostp := rfl
@[simp] theorem State.writeRec_mbx (s : State) (p : Nat) (r : PRec) : (s.writeRec p r).mbx = s.mbx := rfl
@[simp] theorem State.writeRec_trap (s : State) (p : Nat) (r : PRec) : (s.writeRec p r).trap = s.trap := rfl
@[simp] theorem State.writeRec_rtc (s : State) (p : Nat) (r : PRec) : (s.writeRec p r).rtc = s.rtc := rfl
@[simp] theorem State.writeRec_key (s : State) (p : Nat) (r : PRec) : (s.writeRec p r).key = s.key := rfl
@[simp] theorem State.writeRec_upd (s : State) (p : Nat) (r : PRec) : (s.writeRec p r).upd = s.upd := rfl
@[simp] theorem State.writeRec_flt (s : State) (p : Nat) (r : PRec) : (s.writeRec p r).flt = s.flt := rfl
@[simp] theorem State.writeRec_dbg (s : State) (p : Nat) (r : PRec) : (s.writeRec p r).dbg = s.dbg := rfl
@[simp] theorem State.writeRec_pwr (s : State) (p : Nat) (r : PRec) : (s.writeRec p r).pwr = s.pwr := rfl
@[simp] theorem State.writeRec_regs (s : State) (p : Nat) (r : PRec) : (s.writeRec p r).regs = s.regs := rfl
@[simp] theorem State.writeRec_image (s : State) (p : Nat) (r : PRec) : (s.writeRec p r).image = s.image := rfl
@[simp] theorem State.writeRec_cnt (s : State) (p : Nat) (r : PRec) : (s.writeRec p r).cnt = s.cnt := rfl
@[simp] theorem State.writeRec_stat (s : State) (p : Nat) (r : PRec) : (s.writeRec p r).stat = s.stat := rfl
@[simp] theorem State.writeRec_shadow (s : State) (p : Nat) (r : PRec) : (s.writeRec p r).shadow = s.shadow := rfl
@[simp] theorem State.writeRec_posted (s : State) (p : Nat) (r : PRec) : (s.writeRec p r).posted = s.posted := rfl
@[simp] theorem State.writeRec_free (s : State) (p : Nat) (r : PRec) : (s.writeRec p r).free = s.free := rfl

/-! setCtx -/

@[simp] theorem State.setCtx_pending (s : State) (c : Nat) (x : LoopCtx) : (s.setCtx c x).pending = s.pending := rfl
@[simp] theorem State.setCtx_rev (s : State) (c : Nat) (x : LoopCtx) : (s.setCtx c x).rev = s.rev := rfl
@[simp] theorem State.setCtx_fuse (s : State) (c : Nat) (x : LoopCtx) : (s.setCtx c x).fuse = s.fuse := rfl
@[simp] theorem State.setCtx_sys (s : State) (c : Nat) (x : LoopCtx) : (s.setCtx c x).sys = s.sys := rfl
@[simp] theorem State.setCtx_crsl (s : State) (c : Nat) (x : LoopCtx) : (s.setCtx c x).crsl = s.crsl := rfl
@[simp] theorem State.setCtx_ledger (s : State) (c : Nat) (x : LoopCtx) : (s.setCtx c x).ledger = s.ledger := rfl
@[simp] theorem State.setCtx_pnt (s : State) (c : Nat) (x : LoopCtx) : (s.setCtx c x).pnt = s.pnt := rfl
@[simp] theorem State.setCtx_prg (s : State) (c : Nat) (x : LoopCtx) : (s.setCtx c x).prg = s.prg := rfl
@[simp] theorem State.setCtx_prsm (s : State) (c : Nat) (x : LoopCtx) : (s.setCtx c x).prsm = s.prsm := rfl
@[simp] theorem State.setCtx_fioGrp (s : State) (c : Nat) (x : LoopCtx) : (s.setCtx c x).fioGrp = s.fioGrp := rfl
@[simp] theorem State.setCtx_fioCh (s : State) (c : Nat) (x : LoopCtx) : (s.setCtx c x).fioCh = s.fioCh := rfl
@[simp] theorem State.setCtx_ui (s : State) (c : Nat) (x : LoopCtx) : (s.setCtx c x).ui = s.ui := rfl
@[simp] theorem State.setCtx_uiBad (s : State) (c : Nat) (x : LoopCtx) : (s.setCtx c x).uiBad = s.uiBad := rfl
@[simp] theorem State.setCtx_uiHeld (s : State) (c : Nat) (x : LoopCtx) : (s.setCtx c x).uiHeld = s.uiHeld := rfl
@[simp] theorem State.setCtx_uiStamp (s : State) (c : Nat) (x : LoopCtx) : (s.setCtx c x).uiStamp = s.uiStamp := rfl
@[simp] theorem State.setCtx_ao (s : State) (c : Nat) (x : LoopCtx) : (s.setCtx c x).ao = s.ao := rfl
@[simp] theorem State.setCtx_fan (s : State) (c : Nat) (x : LoopCtx) : (s.setCtx c x).fan = s.fan := rfl
@[simp] theorem State.setCtx_fanSilent (s : State) (c : Nat) (x : LoopCtx) : (s.setCtx c x).fanSilent = s.fanSilent := rfl
@[simp] theorem State.setCtx_can (s : State) (c : Nat) (x : LoopCtx) : (s.setCtx c x).can = s.can := rfl
@[simp] theorem State.setCtx_net (s : State) (c : Nat) (x : LoopCtx) : (s.setCtx c x).net = s.net := rfl
@[simp] theorem State.setCtx_hostp (s : State) (c : Nat) (x : LoopCtx) : (s.setCtx c x).hostp = s.hostp := rfl
@[simp] theorem State.setCtx_mbx (s : State) (c : Nat) (x : LoopCtx) : (s.setCtx c x).mbx = s.mbx := rfl
@[simp] theorem State.setCtx_trap (s : State) (c : Nat) (x : LoopCtx) : (s.setCtx c x).trap = s.trap := rfl
@[simp] theorem State.setCtx_rtc (s : State) (c : Nat) (x : LoopCtx) : (s.setCtx c x).rtc = s.rtc := rfl
@[simp] theorem State.setCtx_key (s : State) (c : Nat) (x : LoopCtx) : (s.setCtx c x).key = s.key := rfl
@[simp] theorem State.setCtx_upd (s : State) (c : Nat) (x : LoopCtx) : (s.setCtx c x).upd = s.upd := rfl
@[simp] theorem State.setCtx_flt (s : State) (c : Nat) (x : LoopCtx) : (s.setCtx c x).flt = s.flt := rfl
@[simp] theorem State.setCtx_dbg (s : State) (c : Nat) (x : LoopCtx) : (s.setCtx c x).dbg = s.dbg := rfl
@[simp] theorem State.setCtx_pwr (s : State) (c : Nat) (x : LoopCtx) : (s.setCtx c x).pwr = s.pwr := rfl
@[simp] theorem State.setCtx_regs (s : State) (c : Nat) (x : LoopCtx) : (s.setCtx c x).regs = s.regs := rfl
@[simp] theorem State.setCtx_image (s : State) (c : Nat) (x : LoopCtx) : (s.setCtx c x).image = s.image := rfl
@[simp] theorem State.setCtx_cnt (s : State) (c : Nat) (x : LoopCtx) : (s.setCtx c x).cnt = s.cnt := rfl
@[simp] theorem State.setCtx_stat (s : State) (c : Nat) (x : LoopCtx) : (s.setCtx c x).stat = s.stat := rfl
@[simp] theorem State.setCtx_shadow (s : State) (c : Nat) (x : LoopCtx) : (s.setCtx c x).shadow = s.shadow := rfl
@[simp] theorem State.setCtx_posted (s : State) (c : Nat) (x : LoopCtx) : (s.setCtx c x).posted = s.posted := rfl
@[simp] theorem State.setCtx_free (s : State) (c : Nat) (x : LoopCtx) : (s.setCtx c x).free = s.free := rfl

/-! setSpot -/

@[simp] theorem State.setSpot_pending (s : State) (k : Nat) (x : Spot) : (s.setSpot k x).pending = s.pending := rfl
@[simp] theorem State.setSpot_rev (s : State) (k : Nat) (x : Spot) : (s.setSpot k x).rev = s.rev := rfl
@[simp] theorem State.setSpot_fuse (s : State) (k : Nat) (x : Spot) : (s.setSpot k x).fuse = s.fuse := rfl
@[simp] theorem State.setSpot_sys (s : State) (k : Nat) (x : Spot) : (s.setSpot k x).sys = s.sys := rfl
@[simp] theorem State.setSpot_crsl (s : State) (k : Nat) (x : Spot) : (s.setSpot k x).crsl = s.crsl := rfl
@[simp] theorem State.setSpot_ledger (s : State) (k : Nat) (x : Spot) : (s.setSpot k x).ledger = s.ledger := rfl
@[simp] theorem State.setSpot_pnt (s : State) (k : Nat) (x : Spot) : (s.setSpot k x).pnt = s.pnt := rfl
@[simp] theorem State.setSpot_prg (s : State) (k : Nat) (x : Spot) : (s.setSpot k x).prg = s.prg := rfl
@[simp] theorem State.setSpot_prsm (s : State) (k : Nat) (x : Spot) : (s.setSpot k x).prsm = s.prsm := rfl
@[simp] theorem State.setSpot_fioGrp (s : State) (k : Nat) (x : Spot) : (s.setSpot k x).fioGrp = s.fioGrp := rfl
@[simp] theorem State.setSpot_fioCh (s : State) (k : Nat) (x : Spot) : (s.setSpot k x).fioCh = s.fioCh := rfl
@[simp] theorem State.setSpot_ui (s : State) (k : Nat) (x : Spot) : (s.setSpot k x).ui = s.ui := rfl
@[simp] theorem State.setSpot_uiBad (s : State) (k : Nat) (x : Spot) : (s.setSpot k x).uiBad = s.uiBad := rfl
@[simp] theorem State.setSpot_uiHeld (s : State) (k : Nat) (x : Spot) : (s.setSpot k x).uiHeld = s.uiHeld := rfl
@[simp] theorem State.setSpot_uiStamp (s : State) (k : Nat) (x : Spot) : (s.setSpot k x).uiStamp = s.uiStamp := rfl
@[simp] theorem State.setSpot_ao (s : State) (k : Nat) (x : Spot) : (s.setSpot k x).ao = s.ao := rfl
@[simp] theorem State.setSpot_fan (s : State) (k : Nat) (x : Spot) : (s.setSpot k x).fan = s.fan := rfl
@[simp] theorem State.setSpot_fanSilent (s : State) (k : Nat) (x : Spot) : (s.setSpot k x).fanSilent = s.fanSilent := rfl
@[simp] theorem State.setSpot_can (s : State) (k : Nat) (x : Spot) : (s.setSpot k x).can = s.can := rfl
@[simp] theorem State.setSpot_net (s : State) (k : Nat) (x : Spot) : (s.setSpot k x).net = s.net := rfl
@[simp] theorem State.setSpot_hostp (s : State) (k : Nat) (x : Spot) : (s.setSpot k x).hostp = s.hostp := rfl
@[simp] theorem State.setSpot_mbx (s : State) (k : Nat) (x : Spot) : (s.setSpot k x).mbx = s.mbx := rfl
@[simp] theorem State.setSpot_trap (s : State) (k : Nat) (x : Spot) : (s.setSpot k x).trap = s.trap := rfl
@[simp] theorem State.setSpot_rtc (s : State) (k : Nat) (x : Spot) : (s.setSpot k x).rtc = s.rtc := rfl
@[simp] theorem State.setSpot_key (s : State) (k : Nat) (x : Spot) : (s.setSpot k x).key = s.key := rfl
@[simp] theorem State.setSpot_upd (s : State) (k : Nat) (x : Spot) : (s.setSpot k x).upd = s.upd := rfl
@[simp] theorem State.setSpot_flt (s : State) (k : Nat) (x : Spot) : (s.setSpot k x).flt = s.flt := rfl
@[simp] theorem State.setSpot_dbg (s : State) (k : Nat) (x : Spot) : (s.setSpot k x).dbg = s.dbg := rfl
@[simp] theorem State.setSpot_pwr (s : State) (k : Nat) (x : Spot) : (s.setSpot k x).pwr = s.pwr := rfl
@[simp] theorem State.setSpot_regs (s : State) (k : Nat) (x : Spot) : (s.setSpot k x).regs = s.regs := rfl
@[simp] theorem State.setSpot_image (s : State) (k : Nat) (x : Spot) : (s.setSpot k x).image = s.image := rfl
@[simp] theorem State.setSpot_cnt (s : State) (k : Nat) (x : Spot) : (s.setSpot k x).cnt = s.cnt := rfl
@[simp] theorem State.setSpot_stat (s : State) (k : Nat) (x : Spot) : (s.setSpot k x).stat = s.stat := rfl
@[simp] theorem State.setSpot_shadow (s : State) (k : Nat) (x : Spot) : (s.setSpot k x).shadow = s.shadow := rfl
@[simp] theorem State.setSpot_posted (s : State) (k : Nat) (x : Spot) : (s.setSpot k x).posted = s.posted := rfl
@[simp] theorem State.setSpot_free (s : State) (k : Nat) (x : Spot) : (s.setSpot k x).free = s.free := rfl

/-! setTask -/

@[simp] theorem State.setTask_pending (s : State) (i : Nat) (t : Task) : (s.setTask i t).pending = s.pending := rfl
@[simp] theorem State.setTask_rev (s : State) (i : Nat) (t : Task) : (s.setTask i t).rev = s.rev := rfl
@[simp] theorem State.setTask_fuse (s : State) (i : Nat) (t : Task) : (s.setTask i t).fuse = s.fuse := rfl
@[simp] theorem State.setTask_sys (s : State) (i : Nat) (t : Task) : (s.setTask i t).sys = s.sys := rfl
@[simp] theorem State.setTask_crsl (s : State) (i : Nat) (t : Task) : (s.setTask i t).crsl = s.crsl := rfl
@[simp] theorem State.setTask_ledger (s : State) (i : Nat) (t : Task) : (s.setTask i t).ledger = s.ledger := rfl
@[simp] theorem State.setTask_pnt (s : State) (i : Nat) (t : Task) : (s.setTask i t).pnt = s.pnt := rfl
@[simp] theorem State.setTask_loop (s : State) (i : Nat) (t : Task) : (s.setTask i t).loop = s.loop := rfl
@[simp] theorem State.setTask_prsm (s : State) (i : Nat) (t : Task) : (s.setTask i t).prsm = s.prsm := rfl
@[simp] theorem State.setTask_fioGrp (s : State) (i : Nat) (t : Task) : (s.setTask i t).fioGrp = s.fioGrp := rfl
@[simp] theorem State.setTask_fioCh (s : State) (i : Nat) (t : Task) : (s.setTask i t).fioCh = s.fioCh := rfl
@[simp] theorem State.setTask_ui (s : State) (i : Nat) (t : Task) : (s.setTask i t).ui = s.ui := rfl
@[simp] theorem State.setTask_uiBad (s : State) (i : Nat) (t : Task) : (s.setTask i t).uiBad = s.uiBad := rfl
@[simp] theorem State.setTask_uiHeld (s : State) (i : Nat) (t : Task) : (s.setTask i t).uiHeld = s.uiHeld := rfl
@[simp] theorem State.setTask_uiStamp (s : State) (i : Nat) (t : Task) : (s.setTask i t).uiStamp = s.uiStamp := rfl
@[simp] theorem State.setTask_ao (s : State) (i : Nat) (t : Task) : (s.setTask i t).ao = s.ao := rfl
@[simp] theorem State.setTask_fan (s : State) (i : Nat) (t : Task) : (s.setTask i t).fan = s.fan := rfl
@[simp] theorem State.setTask_fanSilent (s : State) (i : Nat) (t : Task) : (s.setTask i t).fanSilent = s.fanSilent := rfl
@[simp] theorem State.setTask_can (s : State) (i : Nat) (t : Task) : (s.setTask i t).can = s.can := rfl
@[simp] theorem State.setTask_net (s : State) (i : Nat) (t : Task) : (s.setTask i t).net = s.net := rfl
@[simp] theorem State.setTask_hostp (s : State) (i : Nat) (t : Task) : (s.setTask i t).hostp = s.hostp := rfl
@[simp] theorem State.setTask_mbx (s : State) (i : Nat) (t : Task) : (s.setTask i t).mbx = s.mbx := rfl
@[simp] theorem State.setTask_trap (s : State) (i : Nat) (t : Task) : (s.setTask i t).trap = s.trap := rfl
@[simp] theorem State.setTask_rtc (s : State) (i : Nat) (t : Task) : (s.setTask i t).rtc = s.rtc := rfl
@[simp] theorem State.setTask_key (s : State) (i : Nat) (t : Task) : (s.setTask i t).key = s.key := rfl
@[simp] theorem State.setTask_upd (s : State) (i : Nat) (t : Task) : (s.setTask i t).upd = s.upd := rfl
@[simp] theorem State.setTask_flt (s : State) (i : Nat) (t : Task) : (s.setTask i t).flt = s.flt := rfl
@[simp] theorem State.setTask_dbg (s : State) (i : Nat) (t : Task) : (s.setTask i t).dbg = s.dbg := rfl
@[simp] theorem State.setTask_pwr (s : State) (i : Nat) (t : Task) : (s.setTask i t).pwr = s.pwr := rfl
@[simp] theorem State.setTask_regs (s : State) (i : Nat) (t : Task) : (s.setTask i t).regs = s.regs := rfl
@[simp] theorem State.setTask_image (s : State) (i : Nat) (t : Task) : (s.setTask i t).image = s.image := rfl
@[simp] theorem State.setTask_cnt (s : State) (i : Nat) (t : Task) : (s.setTask i t).cnt = s.cnt := rfl
@[simp] theorem State.setTask_stat (s : State) (i : Nat) (t : Task) : (s.setTask i t).stat = s.stat := rfl
@[simp] theorem State.setTask_shadow (s : State) (i : Nat) (t : Task) : (s.setTask i t).shadow = s.shadow := rfl
@[simp] theorem State.setTask_posted (s : State) (i : Nat) (t : Task) : (s.setTask i t).posted = s.posted := rfl
@[simp] theorem State.setTask_free (s : State) (i : Nat) (t : Task) : (s.setTask i t).free = s.free := rfl

/-! setReqs -/

@[simp] theorem State.setReqs_pending (s : State) (l : List Req) : (s.setReqs l).pending = s.pending := rfl
@[simp] theorem State.setReqs_rev (s : State) (l : List Req) : (s.setReqs l).rev = s.rev := rfl
@[simp] theorem State.setReqs_fuse (s : State) (l : List Req) : (s.setReqs l).fuse = s.fuse := rfl
@[simp] theorem State.setReqs_sys (s : State) (l : List Req) : (s.setReqs l).sys = s.sys := rfl
@[simp] theorem State.setReqs_crsl (s : State) (l : List Req) : (s.setReqs l).crsl = s.crsl := rfl
@[simp] theorem State.setReqs_pnt (s : State) (l : List Req) : (s.setReqs l).pnt = s.pnt := rfl
@[simp] theorem State.setReqs_loop (s : State) (l : List Req) : (s.setReqs l).loop = s.loop := rfl
@[simp] theorem State.setReqs_prg (s : State) (l : List Req) : (s.setReqs l).prg = s.prg := rfl
@[simp] theorem State.setReqs_prsm (s : State) (l : List Req) : (s.setReqs l).prsm = s.prsm := rfl
@[simp] theorem State.setReqs_fioGrp (s : State) (l : List Req) : (s.setReqs l).fioGrp = s.fioGrp := rfl
@[simp] theorem State.setReqs_fioCh (s : State) (l : List Req) : (s.setReqs l).fioCh = s.fioCh := rfl
@[simp] theorem State.setReqs_ui (s : State) (l : List Req) : (s.setReqs l).ui = s.ui := rfl
@[simp] theorem State.setReqs_uiBad (s : State) (l : List Req) : (s.setReqs l).uiBad = s.uiBad := rfl
@[simp] theorem State.setReqs_uiHeld (s : State) (l : List Req) : (s.setReqs l).uiHeld = s.uiHeld := rfl
@[simp] theorem State.setReqs_uiStamp (s : State) (l : List Req) : (s.setReqs l).uiStamp = s.uiStamp := rfl
@[simp] theorem State.setReqs_ao (s : State) (l : List Req) : (s.setReqs l).ao = s.ao := rfl
@[simp] theorem State.setReqs_fan (s : State) (l : List Req) : (s.setReqs l).fan = s.fan := rfl
@[simp] theorem State.setReqs_fanSilent (s : State) (l : List Req) : (s.setReqs l).fanSilent = s.fanSilent := rfl
@[simp] theorem State.setReqs_can (s : State) (l : List Req) : (s.setReqs l).can = s.can := rfl
@[simp] theorem State.setReqs_net (s : State) (l : List Req) : (s.setReqs l).net = s.net := rfl
@[simp] theorem State.setReqs_hostp (s : State) (l : List Req) : (s.setReqs l).hostp = s.hostp := rfl
@[simp] theorem State.setReqs_mbx (s : State) (l : List Req) : (s.setReqs l).mbx = s.mbx := rfl
@[simp] theorem State.setReqs_trap (s : State) (l : List Req) : (s.setReqs l).trap = s.trap := rfl
@[simp] theorem State.setReqs_rtc (s : State) (l : List Req) : (s.setReqs l).rtc = s.rtc := rfl
@[simp] theorem State.setReqs_key (s : State) (l : List Req) : (s.setReqs l).key = s.key := rfl
@[simp] theorem State.setReqs_upd (s : State) (l : List Req) : (s.setReqs l).upd = s.upd := rfl
@[simp] theorem State.setReqs_flt (s : State) (l : List Req) : (s.setReqs l).flt = s.flt := rfl
@[simp] theorem State.setReqs_dbg (s : State) (l : List Req) : (s.setReqs l).dbg = s.dbg := rfl
@[simp] theorem State.setReqs_pwr (s : State) (l : List Req) : (s.setReqs l).pwr = s.pwr := rfl
@[simp] theorem State.setReqs_regs (s : State) (l : List Req) : (s.setReqs l).regs = s.regs := rfl
@[simp] theorem State.setReqs_image (s : State) (l : List Req) : (s.setReqs l).image = s.image := rfl
@[simp] theorem State.setReqs_cnt (s : State) (l : List Req) : (s.setReqs l).cnt = s.cnt := rfl
@[simp] theorem State.setReqs_stat (s : State) (l : List Req) : (s.setReqs l).stat = s.stat := rfl
@[simp] theorem State.setReqs_shadow (s : State) (l : List Req) : (s.setReqs l).shadow = s.shadow := rfl
@[simp] theorem State.setReqs_posted (s : State) (l : List Req) : (s.setReqs l).posted = s.posted := rfl
@[simp] theorem State.setReqs_free (s : State) (l : List Req) : (s.setReqs l).free = s.free := rfl

/-! setPrism -/

@[simp] theorem State.setPrism_pending (s : State) (p : Prism) : (s.setPrism p).pending = s.pending := rfl
@[simp] theorem State.setPrism_rev (s : State) (p : Prism) : (s.setPrism p).rev = s.rev := rfl
@[simp] theorem State.setPrism_fuse (s : State) (p : Prism) : (s.setPrism p).fuse = s.fuse := rfl
@[simp] theorem State.setPrism_sys (s : State) (p : Prism) : (s.setPrism p).sys = s.sys := rfl
@[simp] theorem State.setPrism_crsl (s : State) (p : Prism) : (s.setPrism p).crsl = s.crsl := rfl
@[simp] theorem State.setPrism_ledger (s : State) (p : Prism) : (s.setPrism p).ledger = s.ledger := rfl
@[simp] theorem State.setPrism_pnt (s : State) (p : Prism) : (s.setPrism p).pnt = s.pnt := rfl
@[simp] theorem State.setPrism_loop (s : State) (p : Prism) : (s.setPrism p).loop = s.loop := rfl
@[simp] theorem State.setPrism_prg (s : State) (p : Prism) : (s.setPrism p).prg = s.prg := rfl
@[simp] theorem State.setPrism_fioGrp (s : State) (p : Prism) : (s.setPrism p).fioGrp = s.fioGrp := rfl
@[simp] theorem State.setPrism_fioCh (s : State) (p : Prism) : (s.setPrism p).fioCh = s.fioCh := rfl
@[simp] theorem State.setPrism_ui (s : State) (p : Prism) : (s.setPrism p).ui = s.ui := rfl
@[simp] theorem State.setPrism_uiBad (s : State) (p : Prism) : (s.setPrism p).uiBad = s.uiBad := rfl
@[simp] theorem State.setPrism_uiHeld (s : State) (p : Prism) : (s.setPrism p).uiHeld = s.uiHeld := rfl
@[simp] theorem State.setPrism_uiStamp (s : State) (p : Prism) : (s.setPrism p).uiStamp = s.uiStamp := rfl
@[simp] theorem State.setPrism_ao (s : State) (p : Prism) : (s.setPrism p).ao = s.ao := rfl
@[simp] theorem State.setPrism_fan (s : State) (p : Prism) : (s.setPrism p).fan = s.fan := rfl
@[simp] theorem State.setPrism_fanSilent (s : State) (p : Prism) : (s.setPrism p).fanSilent = s.fanSilent := rfl
@[simp] theorem State.setPrism_can (s : State) (p : Prism) : (s.setPrism p).can = s.can := rfl
@[simp] theorem State.setPrism_net (s : State) (p : Prism) : (s.setPrism p).net = s.net := rfl
@[simp] theorem State.setPrism_hostp (s : State) (p : Prism) : (s.setPrism p).hostp = s.hostp := rfl
@[simp] theorem State.setPrism_mbx (s : State) (p : Prism) : (s.setPrism p).mbx = s.mbx := rfl
@[simp] theorem State.setPrism_trap (s : State) (p : Prism) : (s.setPrism p).trap = s.trap := rfl
@[simp] theorem State.setPrism_rtc (s : State) (p : Prism) : (s.setPrism p).rtc = s.rtc := rfl
@[simp] theorem State.setPrism_key (s : State) (p : Prism) : (s.setPrism p).key = s.key := rfl
@[simp] theorem State.setPrism_upd (s : State) (p : Prism) : (s.setPrism p).upd = s.upd := rfl
@[simp] theorem State.setPrism_flt (s : State) (p : Prism) : (s.setPrism p).flt = s.flt := rfl
@[simp] theorem State.setPrism_dbg (s : State) (p : Prism) : (s.setPrism p).dbg = s.dbg := rfl
@[simp] theorem State.setPrism_pwr (s : State) (p : Prism) : (s.setPrism p).pwr = s.pwr := rfl
@[simp] theorem State.setPrism_regs (s : State) (p : Prism) : (s.setPrism p).regs = s.regs := rfl
@[simp] theorem State.setPrism_image (s : State) (p : Prism) : (s.setPrism p).image = s.image := rfl
@[simp] theorem State.setPrism_cnt (s : State) (p : Prism) : (s.setPrism p).cnt = s.cnt := rfl
@[simp] theorem State.setPrism_stat (s : State) (p : Prism) : (s.setPrism p).stat = s.stat := rfl
@[simp] theorem State.setPrism_shadow (s : State) (p : Prism) : (s.setPrism p).shadow = s.shadow := rfl
@[simp] theorem State.setPrism_posted (s : State) (p : Prism) : (s.setPrism p).posted = s.posted := rfl
@[simp] theorem State.setPrism_free (s : State) (p : Prism) : (s.setPrism p).free = s.free := rfl
@[simp] theorem State.setPrism_prsm (s : State) (p : Prism) : (s.setPrism p).prsm = p := rfl

/-! setGrp -/

@[simp] theorem State.setGrp_pending (s : State) (g : Nat) (x : FioGrp) : (s.setGrp g x).pending = s.pending := rfl
@[simp] theorem State.setGrp_rev (s : State) (g : Nat) (x : FioGrp) : (s.setGrp g x).rev = s.rev := rfl
@[simp] theorem State.setGrp_fuse (s : State) (g : Nat) (x : FioGrp) : (s.setGrp g x).fuse = s.fuse := rfl
@[simp] theorem State.setGrp_sys (s : State) (g : Nat) (x : FioGrp) : (s.setGrp g x).sys = s.sys := rfl
@[simp] theorem State.setGrp_crsl (s : State) (g : Nat) (x : FioGrp) : (s.setGrp g x).crsl = s.crsl := rfl
@[simp] theorem State.setGrp_ledger (s : State) (g : Nat) (x : FioGrp) : (s.setGrp g x).ledger = s.ledger := rfl
@[simp] theorem State.setGrp_pnt (s : State) (g : Nat) (x : FioGrp) : (s.setGrp g x).pnt = s.pnt := rfl
@[simp] theorem State.setGrp_loop (s : State) (g : Nat) (x : FioGrp) : (s.setGrp g x).loop = s.loop := rfl
@[simp] theorem State.setGrp_prg (s : State) (g : Nat) (x : FioGrp) : (s.setGrp g x).prg = s.prg := rfl
@[simp] theorem State.setGrp_prsm (s : State) (g : Nat) (x : FioGrp) : (s.setGrp g x).prsm = s.prsm := rfl
@[simp] theorem State.setGrp_fioCh (s : State) (g : Nat) (x : FioGrp) : (s.setGrp g x).fioCh = s.fioCh := rfl
@[simp] theorem State.setGrp_ui (s : State) (g : Nat) (x : FioGrp) : (s.setGrp g x).ui = s.ui := rfl
@[simp] theorem State.setGrp_uiBad (s : State) (g : Nat) (x : FioGrp) : (s.setGrp g x).uiBad = s.uiBad := rfl
@[simp] theorem State.setGrp_uiHeld (s : State) (g : Nat) (x : FioGrp) : (s.setGrp g x).uiHeld = s.uiHeld := rfl
@[simp] theorem State.setGrp_uiStamp (s : State) (g : Nat) (x : FioGrp) : (s.setGrp g x).uiStamp = s.uiStamp := rfl
@[simp] theorem State.setGrp_ao (s : State) (g : Nat) (x : FioGrp) : (s.setGrp g x).ao = s.ao := rfl
@[simp] theorem State.setGrp_fan (s : State) (g : Nat) (x : FioGrp) : (s.setGrp g x).fan = s.fan := rfl
@[simp] theorem State.setGrp_fanSilent (s : State) (g : Nat) (x : FioGrp) : (s.setGrp g x).fanSilent = s.fanSilent := rfl
@[simp] theorem State.setGrp_can (s : State) (g : Nat) (x : FioGrp) : (s.setGrp g x).can = s.can := rfl
@[simp] theorem State.setGrp_net (s : State) (g : Nat) (x : FioGrp) : (s.setGrp g x).net = s.net := rfl
@[simp] theorem State.setGrp_hostp (s : State) (g : Nat) (x : FioGrp) : (s.setGrp g x).hostp = s.hostp := rfl
@[simp] theorem State.setGrp_mbx (s : State) (g : Nat) (x : FioGrp) : (s.setGrp g x).mbx = s.mbx := rfl
@[simp] theorem State.setGrp_trap (s : State) (g : Nat) (x : FioGrp) : (s.setGrp g x).trap = s.trap := rfl
@[simp] theorem State.setGrp_rtc (s : State) (g : Nat) (x : FioGrp) : (s.setGrp g x).rtc = s.rtc := rfl
@[simp] theorem State.setGrp_key (s : State) (g : Nat) (x : FioGrp) : (s.setGrp g x).key = s.key := rfl
@[simp] theorem State.setGrp_upd (s : State) (g : Nat) (x : FioGrp) : (s.setGrp g x).upd = s.upd := rfl
@[simp] theorem State.setGrp_flt (s : State) (g : Nat) (x : FioGrp) : (s.setGrp g x).flt = s.flt := rfl
@[simp] theorem State.setGrp_dbg (s : State) (g : Nat) (x : FioGrp) : (s.setGrp g x).dbg = s.dbg := rfl
@[simp] theorem State.setGrp_pwr (s : State) (g : Nat) (x : FioGrp) : (s.setGrp g x).pwr = s.pwr := rfl
@[simp] theorem State.setGrp_regs (s : State) (g : Nat) (x : FioGrp) : (s.setGrp g x).regs = s.regs := rfl
@[simp] theorem State.setGrp_image (s : State) (g : Nat) (x : FioGrp) : (s.setGrp g x).image = s.image := rfl
@[simp] theorem State.setGrp_cnt (s : State) (g : Nat) (x : FioGrp) : (s.setGrp g x).cnt = s.cnt := rfl
@[simp] theorem State.setGrp_stat (s : State) (g : Nat) (x : FioGrp) : (s.setGrp g x).stat = s.stat := rfl
@[simp] theorem State.setGrp_shadow (s : State) (g : Nat) (x : FioGrp) : (s.setGrp g x).shadow = s.shadow := rfl
@[simp] theorem State.setGrp_posted (s : State) (g : Nat) (x : FioGrp) : (s.setGrp g x).posted = s.posted := rfl
@[simp] theorem State.setGrp_free (s : State) (g : Nat) (x : FioGrp) : (s.setGrp g x).free = s.free := rfl

/-! setFch -/

@[simp] theorem State.setFch_pending (s : State) (k : Nat) (x : FioCh) : (s.setFch k x).pending = s.pending := rfl
@[simp] theorem State.setFch_rev (s : State) (k : Nat) (x : FioCh) : (s.setFch k x).rev = s.rev := rfl
@[simp] theorem State.setFch_fuse (s : State) (k : Nat) (x : FioCh) : (s.setFch k x).fuse = s.fuse := rfl
@[simp] theorem State.setFch_sys (s : State) (k : Nat) (x : FioCh) : (s.setFch k x).sys = s.sys := rfl
@[simp] theorem State.setFch_crsl (s : State) (k : Nat) (x : FioCh) : (s.setFch k x).crsl = s.crsl := rfl
@[simp] theorem State.setFch_ledger (s : State) (k : Nat) (x : FioCh) : (s.setFch k x).ledger = s.ledger := rfl
@[simp] theorem State.setFch_pnt (s : State) (k : Nat) (x : FioCh) : (s.setFch k x).pnt = s.pnt := rfl
@[simp] theorem State.setFch_loop (s : State) (k : Nat) (x : FioCh) : (s.setFch k x).loop = s.loop := rfl
@[simp] theorem State.setFch_prg (s : State) (k : Nat) (x : FioCh) : (s.setFch k x).prg = s.prg := rfl
@[simp] theorem State.setFch_prsm (s : State) (k : Nat) (x : FioCh) : (s.setFch k x).prsm = s.prsm := rfl
@[simp] theorem State.setFch_fioGrp (s : State) (k : Nat) (x : FioCh) : (s.setFch k x).fioGrp = s.fioGrp := rfl
@[simp] theorem State.setFch_ui (s : State) (k : Nat) (x : FioCh) : (s.setFch k x).ui = s.ui := rfl
@[simp] theorem State.setFch_uiBad (s : State) (k : Nat) (x : FioCh) : (s.setFch k x).uiBad = s.uiBad := rfl
@[simp] theorem State.setFch_uiHeld (s : State) (k : Nat) (x : FioCh) : (s.setFch k x).uiHeld = s.uiHeld := rfl
@[simp] theorem State.setFch_uiStamp (s : State) (k : Nat) (x : FioCh) : (s.setFch k x).uiStamp = s.uiStamp := rfl
@[simp] theorem State.setFch_ao (s : State) (k : Nat) (x : FioCh) : (s.setFch k x).ao = s.ao := rfl
@[simp] theorem State.setFch_fan (s : State) (k : Nat) (x : FioCh) : (s.setFch k x).fan = s.fan := rfl
@[simp] theorem State.setFch_fanSilent (s : State) (k : Nat) (x : FioCh) : (s.setFch k x).fanSilent = s.fanSilent := rfl
@[simp] theorem State.setFch_can (s : State) (k : Nat) (x : FioCh) : (s.setFch k x).can = s.can := rfl
@[simp] theorem State.setFch_net (s : State) (k : Nat) (x : FioCh) : (s.setFch k x).net = s.net := rfl
@[simp] theorem State.setFch_hostp (s : State) (k : Nat) (x : FioCh) : (s.setFch k x).hostp = s.hostp := rfl
@[simp] theorem State.setFch_mbx (s : State) (k : Nat) (x : FioCh) : (s.setFch k x).mbx = s.mbx := rfl
@[simp] theorem State.setFch_trap (s : State) (k : Nat) (x : FioCh) : (s.setFch k x).trap = s.trap := rfl
@[simp] theorem State.setFch_rtc (s : State) (k : Nat) (x : FioCh) : (s.setFch k x).rtc = s.rtc := rfl
@[simp] theorem State.setFch_key (s : State) (k : Nat) (x : FioCh) : (s.setFch k x).key = s.key := rfl
@[simp] theorem State.setFch_upd (s : State) (k : Nat) (x : FioCh) : (s.setFch k x).upd = s.upd := rfl
@[simp] theorem State.setFch_flt (s : State) (k : Nat) (x : FioCh) : (s.setFch k x).flt = s.flt := rfl
@[simp] theorem State.setFch_dbg (s : State) (k : Nat) (x : FioCh) : (s.setFch k x).dbg = s.dbg := rfl
@[simp] theorem State.setFch_pwr (s : State) (k : Nat) (x : FioCh) : (s.setFch k x).pwr = s.pwr := rfl
@[simp] theorem State.setFch_regs (s : State) (k : Nat) (x : FioCh) : (s.setFch k x).regs = s.regs := rfl
@[simp] theorem State.setFch_image (s : State) (k : Nat) (x : FioCh) : (s.setFch k x).image = s.image := rfl
@[simp] theorem State.setFch_cnt (s : State) (k : Nat) (x : FioCh) : (s.setFch k x).cnt = s.cnt := rfl
@[simp] theorem State.setFch_stat (s : State) (k : Nat) (x : FioCh) : (s.setFch k x).stat = s.stat := rfl
@[simp] theorem State.setFch_shadow (s : State) (k : Nat) (x : FioCh) : (s.setFch k x).shadow = s.shadow := rfl
@[simp] theorem State.setFch_posted (s : State) (k : Nat) (x : FioCh) : (s.setFch k x).posted = s.posted := rfl
@[simp] theorem State.setFch_free (s : State) (k : Nat) (x : FioCh) : (s.setFch k x).free = s.free := rfl

/-! setUi -/

@[simp] theorem State.setUi_pending (s : State) (k : Nat) (x : UiCh) : (s.setUi k x).pending = s.pending := rfl
@[simp] theorem State.setUi_rev (s : State) (k : Nat) (x : UiCh) : (s.setUi k x).rev = s.rev := rfl
@[simp] theorem State.setUi_fuse (s : State) (k : Nat) (x : UiCh) : (s.setUi k x).fuse = s.fuse := rfl
@[simp] theorem State.setUi_sys (s : State) (k : Nat) (x : UiCh) : (s.setUi k x).sys = s.sys := rfl
@[simp] theorem State.setUi_crsl (s : State) (k : Nat) (x : UiCh) : (s.setUi k x).crsl = s.crsl := rfl
@[simp] theorem State.setUi_ledger (s : State) (k : Nat) (x : UiCh) : (s.setUi k x).ledger = s.ledger := rfl
@[simp] theorem State.setUi_pnt (s : State) (k : Nat) (x : UiCh) : (s.setUi k x).pnt = s.pnt := rfl
@[simp] theorem State.setUi_loop (s : State) (k : Nat) (x : UiCh) : (s.setUi k x).loop = s.loop := rfl
@[simp] theorem State.setUi_prg (s : State) (k : Nat) (x : UiCh) : (s.setUi k x).prg = s.prg := rfl
@[simp] theorem State.setUi_prsm (s : State) (k : Nat) (x : UiCh) : (s.setUi k x).prsm = s.prsm := rfl
@[simp] theorem State.setUi_fioGrp (s : State) (k : Nat) (x : UiCh) : (s.setUi k x).fioGrp = s.fioGrp := rfl
@[simp] theorem State.setUi_fioCh (s : State) (k : Nat) (x : UiCh) : (s.setUi k x).fioCh = s.fioCh := rfl
@[simp] theorem State.setUi_uiBad (s : State) (k : Nat) (x : UiCh) : (s.setUi k x).uiBad = s.uiBad := rfl
@[simp] theorem State.setUi_uiHeld (s : State) (k : Nat) (x : UiCh) : (s.setUi k x).uiHeld = s.uiHeld := rfl
@[simp] theorem State.setUi_uiStamp (s : State) (k : Nat) (x : UiCh) : (s.setUi k x).uiStamp = s.uiStamp := rfl
@[simp] theorem State.setUi_ao (s : State) (k : Nat) (x : UiCh) : (s.setUi k x).ao = s.ao := rfl
@[simp] theorem State.setUi_fan (s : State) (k : Nat) (x : UiCh) : (s.setUi k x).fan = s.fan := rfl
@[simp] theorem State.setUi_fanSilent (s : State) (k : Nat) (x : UiCh) : (s.setUi k x).fanSilent = s.fanSilent := rfl
@[simp] theorem State.setUi_can (s : State) (k : Nat) (x : UiCh) : (s.setUi k x).can = s.can := rfl
@[simp] theorem State.setUi_net (s : State) (k : Nat) (x : UiCh) : (s.setUi k x).net = s.net := rfl
@[simp] theorem State.setUi_hostp (s : State) (k : Nat) (x : UiCh) : (s.setUi k x).hostp = s.hostp := rfl
@[simp] theorem State.setUi_mbx (s : State) (k : Nat) (x : UiCh) : (s.setUi k x).mbx = s.mbx := rfl
@[simp] theorem State.setUi_trap (s : State) (k : Nat) (x : UiCh) : (s.setUi k x).trap = s.trap := rfl
@[simp] theorem State.setUi_rtc (s : State) (k : Nat) (x : UiCh) : (s.setUi k x).rtc = s.rtc := rfl
@[simp] theorem State.setUi_key (s : State) (k : Nat) (x : UiCh) : (s.setUi k x).key = s.key := rfl
@[simp] theorem State.setUi_upd (s : State) (k : Nat) (x : UiCh) : (s.setUi k x).upd = s.upd := rfl
@[simp] theorem State.setUi_flt (s : State) (k : Nat) (x : UiCh) : (s.setUi k x).flt = s.flt := rfl
@[simp] theorem State.setUi_dbg (s : State) (k : Nat) (x : UiCh) : (s.setUi k x).dbg = s.dbg := rfl
@[simp] theorem State.setUi_pwr (s : State) (k : Nat) (x : UiCh) : (s.setUi k x).pwr = s.pwr := rfl
@[simp] theorem State.setUi_regs (s : State) (k : Nat) (x : UiCh) : (s.setUi k x).regs = s.regs := rfl
@[simp] theorem State.setUi_image (s : State) (k : Nat) (x : UiCh) : (s.setUi k x).image = s.image := rfl
@[simp] theorem State.setUi_cnt (s : State) (k : Nat) (x : UiCh) : (s.setUi k x).cnt = s.cnt := rfl
@[simp] theorem State.setUi_stat (s : State) (k : Nat) (x : UiCh) : (s.setUi k x).stat = s.stat := rfl
@[simp] theorem State.setUi_shadow (s : State) (k : Nat) (x : UiCh) : (s.setUi k x).shadow = s.shadow := rfl
@[simp] theorem State.setUi_posted (s : State) (k : Nat) (x : UiCh) : (s.setUi k x).posted = s.posted := rfl
@[simp] theorem State.setUi_free (s : State) (k : Nat) (x : UiCh) : (s.setUi k x).free = s.free := rfl

/-! setFan -/

@[simp] theorem State.setFan_pending (s : State) (c : Nat) (x : FanCh) : (s.setFan c x).pending = s.pending := rfl
@[simp] theorem State.setFan_rev (s : State) (c : Nat) (x : FanCh) : (s.setFan c x).rev = s.rev := rfl
@[simp] theorem State.setFan_fuse (s : State) (c : Nat) (x : FanCh) : (s.setFan c x).fuse = s.fuse := rfl
@[simp] theorem State.setFan_sys (s : State) (c : Nat) (x : FanCh) : (s.setFan c x).sys = s.sys := rfl
@[simp] theorem State.setFan_crsl (s : State) (c : Nat) (x : FanCh) : (s.setFan c x).crsl = s.crsl := rfl
@[simp] theorem State.setFan_ledger (s : State) (c : Nat) (x : FanCh) : (s.setFan c x).ledger = s.ledger := rfl
@[simp] theorem State.setFan_pnt (s : State) (c : Nat) (x : FanCh) : (s.setFan c x).pnt = s.pnt := rfl
@[simp] theorem State.setFan_loop (s : State) (c : Nat) (x : FanCh) : (s.setFan c x).loop = s.loop := rfl
@[simp] theorem State.setFan_prg (s : State) (c : Nat) (x : FanCh) : (s.setFan c x).prg = s.prg := rfl
@[simp] theorem State.setFan_prsm (s : State) (c : Nat) (x : FanCh) : (s.setFan c x).prsm = s.prsm := rfl
@[simp] theorem State.setFan_fioGrp (s : State) (c : Nat) (x : FanCh) : (s.setFan c x).fioGrp = s.fioGrp := rfl
@[simp] theorem State.setFan_fioCh (s : State) (c : Nat) (x : FanCh) : (s.setFan c x).fioCh = s.fioCh := rfl
@[simp] theorem State.setFan_ui (s : State) (c : Nat) (x : FanCh) : (s.setFan c x).ui = s.ui := rfl
@[simp] theorem State.setFan_uiBad (s : State) (c : Nat) (x : FanCh) : (s.setFan c x).uiBad = s.uiBad := rfl
@[simp] theorem State.setFan_uiHeld (s : State) (c : Nat) (x : FanCh) : (s.setFan c x).uiHeld = s.uiHeld := rfl
@[simp] theorem State.setFan_uiStamp (s : State) (c : Nat) (x : FanCh) : (s.setFan c x).uiStamp = s.uiStamp := rfl
@[simp] theorem State.setFan_ao (s : State) (c : Nat) (x : FanCh) : (s.setFan c x).ao = s.ao := rfl
@[simp] theorem State.setFan_fanSilent (s : State) (c : Nat) (x : FanCh) : (s.setFan c x).fanSilent = s.fanSilent := rfl
@[simp] theorem State.setFan_can (s : State) (c : Nat) (x : FanCh) : (s.setFan c x).can = s.can := rfl
@[simp] theorem State.setFan_net (s : State) (c : Nat) (x : FanCh) : (s.setFan c x).net = s.net := rfl
@[simp] theorem State.setFan_hostp (s : State) (c : Nat) (x : FanCh) : (s.setFan c x).hostp = s.hostp := rfl
@[simp] theorem State.setFan_mbx (s : State) (c : Nat) (x : FanCh) : (s.setFan c x).mbx = s.mbx := rfl
@[simp] theorem State.setFan_trap (s : State) (c : Nat) (x : FanCh) : (s.setFan c x).trap = s.trap := rfl
@[simp] theorem State.setFan_rtc (s : State) (c : Nat) (x : FanCh) : (s.setFan c x).rtc = s.rtc := rfl
@[simp] theorem State.setFan_key (s : State) (c : Nat) (x : FanCh) : (s.setFan c x).key = s.key := rfl
@[simp] theorem State.setFan_upd (s : State) (c : Nat) (x : FanCh) : (s.setFan c x).upd = s.upd := rfl
@[simp] theorem State.setFan_flt (s : State) (c : Nat) (x : FanCh) : (s.setFan c x).flt = s.flt := rfl
@[simp] theorem State.setFan_dbg (s : State) (c : Nat) (x : FanCh) : (s.setFan c x).dbg = s.dbg := rfl
@[simp] theorem State.setFan_pwr (s : State) (c : Nat) (x : FanCh) : (s.setFan c x).pwr = s.pwr := rfl
@[simp] theorem State.setFan_regs (s : State) (c : Nat) (x : FanCh) : (s.setFan c x).regs = s.regs := rfl
@[simp] theorem State.setFan_image (s : State) (c : Nat) (x : FanCh) : (s.setFan c x).image = s.image := rfl
@[simp] theorem State.setFan_cnt (s : State) (c : Nat) (x : FanCh) : (s.setFan c x).cnt = s.cnt := rfl
@[simp] theorem State.setFan_stat (s : State) (c : Nat) (x : FanCh) : (s.setFan c x).stat = s.stat := rfl
@[simp] theorem State.setFan_shadow (s : State) (c : Nat) (x : FanCh) : (s.setFan c x).shadow = s.shadow := rfl
@[simp] theorem State.setFan_posted (s : State) (c : Nat) (x : FanCh) : (s.setFan c x).posted = s.posted := rfl
@[simp] theorem State.setFan_free (s : State) (c : Nat) (x : FanCh) : (s.setFan c x).free = s.free := rfl

/-! setBus -/

@[simp] theorem State.setBus_pending (s : State) (b : Nat) (x : CanBus) : (s.setBus b x).pending = s.pending := rfl
@[simp] theorem State.setBus_rev (s : State) (b : Nat) (x : CanBus) : (s.setBus b x).rev = s.rev := rfl
@[simp] theorem State.setBus_fuse (s : State) (b : Nat) (x : CanBus) : (s.setBus b x).fuse = s.fuse := rfl
@[simp] theorem State.setBus_sys (s : State) (b : Nat) (x : CanBus) : (s.setBus b x).sys = s.sys := rfl
@[simp] theorem State.setBus_crsl (s : State) (b : Nat) (x : CanBus) : (s.setBus b x).crsl = s.crsl := rfl
@[simp] theorem State.setBus_ledger (s : State) (b : Nat) (x : CanBus) : (s.setBus b x).ledger = s.ledger := rfl
@[simp] theorem State.setBus_pnt (s : State) (b : Nat) (x : CanBus) : (s.setBus b x).pnt = s.pnt := rfl
@[simp] theorem State.setBus_loop (s : State) (b : Nat) (x : CanBus) : (s.setBus b x).loop = s.loop := rfl
@[simp] theorem State.setBus_prg (s : State) (b : Nat) (x : CanBus) : (s.setBus b x).prg = s.prg := rfl
@[simp] theorem State.setBus_prsm (s : State) (b : Nat) (x : CanBus) : (s.setBus b x).prsm = s.prsm := rfl
@[simp] theorem State.setBus_fioGrp (s : State) (b : Nat) (x : CanBus) : (s.setBus b x).fioGrp = s.fioGrp := rfl
@[simp] theorem State.setBus_fioCh (s : State) (b : Nat) (x : CanBus) : (s.setBus b x).fioCh = s.fioCh := rfl
@[simp] theorem State.setBus_ui (s : State) (b : Nat) (x : CanBus) : (s.setBus b x).ui = s.ui := rfl
@[simp] theorem State.setBus_uiBad (s : State) (b : Nat) (x : CanBus) : (s.setBus b x).uiBad = s.uiBad := rfl
@[simp] theorem State.setBus_uiHeld (s : State) (b : Nat) (x : CanBus) : (s.setBus b x).uiHeld = s.uiHeld := rfl
@[simp] theorem State.setBus_uiStamp (s : State) (b : Nat) (x : CanBus) : (s.setBus b x).uiStamp = s.uiStamp := rfl
@[simp] theorem State.setBus_ao (s : State) (b : Nat) (x : CanBus) : (s.setBus b x).ao = s.ao := rfl
@[simp] theorem State.setBus_fan (s : State) (b : Nat) (x : CanBus) : (s.setBus b x).fan = s.fan := rfl
@[simp] theorem State.setBus_fanSilent (s : State) (b : Nat) (x : CanBus) : (s.setBus b x).fanSilent = s.fanSilent := rfl
@[simp] theorem State.setBus_net (s : State) (b : Nat) (x : CanBus) : (s.setBus b x).net = s.net := rfl
@[simp] theorem State.setBus_hostp (s : State) (b : Nat) (x : CanBus) : (s.setBus b x).hostp = s.hostp := rfl
@[simp] theorem State.setBus_mbx (s : State) (b : Nat) (x : CanBus) : (s.setBus b x).mbx = s.mbx := rfl
@[simp] theorem State.setBus_trap (s : State) (b : Nat) (x : CanBus) : (s.setBus b x).trap = s.trap := rfl
@[simp] theorem State.setBus_rtc (s : State) (b : Nat) (x : CanBus) : (s.setBus b x).rtc = s.rtc := rfl
@[simp] theorem State.setBus_key (s : State) (b : Nat) (x : CanBus) : (s.setBus b x).key = s.key := rfl
@[simp] theorem State.setBus_upd (s : State) (b : Nat) (x : CanBus) : (s.setBus b x).upd = s.upd := rfl
@[simp] theorem State.setBus_flt (s : State) (b : Nat) (x : CanBus) : (s.setBus b x).flt = s.flt := rfl
@[simp] theorem State.setBus_dbg (s : State) (b : Nat) (x : CanBus) : (s.setBus b x).dbg = s.dbg := rfl
@[simp] theorem State.setBus_pwr (s : State) (b : Nat) (x : CanBus) : (s.setBus b x).pwr = s.pwr := rfl
@[simp] theorem State.setBus_regs (s : State) (b : Nat) (x : CanBus) : (s.setBus b x).regs = s.regs := rfl
@[simp] theorem State.setBus_image (s : State) (b : Nat) (x : CanBus) : (s.setBus b x).image = s.image := rfl
@[simp] theorem State.setBus_cnt (s : State) (b : Nat) (x : CanBus) : (s.setBus b x).cnt = s.cnt := rfl
@[simp] theorem State.setBus_stat (s : State) (b : Nat) (x : CanBus) : (s.setBus b x).stat = s.stat := rfl
@[simp] theorem State.setBus_shadow (s : State) (b : Nat) (x : CanBus) : (s.setBus b x).shadow = s.shadow := rfl
@[simp] theorem State.setBus_posted (s : State) (b : Nat) (x : CanBus) : (s.setBus b x).posted = s.posted := rfl
@[simp] theorem State.setBus_free (s : State) (b : Nat) (x : CanBus) : (s.setBus b x).free = s.free := rfl

/-! setPort -/

@[simp] theorem State.setPort_pending (s : State) (p : Nat) (x : NetPort) : (s.setPort p x).pending = s.pending := rfl
@[simp] theorem State.setPort_rev (s : State) (p : Nat) (x : NetPort) : (s.setPort p x).rev = s.rev := rfl
@[simp] theorem State.setPort_fuse (s : State) (p : Nat) (x : NetPort) : (s.setPort p x).fuse = s.fuse := rfl
@[simp] theorem State.setPort_sys (s : State) (p : Nat) (x : NetPort) : (s.setPort p x).sys = s.sys := rfl
@[simp] theorem State.setPort_crsl (s : State) (p : Nat) (x : NetPort) : (s.setPort p x).crsl = s.crsl := rfl
@[simp] theorem State.setPort_ledger (s : State) (p : Nat) (x : NetPort) : (s.setPort p x).ledger = s.ledger := rfl
@[simp] theorem State.setPort_pnt (s : State) (p : Nat) (x : NetPort) : (s.setPort p x).pnt = s.pnt := rfl
@[simp] theorem State.setPort_loop (s : State) (p : Nat) (x : NetPort) : (s.setPort p x).loop = s.loop := rfl
@[simp] theorem State.setPort_prg (s : State) (p : Nat) (x : NetPort) : (s.setPort p x).prg = s.prg := rfl
@[simp] theorem State.setPort_prsm (s : State) (p : Nat) (x : NetPort) : (s.setPort p x).prsm = s.prsm := rfl
@[simp] theorem State.setPort_fioGrp (s : State) (p : Nat) (x : NetPort) : (s.setPort p x).fioGrp = s.fioGrp := rfl
@[simp] theorem State.setPort_fioCh (s : State) (p : Nat) (x : NetPort) : (s.setPort p x).fioCh = s.fioCh := rfl
@[simp] theorem State.setPort_ui (s : State) (p : Nat) (x : NetPort) : (s.setPort p x).ui = s.ui := rfl
@[simp] theorem State.setPort_uiBad (s : State) (p : Nat) (x : NetPort) : (s.setPort p x).uiBad = s.uiBad := rfl
@[simp] theorem State.setPort_uiHeld (s : State) (p : Nat) (x : NetPort) : (s.setPort p x).uiHeld = s.uiHeld := rfl
@[simp] theorem State.setPort_uiStamp (s : State) (p : Nat) (x : NetPort) : (s.setPort p x).uiStamp = s.uiStamp := rfl
@[simp] theorem State.setPort_ao (s : State) (p : Nat) (x : NetPort) : (s.setPort p x).ao = s.ao := rfl
@[simp] theorem State.setPort_fan (s : State) (p : Nat) (x : NetPort) : (s.setPort p x).fan = s.fan := rfl
@[simp] theorem State.setPort_fanSilent (s : State) (p : Nat) (x : NetPort) : (s.setPort p x).fanSilent = s.fanSilent := rfl
@[simp] theorem State.setPort_can (s : State) (p : Nat) (x : NetPort) : (s.setPort p x).can = s.can := rfl
@[simp] theorem State.setPort_hostp (s : State) (p : Nat) (x : NetPort) : (s.setPort p x).hostp = s.hostp := rfl
@[simp] theorem State.setPort_mbx (s : State) (p : Nat) (x : NetPort) : (s.setPort p x).mbx = s.mbx := rfl
@[simp] theorem State.setPort_trap (s : State) (p : Nat) (x : NetPort) : (s.setPort p x).trap = s.trap := rfl
@[simp] theorem State.setPort_rtc (s : State) (p : Nat) (x : NetPort) : (s.setPort p x).rtc = s.rtc := rfl
@[simp] theorem State.setPort_key (s : State) (p : Nat) (x : NetPort) : (s.setPort p x).key = s.key := rfl
@[simp] theorem State.setPort_upd (s : State) (p : Nat) (x : NetPort) : (s.setPort p x).upd = s.upd := rfl
@[simp] theorem State.setPort_flt (s : State) (p : Nat) (x : NetPort) : (s.setPort p x).flt = s.flt := rfl
@[simp] theorem State.setPort_dbg (s : State) (p : Nat) (x : NetPort) : (s.setPort p x).dbg = s.dbg := rfl
@[simp] theorem State.setPort_pwr (s : State) (p : Nat) (x : NetPort) : (s.setPort p x).pwr = s.pwr := rfl
@[simp] theorem State.setPort_regs (s : State) (p : Nat) (x : NetPort) : (s.setPort p x).regs = s.regs := rfl
@[simp] theorem State.setPort_image (s : State) (p : Nat) (x : NetPort) : (s.setPort p x).image = s.image := rfl
@[simp] theorem State.setPort_cnt (s : State) (p : Nat) (x : NetPort) : (s.setPort p x).cnt = s.cnt := rfl
@[simp] theorem State.setPort_stat (s : State) (p : Nat) (x : NetPort) : (s.setPort p x).stat = s.stat := rfl
@[simp] theorem State.setPort_shadow (s : State) (p : Nat) (x : NetPort) : (s.setPort p x).shadow = s.shadow := rfl
@[simp] theorem State.setPort_posted (s : State) (p : Nat) (x : NetPort) : (s.setPort p x).posted = s.posted := rfl
@[simp] theorem State.setPort_free (s : State) (p : Nat) (x : NetPort) : (s.setPort p x).free = s.free := rfl

/-! setSess -/

@[simp] theorem State.setSess_pending (s : State) (n : Nat) (x : Session) : (s.setSess n x).pending = s.pending := rfl
@[simp] theorem State.setSess_rev (s : State) (n : Nat) (x : Session) : (s.setSess n x).rev = s.rev := rfl
@[simp] theorem State.setSess_fuse (s : State) (n : Nat) (x : Session) : (s.setSess n x).fuse = s.fuse := rfl
@[simp] theorem State.setSess_sys (s : State) (n : Nat) (x : Session) : (s.setSess n x).sys = s.sys := rfl
@[simp] theorem State.setSess_crsl (s : State) (n : Nat) (x : Session) : (s.setSess n x).crsl = s.crsl := rfl
@[simp] theorem State.setSess_ledger (s : State) (n : Nat) (x : Session) : (s.setSess n x).ledger = s.ledger := rfl
@[simp] theorem State.setSess_pnt (s : State) (n : Nat) (x : Session) : (s.setSess n x).pnt = s.pnt := rfl
@[simp] theorem State.setSess_loop (s : State) (n : Nat) (x : Session) : (s.setSess n x).loop = s.loop := rfl
@[simp] theorem State.setSess_prg (s : State) (n : Nat) (x : Session) : (s.setSess n x).prg = s.prg := rfl
@[simp] theorem State.setSess_prsm (s : State) (n : Nat) (x : Session) : (s.setSess n x).prsm = s.prsm := rfl
@[simp] theorem State.setSess_fioGrp (s : State) (n : Nat) (x : Session) : (s.setSess n x).fioGrp = s.fioGrp := rfl
@[simp] theorem State.setSess_fioCh (s : State) (n : Nat) (x : Session) : (s.setSess n x).fioCh = s.fioCh := rfl
@[simp] theorem State.setSess_ui (s : State) (n : Nat) (x : Session) : (s.setSess n x).ui = s.ui := rfl
@[simp] theorem State.setSess_uiBad (s : State) (n : Nat) (x : Session) : (s.setSess n x).uiBad = s.uiBad := rfl
@[simp] theorem State.setSess_uiHeld (s : State) (n : Nat) (x : Session) : (s.setSess n x).uiHeld = s.uiHeld := rfl
@[simp] theorem State.setSess_uiStamp (s : State) (n : Nat) (x : Session) : (s.setSess n x).uiStamp = s.uiStamp := rfl
@[simp] theorem State.setSess_ao (s : State) (n : Nat) (x : Session) : (s.setSess n x).ao = s.ao := rfl
@[simp] theorem State.setSess_fan (s : State) (n : Nat) (x : Session) : (s.setSess n x).fan = s.fan := rfl
@[simp] theorem State.setSess_fanSilent (s : State) (n : Nat) (x : Session) : (s.setSess n x).fanSilent = s.fanSilent := rfl
@[simp] theorem State.setSess_can (s : State) (n : Nat) (x : Session) : (s.setSess n x).can = s.can := rfl
@[simp] theorem State.setSess_net (s : State) (n : Nat) (x : Session) : (s.setSess n x).net = s.net := rfl
@[simp] theorem State.setSess_hostp (s : State) (n : Nat) (x : Session) : (s.setSess n x).hostp = s.hostp := rfl
@[simp] theorem State.setSess_trap (s : State) (n : Nat) (x : Session) : (s.setSess n x).trap = s.trap := rfl
@[simp] theorem State.setSess_rtc (s : State) (n : Nat) (x : Session) : (s.setSess n x).rtc = s.rtc := rfl
@[simp] theorem State.setSess_key (s : State) (n : Nat) (x : Session) : (s.setSess n x).key = s.key := rfl
@[simp] theorem State.setSess_upd (s : State) (n : Nat) (x : Session) : (s.setSess n x).upd = s.upd := rfl
@[simp] theorem State.setSess_flt (s : State) (n : Nat) (x : Session) : (s.setSess n x).flt = s.flt := rfl
@[simp] theorem State.setSess_dbg (s : State) (n : Nat) (x : Session) : (s.setSess n x).dbg = s.dbg := rfl
@[simp] theorem State.setSess_pwr (s : State) (n : Nat) (x : Session) : (s.setSess n x).pwr = s.pwr := rfl
@[simp] theorem State.setSess_regs (s : State) (n : Nat) (x : Session) : (s.setSess n x).regs = s.regs := rfl
@[simp] theorem State.setSess_image (s : State) (n : Nat) (x : Session) : (s.setSess n x).image = s.image := rfl
@[simp] theorem State.setSess_cnt (s : State) (n : Nat) (x : Session) : (s.setSess n x).cnt = s.cnt := rfl
@[simp] theorem State.setSess_stat (s : State) (n : Nat) (x : Session) : (s.setSess n x).stat = s.stat := rfl
@[simp] theorem State.setSess_shadow (s : State) (n : Nat) (x : Session) : (s.setSess n x).shadow = s.shadow := rfl
@[simp] theorem State.setSess_posted (s : State) (n : Nat) (x : Session) : (s.setSess n x).posted = s.posted := rfl
@[simp] theorem State.setSess_free (s : State) (n : Nat) (x : Session) : (s.setSess n x).free = s.free := rfl

/-! setTrap -/

@[simp] theorem State.setTrap_pending (s : State) (t : Trap) : (s.setTrap t).pending = s.pending := rfl
@[simp] theorem State.setTrap_rev (s : State) (t : Trap) : (s.setTrap t).rev = s.rev := rfl
@[simp] theorem State.setTrap_fuse (s : State) (t : Trap) : (s.setTrap t).fuse = s.fuse := rfl
@[simp] theorem State.setTrap_sys (s : State) (t : Trap) : (s.setTrap t).sys = s.sys := rfl
@[simp] theorem State.setTrap_crsl (s : State) (t : Trap) : (s.setTrap t).crsl = s.crsl := rfl
@[simp] theorem State.setTrap_ledger (s : State) (t : Trap) : (s.setTrap t).ledger = s.ledger := rfl
@[simp] theorem State.setTrap_pnt (s : State) (t : Trap) : (s.setTrap t).pnt = s.pnt := rfl
@[simp] theorem State.setTrap_loop (s : State) (t : Trap) : (s.setTrap t).loop = s.loop := rfl
@[simp] theorem State.setTrap_prg (s : State) (t : Trap) : (s.setTrap t).prg = s.prg := rfl
@[simp] theorem State.setTrap_prsm (s : State) (t : Trap) : (s.setTrap t).prsm = s.prsm := rfl
@[simp] theorem State.setTrap_fioGrp (s : State) (t : Trap) : (s.setTrap t).fioGrp = s.fioGrp := rfl
@[simp] theorem State.setTrap_fioCh (s : State) (t : Trap) : (s.setTrap t).fioCh = s.fioCh := rfl
@[simp] theorem State.setTrap_ui (s : State) (t : Trap) : (s.setTrap t).ui = s.ui := rfl
@[simp] theorem State.setTrap_uiBad (s : State) (t : Trap) : (s.setTrap t).uiBad = s.uiBad := rfl
@[simp] theorem State.setTrap_uiHeld (s : State) (t : Trap) : (s.setTrap t).uiHeld = s.uiHeld := rfl
@[simp] theorem State.setTrap_uiStamp (s : State) (t : Trap) : (s.setTrap t).uiStamp = s.uiStamp := rfl
@[simp] theorem State.setTrap_ao (s : State) (t : Trap) : (s.setTrap t).ao = s.ao := rfl
@[simp] theorem State.setTrap_fan (s : State) (t : Trap) : (s.setTrap t).fan = s.fan := rfl
@[simp] theorem State.setTrap_fanSilent (s : State) (t : Trap) : (s.setTrap t).fanSilent = s.fanSilent := rfl
@[simp] theorem State.setTrap_can (s : State) (t : Trap) : (s.setTrap t).can = s.can := rfl
@[simp] theorem State.setTrap_net (s : State) (t : Trap) : (s.setTrap t).net = s.net := rfl
@[simp] theorem State.setTrap_hostp (s : State) (t : Trap) : (s.setTrap t).hostp = s.hostp := rfl
@[simp] theorem State.setTrap_mbx (s : State) (t : Trap) : (s.setTrap t).mbx = s.mbx := rfl
@[simp] theorem State.setTrap_rtc (s : State) (t : Trap) : (s.setTrap t).rtc = s.rtc := rfl
@[simp] theorem State.setTrap_key (s : State) (t : Trap) : (s.setTrap t).key = s.key := rfl
@[simp] theorem State.setTrap_upd (s : State) (t : Trap) : (s.setTrap t).upd = s.upd := rfl
@[simp] theorem State.setTrap_flt (s : State) (t : Trap) : (s.setTrap t).flt = s.flt := rfl
@[simp] theorem State.setTrap_dbg (s : State) (t : Trap) : (s.setTrap t).dbg = s.dbg := rfl
@[simp] theorem State.setTrap_pwr (s : State) (t : Trap) : (s.setTrap t).pwr = s.pwr := rfl
@[simp] theorem State.setTrap_regs (s : State) (t : Trap) : (s.setTrap t).regs = s.regs := rfl
@[simp] theorem State.setTrap_image (s : State) (t : Trap) : (s.setTrap t).image = s.image := rfl
@[simp] theorem State.setTrap_cnt (s : State) (t : Trap) : (s.setTrap t).cnt = s.cnt := rfl
@[simp] theorem State.setTrap_stat (s : State) (t : Trap) : (s.setTrap t).stat = s.stat := rfl
@[simp] theorem State.setTrap_shadow (s : State) (t : Trap) : (s.setTrap t).shadow = s.shadow := rfl
@[simp] theorem State.setTrap_posted (s : State) (t : Trap) : (s.setTrap t).posted = s.posted := rfl
@[simp] theorem State.setTrap_free (s : State) (t : Trap) : (s.setTrap t).free = s.free := rfl
@[simp] theorem State.setTrap_trap (s : State) (t : Trap) : (s.setTrap t).trap = t := rfl

/-! setRtc -/

@[simp] theorem State.setRtc_pending (s : State) (r : Rtc) : (s.setRtc r).pending = s.pending := rfl
@[simp] theorem State.setRtc_rev (s : State) (r : Rtc) : (s.setRtc r).rev = s.rev := rfl
@[simp] theorem State.setRtc_fuse (s : State) (r : Rtc) : (s.setRtc r).fuse = s.fuse := rfl
@[simp] theorem State.setRtc_sys (s : State) (r : Rtc) : (s.setRtc r).sys = s.sys := rfl
@[simp] theorem State.setRtc_crsl (s : State) (r : Rtc) : (s.setRtc r).crsl = s.crsl := rfl
@[simp] theorem State.setRtc_ledger (s : State) (r : Rtc) : (s.setRtc r).ledger = s.ledger := rfl
@[simp] theorem State.setRtc_pnt (s : State) (r : Rtc) : (s.setRtc r).pnt = s.pnt := rfl
@[simp] theorem State.setRtc_loop (s : State) (r : Rtc) : (s.setRtc r).loop = s.loop := rfl
@[simp] theorem State.setRtc_prg (s : State) (r : Rtc) : (s.setRtc r).prg = s.prg := rfl
@[simp] theorem State.setRtc_prsm (s : State) (r : Rtc) : (s.setRtc r).prsm = s.prsm := rfl
@[simp] theorem State.setRtc_fioGrp (s : State) (r : Rtc) : (s.setRtc r).fioGrp = s.fioGrp := rfl
@[simp] theorem State.setRtc_fioCh (s : State) (r : Rtc) : (s.setRtc r).fioCh = s.fioCh := rfl
@[simp] theorem State.setRtc_ui (s : State) (r : Rtc) : (s.setRtc r).ui = s.ui := rfl
@[simp] theorem State.setRtc_uiBad (s : State) (r : Rtc) : (s.setRtc r).uiBad = s.uiBad := rfl
@[simp] theorem State.setRtc_uiHeld (s : State) (r : Rtc) : (s.setRtc r).uiHeld = s.uiHeld := rfl
@[simp] theorem State.setRtc_uiStamp (s : State) (r : Rtc) : (s.setRtc r).uiStamp = s.uiStamp := rfl
@[simp] theorem State.setRtc_ao (s : State) (r : Rtc) : (s.setRtc r).ao = s.ao := rfl
@[simp] theorem State.setRtc_fan (s : State) (r : Rtc) : (s.setRtc r).fan = s.fan := rfl
@[simp] theorem State.setRtc_fanSilent (s : State) (r : Rtc) : (s.setRtc r).fanSilent = s.fanSilent := rfl
@[simp] theorem State.setRtc_can (s : State) (r : Rtc) : (s.setRtc r).can = s.can := rfl
@[simp] theorem State.setRtc_net (s : State) (r : Rtc) : (s.setRtc r).net = s.net := rfl
@[simp] theorem State.setRtc_hostp (s : State) (r : Rtc) : (s.setRtc r).hostp = s.hostp := rfl
@[simp] theorem State.setRtc_mbx (s : State) (r : Rtc) : (s.setRtc r).mbx = s.mbx := rfl
@[simp] theorem State.setRtc_trap (s : State) (r : Rtc) : (s.setRtc r).trap = s.trap := rfl
@[simp] theorem State.setRtc_key (s : State) (r : Rtc) : (s.setRtc r).key = s.key := rfl
@[simp] theorem State.setRtc_upd (s : State) (r : Rtc) : (s.setRtc r).upd = s.upd := rfl
@[simp] theorem State.setRtc_flt (s : State) (r : Rtc) : (s.setRtc r).flt = s.flt := rfl
@[simp] theorem State.setRtc_dbg (s : State) (r : Rtc) : (s.setRtc r).dbg = s.dbg := rfl
@[simp] theorem State.setRtc_pwr (s : State) (r : Rtc) : (s.setRtc r).pwr = s.pwr := rfl
@[simp] theorem State.setRtc_regs (s : State) (r : Rtc) : (s.setRtc r).regs = s.regs := rfl
@[simp] theorem State.setRtc_image (s : State) (r : Rtc) : (s.setRtc r).image = s.image := rfl
@[simp] theorem State.setRtc_cnt (s : State) (r : Rtc) : (s.setRtc r).cnt = s.cnt := rfl
@[simp] theorem State.setRtc_stat (s : State) (r : Rtc) : (s.setRtc r).stat = s.stat := rfl
@[simp] theorem State.setRtc_shadow (s : State) (r : Rtc) : (s.setRtc r).shadow = s.shadow := rfl
@[simp] theorem State.setRtc_posted (s : State) (r : Rtc) : (s.setRtc r).posted = s.posted := rfl
@[simp] theorem State.setRtc_free (s : State) (r : Rtc) : (s.setRtc r).free = s.free := rfl
@[simp] theorem State.setRtc_rtc (s : State) (r : Rtc) : (s.setRtc r).rtc = r := rfl

/-! setKey -/

@[simp] theorem State.setKey_pending (s : State) (k : Key) : (s.setKey k).pending = s.pending := rfl
@[simp] theorem State.setKey_rev (s : State) (k : Key) : (s.setKey k).rev = s.rev := rfl
@[simp] theorem State.setKey_fuse (s : State) (k : Key) : (s.setKey k).fuse = s.fuse := rfl
@[simp] theorem State.setKey_sys (s : State) (k : Key) : (s.setKey k).sys = s.sys := rfl
@[simp] theorem State.setKey_crsl (s : State) (k : Key) : (s.setKey k).crsl = s.crsl := rfl
@[simp] theorem State.setKey_ledger (s : State) (k : Key) : (s.setKey k).ledger = s.ledger := rfl
@[simp] theorem State.setKey_pnt (s : State) (k : Key) : (s.setKey k).pnt = s.pnt := rfl
@[simp] theorem State.setKey_loop (s : State) (k : Key) : (s.setKey k).loop = s.loop := rfl
@[simp] theorem State.setKey_prg (s : State) (k : Key) : (s.setKey k).prg = s.prg := rfl
@[simp] theorem State.setKey_prsm (s : State) (k : Key) : (s.setKey k).prsm = s.prsm := rfl
@[simp] theorem State.setKey_fioGrp (s : State) (k : Key) : (s.setKey k).fioGrp = s.fioGrp := rfl
@[simp] theorem State.setKey_fioCh (s : State) (k : Key) : (s.setKey k).fioCh = s.fioCh := rfl
@[simp] theorem State.setKey_ui (s : State) (k : Key) : (s.setKey k).ui = s.ui := rfl
@[simp] theorem State.setKey_uiBad (s : State) (k : Key) : (s.setKey k).uiBad = s.uiBad := rfl
@[simp] theorem State.setKey_uiHeld (s : State) (k : Key) : (s.setKey k).uiHeld = s.uiHeld := rfl
@[simp] theorem State.setKey_uiStamp (s : State) (k : Key) : (s.setKey k).uiStamp = s.uiStamp := rfl
@[simp] theorem State.setKey_ao (s : State) (k : Key) : (s.setKey k).ao = s.ao := rfl
@[simp] theorem State.setKey_fan (s : State) (k : Key) : (s.setKey k).fan = s.fan := rfl
@[simp] theorem State.setKey_fanSilent (s : State) (k : Key) : (s.setKey k).fanSilent = s.fanSilent := rfl
@[simp] theorem State.setKey_can (s : State) (k : Key) : (s.setKey k).can = s.can := rfl
@[simp] theorem State.setKey_net (s : State) (k : Key) : (s.setKey k).net = s.net := rfl
@[simp] theorem State.setKey_hostp (s : State) (k : Key) : (s.setKey k).hostp = s.hostp := rfl
@[simp] theorem State.setKey_mbx (s : State) (k : Key) : (s.setKey k).mbx = s.mbx := rfl
@[simp] theorem State.setKey_trap (s : State) (k : Key) : (s.setKey k).trap = s.trap := rfl
@[simp] theorem State.setKey_rtc (s : State) (k : Key) : (s.setKey k).rtc = s.rtc := rfl
@[simp] theorem State.setKey_upd (s : State) (k : Key) : (s.setKey k).upd = s.upd := rfl
@[simp] theorem State.setKey_flt (s : State) (k : Key) : (s.setKey k).flt = s.flt := rfl
@[simp] theorem State.setKey_dbg (s : State) (k : Key) : (s.setKey k).dbg = s.dbg := rfl
@[simp] theorem State.setKey_pwr (s : State) (k : Key) : (s.setKey k).pwr = s.pwr := rfl
@[simp] theorem State.setKey_regs (s : State) (k : Key) : (s.setKey k).regs = s.regs := rfl
@[simp] theorem State.setKey_image (s : State) (k : Key) : (s.setKey k).image = s.image := rfl
@[simp] theorem State.setKey_cnt (s : State) (k : Key) : (s.setKey k).cnt = s.cnt := rfl
@[simp] theorem State.setKey_stat (s : State) (k : Key) : (s.setKey k).stat = s.stat := rfl
@[simp] theorem State.setKey_shadow (s : State) (k : Key) : (s.setKey k).shadow = s.shadow := rfl
@[simp] theorem State.setKey_posted (s : State) (k : Key) : (s.setKey k).posted = s.posted := rfl
@[simp] theorem State.setKey_free (s : State) (k : Key) : (s.setKey k).free = s.free := rfl
@[simp] theorem State.setKey_key (s : State) (k : Key) : (s.setKey k).key = k := rfl

/-! setUpd -/

@[simp] theorem State.setUpd_pending (s : State) (u : Upd) : (s.setUpd u).pending = s.pending := rfl
@[simp] theorem State.setUpd_rev (s : State) (u : Upd) : (s.setUpd u).rev = s.rev := rfl
@[simp] theorem State.setUpd_fuse (s : State) (u : Upd) : (s.setUpd u).fuse = s.fuse := rfl
@[simp] theorem State.setUpd_sys (s : State) (u : Upd) : (s.setUpd u).sys = s.sys := rfl
@[simp] theorem State.setUpd_crsl (s : State) (u : Upd) : (s.setUpd u).crsl = s.crsl := rfl
@[simp] theorem State.setUpd_ledger (s : State) (u : Upd) : (s.setUpd u).ledger = s.ledger := rfl
@[simp] theorem State.setUpd_pnt (s : State) (u : Upd) : (s.setUpd u).pnt = s.pnt := rfl
@[simp] theorem State.setUpd_loop (s : State) (u : Upd) : (s.setUpd u).loop = s.loop := rfl
@[simp] theorem State.setUpd_prg (s : State) (u : Upd) : (s.setUpd u).prg = s.prg := rfl
@[simp] theorem State.setUpd_prsm (s : State) (u : Upd) : (s.setUpd u).prsm = s.prsm := rfl
@[simp] theorem State.setUpd_fioGrp (s : State) (u : Upd) : (s.setUpd u).fioGrp = s.fioGrp := rfl
@[simp] theorem State.setUpd_fioCh (s : State) (u : Upd) : (s.setUpd u).fioCh = s.fioCh := rfl
@[simp] theorem State.setUpd_ui (s : State) (u : Upd) : (s.setUpd u).ui = s.ui := rfl
@[simp] theorem State.setUpd_uiBad (s : State) (u : Upd) : (s.setUpd u).uiBad = s.uiBad := rfl
@[simp] theorem State.setUpd_uiHeld (s : State) (u : Upd) : (s.setUpd u).uiHeld = s.uiHeld := rfl
@[simp] theorem State.setUpd_uiStamp (s : State) (u : Upd) : (s.setUpd u).uiStamp = s.uiStamp := rfl
@[simp] theorem State.setUpd_ao (s : State) (u : Upd) : (s.setUpd u).ao = s.ao := rfl
@[simp] theorem State.setUpd_fan (s : State) (u : Upd) : (s.setUpd u).fan = s.fan := rfl
@[simp] theorem State.setUpd_fanSilent (s : State) (u : Upd) : (s.setUpd u).fanSilent = s.fanSilent := rfl
@[simp] theorem State.setUpd_can (s : State) (u : Upd) : (s.setUpd u).can = s.can := rfl
@[simp] theorem State.setUpd_net (s : State) (u : Upd) : (s.setUpd u).net = s.net := rfl
@[simp] theorem State.setUpd_hostp (s : State) (u : Upd) : (s.setUpd u).hostp = s.hostp := rfl
@[simp] theorem State.setUpd_mbx (s : State) (u : Upd) : (s.setUpd u).mbx = s.mbx := rfl
@[simp] theorem State.setUpd_trap (s : State) (u : Upd) : (s.setUpd u).trap = s.trap := rfl
@[simp] theorem State.setUpd_rtc (s : State) (u : Upd) : (s.setUpd u).rtc = s.rtc := rfl
@[simp] theorem State.setUpd_key (s : State) (u : Upd) : (s.setUpd u).key = s.key := rfl
@[simp] theorem State.setUpd_flt (s : State) (u : Upd) : (s.setUpd u).flt = s.flt := rfl
@[simp] theorem State.setUpd_dbg (s : State) (u : Upd) : (s.setUpd u).dbg = s.dbg := rfl
@[simp] theorem State.setUpd_pwr (s : State) (u : Upd) : (s.setUpd u).pwr = s.pwr := rfl
@[simp] theorem State.setUpd_regs (s : State) (u : Upd) : (s.setUpd u).regs = s.regs := rfl
@[simp] theorem State.setUpd_image (s : State) (u : Upd) : (s.setUpd u).image = s.image := rfl
@[simp] theorem State.setUpd_cnt (s : State) (u : Upd) : (s.setUpd u).cnt = s.cnt := rfl
@[simp] theorem State.setUpd_stat (s : State) (u : Upd) : (s.setUpd u).stat = s.stat := rfl
@[simp] theorem State.setUpd_shadow (s : State) (u : Upd) : (s.setUpd u).shadow = s.shadow := rfl
@[simp] theorem State.setUpd_posted (s : State) (u : Upd) : (s.setUpd u).posted = s.posted := rfl
@[simp] theorem State.setUpd_free (s : State) (u : Upd) : (s.setUpd u).free = s.free := rfl
@[simp] theorem State.setUpd_upd (s : State) (u : Upd) : (s.setUpd u).upd = u := rfl

/-! outside -/

@[simp] theorem State.outside_pending (t s : State) (n : Nat) : (t.outside s n).pending = s.pending := rfl
@[simp] theorem State.outside_rev (t s : State) (n : Nat) : (t.outside s n).rev = n := rfl
@[simp] theorem State.outside_fuse (t s : State) (n : Nat) : (t.outside s n).fuse = s.fuse := rfl
@[simp] theorem State.outside_sys (t s : State) (n : Nat) : (t.outside s n).sys = t.sys := rfl
@[simp] theorem State.outside_crsl (t s : State) (n : Nat) : (t.outside s n).crsl = t.crsl := rfl
@[simp] theorem State.outside_ledger (t s : State) (n : Nat) : (t.outside s n).ledger = t.ledger := rfl
@[simp] theorem State.outside_pnt (t s : State) (n : Nat) : (t.outside s n).pnt = t.pnt := rfl
@[simp] theorem State.outside_loop (t s : State) (n : Nat) : (t.outside s n).loop = t.loop := rfl
@[simp] theorem State.outside_prg (t s : State) (n : Nat) : (t.outside s n).prg = t.prg := rfl
@[simp] theorem State.outside_prsm (t s : State) (n : Nat) : (t.outside s n).prsm = t.prsm := rfl
@[simp] theorem State.outside_fioGrp (t s : State) (n : Nat) : (t.outside s n).fioGrp = t.fioGrp := rfl
@[simp] theorem State.outside_fioCh (t s : State) (n : Nat) : (t.outside s n).fioCh = t.fioCh := rfl
@[simp] theorem State.outside_ui (t s : State) (n : Nat) : (t.outside s n).ui = t.ui := rfl
@[simp] theorem State.outside_uiBad (t s : State) (n : Nat) : (t.outside s n).uiBad = t.uiBad := rfl
@[simp] theorem State.outside_uiHeld (t s : State) (n : Nat) : (t.outside s n).uiHeld = t.uiHeld := rfl
@[simp] theorem State.outside_uiStamp (t s : State) (n : Nat) : (t.outside s n).uiStamp = t.uiStamp := rfl
@[simp] theorem State.outside_ao (t s : State) (n : Nat) : (t.outside s n).ao = t.ao := rfl
@[simp] theorem State.outside_fan (t s : State) (n : Nat) : (t.outside s n).fan = t.fan := rfl
@[simp] theorem State.outside_fanSilent (t s : State) (n : Nat) : (t.outside s n).fanSilent = t.fanSilent := rfl
@[simp] theorem State.outside_can (t s : State) (n : Nat) : (t.outside s n).can = t.can := rfl
@[simp] theorem State.outside_net (t s : State) (n : Nat) : (t.outside s n).net = t.net := rfl
@[simp] theorem State.outside_hostp (t s : State) (n : Nat) : (t.outside s n).hostp = t.hostp := rfl
@[simp] theorem State.outside_mbx (t s : State) (n : Nat) : (t.outside s n).mbx = t.mbx := rfl
@[simp] theorem State.outside_trap (t s : State) (n : Nat) : (t.outside s n).trap = t.trap := rfl
@[simp] theorem State.outside_rtc (t s : State) (n : Nat) : (t.outside s n).rtc = t.rtc := rfl
@[simp] theorem State.outside_key (t s : State) (n : Nat) : (t.outside s n).key = t.key := rfl
@[simp] theorem State.outside_upd (t s : State) (n : Nat) : (t.outside s n).upd = t.upd := rfl
@[simp] theorem State.outside_flt (t s : State) (n : Nat) : (t.outside s n).flt = t.flt := rfl
@[simp] theorem State.outside_dbg (t s : State) (n : Nat) : (t.outside s n).dbg = t.dbg := rfl
@[simp] theorem State.outside_pwr (t s : State) (n : Nat) : (t.outside s n).pwr = t.pwr := rfl
@[simp] theorem State.outside_regs (t s : State) (n : Nat) : (t.outside s n).regs = t.regs := rfl
@[simp] theorem State.outside_image (t s : State) (n : Nat) : (t.outside s n).image = t.image := rfl
@[simp] theorem State.outside_cnt (t s : State) (n : Nat) : (t.outside s n).cnt = t.cnt := rfl
@[simp] theorem State.outside_stat (t s : State) (n : Nat) : (t.outside s n).stat = t.stat := rfl
@[simp] theorem State.outside_shadow (t s : State) (n : Nat) : (t.outside s n).shadow = t.shadow := rfl
@[simp] theorem State.outside_posted (t s : State) (n : Nat) : (t.outside s n).posted = t.posted := rfl
@[simp] theorem State.outside_free (t s : State) (n : Nat) : (t.outside s n).free = t.free := rfl

end Sys2Proof.Machine
end

