-- ==== Sys2Proof/Laws/Ops.lean ====
section
/-! SUPPORT. What the shared operations do: reads after writes of keyed stores and their canonical form, status events, counters,
log entries, queues, and what the end of every command brings up to date. -/

namespace Sys2Proof.Machine

/-! ### Keyed stores -/

theorem sget_sput_self {α : Type} (d : α) (m : Sparse α) (k : Nat) (v : α) : sget d (sput m k v) k = v := by
  induction m with
  | nil => simp [sput, sget]
  | cons x t ih =>
    obtain ⟨k', v'⟩ := x
    unfold sput
    split
    · simp [sget]
    · split
      · simp [sget]
      · rename_i h; simp [sget, ih, Ne.symm h]

theorem sget_sput_ne {α : Type} (d : α) (m : Sparse α) {k j : Nat} (v : α) (h : k ≠ j) : sget d (sput m k v) j = sget d m j := by
  induction m with
  | nil => simp [sput, sget, h]
  | cons x t ih =>
    obtain ⟨k', v'⟩ := x
    unfold sput
    split
    · simp [sget, h]
    · split
      · rename_i e; subst e; simp [sget, h]
      · simp [sget, ih]

theorem sget_serase_ne {α : Type} (d : α) (m : Sparse α) {k j : Nat} (h : k ≠ j) : sget d (serase m k) j = sget d m j := by
  induction m with
  | nil => rfl
  | cons x t ih =>
    obtain ⟨k', v'⟩ := x
    unfold serase
    split
    · rename_i e; subst e; simp [sget, h, ih]
    · simp [sget, ih]

theorem sget_sset_ne {α : Type} [DecidableEq α] (d : α) (m : Sparse α) {k j : Nat} (v : α) (h : k ≠ j) :
    sget d (sset d m k v) j = sget d m j := by
  unfold sset; split
  · exact sget_serase_ne d m h
  · exact sget_sput_ne d m v h

theorem sget_sset_value {α : Type} [DecidableEq α] (d : α) (m : Sparse α) (k : Nat) {v : α} (h : v ≠ d) :
    sget d (sset d m k v) k = v := by
  unfold sset; rw [if_neg h]; exact sget_sput_self d m k v

theorem swfFrom_le {α : Type} [DecidableEq α] (d : α) {lo hi : Nat} (h : lo ≤ hi) (m : Sparse α) (w : swfFrom d hi m = true) :
    swfFrom d lo m = true := by
  cases m with
  | nil => rfl
  | cons x t => obtain ⟨k, v⟩ := x; simp [swfFrom] at w ⊢; exact ⟨⟨by omega, w.1.2⟩, w.2⟩

theorem sget_of_lt {α : Type} [DecidableEq α] (d : α) (m : Sparse α) {lo k : Nat} (h : k < lo) (w : swfFrom d lo m = true) :
    sget d m k = d := by
  induction m generalizing lo with
  | nil => rfl
  | cons x t ih =>
    obtain ⟨k', v'⟩ := x
    simp [swfFrom] at w
    have : k' ≠ k := by omega
    simp [sget, this]
    exact ih (lo := k' + 1) (by omega) w.2

theorem sget_serase_self {α : Type} (d : α) (m : Sparse α) (k : Nat) : sget d (serase m k) k = d := by
  induction m with
  | nil => rfl
  | cons x t ih =>
    obtain ⟨k', v'⟩ := x
    unfold serase
    split
    · exact ih
    · rename_i e; simp [sget, e, ih]

/-- A read after a write of the same key gives the value written. -/
theorem sget_sset_self {α : Type} [DecidableEq α] (d : α) (m : Sparse α) (k : Nat) (v : α) : sget d (sset d m k v) k = v := by
  unfold sset; split
  · rename_i h; rw [h]; exact sget_serase_self d m k
  · exact sget_sput_self d m k v

theorem swfFrom_serase {α : Type} [DecidableEq α] (d : α) (m : Sparse α) {lo : Nat} (k : Nat) (w : swfFrom d lo m = true) :
    swfFrom d lo (serase m k) = true := by
  induction m generalizing lo with
  | nil => rfl
  | cons x t ih =>
    obtain ⟨k', v'⟩ := x
    simp [swfFrom] at w
    unfold serase
    split
    · exact swfFrom_le d (by omega) _ (ih w.2)
    · simp [swfFrom, w.1.1, w.1.2]; exact ih w.2

theorem swfFrom_sput {α : Type} [DecidableEq α] (d : α) (m : Sparse α) {lo k : Nat} {v : α} (hk : lo ≤ k) (hv : v ≠ d)
    (w : swfFrom d lo m = true) : swfFrom d lo (sput m k v) = true := by
  induction m generalizing lo with
  | nil => simp [sput, swfFrom, hk, hv]
  | cons x t ih =>
    obtain ⟨k', v'⟩ := x
    simp [swfFrom] at w
    unfold sput
    split
    · rename_i h; simp [swfFrom, hk, hv, w.1.2, w.2]; omega
    · split
      · rename_i e; subst e; simp [swfFrom, hk, hv, w.2]
      · rename_i h e
        simp [swfFrom, w.1.1, w.1.2]
        exact ih (by omega) w.2

/-- Every write of a keyed store keeps its canonical form. -/
theorem swf_sset {α : Type} [DecidableEq α] (d : α) (m : Sparse α) (k : Nat) (v : α) (w : swf d m = true) :
    swf d (sset d m k v) = true := by
  unfold sset; split
  · exact swfFrom_serase d m k w
  · rename_i h; exact swfFrom_sput d m (Nat.zero_le k) h w

/-- A store in canonical form is fixed by what its keys read: two that read alike are the same list. -/
theorem swfFrom_ext {α : Type} [DecidableEq α] (d : α) (m n : Sparse α) {lo : Nat} (hm : swfFrom d lo m = true)
    (hn : swfFrom d lo n = true) (h : ∀ k, sget d m k = sget d n k) : m = n := by
  induction m generalizing n lo with
  | nil =>
    cases n with
    | nil => rfl
    | cons y u =>
      obtain ⟨k, v⟩ := y
      simp [swfFrom] at hn
      have := h k; simp [sget] at this
      exact absurd this.symm hn.1.2
  | cons x t ih =>
    obtain ⟨k, v⟩ := x
    simp [swfFrom] at hm
    cases n with
    | nil => have := h k; simp [sget] at this; exact absurd this hm.1.2
    | cons y u =>
      obtain ⟨j, w⟩ := y
      simp [swfFrom] at hn
      have hkj : k = j := by
        rcases Nat.lt_trichotomy k j with l | l | l
        · have := h k
          simp [sget, Nat.ne_of_gt l] at this
          rw [sget_of_lt d u (lo := j + 1) (by omega) hn.2] at this
          exact absurd this hm.1.2
        · exact l
        · have := h j
          simp [sget, Nat.ne_of_gt l] at this
          rw [sget_of_lt d t (lo := k + 1) (by omega) hm.2] at this
          exact absurd this.symm hn.1.2
      subst hkj
      have hv : v = w := by have := h k; simpa [sget] using this
      subst hv
      congr 1
      refine ih u hm.2 hn.2 fun i => ?_
      by_cases e : k = i
      · subst e
        rw [sget_of_lt d t (Nat.lt_succ_self k) hm.2, sget_of_lt d u (Nat.lt_succ_self k) hn.2]
      · have := h i; simpa [sget, e] using this

/-! ### Lists with one place replaced -/

@[simp] theorem lmod_length {α : Type} (l : List α) (i : Nat) (f : α → α) : (lmod l i f).length = l.length := by
  induction l generalizing i with
  | nil => rfl
  | cons x t ih => cases i with
    | zero => rfl
    | succ i => simp [lmod, ih]

theorem lmod_getD_self {α : Type} (l : List α) (i : Nat) (f : α → α) (d : α) (h : i < l.length) :
    (lmod l i f).getD i d = f (l.getD i d) := by
  induction l generalizing i with
  | nil => simp at h
  | cons x t ih => cases i with
    | zero => rfl
    | succ i => simp only [List.length_cons, Nat.add_lt_add_iff_right] at h; simpa [lmod] using ih i h

theorem lmod_getD_ne {α : Type} (l : List α) {i j : Nat} (f : α → α) (d : α) (h : i ≠ j) :
    (lmod l i f).getD j d = l.getD j d := by
  induction l generalizing i j with
  | nil => rfl
  | cons x t ih => cases i with
    | zero => cases j with
      | zero => exact absurd rfl h
      | succ j => rfl
    | succ i => cases j with
      | zero => rfl
      | succ j => simpa [lmod] using ih (by omega)

/-! ### Registers and counters -/

theorem State.reg_setReg_ne (s : State) {off o : Nat} (w : W32) (h : off ≠ o) : (s.setReg off w).reg o = s.reg o := by
  by_cases e : resetWord o = resetWord off
  · simp only [State.reg, State.setReg, e]; exact sget_sset_ne _ _ _ h
  · unfold State.reg State.setReg sset
    dsimp only
    split
    · exact sget_serase_ne _ _ h
    · exact sget_sput_ne _ _ _ h

theorem State.reg_setReg_value (s : State) {off : Nat} {w : W32} (h : w ≠ resetWord off) : (s.setReg off w).reg off = w :=
  sget_sset_value _ _ _ h

theorem State.total_count (s : State) (off n : Nat) : (s.count off n).total off = s.total off + n :=
  sget_sset_self 0 s.cnt off _

theorem State.total_count_ne (s : State) {off o : Nat} (n : Nat) (h : off ≠ o) : (s.count off n).total o = s.total o :=
  sget_sset_ne 0 s.cnt _ h

/-! ### Status events -/

theorem State.statOf_setSQ (s : State) (blk bit : Nat) :
    (s.setSQ blk bit).statOf blk =
      { s.statOf blk with seq := (s.statOf blk).seq + 1, set := sput (s.statOf blk).set bit ((s.statOf blk).seq + 1) } := by
  unfold State.statOf State.setSQ
  dsimp only
  refine sget_sset_value ({} : StatRec) s.stat blk ?_
  intro h
  have := congrArg StatRec.seq h
  simp at this

theorem State.statOf_setSQ_ne (s : State) {blk b : Nat} (bit : Nat) (h : blk ≠ b) : (s.setSQ blk bit).statOf b = s.statOf b := by
  unfold State.statOf State.setSQ
  dsimp only
  exact sget_sset_ne ({} : StatRec) s.stat _ h

theorem any_sput_self (m : Sparse Nat) (k v : Nat) : (sput m k v).any (fun e => e.1 == k) = true := by
  induction m with
  | nil => simp [sput]
  | cons x t ih =>
    obtain ⟨k', v'⟩ := x
    unfold sput
    split
    · simp
    · split
      · simp
      · simp only [List.any_cons, Bool.or_eq_true]; exact Or.inr ih

theorem any_sput_ne (m : Sparse Nat) {k j : Nat} (v : Nat) (h : k ≠ j) :
    (sput m k v).any (fun e => e.1 == j) = m.any (fun e => e.1 == j) := by
  induction m with
  | nil => simp [sput, h]
  | cons x t ih =>
    obtain ⟨k', v'⟩ := x
    unfold sput
    split
    · simp [h]
    · split
      · rename_i e; subst e; simp
      · simp [ih]

/-- An event sets its SQ field (R360). -/
@[simp] theorem State.sq_setSQ_self (s : State) (blk bit : Nat) : (s.setSQ blk bit).sq blk bit = true := by
  unfold State.sq; rw [State.statOf_setSQ]; exact any_sput_self _ _ _

/-- An event leaves every other SQ field as it was (R360). -/
theorem State.sq_setSQ_ne (s : State) {blk bit b i : Nat} (h : ¬(blk = b ∧ bit = i)) : (s.setSQ blk bit).sq b i = s.sq b i := by
  unfold State.sq
  by_cases e : blk = b
  · subst e
    rw [State.statOf_setSQ]
    exact any_sput_ne _ _ (fun x => h ⟨rfl, x⟩)
  · rw [State.statOf_setSQ_ne s bit e]

/-- An SQ field once set stays set through an event. -/
theorem State.sq_setSQ_mono (s : State) (blk bit : Nat) {b i : Nat} (h : s.sq b i = true) : (s.setSQ blk bit).sq b i = true := by
  by_cases e : blk = b ∧ bit = i
  · obtain ⟨rfl, rfl⟩ := e; exact State.sq_setSQ_self s blk bit
  · rw [State.sq_setSQ_ne s e]; exact h

/-! ### Log entries and faults -/

/-- `t` differs from `s` in the fault unit, counters and status records alone, no SQ field is cleared and no counter falls. -/
structure LogOnly (s t : State) : Prop where
  same : ∃ f c st, t = { s with flt := f, cnt := c, stat := st }
  sq : ∀ b i, s.sq b i = true → t.sq b i = true
  total : ∀ o, s.total o ≤ t.total o

theorem LogOnly.refl (s : State) : LogOnly s s := ⟨⟨_, _, _, rfl⟩, fun _ _ h => h, fun _ => Nat.le_refl _⟩

theorem LogOnly.trans {s t u : State} (h : LogOnly s t) (k : LogOnly t u) : LogOnly s u := by
  refine ⟨?_, fun b i e => k.sq b i (h.sq b i e), fun o => Nat.le_trans (h.total o) (k.total o)⟩
  obtain ⟨f, c, st, rfl⟩ := h.same
  obtain ⟨f', c', st', rfl⟩ := k.same
  exact ⟨_, _, _, rfl⟩

theorem LogOnly.setSQ {s t : State} (h : LogOnly s t) (b i : Nat) : LogOnly s (t.setSQ b i) :=
  h.trans ⟨⟨_, _, _, rfl⟩, fun _ _ e => State.sq_setSQ_mono t b i e, fun _ => Nat.le_refl _⟩

theorem State.total_count_le (s : State) (off n o : Nat) : s.total o ≤ (s.count off n).total o := by
  by_cases e : off = o
  · subst e; rw [State.total_count]; omega
  · rw [State.total_count_ne s n e]

theorem LogOnly.count {s t : State} (h : LogOnly s t) (o n : Nat) : LogOnly s (t.count o n) :=
  h.trans ⟨⟨_, _, _, rfl⟩, fun _ _ e => e, t.total_count_le o n⟩

theorem LogOnly.flt {s t : State} (h : LogOnly s t) (f : Flt) : LogOnly s { t with flt := f } :=
  h.trans ⟨⟨_, _, _, rfl⟩, fun _ _ e => e, fun _ => Nat.le_refl _⟩

theorem LogOnly.captureFirst {s t : State} (h : LogOnly s t) (e : LogEnt) : LogOnly s (t.captureFirst e) := by
  unfold State.captureFirst; split
  · exact h
  · exact (h.flt _).setSQ _ _

theorem LogOnly.bufferEntry {s t : State} (h : LogOnly s t) (e : LogEnt) : LogOnly s (t.bufferEntry e) := by
  unfold State.bufferEntry; dsimp only
  generalize (if e.cls.num < 2 then 240 else 256) = room
  split
  · exact h.flt _
  · exact (h.setSQ _ _).count _ _

/-- An event of any class alters the fault unit, counters and status records, and nothing else (R492). -/
theorem LogOnly.logEvent {s t : State} (h : LogOnly s t) (cls : EvClass) (src code : Nat) (booth : Byte) (data : W64) :
    LogOnly s (t.logEvent cls src code booth data) := by
  unfold State.logEvent
  dsimp only
  have k : LogOnly s (if cls.num ≥ 2 then (t.count (0x9840 + 4 * cls.num) 1).captureFirst
      { seq := 0, cls, source := src, code, booth, rep := 0, rev := t.rev, data, start := t.startNumber }
      else t.count (0x9840 + 4 * cls.num) 1) := by
    split
    · exact (h.count _ _).captureFirst _
    · exact h.count _ _
  generalize (if cls.num ≥ 2 then (t.count (0x9840 + 4 * cls.num) 1).captureFirst
      { seq := 0, cls, source := src, code, booth, rep := 0, rev := t.rev, data, start := t.startNumber }
      else t.count (0x9840 + 4 * cls.num) 1) = u at k ⊢
  split
  · exact k
  · split
    · split
      · exact (k.flt _).count _ _
      · exact k.bufferEntry _
    · exact k.bufferEntry _

theorem LogOnly.faultArrives {s t : State} (h : LogOnly s t) (ev : FaultEv) : LogOnly s (t.faultArrives ev) := by
  unfold State.faultArrives
  split
  · exact h.flt _
  · split
    · exact h.flt _
    · exact ((h.setSQ _ _).logEvent _ _ _ _ _).count _ _

theorem LogOnly.criticalArrives {s t : State} (h : LogOnly s t) (ev : FaultEv) : LogOnly s (t.criticalArrives ev) := by
  unfold State.criticalArrives
  split
  · exact h.flt _
  · exact ((h.setSQ _ _).logEvent _ _ _ _ _).flt _

theorem LogOnly.raise {s t : State} (h : LogOnly s t) (cls : EvClass) (src code : Nat) (booth : Byte) (data : Nat) :
    LogOnly s (t.raise cls src code booth data) := by
  unfold State.raise
  cases cls
  · exact h.logEvent _ _ _ _ _
  · exact h.logEvent _ _ _ _ _
  · exact ((h.logEvent _ _ _ _ _).flt _).faultArrives _
  · exact ((h.logEvent _ _ _ _ _).flt _).criticalArrives _

theorem LogOnly.report {s t : State} (h : LogOnly s t) (cls : EvClass) (blk bit : Nat) (booth : Byte) (data : Nat) :
    LogOnly s (t.report cls blk bit booth data) := (h.setSQ blk bit).raise _ _ _ _ _

theorem LogOnly.reportBare {s t : State} (h : LogOnly s t) (cls : EvClass) (blk bit : Nat) (booth : Byte) :
    LogOnly s (t.reportBare cls blk bit booth) := h.report _ _ _ _ _

/-- What an event does not alter (R492). -/
theorem raise_logOnly (s : State) (cls : EvClass) (src code : Nat) (booth : Byte) (data : Nat) :
    LogOnly s (s.raise cls src code booth data) := (LogOnly.refl s).raise _ _ _ _ _
theorem report_logOnly (s : State) (cls : EvClass) (blk bit : Nat) (booth : Byte) (data : Nat) :
    LogOnly s (s.report cls blk bit booth data) := (LogOnly.refl s).report _ _ _ _ _
theorem reportBare_logOnly (s : State) (cls : EvClass) (blk bit : Nat) (booth : Byte) :
    LogOnly s (s.reportBare cls blk bit booth) := (LogOnly.refl s).reportBare _ _ _ _

/-- An event reported sets its SQ field (R360, R492). -/
theorem report_sq (s : State) (cls : EvClass) (blk bit : Nat) (booth : Byte) (data : Nat) :
    (s.report cls blk bit booth data).sq blk bit = true :=
  (raise_logOnly (s.setSQ blk bit) cls blk bit booth data).sq _ _ (State.sq_setSQ_self s blk bit)

theorem reportBare_sq (s : State) (cls : EvClass) (blk bit : Nat) (booth : Byte) : (s.reportBare cls blk bit booth).sq blk bit = true :=
  report_sq _ _ _ _ _ _

end Sys2Proof.Machine
end

