-- ==== Sys2Proof/Laws/Outcome.lean ====
section
/-! SUPPORT. What every command's end does: domain health and HOST_IRQ_N brought up to date, the queue, the fuses and the
revolution counter outside the effect. -/

namespace Sys2Proof.Machine

/-! ### Domain health -/

theorem foldl_setSQ_same {α : Type} (l : List α) (t : State) (b i : Nat) :
    ∃ st, l.foldl (fun (t : State) _ => t.setSQ b i) t = { t with stat := st } := by
  induction l generalizing t with
  | nil => exact ⟨t.stat, rfl⟩
  | cons x r ih =>
    obtain ⟨st, h⟩ := ih (t.setSQ b i)
    exact ⟨st, by rw [List.foldl_cons, h]; rfl⟩

theorem foldl_setSQ_sq {α : Type} (l : List α) (t : State) (b i : Nat) {c j : Nat} (h : ¬(b = c ∧ i = j)) :
    (l.foldl (fun (t : State) _ => t.setSQ b i) t).sq c j = t.sq c j := by
  induction l generalizing t with
  | nil => rfl
  | cons x r ih => rw [List.foldl_cons, ih, State.sq_setSQ_ne t h]

theorem foldl_setSQ_mono {α : Type} (l : List α) (t : State) (b i : Nat) {c j : Nat} (h : t.sq c j = true) :
    (l.foldl (fun (t : State) _ => t.setSQ b i) t).sq c j = true := by
  induction l generalizing t with
  | nil => exact h
  | cons x r ih => rw [List.foldl_cons]; exact ih _ (State.sq_setSQ_mono t b i h)

theorem foldl_setSQ_statOf {α : Type} (l : List α) (t : State) (b i : Nat) {c : Nat} (h : b ≠ c) :
    (l.foldl (fun (t : State) _ => t.setSQ b i) t).statOf c = t.statOf c := by
  induction l generalizing t with
  | nil => rfl
  | cons x r ih => rw [List.foldl_cons, ih, State.statOf_setSQ_ne t i h]

theorem noteDomains_same (s t : State) : ∃ st, noteDomains s t = { t with stat := st } := foldl_setSQ_same _ t 0 16

/-- DOMAIN_CHG alone can be set (R34). -/
theorem noteDomains_sq (s t : State) {b i : Nat} (h : ¬(0 = b ∧ 16 = i)) : (noteDomains s t).sq b i = t.sq b i :=
  foldl_setSQ_sq _ t 0 16 h

/-! ### The interrupt line -/

theorem driveIrq_same (t : State) :
    ∃ c, t.driveIrq = { t with hostp := { t.hostp with irqLow := t.irqWanted }, cnt := c } := by
  unfold State.driveIrq; dsimp only; split
  · exact ⟨_, rfl⟩
  · exact ⟨t.cnt, rfl⟩

theorem irqWanted_congr (s t : State) (hr : t.regs = s.regs) (hs : t.stat = s.stat) (hq : t.hostp.queues = s.hostp.queues) :
    t.irqWanted = s.irqWanted := by
  unfold State.irqWanted State.flag State.irqBlk State.irqQ State.notice State.fld State.q State.reg
  rw [hr, hs, hq]

/-- The line agrees with what is pending once it is driven (R354). -/
theorem driveIrq_true (t : State) : t.driveIrq.hostp.irqLow = t.driveIrq.irqWanted := by
  obtain ⟨c, h⟩ := driveIrq_same t
  rw [h]
  exact (irqWanted_congr t _ rfl rfl rfl).symm

theorem driveIrq_total (t : State) {o : Nat} (h : 0x69FC ≠ o) : t.driveIrq.total o = t.total o := by
  unfold State.driveIrq; dsimp only; split
  · exact State.total_count_ne _ 1 h
  · rfl

/-! ### The end of a command -/

theorem settle_same (s t : State) :
    ∃ st c low, settle s t = { t with stat := st, hostp := { t.hostp with irqLow := low }, cnt := c } := by
  obtain ⟨st, h⟩ := noteDomains_same s t
  obtain ⟨c, k⟩ := driveIrq_same (noteDomains s t)
  refine ⟨st, c, (noteDomains s t).irqWanted, ?_⟩
  rw [settle, k, h]

@[simp] theorem settle_pending (s t : State) : (settle s t).pending = t.pending := by
  obtain ⟨_, _, _, h⟩ := settle_same s t; rw [h]
@[simp] theorem settle_rev (s t : State) : (settle s t).rev = t.rev := by
  obtain ⟨_, _, _, h⟩ := settle_same s t; rw [h]
@[simp] theorem settle_fuse (s t : State) : (settle s t).fuse = t.fuse := by
  obtain ⟨_, _, _, h⟩ := settle_same s t; rw [h]
@[simp] theorem settle_sys (s t : State) : (settle s t).sys = t.sys := by
  obtain ⟨_, _, _, h⟩ := settle_same s t; rw [h]
@[simp] theorem settle_crsl (s t : State) : (settle s t).crsl = t.crsl := by
  obtain ⟨_, _, _, h⟩ := settle_same s t; rw [h]
@[simp] theorem settle_ledger (s t : State) : (settle s t).ledger = t.ledger := by
  obtain ⟨_, _, _, h⟩ := settle_same s t; rw [h]
@[simp] theorem settle_pnt (s t : State) : (settle s t).pnt = t.pnt := by
  obtain ⟨_, _, _, h⟩ := settle_same s t; rw [h]
@[simp] theorem settle_loop (s t : State) : (settle s t).loop = t.loop := by
  obtain ⟨_, _, _, h⟩ := settle_same s t; rw [h]
@[simp] theorem settle_prg (s t : State) : (settle s t).prg = t.prg := by
  obtain ⟨_, _, _, h⟩ := settle_same s t; rw [h]
@[simp] theorem settle_prsm (s t : State) : (settle s t).prsm = t.prsm := by
  obtain ⟨_, _, _, h⟩ := settle_same s t; rw [h]
@[simp] theorem settle_fioGrp (s t : State) : (settle s t).fioGrp = t.fioGrp := by
  obtain ⟨_, _, _, h⟩ := settle_same s t; rw [h]
@[simp] theorem settle_fioCh (s t : State) : (settle s t).fioCh = t.fioCh := by
  obtain ⟨_, _, _, h⟩ := settle_same s t; rw [h]
@[simp] theorem settle_ui (s t : State) : (settle s t).ui = t.ui := by
  obtain ⟨_, _, _, h⟩ := settle_same s t; rw [h]
@[simp] theorem settle_uiBad (s t : State) : (settle s t).uiBad = t.uiBad := by
  obtain ⟨_, _, _, h⟩ := settle_same s t; rw [h]
@[simp] theorem settle_uiStamp (s t : State) : (settle s t).uiStamp = t.uiStamp := by
  obtain ⟨_, _, _, h⟩ := settle_same s t; rw [h]
@[simp] theorem settle_ao (s t : State) : (settle s t).ao = t.ao := by
  obtain ⟨_, _, _, h⟩ := settle_same s t; rw [h]
@[simp] theorem settle_fan (s t : State) : (settle s t).fan = t.fan := by
  obtain ⟨_, _, _, h⟩ := settle_same s t; rw [h]
@[simp] theorem settle_fanSilent (s t : State) : (settle s t).fanSilent = t.fanSilent := by
  obtain ⟨_, _, _, h⟩ := settle_same s t; rw [h]
@[simp] theorem settle_can (s t : State) : (settle s t).can = t.can := by
  obtain ⟨_, _, _, h⟩ := settle_same s t; rw [h]
@[simp] theorem settle_net (s t : State) : (settle s t).net = t.net := by
  obtain ⟨_, _, _, h⟩ := settle_same s t; rw [h]
@[simp] theorem settle_mbx (s t : State) : (settle s t).mbx = t.mbx := by
  obtain ⟨_, _, _, h⟩ := settle_same s t; rw [h]
@[simp] theorem settle_trap (s t : State) : (settle s t).trap = t.trap := by
  obtain ⟨_, _, _, h⟩ := settle_same s t; rw [h]
@[simp] theorem settle_rtc (s t : State) : (settle s t).rtc = t.rtc := by
  obtain ⟨_, _, _, h⟩ := settle_same s t; rw [h]
@[simp] theorem settle_key (s t : State) : (settle s t).key = t.key := by
  obtain ⟨_, _, _, h⟩ := settle_same s t; rw [h]
@[simp] theorem settle_upd (s t : State) : (settle s t).upd = t.upd := by
  obtain ⟨_, _, _, h⟩ := settle_same s t; rw [h]
@[simp] theorem settle_flt (s t : State) : (settle s t).flt = t.flt := by
  obtain ⟨_, _, _, h⟩ := settle_same s t; rw [h]
@[simp] theorem settle_dbg (s t : State) : (settle s t).dbg = t.dbg := by
  obtain ⟨_, _, _, h⟩ := settle_same s t; rw [h]
@[simp] theorem settle_pwr (s t : State) : (settle s t).pwr = t.pwr := by
  obtain ⟨_, _, _, h⟩ := settle_same s t; rw [h]
@[simp] theorem settle_regs (s t : State) : (settle s t).regs = t.regs := by
  obtain ⟨_, _, _, h⟩ := settle_same s t; rw [h]
@[simp] theorem settle_image (s t : State) : (settle s t).image = t.image := by
  obtain ⟨_, _, _, h⟩ := settle_same s t; rw [h]
@[simp] theorem settle_shadow (s t : State) : (settle s t).shadow = t.shadow := by
  obtain ⟨_, _, _, h⟩ := settle_same s t; rw [h]
@[simp] theorem settle_posted (s t : State) : (settle s t).posted = t.posted := by
  obtain ⟨_, _, _, h⟩ := settle_same s t; rw [h]
@[simp] theorem settle_free (s t : State) : (settle s t).free = t.free := by
  obtain ⟨_, _, _, h⟩ := settle_same s t; rw [h]
@[simp] theorem settle_hostp_queues (s t : State) : (settle s t).hostp.queues = t.hostp.queues := by
  obtain ⟨_, _, _, h⟩ := settle_same s t; rw [h]
@[simp] theorem settle_hostp_paths (s t : State) : (settle s t).hostp.paths = t.hostp.paths := by
  obtain ⟨_, _, _, h⟩ := settle_same s t; rw [h]
@[simp] theorem settle_hostp_dout (s t : State) : (settle s t).hostp.dout = t.hostp.dout := by
  obtain ⟨_, _, _, h⟩ := settle_same s t; rw [h]
@[simp] theorem settle_hostp_shutMask (s t : State) : (settle s t).hostp.shutMask = t.hostp.shutMask := by
  obtain ⟨_, _, _, h⟩ := settle_same s t; rw [h]
@[simp] theorem settle_hostp_shutDue (s t : State) : (settle s t).hostp.shutDue = t.hostp.shutDue := by
  obtain ⟨_, _, _, h⟩ := settle_same s t; rw [h]
@[simp] theorem settle_hostp_hiLatch (s t : State) : (settle s t).hostp.hiLatch = t.hostp.hiLatch := by
  obtain ⟨_, _, _, h⟩ := settle_same s t; rw [h]
@[simp] theorem settle_hostp_prsmLatch (s t : State) : (settle s t).hostp.prsmLatch = t.hostp.prsmLatch := by
  obtain ⟨_, _, _, h⟩ := settle_same s t; rw [h]
@[simp] theorem settle_reg (s t : State) (off : Nat) : (settle s t).reg off = t.reg off := by
  obtain ⟨_, _, _, h⟩ := settle_same s t; rw [h]; rfl
@[simp] theorem settle_flag (s t : State) (off i : Nat) : (settle s t).flag off i = t.flag off i := by
  obtain ⟨_, _, _, h⟩ := settle_same s t; rw [h]; rfl
@[simp] theorem settle_fld (s t : State) (off hi lo : Nat) : (settle s t).fld off hi lo = t.fld off hi lo := by
  obtain ⟨_, _, _, h⟩ := settle_same s t; rw [h]; rfl
@[simp] theorem settle_q (s t : State) (n : Nat) : (settle s t).q n = t.q n := by
  obtain ⟨_, _, _, h⟩ := settle_same s t; rw [h]; rfl
@[simp] theorem settle_point (s t : State) (p : Nat) : (settle s t).point p = t.point p := by
  obtain ⟨_, _, _, h⟩ := settle_same s t; rw [h]; rfl
@[simp] theorem settle_sess (s t : State) (n : Nat) : (settle s t).sess n = t.sess n := by
  obtain ⟨_, _, _, h⟩ := settle_same s t; rw [h]; rfl

/-- Only DOMAIN_CHG can change at the end of a command (R34). -/
theorem settle_sq (s t : State) {b i : Nat} (h : ¬(0 = b ∧ 16 = i)) : (settle s t).sq b i = t.sq b i := by
  obtain ⟨c, k⟩ := driveIrq_same (noteDomains s t)
  rw [settle, k]
  exact noteDomains_sq s t h

/-- No SQ field is cleared at the end of a command. -/
theorem settle_sq_mono (s t : State) {b i : Nat} (h : t.sq b i = true) : (settle s t).sq b i = true := by
  obtain ⟨c, k⟩ := driveIrq_same (noteDomains s t)
  rw [settle, k]
  exact foldl_setSQ_mono _ t 0 16 h

/-- HOST_CNT15 alone can advance at the end of a command (R354). -/
theorem settle_total (s t : State) {o : Nat} (h : 0x69FC ≠ o) : (settle s t).total o = t.total o := by
  rw [settle, driveIrq_total _ h]
  obtain ⟨st, k⟩ := noteDomains_same s t
  rw [k]; rfl

theorem settle_statOf (s t : State) {b : Nat} (h : 0 ≠ b) : (settle s t).statOf b = t.statOf b := by
  obtain ⟨c, k⟩ := driveIrq_same (noteDomains s t)
  rw [settle, k]
  exact foldl_setSQ_statOf _ t 0 16 h

/-- HOST_IRQ_N agrees with what is pending at the end of a command (R354). -/
theorem settle_irq (s t : State) : (settle s t).hostp.irqLow = (settle s t).irqWanted := driveIrq_true _

@[simp] theorem State.outside_sq (t s : State) (n b i : Nat) : (t.outside s n).sq b i = t.sq b i := rfl
@[simp] theorem State.outside_statOf (t s : State) (n b : Nat) : (t.outside s n).statOf b = t.statOf b := rfl
@[simp] theorem State.outside_total (t s : State) (n o : Nat) : (t.outside s n).total o = t.total o := rfl
@[simp] theorem State.outside_reg (t s : State) (n o : Nat) : (t.outside s n).reg o = t.reg o := rfl
@[simp] theorem State.outside_fld (t s : State) (n o hi lo : Nat) : (t.outside s n).fld o hi lo = t.fld o hi lo := rfl
@[simp] theorem State.outside_flag (t s : State) (n o i : Nat) : (t.outside s n).flag o i = t.flag o i := rfl
@[simp] theorem State.outside_q (t s : State) (n k : Nat) : (t.outside s n).q k = t.q k := rfl
@[simp] theorem State.outside_point (t s : State) (n p : Nat) : (t.outside s n).point p = t.point p := rfl
@[simp] theorem State.outside_sess (t s : State) (n k : Nat) : (t.outside s n).sess k = t.sess k := rfl

/-- A command that nests no CRITICAL is not followed by a stop (R495). -/
theorem State.afterNest_of (t : State) (h : t.flt.nest = false) : t.afterNest = t := by
  unfold State.afterNest; rw [h]; rfl

/-- What a command of the powered module answers. -/
theorem live_next (f : State → State) (s : State) (h : s.sys.powered = true) :
    live f s = .next ((settle s (f s.draw).afterNest).outside s s.rev) := by unfold live; rw [if_pos h]

/-- A command of a module without supply does nothing. -/
theorem live_off (f : State → State) (s : State) (h : s.sys.powered = false) : live f s = .next s := by
  unfold live; rw [h]; rfl

/-- What a command of the powered module reaches, when its effect nests no CRITICAL. -/
theorem live_reaches {P : State → Prop} (f : State → State) (s : State) (h : s.sys.powered = true)
    (n : (f s.draw).flt.nest = false) (k : P ((settle s (f s.draw)).outside s s.rev)) : ∃ t, live f s = .next t ∧ P t :=
  ⟨_, live_next f s h, by rw [State.afterNest_of _ n]; exact k⟩

/-- The same for a command served by an I/O engine that works. -/
theorem liveIoe_reaches {P : State → Prop} (e : Nat) (f : State → State) (s : State) (h : s.sys.powered = true)
    (b : s.sys.ioeBad.getLsbD e = false) (n : (f s.draw).flt.nest = false) (k : P ((settle s (f s.draw)).outside s s.rev)) :
    ∃ t, liveIoe e f s = .next t ∧ P t := by
  unfold liveIoe
  refine live_reaches _ s h ?_ ?_ <;>
    (rw [if_neg (by rw [State.draw_sys, b]; exact Bool.false_ne_true)]; assumption)

/-- The same for an event of the Prism partition or the backup domain in a powered module. -/
theorem anyPower_reaches {P : State → Prop} (f : State → State) (s : State) (h : s.sys.powered = true)
    (n : (f s.draw).flt.nest = false) (k : P ((settle s (f s.draw)).outside s s.rev)) : ∃ t, anyPower f s = .next t ∧ P t :=
  ⟨_, rfl, by rw [if_pos h, State.afterNest_of _ n]; exact k⟩

end Sys2Proof.Machine
end

