-- ==== Sys2Proof/Laws/Exec.lean ====
section
/-! SUPPORT. The form of every command's outcome, read off the dispatch once. -/

namespace Sys2Proof.Machine

theorem liveIoe_form (k : Nat) (g : State → State) (s : State) : ∃ f, liveIoe k g s = live f s := ⟨_, rfl⟩

/-- Every command ends in one of six ways: as a command of the powered module, as an event that needs no supply, as a phase, as the
boundary, as a cold start or as the loss of supply. -/
theorem exec_form (c : Instr) (s : State) :
    (∃ f, exec c s = live f s) ∨ (∃ f, exec c s = anyPower f s) ∨ (∃ p f, exec c s = livePhase p f s) ∨
    (c = .revolutionBoundary ∧ ∃ f, exec c s = liveTurn f s) ∨
    (∃ k r, c = .coldStart k r ∧ exec c s = execColdStart k r s) ∨ (c = .powerLoss ∧ exec c s = execPowerLoss s) := by
  cases c with
  | revolutionBoundary => exact .inr (.inr (.inr (.inl ⟨rfl, fun s => serve (boundary s), rfl⟩)))
  | intakePhase endT => exact .inr (.inr (.inl ⟨.intake, fun s => serve (intakePhase endT s), rfl⟩))
  | loopsPhase endT busy unreached => exact .inr (.inr (.inl ⟨.loops, fun s => loopsPhase endT busy unreached s, rfl⟩))
  | logicPhase endT busy runTimes => exact .inr (.inr (.inl ⟨.logic, fun s => logicPhase endT busy runTimes s, rfl⟩))
  | commitPhase endT pMw tj10 => exact .inr (.inr (.inl ⟨.commit, fun s => commitPhase endT pMw tj10 s, rfl⟩))
  | housekeepingPhase endT pages bistFail jugFail => exact .inr (.inr (.inl ⟨.guard, fun s => housekeepingPhase endT pages bistFail jugFail s, rfl⟩))
  | loopLate => exact .inl ⟨fun s => s.loopsLate, rfl⟩
  | stoppedOverrun task => exact .inl ⟨fun s => s.taskOverrun task.val, rfl⟩
  | phaseLate ph => exact .inl ⟨fun s => phaseLate ph s, rfl⟩
  | hardOvr ph demand ledger ioe => exact .inl ⟨fun s => hardOvr ph demand ledger ioe s, rfl⟩
  | housekeepingCarryOver => exact .inl ⟨fun s => housekeepingCarryOver s, rfl⟩
  | ckptLate => exact .inl ⟨fun s => s.ckptLate, rfl⟩
  | checkpointComplete readBack => exact .inl ⟨fun s => s.checkpointDone readBack, rfl⟩
  | earlyWarning mv => exact .inl ⟨fun s => earlyWarning mv s, rfl⟩
  | finalSaveComplete readBack => exact .inl ⟨fun s => s.finalDone readBack, rfl⟩
  | earlyWarningEnd => exact .inl ⟨fun s => earlyWarningEnd s, rfl⟩
  | powerLoss => exact .inr (.inr (.inr (.inr (.inr ⟨rfl, rfl⟩))))
  | coldStart cause res => exact .inr (.inr (.inr (.inr (.inl ⟨_, _, rfl, rfl⟩))))
  | warmStart cause => exact .inl ⟨fun s => warmStartRow (cause.val + 3) s, rfl⟩
  | warmStartHoldExpiry => exact .inl ⟨fun s => warmStartHoldExpiry s, rfl⟩
  | sysReset p v => exact .inl ⟨fun s => writeWord p 0x0014 v s, rfl⟩
  | jugglerStop k cause => exact .inl ⟨fun s => jugglerStop k.val cause.val s, rfl⟩
  | sramUncorrectable addr => exact .inl ⟨fun s => sramUncorrectable addr s, rfl⟩
  | lpddrUncorrectable addr => exact .inl ⟨fun s => lpddrUncorrectable addr s, rfl⟩
  | faultHandling ev => exact .inl ⟨fun s => faultHandling ev s, rfl⟩
  | criticalHandling ev => exact .inl ⟨fun s => criticalHandling ev s, rfl⟩
  | wdog => exact .inl ⟨fun s => wdog s, rfl⟩
  | thermalStop tj10 => exact .inl ⟨fun s => thermalStop tj10 s, rfl⟩
  | thermalClear tj10 => exact .inl ⟨fun s => thermalClear tj10 s, rfl⟩
  | overP mw => exact .inl ⟨fun s => overP mw s, rfl⟩
  | holdupTest => exact .inl ⟨fun s => holdupTest s, rfl⟩
  | holdupTestEnd timeUs => exact .inl ⟨fun s => holdupTestEnd timeUs s, rfl⟩
  | syncMessageReceive port m => exact .inl ⟨fun s => if s.sys.ioeBad.getLsbD 3 then s else syncReceive port.val m s, rfl⟩
  | syncTimeout => exact .inl ⟨fun s => syncTimeout s, rfl⟩
  | locked ptpNs => exact .inl ⟨fun s => lockedOn ptpNs s, rfl⟩
  | holdoverExpiry => exact .inl ⟨fun s => holdoverExpiry s, rfl⟩
  | announceReceive port a => exact .inl ⟨fun s => if s.sys.ioeBad.getLsbD 3 then s else announceReceive port.val a s, rfl⟩
  | tsWrap => exact .inl ⟨fun s => tsWrap s, rfl⟩
  | uncertainStale point => exact .inl ⟨fun s => uncertainStale point.val s, rfl⟩
  | pointWindowRead p off => exact .inl ⟨fun s => whenever (decide (0xC000 ≤ off)) (readWord p off) s, rfl⟩
  | pointWindowWrite p off v => exact .inl ⟨fun s => whenever (decide (0xC000 ≤ off)) (writeWord p off v) s, rfl⟩
  | pntMapDataWrite p v => exact .inl ⟨fun s => writeWord p 0x182C v s, rfl⟩
  | pntEpochWrite p upper v => exact .inl ⟨fun s => writeWord p (if upper then 0x1814 else 0x1810) v s, rfl⟩
  | loopCtxWrite p w v => exact .inl ⟨fun s => writeWord p (0x2940 + 4 * w.val) v s, rfl⟩
  | crslPeriodWrite p v => exact .inl ⟨fun s => writeWord p 0x0800 v s, rfl⟩
  | highWaterClear p off v => exact .inl ⟨fun s => whenever (highWater off) (writeWord p off v) s, rfl⟩
  | lowWordReadLatch p off => exact .inl ⟨fun s => whenever (revLow off) (readWord p off) s, rfl⟩
  | prsmLowWordRead p off => exact .inl ⟨fun s => whenever (prsmLow off) (readWord p off) s, rfl⟩
  | prsmRingDataRead p => exact .inl ⟨fun s => readWord p 0x38C8 s, rfl⟩
  | statusRegisterRead p off => exact .inl ⟨fun s => whenever (statusReg off) (readWord p off) s, rfl⟩
  | sequenceClearWrite p off v => exact .inl ⟨fun s => whenever (statusReg off) (writeWord p off v) s, rfl⟩
  | hostLockWrite p v => exact .inl ⟨fun s => writeWord p 0x6808 v s, rfl⟩
  | hostQcfgWrite p n v => exact .inl ⟨fun s => writeWord p (0x6840 + 4 * n.val) v s, rfl⟩
  | hostShutterWrite p v => exact .inl ⟨fun s => writeWord p 0x6820 v s, rfl⟩
  | mark q => exact .inl ⟨fun s => qMark q.val s, rfl⟩
  | rewind q => exact .inl ⟨fun s => qRewind q.val s, rfl⟩
  | release q => exact .inl ⟨fun s => serve (qRelease q.val s), rfl⟩
  | reset q => exact .inl ⟨fun s => serve (qReset q.val s), rfl⟩
  | abort q => exact .inl ⟨fun s => qAbort q.val s, rfl⟩
  | postedWrite p off v => exact .inl ⟨fun s => whenever (psReg off) (writeWord p off v) s, rfl⟩
  | postedWriteComplete dom => exact .inl ⟨fun s => postedComplete dom s, rfl⟩
  | rtcCountWrite p r v => exact .inl ⟨fun s => writeWord p (0x8000 + 4 * r.val) v s, rfl⟩
  | registerWrite p off v => exact .inl ⟨fun s => writeWord p off v s, rfl⟩
  | regRd addr words cut => exact .inl ⟨fun s => qspiRegRd addr.toNat words cut s, rfl⟩
  | regWr addr words cut => exact .inl ⟨fun s => qspiRegWr addr.toNat words cut s, rfl⟩
  | qRd addr words cut => exact .inl ⟨fun s => qspiQRd addr.toNat words cut s, rfl⟩
  | qWr addr words cut => exact .inl ⟨fun s => qspiWrite addr.toNat words false cut s, rfl⟩
  | qWrEnd addr words cut => exact .inl ⟨fun s => qspiWrite addr.toNat words true cut s, rfl⟩
  | irqRd addr words cut => exact .inl ⟨fun s => qspiIrqRd addr.toNat words cut s, rfl⟩
  | sessionChallenge h => exact .inl ⟨fun s => cmdSessionChallenge h s, rfl⟩
  | sessionOpen h proof => exact .inl ⟨fun s => cmdSessionOpen h proof s, rfl⟩
  | sessionClose h => exact .inl ⟨fun s => cmdSessionClose h s, rfl⟩
  | identify h => exact .inl ⟨fun s => cmdIdentify h s, rfl⟩
  | regRead h off count => exact .inl ⟨fun s => cmdRegRead h off count s, rfl⟩
  | regWrite h off words => exact .inl ⟨fun s => cmdRegWrite h off words s, rfl⟩
  | shutter h mask => exact .inl ⟨fun s => cmdShutter h mask s, rfl⟩
  | echo h bytes => exact .inl ⟨fun s => cmdEcho h bytes s, rfl⟩
  | pointRead h first count => exact .inl ⟨fun s => cmdPointRead h first count s, rfl⟩
  | pointWrite h writes => exact .inl ⟨fun s => cmdPointWrite h writes s, rfl⟩
  | forceSet h point value => exact .inl ⟨fun s => cmdForceSet h point value s, rfl⟩
  | forceClear h point => exact .inl ⟨fun s => cmdForceClear h point s, rfl⟩
  | pointConfig h point owner typ src share unit => exact .inl ⟨fun s => cmdPointConfig h point owner typ src share unit s, rfl⟩
  | windowBind h => exact .inl ⟨fun s => cmdWindowBind h s, rfl⟩
  | windowUnbind h => exact .inl ⟨fun s => cmdWindowUnbind h s, rfl⟩
  | forceList h first count => exact .inl ⟨fun s => cmdForceList h first count s, rfl⟩
  | loopRead h c => exact .inl ⟨fun s => cmdLoopRead h c s, rfl⟩
  | loopLoad h c words => exact .inl ⟨fun s => cmdLoopLoad h c words s, rfl⟩
  | loopMode h c mode manOut => exact .inl ⟨fun s => cmdLoopMode h c mode manOut s, rfl⟩
  | spotPermit h c permit => exact .inl ⟨fun s => cmdSpotPermit h c permit s, rfl⟩
  | spotStart h c sp => exact .inl ⟨fun s => cmdSpotStart h c sp s, rfl⟩
  | spotStop h slot => exact .inl ⟨fun s => cmdSpotStop h slot s, rfl⟩
  | spotPacketForward slot => exact .inl ⟨fun s => s.spotForward slot.val, rfl⟩
  | imageStage h booth slot off bytes => exact .inl ⟨fun s => cmdImageStage h booth slot off bytes s, rfl⟩
  | imageLoad h booth slot => exact .inl ⟨fun s => cmdImageLoad h booth slot s, rfl⟩
  | swbArm h booth slot b => exact .inl ⟨fun s => cmdSwbArm h booth slot b s, rfl⟩
  | swbDisarm h booth => exact .inl ⟨fun s => cmdSwbDisarm h booth s, rfl⟩
  | imageRelease h booth => exact .inl ⟨fun s => cmdImageRelease h booth s, rfl⟩
  | taskStop h task => exact .inl ⟨fun s => cmdTaskStop h task s, rfl⟩
  | taskRestart h task => exact .inl ⟨fun s => cmdTaskRestart h task s, rfl⟩
  | varRead h booth ids => exact .inl ⟨fun s => cmdVarRead h booth ids s, rfl⟩
  | limitSet h limit level levelValid => exact .inl ⟨fun s => cmdLimitSet h limit level levelValid s, rfl⟩
  | shedSet h level => exact .inl ⟨fun s => cmdShedSet h level s, rfl⟩
  | ledgerRead h => exact .inl ⟨fun s => cmdLedgerRead h s, rfl⟩
  | requestList h first count => exact .inl ⟨fun s => cmdRequestList h first count s, rfl⟩
  | requestReserved point => exact .inl ⟨fun s => Sys2Proof.Machine.requestReserved point.val s, rfl⟩
  | boundMiss point => exact .inl ⟨fun s => Sys2Proof.Machine.boundMiss point.val s, rfl⟩
  | blind => exact .inl ⟨fun s => s.goBlind, rfl⟩
  | houseStepShed => exact .inl ⟨fun s => s.houseShed, rfl⟩
  | houseStepRestore => exact .inl ⟨fun s => s.houseRestore, rfl⟩
  | prismPropose h set => exact .inl ⟨fun s => cmdPrismPropose h set s, rfl⟩
  | prismRead h meter => exact .inl ⟨fun s => cmdPrismRead h meter s, rfl⟩
  | prismSample codes crc => exact .inr (.inl ⟨fun s => prismSample codes crc s, rfl⟩)
  | feFault => exact .inr (.inl ⟨fun s => feFaultOn s, rfl⟩)
  | feFaultExit => exact .inr (.inl ⟨fun s => feFaultOff s, rfl⟩)
  | aggregationEnd => exact .inr (.inl ⟨fun s => aggregationEnd s, rfl⟩)
  | frequencyIntervalEnd => exact .inr (.inl ⟨fun s => frequencyIntervalEnd s, rfl⟩)
  | settleEnd meter => exact .inr (.inl ⟨fun s => settleEnd meter.val s, rfl⟩)
  | mirrorRefresh => exact .inl ⟨fun s => mirrorRefresh s, rfl⟩
  | mirrorLost => exact .inl ⟨fun s => mirrorLost s, rfl⟩
  | periodicSave => exact .inr (.inl ⟨fun s => periodicSave s, rfl⟩)
  | prismSaveComplete => exact .inr (.inl ⟨fun s => prismSaveComplete s, rfl⟩)
  | residualSave => exact .inr (.inl ⟨fun s => residualSave s, rfl⟩)
  | prismSupplyReturn => exact .inr (.inl ⟨fun s => prismSupplyReturn s, rfl⟩)
  | prismStart metEn package => exact .inr (.inl ⟨fun s => prismStart metEn package s, rfl⟩)
  | blockClose meter => exact .inr (.inl ⟨fun s => blockClose meter.val s, rfl⟩)
  | alignmentProposal sample => exact .inl ⟨fun s => alignmentProposal s.trusted sample s, rfl⟩
  | proposalRead => exact .inr (.inl ⟨fun s => proposalRead s, rfl⟩)
  | ringForward => exact .inl ⟨fun s => ringForward s, rfl⟩
  | fioRetry h ch cool => exact .inl ⟨fun s => cmdFioRetry h ch cool s, rfl⟩
  | fanRetry h ch => exact .inl ⟨fun s => cmdFanRetry h ch s, rfl⟩
  | fanLearn h ch days => exact .inl ⟨fun s => cmdFanLearn h ch days s, rfl⟩
  | ioStatus h kind ch => exact .inl ⟨fun s => cmdIoStatus h kind ch s, rfl⟩
  | tightropeFrameSend g cool arrives => exact .inl ⟨fun s => if s.sys.ioeBad.getLsbD 1 then s else s.ropeSend g.val cool arrives, rfl⟩
  | tightropeFrameReceive g noise start vsup temp => exact .inl ⟨fun s => if s.sys.ioeBad.getLsbD 1 then s else s.ropeReceive g.val noise start vsup temp, rfl⟩
  | wdogSafe g => exact .inl ⟨fun s => s.ropeWdog g.val, rfl⟩
  | linkLost g => exact .inl ⟨fun s => if s.sys.ioeBad.getLsbD 1 then s else s.ropeLost g.val, rfl⟩
  | linkBack g => exact .inl ⟨fun s => if s.sys.ioeBad.getLsbD 1 then s else s.ropeBack g.val, rfl⟩
  | linkRetrain g => exact .inl ⟨fun s => if s.sys.ioeBad.getLsbD 1 then s else s.ropeRetrain g.val, rfl⟩
  | fioChannelWrite p k time v => exact .inl ⟨fun s => writeWord p ((if time then 0x40C0 else 0x4040) + 4 * k.val) v s, rfl⟩
  | debounceChange k level => exact .inl ⟨fun s => if s.sys.ioeBad.getLsbD 1 then s else s.debounce k.val level, rfl⟩
  | wireBreak k => exact .inl ⟨fun s => if s.sys.ioeBad.getLsbD 1 then s else s.wireBreakOn k.val, rfl⟩
  | overload k => exact .inl ⟨fun s => if s.sys.ioeBad.getLsbD 1 then s else s.overloadOn k.val, rfl⟩
  | overtemp k => exact .inl ⟨fun s => if s.sys.ioeBad.getLsbD 1 then s else s.overtempOn k.val, rfl⟩
  | openWire k => exact .inl ⟨fun s => if s.sys.ioeBad.getLsbD 1 then s else s.openWireOn k.val, rfl⟩
  | supplyLow g v10 => exact .inl ⟨fun s => if s.sys.ioeBad.getLsbD 1 then s else s.fieldLow g.val v10, rfl⟩
  | rateGateEnd k => exact .inl ⟨fun s => if s.sys.ioeBad.getLsbD 1 then s else s.gateEnd k.val, rfl⟩
  | conversionFrame raw crc stamp => exact .inl ⟨fun s => if s.sys.ioeBad.getLsbD 0 then s else s.convFrame raw crc stamp, rfl⟩
  | frameErr => exact .inl ⟨fun s => if s.sys.ioeBad.getLsbD 0 then s else s.frameErr, rfl⟩
  | uiBadCondition k c => exact .inl ⟨fun s => if s.sys.ioeBad.getLsbD 0 then s else s.uiBadOn k.val c, rfl⟩
  | aoOverload j => exact .inl ⟨fun s => if s.sys.ioeBad.getLsbD 0 then s else s.aoOver j.val, rfl⟩
  | aoOverloadClear j => exact .inl ⟨fun s => if s.sys.ioeBad.getLsbD 0 then s else s.aoClear j.val, rfl⟩
  | pwmPeriodEnd c => exact .inl ⟨fun s => if s.sys.ioeBad.getLsbD 0 then s else s.pwmEnd c.val, rfl⟩
  | speedControlUpdate c => exact .inl ⟨fun s => if s.sys.ioeBad.getLsbD 0 then s else s.speedUpdate c.val, rfl⟩
  | tachTimeout c => exact .inl ⟨fun s => if s.sys.ioeBad.getLsbD 0 then s else s.tachTimeout c.val, rfl⟩
  | kickEnd c => exact .inl ⟨fun s => if s.sys.ioeBad.getLsbD 0 then s else s.kickEnd c.val, rfl⟩
  | waitEnd c => exact .inl ⟨fun s => if s.sys.ioeBad.getLsbD 0 then s else s.waitEnd c.val, rfl⟩
  | tachRecovery c => exact .inl ⟨fun s => if s.sys.ioeBad.getLsbD 0 then s else s.tachBack c.val, rfl⟩
  | learningWindowClose c => exact .inl ⟨fun s => if s.sys.ioeBad.getLsbD 0 then s else s.learnClose c.val, rfl⟩
  | steadyPeriod c speed current => exact .inl ⟨fun s => if s.sys.ioeBad.getLsbD 0 then s else s.steady c.val speed current, rfl⟩
  | ageingStale c => exact .inl ⟨fun s => if s.sys.ioeBad.getLsbD 0 then s else s.ageStale c.val, rfl⟩
  | hostSilent => exact .inl ⟨fun s => s.hostSilent, rfl⟩
  | canReception b f stamp rec => exact .inl ⟨fun s => if s.sys.ioeBad.getLsbD 2 then s else s.canReceive b.val f stamp rec.val, rfl⟩
  | canArbitrationOffer b => exact .inl ⟨fun s => if s.sys.ioeBad.getLsbD 2 then s else s.offer b.val, rfl⟩
  | canTxComplete b stamp => exact .inl ⟨fun s => if s.sys.ioeBad.getLsbD 2 then s else s.txDone b.val stamp, rfl⟩
  | txFail b => exact .inl ⟨fun s => if s.sys.ioeBad.getLsbD 2 then s else s.txError b.val, rfl⟩
  | expired b c => exact .inl ⟨fun s => if s.sys.ioeBad.getLsbD 2 then s else s.expire b.val c, rfl⟩
  | trefFail b => exact .inl ⟨fun s => if s.sys.ioeBad.getLsbD 2 then s else s.trefExpire b.val, rfl⟩
  | busOff b => exact .inl ⟨fun s => if s.sys.ioeBad.getLsbD 2 then s else s.busOffOn b.val, rfl⟩
  | busOffRecovery b => exact .inl ⟨fun s => if s.sys.ioeBad.getLsbD 2 then s else s.busOffEnd b.val, rfl⟩
  | busStuck b => exact .inl ⟨fun s => if s.sys.ioeBad.getLsbD 2 then s else s.busStuckOn b.val, rfl⟩
  | busStuckRecovery b => exact .inl ⟨fun s => if s.sys.ioeBad.getLsbD 2 then s else s.busStuckEnd b.val, rfl⟩
  | canSend h bus f => exact .inl ⟨fun s => cmdCanSend h bus f s, rfl⟩
  | canCancel h bus byEntry key => exact .inl ⟨fun s => cmdCanCancel h bus byEntry key s, rfl⟩
  | ethFrameReceive port f => exact .inl ⟨fun s => if s.sys.ioeBad.getLsbD 3 then s else serve (s.ethTake port.val f), rfl⟩
  | pause port time busy => exact .inl ⟨fun s => if s.sys.ioeBad.getLsbD 3 then s else s.pauseFrameIn port.val time busy, rfl⟩
  | pauseExpiry port => exact .inl ⟨fun s => if s.sys.ioeBad.getLsbD 3 then s else s.pauseEnd port.val, rfl⟩
  | pauseLong port => exact .inl ⟨fun s => if s.sys.ioeBad.getLsbD 3 then s else s.pauseLong port.val, rfl⟩
  | linkChg port link => exact .inl ⟨fun s => if s.sys.ioeBad.getLsbD 3 then s else s.linkChange port.val link.val, rfl⟩
  | addressAgeing source => exact .inl ⟨fun s => if s.sys.ioeBad.getLsbD 3 then s else s.ageAddress source, rfl⟩
  | lpiEntry port => exact .inl ⟨fun s => if s.sys.ioeBad.getLsbD 3 then s else s.lpiEnter port.val, rfl⟩
  | lldpSend port => exact .inl ⟨fun s => if s.sys.ioeBad.getLsbD 3 then s else s.lldpSend port.val, rfl⟩
  | lldpduReceive port frame intact => exact .inl ⟨fun s => if s.sys.ioeBad.getLsbD 3 then s else s.lldpReceive port.val frame intact, rfl⟩
  | bacnetRequest vid device op => exact .inl ⟨fun s => if s.sys.ioeBad.getLsbD 3 then s else s.bacnet vid device op, rfl⟩
  | covNotification sub => exact .inl ⟨fun s => if s.sys.ioeBad.getLsbD 3 then s else s.cov sub, rfl⟩
  | scHubRetry booth connected => exact .inl ⟨fun s => if s.sys.ioeBad.getLsbD 3 then s else Sys2Proof.Machine.scHubRetry booth.toNat connected s, rfl⟩
  | tunnelConnect vid profileOk cert => exact .inl ⟨fun s => if s.sys.ioeBad.getLsbD 3 then s else s.tunnelHandshake vid profileOk cert, rfl⟩
  | sessionIdleTimeout n => exact .inl ⟨fun s => if s.sys.ioeBad.getLsbD 3 then s else s.tunnelClose n.val, rfl⟩
  | responseStallClose n => exact .inl ⟨fun s => if s.sys.ioeBad.getLsbD 3 then s else s.stallClose n.val, rfl⟩
  | hostFrameTx => exact .inl ⟨fun s => if s.sys.ioeBad.getLsbD 3 then s else s.hostTx, rfl⟩
  | scHubs h booth primary failover => exact .inl ⟨fun s => cmdScHubs h booth primary failover s, rfl⟩
  | ifRead h idx => exact .inl ⟨fun s => cmdIfRead h idx s, rfl⟩
  | neighbourRead h port => exact .inl ⟨fun s => cmdNeighbourRead h port s, rfl⟩
  | sessionList h => exact .inl ⟨fun s => cmdSessionList h s, rfl⟩
  | timeout session tag => exact .inl ⟨fun s => Sys2Proof.Machine.timeout session.val tag s, rfl⟩
  | heartbeatReceive ring hb => exact .inl ⟨fun s => if s.sys.ioeBad.getLsbD 3 then s else heartbeatReceive ring hb s, rfl⟩
  | hbLost ring => exact .inl ⟨fun s => hbLost ring s, rfl⟩
  | takeover => exact .inl ⟨fun s => takeover s, rfl⟩
  | syncPacketReceive sp => exact .inl ⟨fun s => if s.sys.ioeBad.getLsbD 3 then s else syncPacketReceive sp s, rfl⟩
  | syncLoss => exact .inl ⟨fun s => syncLoss s, rfl⟩
  | partnerStale => exact .inl ⟨fun s => partnerStale s, rfl⟩
  | witnessReply r => exact .inl ⟨fun s => witnessReply r s, rfl⟩
  | witnessRetry => exact .inl ⟨fun s => witnessRetry s, rfl⟩
  | witnessWaitExpiry => exact .inl ⟨fun s => witnessWaitExpiry s, rfl⟩
  | isolatedQuery => exact .inl ⟨fun s => isolatedQuery s, rfl⟩
  | epochJournaled => exact .inl ⟨fun s => epochJournaled s, rfl⟩
  | claimReceive pairId member epoch => exact .inl ⟨fun s => claimReceive pairId member epoch s, rfl⟩
  | startingListenEnd => exact .inl ⟨fun s => startingListenEnd s, rfl⟩
  | pairStatus h => exact .inl ⟨fun s => cmdPairStatus h s, rfl⟩
  | pairSwitch h => exact .inl ⟨fun s => cmdPairSwitch h s, rfl⟩
  | witnessRead h => exact .inl ⟨fun s => cmdWitnessRead h s, rfl⟩
  | rtcIncrement phaseUs => exact .inr (.inl ⟨fun s => (if s.sys.powered then Sys2Proof.Machine.rtcIncrement phaseUs s else rtcTick s), rfl⟩)
  | rtcSecRead p => exact .inl ⟨fun s => readWord p 0x8000 s, rfl⟩
  | batSwitch toBat => exact .inr (.inl ⟨fun s => batSwitch toBat s, rfl⟩)
  | batMeasurement mv => exact .inr (.inl ⟨fun s => batMeasurement mv s, rfl⟩)
  | init => exact .inr (.inl ⟨fun s => (rtcInit s).backupRootLost, rfl⟩)
  | timeRead h => exact .inl ⟨fun s => cmdTimeRead h s, rfl⟩
  | timeSet h regs => exact .inl ⟨fun s => cmdTimeSet h regs s, rfl⟩
  | hourShift h dir => exact .inl ⟨fun s => cmdHourShift h dir s, rfl⟩
  | keyGenerate h r => exact .inl ⟨fun s => cmdKeyGenerate h r s, rfl⟩
  | keyImport h r => exact .inl ⟨fun s => cmdKeyImport h r s, rfl⟩
  | lifeCycleTransition h token => exact .inl ⟨fun s => cmdLifeCycle h token s, rfl⟩
  | keyRevoke h slot => exact .inl ⟨fun s => cmdKeyRevoke h slot s, rfl⟩
  | blobLoad h blob persist => exact .inl ⟨fun s => cmdBlobLoad h blob persist s, rfl⟩
  | attest h subject ref nonce => exact .inl ⟨fun s => cmdAttest h subject ref nonce s, rfl⟩
  | tamper => exact .inr (.inl ⟨fun s => (if s.sys.powered then tamperPowered s else tamperUnpowered s), rfl⟩)
  | debugOpen h token => exact .inl ⟨fun s => cmdDebugOpen h token s, rfl⟩
  | debugExpiry => exact .inl ⟨fun s => debugExpiry s, rfl⟩
  | traceStart h engines mask => exact .inl ⟨fun s => cmdTraceStart h engines mask s, rfl⟩
  | traceStop h => exact .inl ⟨fun s => cmdTraceStop h s, rfl⟩
  | updManifest h replace manifest => exact .inl ⟨fun s => cmdUpdManifest h replace manifest s, rfl⟩
  | updChunk h index part hash data => exact .inl ⟨fun s => cmdUpdChunk h index part hash data s, rfl⟩
  | updateChunkPacket => exact .inl ⟨fun s => updateChunkPacket s, rfl⟩
  | verifyComplete => exact .inl ⟨fun s => verifyComplete s, rfl⟩
  | updStatus h first count => exact .inl ⟨fun s => cmdUpdStatus h first count s, rfl⟩
  | updActivate h b => exact .inl ⟨fun s => cmdUpdActivate h b s, rfl⟩
  | updConfirm h => exact .inl ⟨fun s => cmdUpdConfirm h s, rfl⟩
  | updLock h value sig => exact .inl ⟨fun s => cmdUpdLock h value sig s, rfl⟩
  | confirmed => exact .inl ⟨fun s => confirmed s, rfl⟩
  | fallback => exact .inl ⟨fun s => fallback s, rfl⟩
  | faultRead h => exact .inl ⟨fun s => cmdFaultRead h s, rfl⟩
  | logRead h first count => exact .inl ⟨fun s => cmdLogRead h first count s, rfl⟩
  | logStream h enable first => exact .inl ⟨fun s => cmdLogStream h enable first s, rfl⟩
  | ctrlRestart h scope jug => exact .inl ⟨fun s => cmdCtrlRestart h scope jug s, rfl⟩
  | spareReady => exact .inl ⟨fun s => spareReady s, rfl⟩
  | errorFrame b tec rec lec => exact .inl ⟨fun s => if s.sys.ioeBad.getLsbD 2 then s else s.errorFrame b.val tec rec lec.val, rfl⟩
  | arbitrationLoss b => exact .inl ⟨fun s => if s.sys.ioeBad.getLsbD 2 then s else s.arbLoss b.val, rfl⟩
  | wireBreakEnd k => exact .inl ⟨fun s => if s.sys.ioeBad.getLsbD 1 then s else s.wireBreakOff k.val, rfl⟩
  | openWireClear k => exact .inl ⟨fun s => if s.sys.ioeBad.getLsbD 1 then s else s.openWireOff k.val, rfl⟩
  | fieldSupplyReturn g v10 => exact .inl ⟨fun s => if s.sys.ioeBad.getLsbD 1 then s else s.fieldBack g.val v10, rfl⟩
  | negFail port => exact .inl ⟨fun s => if s.sys.ioeBad.getLsbD 3 then s else s.negFail port.val, rfl⟩
  | endOfFrameInProgress port => exact .inl ⟨fun s => if s.sys.ioeBad.getLsbD 3 then s else s.frameEnd port.val, rfl⟩

/-- What a command leaves of the queue, the fuses and the revolution counter. -/
theorem live_outside (f : State → State) (s t : State) (h : live f s = .next t) :
    t.pending = s.pending ∧ t.fuse = s.fuse ∧ t.rev = s.rev := by
  unfold live at h; split at h <;> cases h <;> simp

theorem anyPower_outside (f : State → State) (s t : State) (h : anyPower f s = .next t) :
    t.pending = s.pending ∧ t.fuse = s.fuse ∧ t.rev = s.rev := by
  unfold anyPower at h; cases h; simp

theorem livePhase_outside (p : PhasePos) (f : State → State) (s t : State) (h : livePhase p f s = .next t) :
    t.pending = s.pending ∧ t.fuse = s.fuse ∧ t.rev = s.rev := by
  unfold livePhase at h; split at h
  · cases h; unfold State.atPhase; split <;> simp
  · cases h; simp

end Sys2Proof.Machine
end

