-- ==== Sys2Proof/Laws/Service.lean ====
section
/-! SUPPORT. What the shared operations of the command service do: the length of a response, where it is written, what a completion
counts, and a command whose checks all pass. -/

namespace Sys2Proof.Machine

/-! ### Responses -/

/-- Whole words of bytes: as many as hold them all (R375). -/
theorem wordsOf_length (fuel : Nat) (l : List Byte) (h : l.length ≤ 8 * fuel) : (wordsOf fuel l).length = (l.length + 7) / 8 := by
  induction fuel generalizing l with
  | zero => have : l = [] := List.eq_nil_of_length_eq_zero (by omega); subst this; rfl
  | succ n ih =>
    match l with
    | [] => rfl
    | b :: t =>
      have hd : ((b :: t).drop 8).length ≤ 8 * n := by simp only [List.length_drop]; omega
      have := ih _ hd
      simp only [wordsOf, List.length_cons, List.length_drop] at *
      omega

/-- A response fills the words reserved for its data (R375, R378, R383). -/
theorem respPacket_length (op : Nat) (tag booth : Byte) (sseq : W32) (flags status detail : Nat) (data : List Byte) :
    (respPacket op tag booth sseq flags status detail data).length = respWords data.length := by
  unfold respPacket respWords
  dsimp only
  rw [wordsOf_length]
  · simp only [List.length_append, leBytes_length, List.length_cons, List.length_nil]; omega
  · simp only [List.length_append, leBytes_length, List.length_cons, List.length_nil]; omega

theorem respWords_mono {m n : Nat} (h : m ≤ n) : respWords m ≤ respWords n := by unfold respWords; omega

/-! ### Queues -/

theorem State.q_setQ_self (s : State) {n : Nat} (q : Queue) (h : n < s.hostp.queues.length) : (s.setQ n q).q n = q :=
  lmod_getD_self _ _ _ _ h

theorem State.q_setQ_ne (s : State) {n m : Nat} (q : Queue) (h : n ≠ m) : (s.setQ n q).q m = s.q m := lmod_getD_ne _ _ _ h

/-- A producer with room writes its packet whole (R369). -/
theorem State.produce_room (s : State) (n : Nat) (ws : List W64) (h : s.qRoom n ws.length = true) :
    s.produce n ws = s.setQ n ((s.q n).push ws) := if_pos h

/-- A producer without room drops its packet whole (R369). -/
theorem State.produce_full (s : State) (n : Nat) (ws : List W64) (h : s.qRoom n ws.length = false) : s.produce n ws = s := by
  unfold State.produce; rw [h]; rfl

/-- A response of a host session stands in its queue, one of a tunnelled session in its buffer (R379). -/
theorem State.deliver_host (s : State) {n : Nat} (ws : List W64) (hn : n < 4) (hq : s.hostp.queues.length = 32)
    (hr : s.qRoom (4 + n) ws.length = true) : (s.deliver n ws).q (4 + n) = (s.q (4 + n)).push ws := by
  unfold State.deliver
  rw [if_pos hn, s.produce_room _ _ hr, State.q_setQ_self]
  omega

theorem State.deliver_tunnel (s : State) {n : Nat} (ws : List W64) (hn : ¬n < 4) :
    sget [] (s.deliver n ws).mbx.resp n = sget [] s.mbx.resp n ++ [ws] := by
  unfold State.deliver
  rw [if_neg hn]
  exact sget_sset_self _ _ _ _

/-- Delivery touches nothing but the queues and the buffers of responses. -/
theorem State.deliver_same (s : State) (n : Nat) (ws : List W64) :
    ∃ qs r, s.deliver n ws = { s with hostp := { s.hostp with queues := qs }, mbx := { s.mbx with resp := r } } := by
  unfold State.deliver State.produce State.setQ
  split
  · split
    · exact ⟨_, s.mbx.resp, rfl⟩
    · exact ⟨s.hostp.queues, s.mbx.resp, rfl⟩
  · exact ⟨s.hostp.queues, _, rfl⟩

/-! ### Completion -/

/-- A completion counts, notes and sets status fields; nothing else (R399). -/
theorem State.countDone_same (s : State) (n op status : Nat) :
    ∃ c st r, s.countDone n op status = { s with cnt := c, stat := st, regs := r } := by
  unfold State.countDone State.count State.setSQ State.setReg
  dsimp only
  repeat' split
  all_goals exact ⟨_, _, _, rfl⟩

/-- A completion with OK advances MBX_CNT1 alone. -/
theorem State.countDone_ok (s : State) (n op : Nat) : s.countDone n op 0 = s.count 0x7064 1 := rfl

/-- A response with OK: counted, and its packet delivered. -/
theorem State.respond_ok (s : State) (n op : Nat) (tag booth : Byte) (sseq : W32) (flags detail : Nat) (data : List Byte) :
    s.respond n op tag booth sseq flags 0 detail data =
      (s.count 0x7064 1).deliver n (respPacket op tag booth sseq flags 0 detail data) := rfl

/-- A response touches the counters, status fields, registers, queues and response buffers alone. -/
theorem State.respond_same (s : State) (n op : Nat) (tag booth : Byte) (sseq : W32) (flags status detail : Nat)
    (data : List Byte) : ∃ c st r qs b, s.respond n op tag booth sseq flags status detail data =
      { s with cnt := c, stat := st, regs := r, hostp := { s.hostp with queues := qs }, mbx := { s.mbx with resp := b } } := by
  obtain ⟨c, st, r, h⟩ := s.countDone_same n op status
  obtain ⟨qs, b, k⟩ := (s.countDone n op status).deliver_same n (respPacket op tag booth sseq flags status detail data)
  refine ⟨c, st, r, qs, b, ?_⟩
  rw [State.respond, k, h]

/-! ### A command -/

/-- Acceptance counts, takes an identifier and keeps the most slots in use (R383). -/
theorem State.accept_same (s : State) :
    ∃ st, s.accept = { s with
      stat := st, cnt := (s.count 0x7060 1).cnt
      mbx := { s.mbx with slotsMax := Nat.max s.mbx.slotsMax (s.mbx.slots.length + 1), nextIdent := s.mbx.nextIdent + 1 } } := by
  unfold State.accept State.setSQ State.count
  dsimp only
  split
  · exact ⟨_, rfl⟩
  · exact ⟨_, rfl⟩

/-- The expected SSEQ moves on in the session's turn, and nothing else changes (R384). -/
theorem State.advanceSseq_turn (s : State) (h : Hdr) (c : CmdSpec) (ho : (s.sess h.session.val).state = .opened)
    (hb : headerBad h c = false) (hs : h.sseq = (s.sess h.session.val).expected) :
    s.advanceSseq h c = s.setSess h.session.val { s.sess h.session.val with expected := (s.sess h.session.val).expected + 1 } :=
  if_pos ⟨ho, hb, hs⟩

/-- Room that is free on a path is room it has (R383). -/
theorem State.pathFree_le (s : State) (n : Nat) : s.pathFree n ≤ s.pathWords n := by
  unfold State.pathFree State.pathWords Queue.free
  dsimp only
  split <;> omega

/-- Room free for the responses of a host session is free in its queue (R383). -/
theorem State.pathFree_host (s : State) {n : Nat} (hn : n < 4) : s.pathFree n ≤ (s.q (4 + n)).free := by
  unfold State.pathFree
  dsimp only
  rw [if_pos hn]
  omega

/-- A response of at most the reserved data has its room in the queue of a host session. -/
theorem State.qRoom_resp (s : State) {n m : Nat} (op : Nat) (tag booth : Byte) (sseq : W32) (flags status detail : Nat)
    (data : List Byte) (hn : n < 4) (he : s.qEn (4 + n) = true) (hr : respWords m ≤ s.pathFree n) (hd : data.length ≤ m) :
    s.qRoom (4 + n) (respPacket op tag booth sseq flags status detail data).length = true := by
  unfold State.qRoom
  rw [he, respPacket_length, Bool.true_and, decide_eq_true_iff]
  exact Nat.le_trans (respWords_mono hd) (Nat.le_trans hr (s.pathFree_host hn))

/-- A command is taken while a core serves the command domain (R29), a slot and room for its response are free (R383). -/
theorem State.canTake_room (s : State) (h : Hdr) (c : CmdSpec) (hk : s.sys.cmdOk = true) (hs : s.mbx.slots.length < 256)
    (hr : respWords c.maxData ≤ s.pathFree h.session.val) : s.canTake h c = true := by
  unfold State.canTake; simp [hk, hs, hr]

/-- A command that cannot be taken leaves the state as it is (R383). -/
theorem runCmd_waits (h : Hdr) (c : CmdSpec) (body : State → Res) (s : State) (hc : s.canTake h c = false) :
    runCmd h c body s = s := if_pos hc

/-- A command taken whose check fails is answered with that check (R384). -/
theorem runCmd_fails (h : Hdr) (c : CmdSpec) (body : State → Res) (s : State) {st de fl : Nat} {da : List Byte}
    (hc : s.canTake h c = true) (hf : s.firstFail h c = some (st, de, fl, da)) :
    runCmd h c body s = ((s.advanceSseq h c).accept).respond h.session.val c.opcode h.tag h.booth h.sseq fl st de da := by
  unfold runCmd
  rw [if_neg (by rw [hc]; exact Bool.noConfusion)]
  dsimp only
  rw [hf]

/-- A command taken whose checks pass and that completes now is answered with its result (R384, R385). -/
theorem runCmd_now (h : Hdr) (c : CmdSpec) (body : State → Res) (s : State) {st de fl : Nat} {da : List Byte} {u : State}
    (hc : s.canTake h c = true) (hf : s.firstFail h c = none) (hb : body (s.advanceSseq h c).accept = .now st de da fl u) :
    runCmd h c body s = u.respond h.session.val c.opcode h.tag h.booth h.sseq fl st de da := by
  unfold runCmd
  rw [if_neg (by rw [hc]; exact Bool.noConfusion)]
  dsimp only
  rw [hf]
  dsimp only
  rw [hb]

/-- A command taken whose checks pass and that waits keeps its slot (R383, R385). -/
theorem runCmd_later (h : Hdr) (c : CmdSpec) (body : State → Res) (s : State) {w : Wait} {u : State}
    (hc : s.canTake h c = true) (hf : s.firstFail h c = none) (hb : body (s.advanceSseq h c).accept = .later w u) :
    runCmd h c body s =
      { u with mbx := { u.mbx with slots := u.mbx.slots ++
          [{ ident := (s.advanceSseq h c).accept.mbx.nextIdent, session := h.session.val, tag := h.tag, opcode := c.opcode,
             booth := h.booth, sseq := h.sseq, accepted := u.crsl.upNs, room := respWords c.maxData, wait := w }] } } := by
  unfold runCmd
  rw [if_neg (by rw [hc]; exact Bool.noConfusion)]
  dsimp only
  rw [hf]
  dsimp only
  rw [hb]

/-- The checks of R384 that do not name the command's own terms pass: what is left is what the command itself names. -/
theorem State.firstFail_open (s : State) (h : Hdr) (c : CmdSpec) (hb : headerBad h c = false)
    (ho : (s.sess h.session.val).state = .opened) (hs : h.sseq = (s.sess h.session.val).expected)
    (hbo : h.booth = (s.sess h.session.val).booth)
    (ht : (s.mbx.slots.any fun x => x.session == h.session.val && x.tag == h.tag && !x.discard) = false) (hp : h.badPayload = false)
    (hk : s.sys.parityHold = 0) (hr : s.sys.run ≠ .rescue)
    (hl : (c.lockBlk.map s.locked).getD false = false) (hw : respWords c.maxData ≤ s.pathWords h.session.val)
    (hu : c.undef = false) (ha : c.absent = false) (hd : c.denied = false) (hf : c.authFail = false) (hx : c.bad = none)
    (hc : c.changes = true → s.trap.role.refuses = false) (hbu : c.busy = none) (hre : c.refuse = none) :
    s.firstFail h c = none := by
  have hpar : ∀ b, s.parityHeld b = false := fun b => by simp [State.parityHeld, hk]
  have h1 : ∀ o : Option Nat, (o.map s.parityHeld).getD false = false := fun o => by cases o <;> simp [hpar]
  have h2 : ¬ (s.pathWords h.session.val < respWords c.maxData) := by omega
  unfold State.firstFail
  dsimp only
  simp only [hb, ho, hs, ← hbo, ht, hp, hu, ha, hd, hf, hx, hbu, hre, hl, h1, h2, hr, if_false, Option.isSome_none,
    Bool.false_eq_true, decide_true, ne_eq, not_true_eq_false, and_false, false_and, Bool.true_eq_false]
  split
  · rename_i hh; simp [hc hh.1] at hh
  · rfl

/-- A command taken in its turn that completes at once with OK: one response, behind what was on its path, and the state its effect
left but for the counter of completions (R378, R379, R384, R385). -/
theorem runCmd_answers (h : Hdr) (c : CmdSpec) (body : State → Res) (s : State) {fl : Nat} {da : List Byte} {u : State}
    (hc : s.canTake h c = true) (hf : s.firstFail h c = none) (hb : body (s.advanceSseq h c).accept = .now 0 0 da fl u)
    (hn : h.session.val < 4 → u.hostp.queues.length = 32 ∧ u.qEn (4 + h.session.val) = true ∧
      respWords c.maxData ≤ u.pathFree h.session.val)
    (hd : da.length ≤ c.maxData) :
    (h.session.val < 4 → (runCmd h c body s).q (4 + h.session.val) =
        (u.q (4 + h.session.val)).push (respPacket c.opcode h.tag h.booth h.sseq fl 0 0 da)) ∧
      (¬h.session.val < 4 → sget [] (runCmd h c body s).mbx.resp h.session.val =
        sget [] u.mbx.resp h.session.val ++ [respPacket c.opcode h.tag h.booth h.sseq fl 0 0 da]) ∧
      ∃ qs r, runCmd h c body s =
        { u.count 0x7064 1 with hostp := { u.hostp with queues := qs }, mbx := { u.mbx with resp := r } } := by
  rw [runCmd_now h c body s hc hf hb, State.respond_ok]
  refine ⟨fun n4 => ?_, fun n4 => ?_, ?_⟩
  · obtain ⟨h1, h2, h3⟩ := hn n4
    exact State.deliver_host (u.count 0x7064 1) _ n4 h1 (State.qRoom_resp u c.opcode h.tag h.booth h.sseq fl 0 0 da n4 h2 h3 hd)
  · exact State.deliver_tunnel (u.count 0x7064 1) _ n4
  · exact (u.count 0x7064 1).deliver_same h.session.val _

/-- With no packet in a command queue the command service takes nothing (R383). -/
theorem serve_idle (s : State) (h : s.waitingCmds = 0) : serve s = s := by
  unfold serve
  rw [h]
  exact ite_self s

end Sys2Proof.Machine
end

