-- ==== Sys2Proof/Tests/Slice0.lean ====
section
/-! SUPPORT. Tests of single commands with the results the spec gives, ill-formed commands the check refuses, and for every statement
states and operands that meet its hypotheses. -/

set_option Elab.async false

namespace Sys2Proof.Tests
open Sys2Proof.Machine

/-- Control runs. -/
def on : State := { State.reset with sys := { State.reset.sys with run := .running, cmdOk := true } }

/-- No supply. -/
def off : State := { State.reset with sys := { State.reset.sys with powered := false } }

/-- Session 0 open for booth 0, its response queue in use, no command in flight. -/
def serving : State :=
  ({ on with mbx := { on.mbx with sessions := lmod on.mbx.sessions 0 fun _ => { state := .opened, expected := 1 } } }
    : State).setReg 0x6850 0x80000000

/-- A good header of session 0. -/
def hd : Hdr :=
  { session := 0, tag := 7, booth := 0, sseq := 1, eff := none, badHeader := false, badPayload := false }

/-- A good IPv4 frame for another station, of 60 bytes before its FCS. -/
def frame : EthFrame :=
  { data := [2, 0, 0, 0, 0, 9, 2, 0, 0, 0, 0, 5, 8, 0] ++ List.replicate 46 0, fcsOk := true, fill := 0, stamp := 0, record := none }

/-- The same frame with one 802.1Q tag, filled to `n` bytes. -/
def tagged (n : Nat) : EthFrame :=
  { frame with data := [2, 0, 0, 0, 0, 9, 2, 0, 0, 0, 0, 5, 0x81, 0, 0, 1, 8, 0] ++ List.replicate n 0 }

/-- A start whose steps hold. -/
def goodStart : StartRes :=
  { sv0Fail := false, sv1Fail := false, ringmasterFail := false, jugglerFail := 0, ioeFail := 0, sharedFail := false
    rootFail := false, imageFail := false, clockFail := false, timebaseNs := 0 }

/-- A running task 0, due. -/
def tasked : State := { on with prg := { on.prg with tasks := [(0, { state := .running, period := 1 })] } }

/-- A FAULT in handling. -/
def handling : State := { on with flt := { on.flt with handling := some ⟨8, 6, 0xFF, 0⟩ } }

/-- The point window bound to session 0. -/
def bound : State := { serving with pnt := { serving.pnt with winSession := some 0 } }

/-- A host that has read the status register of block 5 at sequence 1 with one field set since, one before. -/
def seqRead : State :=
  { (on.setSQ 5 6).setSQ 5 2 with hostp := { on.hostp with paths := [(0, { seqLatch := [(5, some 1)] })] } }

/-- Words on queues 8 and 31: a whole packet of two words and an open one. -/
def queued : State :=
  ((on.setReg 0x68BC 0x80000000).setQ 8 { (on.q 8) with words := [(1, false), (2, true)], wr := 2, ps := 2 }).setQ 31
    { (on.q 31) with words := [(1, true), (2, false)], wr := 2, ps := 1, overrun := true }

/-- Session 0 challenged, its nonce of this instant. -/
def challenged : State :=
  { serving with mbx := { serving.mbx with
      sessions := lmod on.mbx.sessions 0 fun _ => { state := .challenged, nonce := some ([1], 0) } } }

/-- 256 commands in flight. -/
def full : State :=
  { serving with mbx := { serving.mbx with
      slots := List.replicate 256 { ident := 1, session := 1, tag := 0, opcode := 0, booth := 0, sseq := 0, accepted := 0
                                    room := 0, wait := .close } } }

/-- The slot of an operator key of booth 0. -/
def operatorSlot : KeySlot :=
  { state := .valid, kind := 2, owner := 0, usage := 16, material := Config.certKey [5], made := on.keyConst }

/-- A tunnelled connection on VID 1 of booth 0, whose certificate's key is enrolled in slot 1. -/
def tunnelled : State :=
  { on with
    pnt := { on.pnt with maps := [(0x1001, 0x100)] }
    mbx := { on.mbx with sessions := lmod on.mbx.sessions 4 fun _ => { vid := 1, cert := [5] } }
    key := { on.key with slots := [(1, operatorSlot.sealed)] } }

/-- A good header of the tunnelled session. -/
def hdT : Hdr := { hd with session := 4 }

/-- The 64 words of a loop of booth 0 in AUTO, every 1st revolution, DALPHA 1.0, writing point 100. -/
def loopWords : List W32 :=
  [0x40000000, 0x400, 0, 0, 100] ++ List.replicate 11 0 ++ [0x10000] ++ List.replicate 47 0

/-- Loops are tested: context 0 of booth 0 writes point 100 of booth 0, Spotlight enabled. -/
def looping : State :=
  ((serving.setReg 0x2800 1).writeRec 100 { quality := 0, owner := 0, src := 8 }).setReg 0x2808 0

/-- The same with the loop loaded. -/
def loaded : State := { looping with loop := { looping.loop with ctx := [(0, { words := loopWords, permit := true })] } }

/-- A complete Spotlight packet. -/
def packet : SpotBuf := { rev := 3, samples := [(1, 2)], deferred := [false], clamped := [false] }

/-- The same with slot 0 testing it and one packet complete. -/
def testing : State :=
  { loaded with loop := { loaded.loop with spots := lmod loaded.loop.spots 0 fun _ =>
      { state := 1, ctx := 0, full := [packet] } } }

/-- The first 64 bytes of an image of booth 0 for the 1 ms period: one task, no symbol, 160 bytes (R132, R133). -/
def imageHead : List Byte :=
  leBytes 4 0x4F4C4B31 ++ leBytes 2 3 ++ [0, 2] ++ leBytes 8 5 ++ leBytes 4 0 ++ leBytes 2 1 ++ leBytes 2 0 ++ leBytes 4 0 ++
    leBytes 4 0 ++ leBytes 4 0x80 ++ List.replicate 16 0 ++ leBytes 4 160 ++ List.replicate 8 0

/-- What follows its digest: the task entry of the plainest task. -/
def imageTail : List Byte := List.replicate 32 0 ++ Config.plainTaskEntry.toList

/-- The image. -/
def imageBytes : List Byte := imageHead ++ Config.sha256 (imageHead ++ List.replicate 32 0 ++ imageTail) ++ imageTail

/-- The image staged in slot 0. -/
def staged : State := { serving.setReg 0x3000 1 with prg := { serving.prg with staged := [(0, imageBytes)] } }

/-- The metering partition runs; meter 0 is in use with a register at its last remainder. -/
def metering : State :=
  { serving with prsm := { serving.prsm with
      powered := true, running := true, seen := true, seenLog := true, mirrorOk := true
      cfg := { serving.prsm.cfg with mtr := lmod serving.prsm.cfg.mtr 0 fun m => { m with wiring := 1 } }
      meters := lmod serving.prsm.meters 0 fun m => { m with rem := List.replicate 8 0xFFFFFFFF } } }

/-- Field group 0 in use, its first channel as `c` at both ends. -/
def field (c : FioCh) : State :=
  { serving.setReg 0x4000 0xF with fioCh := lmod serving.fioCh 0 fun _ => c }

/-- The same with the group as `g`. -/
def rope (c : FioCh) (g : FioGrp) : State :=
  { field c with fioGrp := lmod serving.fioGrp 0 fun _ => g }

/-- Fan channel 0 in use as `f`. -/
def fanned (f : FanCh) : State := { serving.setReg 0x5000 0xFF with fan := lmod serving.fan 0 fun _ => f }

/-- All room buses in use, bus 0 as `u`. -/
def bussed (u : CanBus) : State :=
  { serving.setReg 0x5800 0xF00 with can := { serving.can with bus := lmod serving.can.bus 0 fun _ => u } }

/-- A frame waiting. -/
def waiting : CanTx :=
  { tag := 3, entry := none, owner := 0, entered := 0
    frame := { ide := false, fdf := false, brs := false, remote := false, dlc := 0, ident := 5, data := [] } }

/-- Bus 0 with an entry that every classical frame matches, `n` frames in its store. -/
def hearing (n : Nat) : State :=
  { bussed { store := List.replicate n { frame := waiting.frame, stamp := 0 } } with
    can := { (bussed { store := List.replicate n { frame := waiting.frame, stamp := 0 } }).can with entries := [(0, [0x80000000, 0, 0])] } }

/-- Both ring ports up and forwarding, port 0 as `x`. -/
def ported (x : NetPort) : State :=
  { ((serving.setReg 0x6000 7).setReg 0x6010 0x84000000).setReg 0x6014 0x84000000 with
    net := { serving.net with ports := lmod (List.replicate 3 { link := 2 }) 0 fun _ => x } }

/-- Network services on interface VID 1 of booth 0, whose BACnet device is number 7; tunnels on. -/
def netted : State :=
  { (ported { link := 2 }).setReg 0x60A0 1 with
    pnt := { serving.pnt with maps := [(0x1001, 0x100), (0x3000, 0x80000007)] }
    net := { (ported { link := 2 }).net with ifs := [(0, [0xF0000001, 0x0A000001])] } }

/-- A member of pair 5 in a role. -/
def paired (r : Role) : State := { serving.setReg 0x7800 0x50001 with trap := { serving.trap with role := r } }

/-- A heartbeat of the partner, itself primary. -/
def beat : Heartbeat :=
  { checkOk := true, source := 9, pairId := 5, member := true, role := 2, ctrlOk := true, relinquish := false, unfit := false
    epoch := 1, pairRev := 0, syncSent := 0, syncReceived := 0 }

/-- In service, the owner root in slot 1. -/
def owned : State := { serving with key := { serving.key with life := .deployed, ownerRoot := 1 } }

/-- A VALID slot made under the constant in force. -/
def slotOf (kind : Nat) (usage : BitVec 10) (parent : Option Nat) (material : List Byte) : KeySlot :=
  { state := .valid, kind, usage, parent, material, made := owned.keyConst }

/-- A wrap key. -/
def wrapSlot : KeySlot := slotOf 4 12 none (Config.aesWrap (owned.slotKek 2 0) [2])

/-- Slot 0 the identity, slot 1 the owner root, slots 2 and 3 a wrap key and its descendant. -/
def keyed : State :=
  { owned with key := { owned.key with
      slots := [(0, (slotOf 1 1 none []).sealed), (1, (slotOf 2 0x280 none [1]).sealed), (2, wrapSlot.sealed),
                (3, (slotOf 2 16 (some 2) [3]).sealed)] } }

/-- The header of a blob of a session key under slot 2. -/
def blobHead : List Byte := blobHeader 3 2 0 4 serving.key.epoch (List.replicate 8 9)

/-- A blob that opens. -/
def blob : List Byte := blobHead ++ Config.aesWrap (Config.hkdf [] [2] blobHead) (List.replicate 32 7)

/-- Bytes with the signature of the owner root of `keyed` behind them. -/
def signed (b : List Byte) : List Byte := b ++ (Config.ecdsaSome [1] (Config.sha256 b)).toList

/-- The signed part of a life-cycle token from `f` to `t`. -/
def tokenHead (f t : Nat) : List Byte :=
  leBytes 4 0x4C435431 ++ [BitVec.ofNat 8 f, BitVec.ofNat 8 t, 0, 0] ++ leBytes 8 serving.fuse.serial.toNat ++
    leBytes 4 serving.key.lcCount ++ [1] ++ List.replicate 11 0

/-- A life-cycle token. -/
def token (f t : Nat) : List Byte := signed (tokenHead f t)

/-- The signed part of a manifest of one chunk of module firmware, its signer slot 1. -/
def manifestHead : List Byte :=
  leBytes 4 0x554D4631 ++ [1, 1, 1, 0] ++ leBytes 8 0 ++ leBytes 4 5 ++ leBytes 4 5 ++ leBytes 4 4096 ++ leBytes 2 1 ++
    leBytes 2 0 ++ List.replicate 160 0

/-- The manifest. -/
def manifest : List Byte := signed manifestHead

/-- A chunk packet of 4,096 bytes 01h for chunk 0 (R471). -/
def chunkWords : List W64 :=
  BitVec.ofNat 64 (0x5543 * 2 ^ 48 + 4096) :: wordsOf 8 (Config.sha256 (List.replicate 4096 1)) ++
    List.replicate 512 0x0101010101010101



/-! ### States and operands that meet the hypotheses of the statements, clause by clause -/

/-- The hold-up test runs. -/
def heldUp : State := { on with pwr := { on.pwr with testing := true } }

/-- Early warning stands. -/
def warned : State := { on with pwr := { on.pwr with early := true } }

theorem witness_EveryStepKeepsInterruptLine :
    ∃ t, State.reset.lineTrue ∧ step { State.reset with pending := [.revolutionBoundary] } = .next t :=
  ⟨_, by simp only [State.lineTrue]; decide +kernel, rfl⟩

theorem witness_EveryStepKeepsUnits : State.reset.shaped ∧ on.shaped ∧ serving.shaped := by
  simp only [State.shaped]; decide +kernel

theorem witness_StepRunsFront_idle : State.reset.pending = [] := rfl

theorem witness_EveryStepQueueFusesRevolution : ∃ t, step State.reset = .next t := ⟨_, rfl⟩

theorem witness_UnpoweredModule : off.sys.powered = false ∧ off.prsm.powered = false := by decide +kernel

theorem witness_SupplyEvents :
    (on.up = true ∧ on.pwr.early = false ∧ on.pwr.testing = false) ∧
      (warned.up = true ∧ warned.pwr.early = true) ∧
      ((on.setReg 0xA800 1).up = true ∧ bitAt ((on.setReg 0xA800 1).setting19 0xA800) 0 = true ∧
        (on.setReg 0xA800 1).pwr.early = false ∧ (on.setReg 0xA800 1).upd.state ≠ .armed ∧
        (on.setReg 0xA800 1).upd.state ≠ .trial ∧ (on.setReg 0xA800 1).switching = false) ∧
      (heldUp.up = true ∧ heldUp.pwr.testing = true ∧ 32899 * 20 / 1000 < 658 ∧ ¬ 32900 * 20 / 1000 < 658) := by
  decide +kernel

/-- A warm start asked for with cause 3h to 5h. -/
def asked (k : Fin 3) : State := { on with sys := { on.sys with startReq := some (k.val + 3) } }

theorem witness_StartsTakeEffect :
    (startBringsUp goodStart = true ∧ goodStart.sharedFail = false ∧ goodStart.imageFail = false ∧
      (off.sys.rescue = true ∨ off.rescueDue = false) ∧ off.key.life ≠ .scrapped) ∧
      (∀ k : Fin 3, (asked k).up = true ∧ (asked k).warmActs (k.val + 3) = true) ∧
      (let s : State := { paired .standby with upd := { on.upd with backDue := true } }
       s.up = true ∧ s.warmActs (3 + 3) = true) ∧
      (bits 0x52530000 31 16 = 0x5253 ∧ bits 0x5253FFFF 31 16 = 0x5253) ∧
      ({ on with sys := { on.sys with outHold := true } } : State).sys.outHold = true := by
  decide +kernel

theorem witness_MemoryFaults :
    (on.up = true ∧ on.calm = true ∧ on.flt.handling = none) ∧
      (∀ k : Fin 16, on.sys.jugState.getD k 0 ≠ 2 ∧ k.val < on.sys.jugState.length) ∧
      ((tasked.task 0).jug = 0 ∧ (tasked.task 0).state = .running) := by
  decide +kernel

theorem witness_FaultsTakeEffect :
    (on.up = true ∧ on.calm = true ∧ on.sys.thermalHold = false ∧ 1050 ≤ 1050) ∧
      on.sys.spareReady = false ∧ ({ on with sys := { on.sys with spareReady := true } } : State).sys.spareReady = true ∧
      (950 ≤ 950 ∧ ({ on with sys := { on.sys with thermalHold := true } } : State).sys.thermalHold = true) ∧ 3900 < 3901 := by
  decide +kernel

/-- A FAULT of the highest source and code. -/
def faultEv : FaultEv := { source := 31, code := 63, booth := 0xFF, data := 5 }

/-- A FAULT in handling and n in the queue. -/
def behind (n : Nat) : State := { handling with flt := { handling.flt with queue := List.replicate n ⟨1, 2, 0, 0⟩ } }

theorem witness_HandlingOrder :
    (faultEv.source < 32 ∧ faultEv.code < 64) ∧ (on.up = true ∧ on.calm = true ∧ on.flt.handling = none) ∧
      ((behind 7).up = true ∧ (behind 7).calm = true ∧ (behind 7).flt.handling.isSome = true ∧ (behind 7).flt.queue.length < 8) ∧
      ((behind 8).up = true ∧ (behind 8).calm = true ∧ (behind 8).flt.handling.isSome = true ∧ 8 ≤ (behind 8).flt.queue.length) ∧
      (({ handling with flt := { handling.flt with critical := some faultEv } } : State).up = true ∧
        ({ handling with flt := { handling.flt with critical := some faultEv } } : State).flt.critical.isSome = true ∧
        ({ handling with flt := { handling.flt with critical := some faultEv } } : State).flt.handling.isSome = true) := by
  decide +kernel

theorem witness_PhasesRun :
    (on.up = true ∧ on.running = true ∧ on.control = true ∧ on.calm = true) ∧
      (({ on with crsl := { on.crsl with late := [3, 4] } } : State).control = true ∧
        ({ on with crsl := { on.crsl with late := [3, 4] } } : State).crsl.late ≠ []) ∧
      (tasked.control = true ∧ (tasked.task 0).state = .running ∧ tasked.taskDue (tasked.task 0) = true) := by
  decide +kernel

/-- A write of the checkpoint or final save in progress, 100 revolutions old, its commit record sealed; a snapshot behind it or
none. -/
def saving (final : Bool) (w : Option Retentive) : State :=
  { on with rev := 100, prg := { on.prg with ckpt := { on.prg.ckpt with
      writing := some ({ seq := 3 } : Retentive).sealed, writingFinal := final, waiting := w } } }

theorem witness_Checkpoints :
    (∀ w ∈ [none, some ({} : Retentive)],
      (saving false w).up = true ∧ (saving false w).prg.ckpt.writing = some ({ seq := 3 } : Retentive).sealed ∧
        (saving false w).prg.ckpt.banks.length = 2 ∧ (saving false w).prg.ckpt.writingFinal = false ∧
        (saving false w).prg.ckpt.begun + 100 ≤ (saving false w).rev ∧ (saving false w).prg.ckpt.waiting = w) ∧
      ((saving true none).prg.ckpt.writing = some ({ seq := 3 } : Retentive).sealed ∧
        (saving true none).prg.ckpt.writingFinal = true) ∧
      ({ seq := 3 } : Retentive).sealed.crc = ({ seq := 3 } : Retentive).sealed.crcOf := by
  refine ⟨fun w _ => ⟨rfl, rfl, rfl, rfl, Nat.le_refl 100, rfl⟩, ⟨rfl, rfl⟩, rfl⟩

theorem witness_EventsStayInTheirUnit : on.up = true ∧ serving.up = true ∧ metering.up = true := by decide +kernel

/-- Time synchronisation in a state, on the slave port 0. -/
def synced (x : SyncState) : State :=
  { on with net := { on.net with slavePort := some 0 }, crsl := { on.crsl with sync := x, holdNs := 1000000000000 } }

/-- A used Sync message at the shortest interval. -/
def syncMsg : SyncMsg := { logInterval := -4, offsetNs := 100, ptpNs := 5, pathDelayNs := 5 }

theorem witness_TimeAlignment :
    ((synced .free).up = true ∧ (synced .free).engineUp 3 = true ∧ (synced .free).ptpFits syncMsg.via = true ∧ -4 ≤ syncMsg.logInterval ∧
      syncMsg.logInterval ≤ 0 ∧ (synced .free).net.slavePort = some 0 ∧ (synced .free).crsl.sync = .free) ∧
      (((synced .free).setReg 0x0800 0).flag 0x0800 9 = false ∧ ((synced .free).setReg 0x0800 0x200).flag 0x0800 9 = true) ∧
      ((synced .acquiring).crsl.sync = .acquiring ∧ within1us (s32 ((synced .acquiring).reg 0x0814)) = true ∧
        (synced .acquiring).crsl.slewing = false ∧ ((1000001 : W64).toNat : Int) - (synced .acquiring).crsl.absNs > 1000000) ∧
      (synced .locked).crsl.sync = .locked ∧
      ((synced .holdover).crsl.sync = .holdover ∧
        (synced .holdover).fld 0x0818 9 0 * 1000000000 ≤ (synced .holdover).crsl.holdNs) ∧
      (∀ p : Fin 2, p.val < on.net.ports.length ∧ on.engineUp 3 = true ∧ on.ptpFits {} = true) ∧
      (let s := (({ on with crsl := { on.crsl with phase := .intake } } : State).setReg 0x181C 0).writeRec 8063 { src := 5, quality := 0 }
       (s.point 8063).src = 5 ∧ s.fld 0x181C 15 0 ≤ s.rev - sget 0 s.pnt.fresh 8063 ∧ (s.point 8063).quality = 0 ∧
        s.sound 8063 ∧ s.crsl.phase = .intake) := by
  simp only [State.sound]; decide +kernel

theorem witness_CalendarCounts :
    (on.up = true ∧ on.rtc.halt = false ∧ on.rtc.lost = false ∧ on.rtc.shift = none ∧ on.rtc.onBat = false) ∧
      (off.sys.powered = false ∧ off.rtc.halt = false ∧ off.rtc.lost = false) ∧
      ({ on with rtc := { on.rtc with halt := true } } : State).rtc.halt = true ∧
      (let s : State := { on with rtc := { on.rtc with shift := some true } }
       s.rtc.halt = false ∧ s.rtc.lost = false ∧ s.rtc.shift = some true ∧ s.mbx.slots = []) ∧ 4095 < 4096 := by
  decide +kernel

theorem witness_ReadsLatch :
    on.up = true ∧ (0x980C ∈ [0x0808, 0x300C, 0x7810, 0x8038, 0x980C]) ∧ prsmLow 0x3900 = true ∧
      (∀ blk ∈ [0, 5, 7, 21], blk < 22 ∧ blk ≠ 4 ∧ blk ≠ 20 ∧ (blk = 7 → on.isMr = true)) ∧
      (metering.up = true ∧ metering.isMr = true ∧ metering.prsm.seenLog = true ∧ metering.parityHeld 7 = false) := by
  decide +kernel

theorem witness_PointWindow :
    (on.up = true ∧ on.winBooth = none) ∧
      (∀ r ∈ [0, 511], r < 512 ∧ bound.up = true ∧ bound.winBooth = some 0 ∧
        (let s := bound.writeRec r { quality := 0 }
         s.winBooth = some 0 ∧ s.check 0 .read (s.winPoint (0xC000 + 32 * r)) false false = .allow) ∧
        (let s : State := { bound with pnt := { bound.pnt with winStage := some (r, 5) } }
         s.winBooth = some 0 ∧ s.pnt.winStage = some (s.winPoint (0xC000 + 32 * r), 5))) := by
  decide +kernel

theorem witness_WindowWritesHeld :
    (on.up = true ∧ on.cfgFrozen = false ∧ on.locked 3 = false) ∧
      (mapInRange ((on.setReg 0x1828 0x100003FE).fld 0x1828 31 28) ((on.setReg 0x1828 0x100003FE).fld 0x1828 11 0) = true ∨
        mapInRange (on.fld 0x1828 31 28) (on.fld 0x1828 11 0) = true) ∧
      mapInRange ((on.setReg 0x1828 0xF0000FFF).fld 0x1828 31 28) ((on.setReg 0x1828 0xF0000FFF).fld 0x1828 11 0) = false ∧
      (∀ w ∈ [(5 : Fin 32), 23], 5 ≤ w.val ∧ w.val ≤ 23 ∧
        (let s : State := { bound with loop := { bound.loop with ctx := [(0, { words := [0x80000000] })] } }
         s.up = true ∧ s.cfgFrozen = false ∧ s.ctxOpen = true ∧ s.selCtx.inUse = true ∧ s.locked 5 = false ∧
          s.selOf (0x2940 + 4 * w.val) % 2 = 0)) := by
  decide +kernel

theorem witness_ShadowMerge :
    (0xF0 : W32) ≠ 0 ∧ (0xFF : W32) ≠ 0 ∧ ∀ x ∈ on.shadow, ¬ (x.off = 0x1010 ∧ x.sel = 0 ∧ x.due = on.dueNow) := by
  decide +kernel

theorem witness_OwnRegisters :
    (on.up = true ∧ on.cfgFrozen = false ∧ on.locked 1 = false ∧ on.locked 3 = false ∧ on.running = true ∧
      bits 3 1 0 ≠ on.fld 0x0800 1 0 ∧ bits 2 1 0 = on.fld 0x0800 1 0) ∧
      (let s : State := { on with sys := { on.sys with run := .stopped } }
       s.up = true ∧ s.cfgFrozen = false ∧ s.locked 1 = false ∧ s.sys.run = .stopped ∧ s.crsl.ovrDue = false ∧
        ({ s with crsl := { s.crsl with ovrDue := true } } : State).crsl.ovrDue = true) ∧
      0 < 5 ∧ 4 < 5 ∧ (on.setReg 0x6808 0x200001).locked 0 = true ∧ (on.setReg 0x6808 0x200001).locked 21 = true := by
  decide +kernel

theorem witness_SequenceClear :
    seqRead.up = true ∧ sget none (seqRead.pathOf .host).seqLatch 5 = some 1 ∧ 1 % 256 = bits 0x01000000 31 24 ∧
      1 % 256 ≠ bits 0x02000000 31 24 ∧ sget none (on.pathOf .host).seqLatch 5 = none ∧
      (∀ blk ∈ [0, 5, 7, 21], blk < 22 ∧ blk ≠ 4 ∧ blk ≠ 20 ∧ (blk = 7 → seqRead.isMr = true)) := by
  decide +kernel

theorem witness_PostedWrites :
    (on.up = true ∧ on.cfgFrozen = false ∧ on.parityHeld 16 = false ∧ on.busyDom 16 = false ∧ on.rtc.halt = false) ∧
      (let s : State := { on with rtc := { on.rtc with halt := true } }
       s.up = true ∧ s.cfgFrozen = false ∧ s.parityHeld 16 = false ∧ s.busyDom 16 = false ∧ s.rtc.halt = true) ∧
      (∀ r : Fin 8, let s : State := { on with posted := [(16, some { off := 0x8000 + 4 * r.val, val := 5 })] }
        s.up = true ∧ s.cfgFrozen = false ∧ s.parityHeld 16 = false ∧ s.busyDom 16 = true ∧
          sget none s.posted 16 = some { off := 0x8000 + 4 * r.val, val := 5 } ∧ r.val < s.rtc.cal.length) := by
  decide +kernel

theorem witness_PlainRegisters :
    (on.up = true ∧ on.cfgFrozen = false ∧ (on.setReg 0x6808 4).up = true ∧ (on.setReg 0x6808 4).cfgFrozen = false ∧
      (on.setReg 0x6808 4).locked 2 = true) ∧
      (on.locked 13 = false ∧ bits 0x06000000 27 24 ≤ 12 ∧ leastDepth 0 ≤ 2 ^ bits 0x06000000 27 24 ∧
        on.depthSum 0 (bits 0x06000000 27 24) ≤ 16384) ∧ 12 < bits 0x0D000000 27 24 := by
  decide +kernel

theorem witness_QueuesServed :
    (queued.up = true ∧ queued.noCommands = true ∧ 8 < queued.hostp.queues.length ∧ hostRead 8 = true ∧ (queued.q 8).len = 2) ∧
      (31 < queued.hostp.queues.length ∧ hostWritten 31 = true ∧ hostRead 31 = false ∧ queued.parityHeld 13 = false ∧
        queued.qEn 31 = true ∧ (queued.q 31).discarding = false ∧ 0 < (queued.q 31).free) ∧
      (0 < on.hostp.queues.length ∧ hostRead 0 = false) := by
  decide +kernel

theorem witness_RegisterTransactions :
    on.up = true ∧ (0xFFFC : BitVec 16).toNat % 4 = 0 ∧ (0xFFFF : BitVec 16).toNat % 4 ≠ 0 ∧ (0 : BitVec 16).toNat % 4 = 0 := by
  decide +kernel

/-- The commands of a good header are taken in `serving`, with any response its queue has room for. -/
theorem serving_admits : ∀ n ∈ [0, 1, 2, 4, 8, 16, 24, 32, 44, 200, 256, 1500], serving.admits hd n := by
  simp only [State.admits, State.admitsAt, State.takes]; decide +kernel

theorem serving_landlord : serving.landlord hd = true ∧ serving.trap.role.refuses = false ∧ serving.mbx.slots = [] := by
  decide +kernel

/-- Session 0 closed, its response queue in use and enabled. -/
def closed : State := (on.setReg 0x6850 0x80000000).setReg 0x7000 1

/-- Session 0 challenged, an operator key of booth 0 in slot 1. -/
def answering : State := { challenged.setReg 0x7000 1 with key := tunnelled.key }

/-- The operator's answer to the challenge. -/
def proof : List Byte := (Config.ecdsaSome (Config.certKey [5]) (Config.sha256 ([1] ++ [0, 0]))).toList

theorem usable_sealed (s : State) (k : Nat) (x : KeySlot) (h : s.slotAt k = x.sealed) (hv : x.state = .valid)
    (hm : x.made = s.keyConst) : s.slotUsable k = true := by
  simp [State.slotUsable, h, KeySlot.sealed, KeySlot.recordBytes, hv, hm]

theorem operator_only (s : State) (h : s.key.slots = [(1, operatorSlot.sealed)]) (hc : operatorSlot.made = s.keyConst) :
    s.operatorKeys 0#8 = [1] := by
  have at' : ∀ k, s.slotAt k = if 1 = k then operatorSlot.sealed else {} := fun k => by rw [State.slotAt, h]; rfl
  have one : s.slotUsable 1 = true := usable_sealed s 1 operatorSlot (at' 1) rfl hc
  have keep : ∀ k ∈ List.range 64, (s.slotUsable k && (s.slotAt k).uses 4 && decide ((s.slotAt k).kind = 2) &&
      decide ((s.slotAt k).owner = 0#8)) = decide (k = 1) := fun k _ => by
    by_cases hk : k = 1
    · subst hk; rw [one, at']; decide +kernel
    · simp [at', Ne.symm hk, KeySlot.uses, hk]
  rw [State.operatorKeys, List.filter_congr keep]; decide +kernel

theorem answering_proof : answering.sessionProof hd proof = some 1 := by
  have h1 : (answering.sess 0).nonce = some ([1], 0) := by decide +kernel
  have h2 : ¬ (0 + 10000000000 < answering.crsl.upNs) := by decide +kernel
  have h3 : answering.keysShut = false := by decide +kernel
  have h4 : answering.operatorKeys 0#8 = [1] := operator_only answering rfl (by decide +kernel)
  have h5 : (answering.slotAt 1).material = Config.certKey [5] := rfl
  have hb : hd.booth = 0 := rfl
  have hn : hd.session.val = 0 := rfl
  simp [State.sessionProof, State.provedBy, hn, h1, hb, h2, h3, h4, h5, Config.ecdsaOk, proof]

theorem tunnelled_proof : tunnelled.sessionProof hdT [] = some 1 := by
  have h1 : tunnelled.keysShut = false := by decide +kernel
  have h2 : tunnelled.vlanBooth (tunnelled.sess 4).vid = some 0 := by decide +kernel
  have h3 : tunnelled.operatorKeys 0#8 = [1] := operator_only tunnelled rfl (by decide +kernel)
  have h4 : (tunnelled.slotAt 1).material = Config.certKey (tunnelled.sess 4).cert := rfl
  have hb : hdT.booth = 0 := rfl
  have hn : hdT.session.val = 4 := rfl
  simp [State.sessionProof, State.certBy, hn, h1, hb, h2, h3, h4]

theorem witness_SessionsOpenAndClose :
    (closed.takes hd 32 ∧ closed.takes hd 4 ∧ answering.takes hd 4 ∧ tunnelled.takes hdT 4 ∧ serving.admits hd 0) ∧
      (hd.eff = none ∧ closed.flag 0x7000 hd.session.val = true ∧ (closed.sess 0).state ≠ .opened ∧
        ([] : List Byte).length = (if hdT.session.val < 4 then 64 else 0) ∧
        (List.replicate 64 (0 : Byte)).length = (if hd.session.val < 4 then 64 else 0) ∧ hd.session.val < 4 ∧
        closed.sessionProof hd (List.replicate 64 0) = none ∧ answering.flag 0x7000 hd.session.val = true ∧
        (answering.sess 0).state ≠ .opened ∧ (tunnelled.sess 4).state ≠ .opened ∧ hdT.booth ≠ 0xFF ∧ 4 ≤ hdT.session.val ∧
        hdT.eff = none ∧ (serving.setReg 0x7000 1).flag 0x7000 hd.session.val = true ∧ serving.mbx.slots = []) ∧
      proof.length = (if hd.session.val < 4 then 64 else 0) ∧ answering.sessionProof hd proof = some 1 ∧
      tunnelled.sessionProof hdT [] = some 1 :=
  ⟨by refine ⟨?_, ?_, ?_, ?_, ?_⟩ <;> (simp only [State.admits, State.admitsAt, State.takes]; decide +kernel), by decide +kernel,
    Vector.length_toList, answering_proof, tunnelled_proof⟩

theorem witness_ModuleCommands :
    (∀ n ∈ [0, 1, 4, 8, 16, 256], serving.admits hd n) ∧ serving.landlord hd = true ∧ serving.cfgFrozen = false ∧
      serving.locked 13 = false ∧ (1 : W32) &&& fieldMask 21 0 ≠ 0 ∧ (0x200000 : W32) &&& fieldMask 21 0 ≠ 0 ∧
      serving.shutPending = 0 ∧ 0x9800 ∈ [0x0000, 0x0800, 0x1800, 0x6808, 0x9800] :=
  ⟨by simp only [State.admits, State.admitsAt, State.takes]; decide +kernel, by decide +kernel⟩

/-- Session 0 of booth `b`. -/
def ofBooth (b : Byte) : State :=
  { serving with mbx := { serving.mbx with sessions := lmod serving.mbx.sessions 0 fun x => { x with booth := b } } }.writeRec 5
    { quality := 0 }

theorem witness_CommandChecks :
    (∀ n ∈ [1, 256, 257], serving.up = true ∧ serving.sys.cmdOk = true ∧ serving.mbx.slots.length < 256 ∧ respWords (4 * n) ≤ serving.pathFree 0 ∧
      1 ≤ n ∧ serving.qEn 4 = true ∧ serving.hostp.queues.length = 32) ∧
      (hd.badHeader = false ∧ hd.eff = none ∧ (serving.sess 0).state = .opened ∧ hd.sseq = (serving.sess 0).expected ∧
        hd.booth = (serving.sess 0).booth ∧ (serving.mbx.slots.any fun x => x.session == 0 && x.tag == 7) = false ∧
        hd.badPayload = false ∧ serving.landlord hd = true ∧ 3 % 4 ≠ 0 ∧ 0xFFFC % 4 = 0) ∧
      ({ hd with badHeader := true }).badHeader = true ∧ ((on.setReg 0x6850 0x80000000).sess 0).state ≠ .opened ∧
      ({ hd with sseq := 5 }).sseq ≠ (serving.sess 0).expected ∧ ({ hd with booth := 3 }).booth ≠ (serving.sess 0).booth ∧
      (let s : State := { serving with mbx := { serving.mbx with slots := [{ ident := 1, session := 0, tag := 7, opcode := 0x0107
                                                                             booth := 0, sseq := 1, accepted := 0, room := 0
                                                                             wait := .shutter 1 }] } }
       (s.mbx.slots.any fun x => x.session == 0 && x.tag == 7) = true ∧ s.mbx.slots.length < 256 ∧ (s.sess 0).state = .opened) ∧
      ({ hd with badPayload := true }).badPayload = true ∧ (ofBooth 3).landlord { hd with booth := 3 } = false ∧
      ((ofBooth 3).sess 0).booth = 3 ∧ (full.up = true ∧ 256 ≤ full.mbx.slots.length) := by
  decide +kernel

/-- Point `p` of booth 0 in use. -/
def pointed (p : Nat) : State := (serving.writeRec p { quality := 0 }).setReg 0x800 0x400

theorem witness_PointCommands :
    (∀ p ∈ [0, 8063], ∀ n ∈ [0, 1, 8, 16, 32], (pointed p).admits hd n) ∧ bound.admits hd 0 ∧
      (ofBooth 3).admits { hd with booth := 3 } 8 ∧
      (∀ p ∈ [0, 8063], p < 8192 ∧ (pointed p).mbx.slots = [] ∧ (pointed p).check ((pointed p).boothOf hd) .read p false false = .allow ∧
        (pointed p).trap.role.refuses = false ∧ 1 ≤ (pointed p).fld 0x0800 19 10 ∧ (pointed p).forcesAfter.length < 1024 ∧
        (pointed p).check ((pointed p).boothOf hd) .force p false false = .allow ∧ (pointed p).landlord hd = true ∧
        (8 : BitVec 4).toNat ≤ 8 ∧ (12 : BitVec 4).toNat ≤ 12 ∧ (pointed p).ownerRefused p 0 = false ∧
        (pointed p).check ((pointed p).boothOf hd) .config p false ((pointed p).changesOther p 0 8 12 5) = .allow ∧
        hd.session.val < 4 ∧ (pointed p).pnt.winSession = none) ∧
      bound.pnt.winSession = some hd.session.val ∧
      (((pointed 0).forcesData ((pointed 0).boothOf hd) 1023 1).length ≤ 16 ∧ 1023 < 1024) ∧
      ((ofBooth 3).mbx.slots = [] ∧ (ofBooth 3).trap.role.refuses = false ∧
        (ofBooth 3).forcesAfter.length < 1024 ∧
        (ofBooth 3).check ((ofBooth 3).boothOf { hd with booth := 3 }) .force 5 false false = .deny) :=
  ⟨by simp only [State.admits, State.admitsAt, State.takes]; decide +kernel,
    by simp only [State.admits, State.admitsAt, State.takes]; decide +kernel,
    by simp only [State.admits, State.admitsAt, State.takes]; decide +kernel, by decide +kernel⟩

theorem witness_AccessCheck :
    (let s := serving.writeRec 5 { quality := 0, src := 1, owner := 3 }
     s.check 3 .write 5 false false = .allow ∧ (s.point 0).src ≠ 1 ∧ 8063 < 8064 ∧ (s.point 0).quality = 0xC1 ∧
      (s.readRec 5).quality ≠ 0xC1 ∧ (s.readRec 0).quality = 0xC1 ∧ 3 ≠ 255 ∧ 3 ≠ 0 ∧ 8064 ≤ 8064) := by
  decide +kernel

/-- A command slot of booth 0. -/
def someSlot : Slot :=
  { ident := 0, session := 0, tag := 0, opcode := 0, booth := 0, sseq := 0, accepted := 0, room := 0, wait := .close }

theorem witness_ForcesAndConfigApply :
    (let s := serving.writeRec 5 { quality := 0, src := 1, owner := 3 }
     s.check someSlot.booth.toNat .force 5 false false = .allow ∧ (s.point 5).forced = false ∧ isOutput (s.point 5).src = false ∧
      s.freeForce = some 0 ∧ s.isMr = true ∧ ({ s with fuse := { s.fuse with variant := .mn } } : State).isMr = false ∧ (s.point 5).quality ≠ 0xC1 ∧ (s.point 6).quality = 0xC1 ∧
      ((s.applyForce someSlot 5 77 1).point 5).forced = true ∧
      (s.applyForce someSlot 5 77 1).check someSlot.booth.toNat .force 5 false false = .allow ∧ s.sound 5 ∧ s.sound 6) ∧
      8063 < 8064 := by
  simp only [State.sound]; decide +kernel

theorem witness_LoopCommands :
    (∀ n ∈ [0, 8, 256], looping.admits hd n) ∧ loaded.admits hd 0 ∧
      (∀ c ∈ [0, 511], c ≤ 511 ∧ looping.trap.role.refuses = false ∧ looping.mbx.slots = [] ∧ looping.ctxBooth hd c = true) ∧
      (looping.loadDenied hd 0 (loopWords.take 24) = false ∧ looping.loadBad 0 (loopWords.take 24) = none ∧
        looping.loadRefused 0 (loopWords.take 24) = false) ∧
      (let ws := (loopWords.take 24).set 13 (-1)
       looping.loadDenied hd 0 ws = false ∧ bits (ws.getD 0 0) 31 30 ≠ 3 ∧ badWord ws ≠ some 1 ∧ (looping.loadBad 0 ws).isSome = true) ∧
      (loaded.ctxPending (loaded.mbx.nextIdent + 1) 0 = false ∧ (loaded.ctx 0).inUse = true ∧ (loaded.ctx 0).owner = loaded.boothOf hd ∧ (loaded.ctx 0).permitOwn = false ∧ 1 ≤ 1 ∧ 2 ≤ 2) :=
  ⟨by simp only [State.admits, State.admitsAt, State.takes]; decide +kernel,
    by simp only [State.admits, State.admitsAt, State.takes]; decide +kernel, by decide +kernel⟩

/-- A sine test of the plainest kind. -/
def spotParams : SpotParams :=
  { signal := 0, target := 0, queue := 0, order := 0, samples := 10, pre := 1, hold := 0, amp := 1, f0 := 0, f1 := 0, abortLo := 0
    abortHi := 0 }

theorem witness_SpotlightTests :
    (loaded.admits hd 1 ∧ testing.admits hd 0) ∧
      (loaded.ctxPending (loaded.mbx.nextIdent + 1) 0 = false ∧
        testing.ctxPending (testing.mbx.nextIdent + 1) (testing.spot 0).ctx = false) ∧
      (loaded.loop.spots.length = 4 ∧ loaded.trap.role.refuses = false ∧ loaded.spotBooth hd 0 = true ∧
        loaded.spotBad 0 spotParams = none ∧ loaded.spotRefused 0 = none ∧ loaded.freeSpot = some 0) ∧
      (testing.loop.spots.length = 4 ∧ (testing.spot 0).state = 1 ∧ testing.spotBooth hd (testing.spot 0).ctx = true) ∧
      (testing.up = true ∧ testing.hostp.queues.length = 32 ∧
        (testing.spot 0).full = [packet] ∧ packet.queue < 4) ∧
      (let n := packet.packet.length
       testing.qRoom 8 n = true ∧
        (testing.setQ 8 { testing.q 8 with words := List.replicate 1024 (0, false), wr := 1024 }).qRoom 8 n = false) :=
  ⟨by simp only [State.admits, State.admitsAt, State.takes]; decide +kernel, by decide +kernel⟩

/-- The image as it is read. -/
def plainImage : Image :=
  { booth := 0, period := 2, ident := 5, build := 0, tasks := [{ booth := 0, image := 5, state := .running }], syms := []
    initial := [], writers := [], releases := [], length := 160 }

theorem imageBytes_parse : parseImage imageBytes = some plainImage := by
  obtain ⟨d, hd⟩ : ∃ d, Config.sha256 (imageHead ++ List.replicate 32 0 ++ imageTail) = d := ⟨_, rfl⟩
  have ld : d.length = 32 := by rw [← hd]; exact Vector.length_toList
  have le : Config.plainTaskEntry.toList.length = 32 := Vector.length_toList
  have lh : imageHead.length = 64 := by decide +kernel
  have lt : imageTail.length = 64 := by simp [imageTail, le]
  have hb : imageBytes = imageHead ++ (d ++ imageTail) := by simp [imageBytes, ← hd]
  have at' : ∀ off n, off + n ≤ 64 → leAt imageBytes off n = leAt imageHead off n := fun off n h => by
    have h1 : off ≤ imageHead.length := by omega
    have h2 : n ≤ (imageHead.drop off).length := by rw [List.length_drop]; omega
    rw [hb, leAt, leAt, List.drop_append_of_le_length h1, List.take_append_of_le_length h2]
  have hlen : imageBytes.length = 160 := by simp [hb, ld, lh, lt]
  have htake : imageBytes.take 160 = imageBytes := List.take_of_length_le (by omega)
  have h64 : imageBytes.take 64 = imageHead := by rw [hb, ← lh, List.take_left]
  have h96 : imageBytes.drop 96 = imageTail := by
    rw [hb, ← List.append_assoc, show 96 = (imageHead ++ d).length by simp [lh, ld], List.drop_left]
  have hd64 : (imageBytes.drop 64).take 32 = d := by
    rw [hb, ← lh, List.drop_left, ← ld, List.take_left]
  have h128 : (imageBytes.drop (128 + 32 * 0)).take 32 = Config.plainTaskEntry.toList := by
    have : imageBytes.drop (96 + 32) = Config.plainTaskEntry.toList := by
      rw [← List.drop_drop, h96, imageTail]; simp
    rw [show 128 + 32 * 0 = 96 + 32 by decide, this]; exact List.take_of_length_le (by omega)
  have n1 : leAt imageBytes 0x34 4 = 160 := by rw [at' _ _ (by decide)]; decide +kernel
  have n2 : leAt imageBytes 0 4 = 0x4F4C4B31 := by rw [at' _ _ (by decide)]; decide +kernel
  have n3 : leAt imageBytes 4 2 = 3 := by rw [at' _ _ (by decide)]; decide +kernel
  have n4 : leAt imageBytes 6 1 = 0 := by rw [at' _ _ (by decide)]; decide +kernel
  have n5 : leAt imageBytes 8 8 = 5 := by rw [at' _ _ (by decide)]; decide +kernel
  have n6 : leAt imageBytes 0x14 2 = 1 := by rw [at' _ _ (by decide)]; decide +kernel
  have n7 : leAt imageBytes 0x20 4 = 128 := by rw [at' _ _ (by decide)]; decide +kernel
  have n8 : leAt imageBytes 0x18 4 = 0 := by rw [at' _ _ (by decide)]; decide +kernel
  have n9 : leAt imageBytes 0x1C 4 = 0 := by rw [at' _ _ (by decide)]; decide +kernel
  have n10 : leAt imageBytes 0x16 2 = 0 := by rw [at' _ _ (by decide)]; decide +kernel
  have n11 : leAt imageBytes 7 1 = 2 := by rw [at' _ _ (by decide)]; decide +kernel
  have n12 : leAt imageBytes 0x10 4 = 0 := by rw [at' _ _ (by decide)]; decide +kernel
  have hz : Config.sha256 (imageHead ++ List.replicate 32 0 ++ imageTail) = d := hd
  unfold parseImage
  dsimp only
  rw [n1, htake, h64, h96, hz, hd64, n2, n3, hlen, n4, n5, n6, n7, n8, n9, n10, n11, n12]
  rw [if_pos ⟨rfl, rfl, by decide, by decide, rfl⟩]
  have : List.range 1 = [0] := rfl
  rw [this, List.map_cons, h128]
  simp [Config.taskEntry, plainImage]

/-- An exchange armed, an image retired whose record is durable with a task of its own, and a task that stopped. -/
def programmed : State :=
  { serving with prg := { serving.prg with
      armed := [(0, { slot := 0, image := {}, boundary := 5, dropped := 0 })], retired := [(0, plainImage)], durable := [(0, true)]
      tasks := [(3, { booth := 0, state := .retired }), (0, { state := .running }), (255, { state := .stoppedCmd }),
                (254, { state := .stoppedOverrun })] } }

theorem plainImage_fits (b : Nat) (swb : Bool) : staged.imageReason 0 0 b (some plainImage) swb = none := by
  have h1 : staged.tasksBeside 0 b = [] := rfl
  have h2 : staged.tasksPresent 0 5 = [] := rfl
  have h3 : staged.budgetOk plainImage.tasks = true := by decide +kernel
  have h4 : sramOk plainImage.tasks = true := by decide +kernel
  have h5 : staged.flag 0x3000 0 = true := by decide +kernel
  simp only [State.imageReason, h1, h2, show plainImage.ident = 5 from rfl, List.nil_append, h3, h4, h5]
  cases swb <;> decide +kernel

theorem witness_ProgramCommands :
    (∀ n ∈ [0, 8, 16, 512], staged.admits hd n) ∧ (∀ n ∈ [0, 16, 512], programmed.admits hd n) ∧
      (staged.imagePending (staged.mbx.nextIdent + 1) 0 = false ∧ programmed.imagePending (programmed.mbx.nextIdent + 1) 0 = false) ∧
      (0 ≤ 254 ∧ 0 ≤ 7 ∧ staged.boothIs hd 0 = true ∧ staged.trap.role.refuses = false ∧ ([1] : List Byte) ≠ [] ∧
        1048575 + ([1] : List Byte).length ≤ 1048576 ∧ staged.loadable 0 = true) ∧
      (parseImage (sget [] staged.prg.staged 0) = some plainImage ∧
        staged.imageReason 0 (staged.boothOf hd) staged.rev (some plainImage) false = none ∧
        staged.imageReason 0 (staged.boothOf hd) (16 : W64).toNat (some plainImage) true = none ∧
        staged.swbTooSoon (16 : W64).toNat = false) ∧
      staged.imageReason 0 (staged.boothOf hd) staged.rev (parseImage (sget [] staged.prg.staged 7)) false = some 1 ∧
      (programmed.disarmable 0 = true ∧ (programmed.prg.retired.any fun e => e.1 == 0) = true ∧
        sget false programmed.prg.durable 0 = true ∧ programmed.trap.role.refuses = false ∧ programmed.boothIs hd 0 = true ∧
        programmed.mbx.slots = [] ∧ (List.replicate 32 (1 : W64)).length ≤ 32) ∧
      (programmed.taskBooth hd 0 = true ∧ (programmed.task 0).state = .running ∧ programmed.taskBooth hd 255 = true ∧
        (programmed.task 255).state = .stoppedCmd ∧ programmed.taskBooth hd 254 = true ∧
        (programmed.task 254).state = .stoppedOverrun ∧ programmed.sys.jugState.getD (programmed.task 254).jug 0 ≠ 2 ∧
        programmed.sys.jugState.getD (programmed.task 255).jug 0 ≠ 2) := by
  refine ⟨?_, ?_, by decide +kernel, by decide +kernel, ⟨imageBytes_parse, plainImage_fits _ _, plainImage_fits _ _, by decide +kernel⟩, by decide +kernel,
    by decide +kernel, by decide +kernel⟩ <;> (simp only [State.admits, State.admitsAt, State.takes]; decide +kernel)

theorem witness_MoveCost :
    (let s := ({ on with ledger := { on.ledger with cost := [(0, { valid := true, point := 3, coef := 0x18000 })] } } : State).writeRec 3
       { typ := 5, value := 0x3F800000, quality := 0 }
     s.costOf 3 = some { valid := true, point := 3, coef := 0x18000 } ∧ (numOf (s.point 3).typ (s.point 3).value).isSome = true ∧
      (numOf (s.point 3).typ 0x40000000).isSome = true) ∧ numOf 1 3 = some (3, 0) ∧ numOf 4 0x18000 = some (0x18000, 16) := by
  decide +kernel

/-- A request at the bound of its waiting time. -/
def oldReq : Req := { point := 5, value := 1, age := 4095, cls := 3, booth := 0, writer := .loop 0, tested := true }

/-- The ledger throttling in HOLDING, with that request. -/
def throttled (house : Nat) : State :=
  { serving with ledger := { serving.ledger with
      demState := .holding, limitBoundary := some 0, throttling := true, house, arb := { serving.ledger.arb with reqs := [oldReq] } } }

theorem witness_LedgerByCommand :
    (∀ n ∈ [8, 24, 12, 768], serving.admits hd n) ∧ (throttled 0).admits hd 8 ∧
      serving.admitsAt { hd with eff := some 0x8000000000000020 } (some 0x8000000000000020) 8 ∧
      serving.admitsAt { hd with eff := some 0 } (some 0) 8 ∧
      (serving.landlord hd = true ∧ serving.trap.role.refuses = false ∧ serving.limitEarly serving.rev = false ∧
        (throttled 0).limitEarly (throttled 0).rev = true ∧ serving.effTooFar 0x8000000000000020 = false ∧
        serving.effTooFar 0 = false ∧ (serving.boundaryFor 0).2 = true ∧ serving.schedRoom [.shed 2] = true ∧
        serving.mbx.slots = []) ∧
      (let s := (throttled 0).setReg 0x1028 0
       s.up = true ∧ s.ledger.demState = .holding ∧
        s.ledger.holdSince + s.fld 0x1028 18 10 * 1000000000 ≤ s.crsl.upNs + s.periodNs) ∧
      (let s := (throttled 0).setReg 0x1028 0x7FC00
       s.up = true ∧ s.ledger.demState = .holding ∧
        s.crsl.upNs + s.periodNs < s.ledger.holdSince + s.fld 0x1028 18 10 * 1000000000) ∧
      ((throttled 0).up = true ∧
        ((throttled 0).ledger.arb.reqs.find? fun r => r.point == 5 && decide (4095 ≤ r.age) && r.tested && !r.missed) = some oldReq ∧
        (throttled 3).ledger.throttling = true ∧ (throttled 3).ledger.house < 4 ∧ 0 < (throttled 1).ledger.house ∧
        300 ≤ 3900 - ((throttled 1).pwr.pMw : Int) ∧ 120 ≤ 1050 - ((throttled 1).pwr.tj10 : Int)) := by
  refine ⟨?_, ?_, ?_, ?_, by decide +kernel, by decide +kernel, by decide +kernel, by decide +kernel⟩ <;>
    (simp only [State.admits, State.admitsAt, State.takes]; decide +kernel)

theorem witness_PrismIntervals :
    (metering.flt.nest = false ∧ metering.prismUp = true ∧ (metering.prsm.cfg.m 1).used = false ∧
      (metering.prsm.cfg.m 0).used = true ∧ metering.prsm.meters.length = 16 ∧ metering.prsm.intervalDone = false ∧
      metering.prsm.tick < metering.prsm.tenTick + 160000 ∧ (∀ m : Fin 16, metering.prsm.settling m = false) ∧
      (metering.prsm.meter 0).block.length < (metering.prsm.meter 0).block.target) ∧
      (let s : State := { metering with prsm := { metering.prsm with
          tick := 160000, aggSamples := 3200
          cfg := { metering.prsm.cfg with ich := [{ sensor := 3 }]
                                          mtr := lmod metering.prsm.cfg.mtr 0 fun m => { m with ich := [0] } }
          chSettle := [(0, 1)], meters := lmod metering.prsm.meters 0 fun x => { x with block := { length := 14400000 } } } }
       s.prismUp = true ∧ s.prsm.intervalDone = true ∧ s.prsm.tenTick + 160000 ≤ s.prsm.tick ∧ s.prsm.settling 0 = true ∧
        (s.prsm.cfg.m 0).used = true ∧ (s.prsm.meter 0).block.target ≤ (s.prsm.meter 0).block.length) ∧
      (let s : State := { metering with prsm := { metering.prsm with badRun := 16, goodRun := 16000, feFault := true } }
       s.flt.nest = false ∧ s.prismUp = true ∧ 16 ≤ s.prsm.badRun ∧ 16000 ≤ s.prsm.goodRun ∧ s.prsm.feFault = true) := by
  decide +kernel

theorem witness_EnergyIsRouted : ({} : Meter).reg.length = 8 ∧ ({} : Meter).rem.length = 8 := by decide +kernel

theorem witness_PrismSaves :
    (metering.flt.nest = false ∧ metering.prismUp = true ∧ metering.prsm.saves.length = 4 ∧ metering.prsm.early = false ∧
      metering.prsm.savePend = none) ∧
      (∀ slot ∈ [0, 3], let s : State := { metering with prsm := { metering.prsm with savePend := some (slot, default) } }
        s.prismUp = true ∧ s.prsm.early = false ∧ s.prsm.savePend = some (slot, default) ∧ slot < 4) ∧
      (let s : State := { metering with prsm := { metering.prsm with powered := false } }
       s.flt.nest = false ∧ s.isMr = true ∧ s.prsm.powered = false ∧ s.prsm.newestSave.isSome = true ∧ s.sys.powered = true) := by
  decide +kernel

theorem witness_MirrorAndRing :
    (metering.up = true ∧ metering.isMr = true ∧ metering.prismUp = true) ∧
      (let s : State := { metering with rtc := { metering.rtc with lowBackup := false }, crsl := { metering.crsl with sync := .locked } }
       s.up = true ∧ s.trusted = true ∧ s.crsl.sync = .locked ∧ s.prsm.propResult ≠ 0) ∧
      (let s : State := { metering with prsm := { metering.prsm with proposal := some (.inr 5), propResult := 0 } }
       s.up = true ∧ s.prismUp = true ∧ s.prsm.proposal.isSome = true) ∧
      (let s : State := { metering with prsm := { metering.prsm with ringCount := 1, ring := [(0, List.replicate 13 7)] } }
       s.prsm.seenLog = true ∧ s.sys.run ≠ .starting ∧ s.prsm.ringRead < s.prsm.ringCount ∧
        s.prsm.ringCount ≤ s.prsm.ringRead + 4096 ∧ (sget [] s.prsm.ring (s.prsm.ringRead % 4096)).length = 13 ∧
        s.qRoom 26 14 = true ∧ s.hostp.queues.length = 32) := by
  decide +kernel

theorem witness_PrismCommands :
    (∀ n ∈ [4, 72], metering.admits hd n) ∧ metering.isMr = true ∧ metering.landlord hd = true ∧ metering.boothOf hd = 0 ∧
      (List.replicate 816 (0 : Byte)).length = 816 ∧ metering.prsm.propResult ≠ 0 ∧ metering.trap.role.refuses = false :=
  ⟨by simp only [State.admits, State.admitsAt, State.takes]; decide +kernel, by decide +kernel⟩

theorem witness_TightropeLinks :
    (∀ g : Fin 4, (rope {} {}).engineUp 1 = true ∧ (rope {} {}).grpOn g = true ∧ (rope {} {}).fioGrp.length = 4 ∧
      (rope {} {}).fioCh.length = 32 ∧ sget none (rope {} {}).posted (100 + g.val) = none) ∧
      (let s := rope { farCfg := 0xC000 } { slot := 7, out := 0xFF }
       s.badOutputs 0 = [] ∧ 0 ≠ (s.fgrp 0).slot % 8 ∧ (s.fgrp 0).safeCmd = false ∧ (s.fch 0).farMode = 3 ∧
        (s.fch 0).overload = false ∧ (s.fch 0).overtemp = false ∧ bits (s.fch 0).farCfg 13 12 = 0) ∧
      (∀ g : Fin 4, ropeGood g 1 ((rope {} {}).farFrame g ^^^ 0) = true ∧ ropeGood g 1 ((rope {} {}).farFrame g ^^^ 1) = false) ∧
      (((rope {} { link := 1, badRun := 4 }).fgrp 0).link = 1 ∧ 4 ≤ ((rope {} { link := 1, badRun := 4 }).fgrp 0).badRun) ∧
      (((rope {} { outBad := 7 }).fgrp 0).outBad < 8 ∧ 8 ≤ ((rope {} { outBad := 8 }).fgrp 0).outBad) ∧
      (((rope {} { link := 2, goodRun := 64 }).fgrp 0).link = 2 ∧ 64 ≤ ((rope {} { link := 2, goodRun := 64 }).fgrp 0).goodRun) ∧
      (((rope {} { link := 0, goodRun := 64 }).fgrp 0).link = 0 ∧ 64 ≤ ((rope {} { link := 0, goodRun := 64 }).fgrp 0).goodRun) := by
  decide +kernel

theorem witness_FieldChannels :
    ((field {}).engineUp 1 = true ∧ (∀ g : Fin 4, (field {}).grpOn g = true) ∧ (field {}).fioGrp.length = 4 ∧
      (field {}).fioCh.length = 32) ∧
      ((({ farCfg := 0x4000 } : FioCh).farMode = 1 ∧ ({ farCfg := 0x4000 } : FioCh).level ≠ true) ∧
        (∀ e ∈ [0, 1, 2], ({ farCfg := 0x8000 ||| BitVec.ofNat 32 (64 * e) } : FioCh).farMode = 2 ∧
          bits ({ farCfg := 0x8000 ||| BitVec.ofNat 32 (64 * e) } : FioCh).farCfg 7 6 = e)) ∧
      (({ farCfg := 0x4100 } : FioCh).farMode = 1 ∧ bitAt ({ farCfg := 0x4100 } : FioCh).farCfg 8 = true ∧
        ((field {}).fgrp 0).supplyLow = false) ∧
      (({ farCfg := 0xC000, driven := true } : FioCh).farMode = 3 ∧ ({ farCfg := 0xC000, driven := true } : FioCh).driven = true) ∧
      (let s := (field { count := 7 }).setReg 0x4040 0x8000
       s.fioMode 0 = 2 ∧ s.flag 0x4040 5 = false) ∧
      ((field {}).up = true ∧ (field {}).cfgFrozen = false ∧ (field {}).locked 8 = false ∧ (field {}).sys.parityHold = 0 ∧
        (field {}).busyDom 100 = false ∧ (judge false (fieldsOf 0x4040) 0x8400).held ≠ 0 ∧
        ¬ (bitAt (mergeBits ((field {}).reg 0x4040) (judge false (fieldsOf 0x4040) 0xC000).held 0xC000) 10 = true) ∧
        (bitAt (mergeBits ((field {}).reg 0x4040) (judge false (fieldsOf 0x4040) 0x8400).held 0x8400) 10 = true ∧
          bits (mergeBits ((field {}).reg 0x4040) (judge false (fieldsOf 0x4040) 0x8400).held 0x8400) 15 14 = 2) ∧
        ({ field {} with posted := [(100, some { off := 0x4040, val := 5 })] } : State).busyDom 100 = true) := by
  decide +kernel

theorem witness_IoCommands :
    (∀ n ∈ [0, 8], (field { overload := true }).admits hd n) ∧ (fanned { state := .stall }).admits hd 0 ∧
      ((fanned {}).setReg 0x506C 4).admits hd 0 ∧
      ((field { overload := true }).fioCh.length = 32 ∧ (field { overload := true }).fan.length = 8 ∧
        (∀ k ∈ [0, 31], k < 32 ∧
          (field { overload := true }).boothIs hd ((field { overload := true }).point ((field { overload := true }).fioPoint k)).owner.toNat =
            true) ∧
        (fanned { state := .stall }).boothIs hd ((fanned { state := .stall }).point ((fanned { state := .stall }).fanPoint 0)).owner.toNat =
          true ∧
        ((fanned { state := .stall }).fch8 0).state = .stall ∧ ((fanned { state := .stall }).fch8 0).committed = 0 ∧
        ((fanned {}).setReg 0x506C 4).landlord hd = true ∧ ((fanned {}).setReg 0x506C 4).flag (0x5050 + 4 * 7) 2 = true ∧
        (let s := (field {}).writeRec 0 { quality := 0 }
         (s.draw.ioChannel 0 0).map (fun e => s.boothIs hd (s.point e.2).owner.toNat &&
          decide (s.check (s.boothOf hd) .read e.2 false false = .allow ∧ (s.point e.2).crc = (s.point e.2).crcOf ∧
            e.2 ∉ s.pnt.crcFound)) = some true)) ∧
      ((field {}).writeRec 0 { quality := 0 }).admits hd 8 := by
  refine ⟨?_, ?_, ?_, by decide +kernel, ?_⟩ <;> (simp only [State.admits, State.admitsAt, State.takes]; decide +kernel)

/-- All analogue channels in use, input 15 as `c`, output 7 overloaded or not. -/
def analogue (c : UiCh) (ovl : Bool) : State :=
  { serving.setReg 0x4800 0xFFFFFFFF with
    ui := lmod serving.ui 15 fun _ => c, uiBad := 8, ao := lmod serving.ao 7 fun x => { x with overload := ovl } }

theorem witness_AnalogueEvents :
    (∀ c ∈ [1, 2], (analogue { cond := c } false).engineUp 0 = true ∧ (analogue { cond := c } false).ui.length = 16 ∧
      (analogue { cond := c } false).ao.length = 8 ∧ (List.replicate 32 (0 : BitVec 24)).length = 32 ∧
      8 ≤ (analogue { cond := c } false).uiBad ∧ (analogue { cond := c } false).flag 0x4800 15 = true ∧
      ((analogue { cond := c } false).uch 15).cond = c ∧ ((analogue { cond := c } false).uch 15).brk = false ∧
      ((analogue { cond := c } false).uch 15).sensor = false) ∧
      ((analogue {} false).flag 0x4800 (16 + 7) = true ∧ ((analogue {} false).ao.getD 7 {}).overload = false ∧
        ((analogue {} true).ao.getD 7 {}).overload = true) := by
  decide +kernel

theorem witness_AnalogueEvents_crc (raw : List (BitVec 24)) : ∃ crc, crc ≠ frameCheck 0 raw :=
  ⟨frameCheck 0 raw + 1, by simp⟩

theorem witness_Fans :
    ((fanned {}).engineUp 0 = true ∧ (fanned {}).fan.length = 8 ∧ (fanned {}).fanOn 0 = true ∧ (fanned {}).up = true ∧
      (fanned {}).shadow = []) ∧
      (let s := (fanned { state := .kick }).setReg 0x5030 0
       (s.fch8 0).state = .kick ∧ s.fanRunning 0 = true) ∧
      (∀ k ∈ [3, 4], let s := (fanned { state := .kick, kicks := k }).setReg 0x5030 0x10000
        (s.fch8 0).state = .kick ∧ s.fanRunning 0 = false ∧ (s.fch8 0).kicks = k) ∧
      (∀ e ∈ [(false, false), (true, true), (true, false)], let s := fanned { state := .run, safe := e.1, full := e.2 }
       (s.fch8 0).state = .run ∧ s.flag 0x5050 2 = false ∧ (s.fch8 0).safe = e.1 ∧ (s.fch8 0).full = e.2) ∧
      (fanned { state := .wait }).fch8 0 = { state := .wait } ∧ (fanned { state := .openLoop }).fch8 0 = { state := .openLoop } ∧
      (∀ e ∈ [(0, true), (1000000, false)], let s := fanned { learning := true, learnUntil := e.1 }
       (s.fch8 0).learning = true ∧ decide ((s.fch8 0).learnUntil < s.crsl.upNs + s.periodNs) = e.2) ∧
      (let s := (fanned { state := .run, current := 2550, learning := true }).setReg 0x5050 4
       (s.fch8 0).state = .run ∧ s.flag 0x5050 2 = true ∧ s.fld 0x5070 7 0 * 10 ≤ (s.fch8 0).current ∧ (s.fch8 0).learning = true) ∧
      (∀ c ∈ [0, 0x100000], let s := (fanned { state := .run, committed := c }).setReg 0x5010 0x20
        (s.fch8 0).state = .run ∧ (s.fch8 0).safe = false ∧ s.speedMode 0 = true ∧ (s.fch8 0).committed = c) ∧
      (let s := fanned { safeReq := true }
       s.shadow = [] ∧ (s.fch8 0).safeReq = true ∧ (s.fch8 0).watchdog = false) ∧
      (let s := ((fanned { ratioSeen := true }).setReg 0x5010 0x40).writeRec 3 { src := 4 }
       (s.fch8 0).ratioSeen = true ∧ (s.point (s.fld 0x5010 18 6 + 2)).src = 4) ∧
      (let s := (fanned {}).setReg 0x5008 0xFF
       s.fld 0x5008 7 0 ≠ 0 ∧ s.fanSilent = false) := by
  decide +kernel

theorem witness_CanFrames :
    (∀ n ∈ [1, 2], (bussed { queue := [waiting] }).admits hd n) ∧
      ((bussed {}).engineUp 2 = true ∧ (bussed {}).can.bus.length = 4 ∧ (bussed {}).busUp 0 = true ∧ waiting.frame.remote = false ∧
        waiting.frame.fdf = false ∧ (bussed {}).ownFrame 0 waiting.frame = false ∧
        (bussed { pairSent := some waiting.frame }).ownFrame 0 waiting.frame = true) ∧
      (∀ n ∈ [63, 64], (hearing n).engineUp 2 = true ∧ (hearing n).can.bus.length = 4 ∧ (hearing n).busUp 0 = true ∧
        (hearing n).ownFrame 0 waiting.frame = false ∧ (hearing n).matchEntry 0 waiting.frame ≠ none ∧
        ((hearing n).cbus 0).store.length = n) ∧
      (let s := ((bussed {}).setReg 0x5800 0xF10).setReg 0x6890 0x80000000
       let n := (framePacket waiting.frame ((s.segmentBooth 0 (nodeOf waiting.frame)).getD 255) ((5 : Stamp).setWidth 64)).length
       s.busUp 0 = true ∧ s.matchEntry 0 waiting.frame = none ∧ s.flag 0x5800 4 = true ∧ s.hostp.queues.length = 32 ∧
        s.qRoom (20 + 0) n = true ∧ (s.setReg 0x6890 0).qRoom (20 + 0) n = false) ∧
      (let f := { waiting.frame with fdf := true }
       f.remote = false ∧ f.fdf = true ∧ ((bussed {}).setReg 0x5848 0).flag 0x5848 9 = false ∧ (bussed {}).flag 0x5848 9 = true ∧
        (bussed {}).ownFrame 0 f = false ∧ ((bussed {}).setReg 0x5848 0).listenOnly 0 = false ∧ ((bussed {}).cbus 0).tecCnt ≤ 255) ∧
      (let s := (bussed { queue := [waiting] }).setReg 0x5848 0x40000
       (s.cbus 0).active = none ∧ s.listenOnly 0 = false ∧ s.mayOffer 0 ≠ [] ∧ (∀ x ∈ (s.cbus 0).queue, s.tooOld 0 x = false) ∧
        (∀ e : Fin 4, (s.cbus 0).expressWaits e = none)) ∧
      (let s := (bussed { queue := [waiting], active := some .queueHead, sent := some waiting.frame }).setReg 0x5848 0x10040000
       (s.cbus 0).active = some .queueHead ∧ (s.cbus 0).queue = [waiting] ∧ waiting.cancelled = false ∧ waiting.errors < s.retry 0 ∧
        s.tooOld 0 waiting = false) ∧
      (let s := (bussed { queue := [waiting], active := some .queueHead }).setReg 0x5848 0x40000
       s.retry 0 ≤ waiting.errors) ∧
      (let s : State := { (bussed { queue := [waiting] }).setReg 0x5848 0x40000 with rev := 100000 }
       (s.cbus 0).active = none ∧ (s.cbus 0).queue = [waiting] ∧ s.tooOld 0 waiting = true) ∧
      ((bussed { tref := { kind := 1 } }).cbus 0).tref.kind = 1 ∧ ((bussed { tref := { kind := 1 } }).cbus 0).active ≠ some .timeRef ∧
      ((bussed {}).landlord hd = true ∧ (bussed {}).trap.role.refuses = false ∧
        (bussed { queue := [waiting] }).qRoom (16 + 0) waiting.packet.length = true ∧
        ((bussed { queue := [waiting] }).cbus 0).active = none ∧
        (∀ e ∈ ((bussed { queue := [waiting] }).cbus 0).express, e.pend = none ∧ e.active = none)) :=
  ⟨by simp only [State.admits, State.admitsAt, State.takes]; decide +kernel, by decide +kernel⟩

theorem witness_CanStates :
    ((bussed {}).engineUp 2 = true ∧ (bussed {}).can.bus.length = 4 ∧ (bussed {}).busUp 0 = true ∧ ((bussed {}).cbus 0).state = .active ∧
      (bussed {}).flag 0x5800 8 = true ∧ (bussed { tecCnt := 127 }).busUp 0 = true ∧ 128 ≤ 127 + 8 * 1 ∧ 255 < 127 + 8 * 17) ∧
      ((bussed { state := .busOff }).cbus 0).state = .busOff ∧ ((bussed { state := .stuck }).cbus 0).state = .stuck ∧
      ((bussed { state := .stuck, wasOff := true }).cbus 0).wasOff = true ∧ ((bussed {}).cbus 0).state ≠ .stuck := by
  decide +kernel

theorem witness_EthernetPorts :
    (let s := ported { link := 2 }
     s.engineUp 3 = true ∧ s.noCommands = true ∧ s.portUp 0 = true ∧ s.ringOn = true ∧ s.flag 0x6010 27 = false ∧
      s.net.table.length < 1024 ∧ s.net.ports.length = 3 ∧ frame.fcsOk = true ∧ ethLen frame = 64 ∧ ethTagged frame = false ∧
      ethTrapeze frame = false ∧ s.macControl 0 frame = false ∧ s.macControl 2 frame = false ∧ ethGroup frame = false ∧
      ethBroadcast frame = false ∧ ethDest frame ≠ s.ownMac 0 ∧ ethDest frame ≠ s.hostMac ∧ s.forwards 0 frame = true ∧
      s.portUp 1 = true ∧ (s.port 1).held = false ∧ frame.fill ≤ 100 ∧ frame.ends = none ∧ (s.port 0).egress = [] ∧ s.canLink 0 0 = true ∧ s.canLink 0 1 = true ∧ s.flag 0x6010 31 = true ∧ (s.port 0).link ≠ 0 ∧
      s.flag 0x6010 26 = true ∧ (s.port 0).twReq = none ∧ s.shadow = [] ∧ (s.port 0).pausePend = none ∧ (s.port 0).held = false ∧
      s.flag 0x6000 1 = true) ∧
      (let s := (ported { link := 2 }).setReg 0x6010 0x90000000
       (1 : BitVec 16) ≠ 0 ∧ s.portUp 0 = true ∧ s.flag 0x6010 28 = true ∧ (s.port 0).paused = false) ∧
      (let s : State := { ported { link := 2, paused := true, egress := [([1], crc32 [1])], pausedRev := some 0 } with rev := 1 }
       s.engineUp 3 = true ∧ s.net.ports.length = 3 ∧ (s.port 0).paused = true ∧ (s.port 0).pausedRev = some 0 ∧ 0 < s.rev) ∧
      (let s := ported { link := 0 }
       s.engineUp 3 = true ∧ s.flag 0x6010 31 = true ∧ (s.port 0).link = 0) ∧
      (let s : State := { ported { link := 2 } with net := { (ported { link := 2 }).net with table := [(0x020000000009, 0)] } }
       s.forwards 0 frame = false ∧ s.macControl 0 frame = false) ∧
      ((ported {}).setReg 0x6018 0x80000000).portUp 2 = true ∧
      (ethLen (tagged 1500) = 1522 ∧ ethTagged (tagged 1500) = true) ∧
      (let f : EthFrame := { frame with data := List.replicate 59 0 }
       ethLen f < 64) ∧
      (let f : EthFrame := { frame with data := List.replicate 1515 0 }
       64 ≤ ethLen f ∧ (if ethTagged f then 1522 else 1518) < ethLen f) := by
  decide +kernel

/-- A tunnelled connection on place `n`, its session open, a response waiting, a command in flight. -/
def connected (n : Nat) : State :=
  { netted with
    net := { netted.net with tunnels := lmod netted.net.tunnels n fun _ => { state := 1, vid := 1 } }
    mbx := { netted.mbx with
      sessions := lmod netted.mbx.sessions (4 + n) fun _ => { state := .opened }, resp := [(4 + n, [[1]])]
      slots := [{ someSlot with session := 4 + n }] } }

theorem witness_NetworkServices :
    (let s := netted.writeRec 5 { quality := 0, chg := 3 }
     s.engineUp 3 = true ∧ s.servicesUp = true ∧ s.vlanBooth 1 = some 0 ∧ s.ifOf 1 = some [0xF0000001, 0x0A000001] ∧
      s.deviceBooth 7 = some 0 ∧ bitAt (ew [0xF0000001, 0x0A000001] 0) 30 = true ∧ 5 < 8192 ∧ s.check 0 .read 5 false false = .allow ∧
      (netted.check 0 .read 5 false false = .deny)) ∧
      (let s : State := { netted with pnt := { netted.pnt with maps := [(0x1001, 0x105), (0x3000, 0x80000007)] } }
       s.servicesUp = true ∧ s.vlanBooth 1 = some 5 ∧ s.deviceBooth 7 = some 0 ∧ (s.ifOf 1).isSome = true) ∧
      (let s : State := { netted.writeRec 5 { quality := 0, chg := 3 } with
                          net := { netted.net with subs := [{ booth := 0, point := 5, chg := 0 }] } }
       s.net.subs[0]? = some { booth := 0, point := 5, chg := 0 } ∧ (s.point 5).chg ≠ 0 ∧ s.homeIf 0 = some [0xF0000001, 0x0A000001] ∧
        s.servicesUp = true ∧ s.running = true ∧ s.check 0 .read 5 false false = .allow) ∧
      (netted.writeRec 5 { quality := 0, chg := 3 }).sound 5 ∧
      (netted.sys.romOnly = false ∧ netted.flag 0x60A0 0 = true ∧ netted.net.tunnels.length = 4 ∧ netted.mbx.sessions.length = 8 ∧
        ((netted.ifOf 1).map fun e => bitAt (ew e 0) 28) = some true ∧ (netted.net.tunnels.getD 0 {}).state = 0) ∧
      (∀ n : Fin 4, (connected n).engineUp 3 = true ∧ (connected n).net.tunnels.length = 4 ∧ (connected n).mbx.sessions.length = 8 ∧
        ((connected n).net.tunnels.getD n {}).state ≠ 0 ∧ ((connected n).sess (4 + n)).state ≠ .closed ∧
        sget [] (connected n).mbx.resp (4 + n) ≠ []) ∧
      (let s := netted.setQ 24 { netted.q 24 with words := [(1, false), (2, true)], wr := 2, ps := 2 }
       (s.q 24).headPacket = [1, 2] ∧ s.flag 0x6000 2 = true ∧ s.hostp.queues.length = 32) := by
  simp only [State.sound]; decide +kernel

theorem witness_NetworkServices_frame :
    ∀ k : Fin 2,
      let w : W64 := BitVec.ofNat 64 ((k.val + 1) * 2 ^ 62 + 16)
      let s := netted.setQ 24 { netted.q 24 with words := [(w, false), (2, false), (3, true)], wr := 3, ps := 3 }
      (s.q 24).headPacket = [w, 2, 3] ∧ w.toNat / 2 ^ 62 = k.val + 1 ∧ w.getLsbD 61 = false ∧ s.net.ports.length = 3 ∧
        s.portUp k = true ∧ (s.port k).held = false ∧ w.toNat % 65536 ≤ (bytesOf [2, 3]).length ∧
        ((bytesOf [2, 3]).take 16).length + 4 ≤ 1518 ∧ isTagged ((bytesOf [2, 3]).take 16) = false := by
  decide +kernel

theorem witness_NetworkServices_denied :
    let s : State := { netted.writeRec 5 { quality := 0, chg := 3, owner := 7 } with
                          net := { netted.net with subs := [{ booth := 3, point := 5, chg := 0 }] }
                          pnt := { (netted.writeRec 5 { quality := 0, chg := 3, owner := 7 }).pnt with maps := [(0x1001, 0x103)] } }
    s.net.subs[0]? = some { booth := 3, point := 5, chg := 0 } ∧ (s.point 5).chg ≠ 0 ∧ s.homeIf 3 = some [0xF0000001, 0x0A000001] ∧
      s.servicesUp = true ∧ s.running = true ∧ s.check 3 .read 5 false false = .deny := by
  decide +kernel

/-- The same with the owner root in slot 1. -/
def rooted : State := { netted with key := { netted.key with ownerRoot := 1, slots := [(1, operatorSlot.sealed)] } }

theorem witness_NetworkServices_tunnel :
    (rooted.engineUp 3 = true ∧ rooted.servicesUp = true ∧ rooted.sys.romOnly = false ∧ rooted.flag 0x60A0 0 = true ∧
      rooted.net.tunnels.length = 4 ∧ rooted.mbx.sessions.length = 8 ∧ (rooted.vlanBooth 1).isSome = true ∧
      ((rooted.ifOf 1).map fun e => bitAt (ew e 0) 28) = some true ∧ (rooted.net.tunnels.getD 0 {}).state = 0) ∧
      rooted.slotUsable rooted.key.ownerRoot = true ∧
      ∃ cert, Config.certRests cert (rooted.slotAt rooted.key.ownerRoot).material = true :=
  ⟨by decide +kernel, usable_sealed rooted 1 operatorSlot rfl rfl (by decide +kernel),
    Config.certSome (rooted.slotAt rooted.key.ownerRoot).material, by simp [Config.certRests]⟩

/-- A hub's URI, `wss:` and a host. -/
def hubUri : List Byte := [0x77, 0x73, 0x73, 0x3A, 0x2F, 0x2F, 0x61]

theorem witness_NetworkCommands :
    (∀ n ∈ [0, 32, 1500], serving.admits hd n) ∧ serving.boothIs hd 0 = true ∧ wssOk hubUri = true ∧ serving.landlord hd = true ∧
      255 < 256 ∧ 1 < 2 ∧
      (let x : Slot := { ident := 1, session := 0, tag := 7, opcode := 0x0107, booth := 0, sseq := 1, accepted := 0, room := 3
                         wait := .shutter 1 }
       let s : State := { serving with mbx := { serving.mbx with slots := [x] }, crsl := { serving.crsl with upNs := 2000000000 } }
       s.up = true ∧ x.accepted + 2000000000 ≤ s.crsl.upNs + s.periodNs ∧
        s.mbx.slots.find? (fun y => y.session == 0 && y.tag == 7) = some x ∧ x.wait = .shutter 1 ∧ x.discard = false ∧
        s.qRoom (4 + 0) 3 = true ∧ s.hostp.queues.length = 32) ∧
      (let n : ScNode := { primary := hubUri, failover := [], interval := 33 }
       let s : State := { netted with net := { netted.net with sc := [(0, n)] } }
       s.engineUp 3 = true ∧ s.servicesUp = true ∧ s.net.sc.find? (fun e => e.1 == 0) = some (0, n) ∧
        s.homeIf 0 = some [0xF0000001, 0x0A000001] ∧ bitAt (ew [0xF0000001, 0x0A000001] 0) 29 = true) :=
  ⟨by simp only [State.admits, State.admitsAt, State.takes]; decide +kernel, by decide +kernel⟩

/-- The response queue of session 0 at 4,096 words. -/
def roomy (s : State) : State := s.setQ 4 { s.q 4 with depthLog := 12 }

theorem witness_PairHearing :
    (∀ r ∈ [Role.primary, .standby, .syncing], (paired r).up = true ∧ (paired r).calm = true ∧ (paired r).hbCounts beat = true ∧
      (paired r).sys.ioeBad.getLsbD 3 = false ∧ (paired r).paired = true ∧ (paired r).trap.role = r) ∧
      (∀ r ∈ [Role.primary, .standby], let s : State := { paired r with trap := { (paired r).trap with missR := 3, missP := 3, bothMissed := 5 } }
        s.up = true ∧ s.calm = true ∧ s.paired = true ∧ 3 ≤ s.trap.missR ∧ s.trap.lostR = false ∧ 3 ≤ s.trap.missP ∧
          s.trap.lostP = false ∧ 5 ≤ s.trap.bothMissed ∧ s.trap.role = r) ∧
      (let s : State := { paired .standby with rev := 4 }
       s.up = true ∧ s.calm = true ∧ s.trap.role = .standby ∧ s.trap.lastSyncRev + 4 ≤ s.pairRev) ∧
      (let s : State := { paired .primary with trap := { (paired .primary).trap with lossDue := true } }
       s.up = true ∧ s.calm = true ∧ s.trap.lossDue = true ∧ s.trap.role ≠ .standby) ∧
      (let s : State := { paired .primary with crsl := { on.crsl with upNs := 3000000000 } }
       s.up = true ∧ s.calm = true ∧ s.trap.role = .primary ∧ s.trap.healthNs + 3000000000 ≤ s.crsl.upNs + s.periodNs) := by
  decide +kernel

/-- A member whose Q29 has a depth of 2 to the power `n`, in SYNCING with the join data applied. -/
def hearingSync (r : Role) (n : Nat) : State :=
  ({ paired r with trap := { (paired r).trap with based := true } } : State).setReg 0x68B4 0x80000000 |>.setQ 29 { depthLog := n }

theorem hearingSync_room (r : Role) (n : Nat) : (hearingSync r n).qRoom 29 n = true := by
  have he : (hearingSync r n).qEn 29 = (hearingSync .off 0).qEn 29 := rfl
  have ht : (hearingSync .off 0).qEn 29 = true := by decide +kernel
  have hf : ((hearingSync r n).q 29).free = 2 ^ n := Nat.sub_zero _
  rw [State.qRoom, he, ht, hf]
  simp [Nat.le_of_lt Nat.lt_two_pow_self]

theorem witness_PairHearing_sync (sp : SyncPacket) :
    (∀ r ∈ [Role.primary, .standby, .syncing], let s := hearingSync r (Config.syncWords sp).length
      s.up = true ∧ s.calm = true ∧ s.trap.role = r ∧ s.trap.based = true ∧ s.sys.ioeBad.getLsbD 3 = false ∧ s.tableFree = true ∧
        ({ s with crsl := { s.crsl with phase := .logic } } : State).tableFree = false ∧
        s.qRoom 29 (Config.syncWords sp).length = true) ∧
      ((paired .standby).setReg 0x68B4 0).qRoom 29 (Config.syncWords sp).length = false ∧
      (default : SyncPacket).join = none ∧ ({ (default : SyncPacket) with join := some default } : SyncPacket).join = some default := by
  refine ⟨fun r hr => ?_, ?_, rfl, rfl⟩
  · have hs : (hearingSync r (Config.syncWords sp).length).sys.ioeBad.getLsbD 3 = (paired .off).sys.ioeBad.getLsbD 3 := rfl
    refine ⟨rfl, rfl, rfl, rfl, ?_, rfl, rfl, hearingSync_room _ _⟩
    rw [hs]; decide +kernel
  · have he : ((paired .standby).setReg 0x68B4 0).qEn 29 = false := by decide +kernel
    rw [State.qRoom, he, Bool.false_and]

/-- A member that decides, EPOCH 5 known. -/
def deciding : State := { paired .deciding with trap := { (paired .deciding).trap with epoch := 5 } }

/-- A witness's reply of an EPOCH, silent for so many ms. -/
def reply (epoch : W32) (ms : BitVec 16) : WitnessRep := { bus := 0, node := 1, epoch, member := 0, silence := ms.toNat }

theorem witness_PairDeciding :
    (deciding.up = true ∧ deciding.trap.role = .deciding ∧ deciding.trap.unfit = false ∧ deciding.bars (reply 6 0) = true ∧
      deciding.bars (reply 5 60000) = false ∧ deciding.confirms (reply 5 60000) = true ∧ deciding.bars (reply 5 0) = false ∧
      deciding.confirms (reply 5 0) = false) ∧
      (let s : State := { deciding with crsl := { deciding.crsl with upNs := 70000000000 } }
       s.trap.role = .deciding ∧ s.trap.decideNs + s.fld 0x7818 31 16 * 1000000 ≤ s.crsl.upNs + s.periodNs) ∧
      (let s := deciding.setReg 0x7818 0xFFFF0000
       s.trap.role = .deciding ∧ s.crsl.upNs + s.periodNs < s.trap.decideNs + s.fld 0x7818 31 16 * 1000000) ∧
      (paired .isolated).trap.role = .isolated ∧
      (let s : State := { paired .starting with trap := { (paired .starting).trap with founding := true } }
       s.up = true ∧ s.trap.role = .starting ∧ s.trap.founding = true) ∧
      ((paired .catching).trap.role = .catching ∧ (paired .catching).trap.journalled = false) ∧
      (∀ r ∈ [Role.primary, .standby], (paired r).paired = true ∧ (5 : BitVec 16).toNat = (paired r).pairId ∧
        true ≠ (paired r).trap.member ∧ (paired r).trap.epoch.toNat < (1 : W32).toNat ∧ (paired r).trap.role = r ∧
        (paired r).trap.relinquish = none ∧ (paired r).trap.yieldDue = false ∧ (paired r).calm = true) ∧
      ({ paired .primary with trap := { (paired .primary).trap with relinquish := some 4 } } : State).trap.relinquish.isSome = true ∧
      (let s : State := { paired .starting with rev := 50 }
       s.up = true ∧ s.trap.role = .starting ∧ s.trap.founding = false ∧ s.trap.listenRev + 50 ≤ s.rev ∧ s.trap.partner = none ∧
        beat.role = 2) := by
  decide +kernel

theorem witness_PairAndTimeCommands :
    (∀ n ∈ [8, 24], (paired .primary).admits hd n ∧ serving.admits hd n) ∧ (paired .standby).admits hd 24 ∧
      (let s : State := { paired .primary with trap := { (paired .primary).trap with partner := some { beat with role := 4 } } }
       s.landlord hd = true ∧ s.trap.role = .primary ∧ s.fitStandby = true) ∧
      ((paired .primary).landlord hd = true ∧ (paired .primary).fitStandby = false ∧ serving.trap.role ≠ .primary ∧
        serving.landlord hd = true ∧ serving.rtc.cal.length = 8 ∧ ([1, 2, 3, 4, 5, 6, 7, 8] : List Byte).length = 8 ∧
        serving.mbx.slots = [] ∧ serving.crsl.sync ≠ .locked ∧ calValid serving.rtc.cal = true ∧ serving.rtc.halt = false ∧
        serving.rtc.shift = none) := by
  refine ⟨?_, ?_, by decide +kernel, by decide +kernel⟩ <;> (simp only [State.admits, State.admitsAt, State.takes]; decide +kernel)

theorem blob_parent : leAt blob 6 1 = 2 := by
  have lh : blobHead.length = 24 := by decide +kernel
  rw [blob, leAt_append _ _ _ _ (by rw [lh]; decide)]; decide +kernel

theorem blob_opens : keyed.openBlob blob = some (List.replicate 32 7) := by
  have lh : blobHead.length = 24 := by decide +kernel
  have h6 : leAt blob 6 1 = 2 := blob_parent
  have ht : blob.take 24 = blobHead := by rw [blob, ← lh, List.take_left]
  have hd' : blob.drop 24 = Config.aesWrap (Config.hkdf [] [2] blobHead) (List.replicate 32 7) := by rw [blob, ← lh, List.drop_left]
  have hm : keyed.keyOf 2 = [2] := by
    show (if (4 : Nat) = 2 then wrapSlot.material else (Config.aesUnwrap (owned.slotKek 2 0) (Config.aesWrap (owned.slotKek 2 0) [2])).getD []) = [2]
    rw [aesUnwrap_aesWrap]; rfl
  rw [State.openBlob, h6, ht, hd', hm, aesUnwrap_aesWrap]

theorem blob_fits : keyed.blobFits blob = true := by
  have lh : blobHead.length = 24 := by decide +kernel
  have lb : blob.length = 64 := by simp [blob, lh]
  have at' : ∀ off n, off + n ≤ 24 → leAt blob off n = leAt blobHead off n := fun off n h => by
    rw [blob, leAt_append _ _ _ _ (by omega)]
  rw [State.blobFits, lb, at' 6 1 (by decide), at' 0 4 (by decide), at' 4 1 (by decide), at' 12 4 (by decide)]
  decide +kernel

/-- A request to generate a key of `kind` in slot 63. -/
def genReq (kind : Nat) (usage : W32) : KeyGenReq :=
  { toBlob := false, target := 63, kind, owner := 7, usage, replaces := 0xFF, parent := 0xFF }

/-- A request to import a public key into slot 63. -/
def impReq : KeyImpReq :=
  { slot := 63, kind := 2, owner := 3, usage := 16, unwrap := 0, replaces := 0xFF, parent := 0xFF, material := List.replicate 64 5 }

theorem witness_KeyCommands :
    (∀ n ∈ [1, 2, 16, 68, 200], keyed.admits hd n) ∧
      ({ keyed with key := { keyed.key with rootLost := true } } : State).admits hd 16 ∧
      (keyed.landlord hd = true ∧ keyed.keyBusy = false ∧ keyed.keysShut = false ∧
        (∀ r ∈ [genReq 3 4, genReq 4 8], r.toBlob = false ∧ r.target < 64 ∧ (r.kind = 3 ∨ r.kind = 4) ∧ usageOk r.kind r.usage = true ∧
          r.replaces = 0xFF ∧ r.parent = 0xFF ∧ keyed.kindFits r.target r.kind 0xFF = true) ∧ keyed.kindFits impReq.slot 2 0xFF = true ∧
        (keyed.slotAt 63).state = .empty ∧ keyed.noEmptySlot = false) ∧
      (impReq.slot < 64 ∧ impReq.kind = 2 ∧ usageOk 2 impReq.usage = true ∧ impReq.material.length = 64) ∧
      (2 < 64 ∧ 2 ≠ keyed.key.ownerRoot ∧ keyed.revokeSet 2 = [2, 3]) ∧
      (keyed.identSigns = true ∧ keyed.cacheVictim = some 0 ∧ keyed.key.cache.length = 32 ∧
        (List.replicate 32 (1 : Byte)).length = 32 ∧ keyed.slotUsable 3 = true ∧
        ({ keyed with key := { keyed.key with rootLost := true } } : State).keysShut = true) ∧
      keyed.blobFits blob = true ∧ keyed.openBlob blob = some (List.replicate 32 7) ∧ keyed.slotUsable (leAt blob 6 1) = true := by
  refine ⟨?_, ?_, by decide +kernel, by decide +kernel, by decide +kernel, by decide +kernel, blob_fits, blob_opens,
      blob_parent ▸ usable_sealed keyed 2 wrapSlot rfl rfl rfl⟩ <;>
    (simp only [State.admits, State.admitsAt, State.takes]; decide +kernel)

theorem signed_take (b : List Byte) (n : Nat) (h : b.length = n) : (signed b).take n = b := by rw [signed, ← h, List.take_left]

theorem signed_drop (b : List Byte) (n : Nat) (h : b.length = n) :
    (signed b).drop n = (Config.ecdsaSome [1] (Config.sha256 b)).toList := by
  rw [signed, ← h, List.drop_left]

theorem signed_ok (b : List Byte) (n : Nat) (h : b.length = n) :
    Config.ecdsaOk [1] (Config.sha256 ((signed b).take n)) ((signed b).drop n) = true := by
  rw [signed_take b n h, signed_drop b n h, ecdsaOk_some]

theorem token_reads (f t off n : Nat) (h : off + n ≤ 32) : leAt (token f t) off n = leAt (tokenHead f t) off n := by
  rw [token, signed, leAt_append]
  simpa [tokenHead] using h

theorem keyed_signer : keyed.lcSigner 1 = some [1] := by decide +kernel

/-- The owner root of `keyed`, in PROVISIONED. -/
def provisioned : State := { keyed with key := { keyed.key with life := .provisioned } }

/-- Session 0 of booth 255 with the debug port open to all. -/
def debugging : State :=
  { ofBooth 0xFF with dbg := { serving.dbg with port := 1, rights := 31, engines := 0x3FFFFF } }

theorem witness_LifeCycleTamperDebug :
    (keyed.admits hd 1 ∧ provisioned.admits hd 1 ∧ debugging.admits { hd with booth := 0xFF } 8 ∧
      debugging.admits { hd with booth := 0xFF } 0) ∧
      (∀ e ∈ [(1, 2), (2, 3)], (token e.1 e.2).length = 96 ∧ leAt (token e.1 e.2) 0 4 = 0x4C435431 ∧
        leAt (token e.1 e.2) 8 8 = keyed.fuse.serial.toNat ∧ leAt (token e.1 e.2) 16 4 = keyed.key.lcCount ∧
        leAt (token e.1 e.2) 20 1 = 1 ∧ leAt (token e.1 e.2) 4 1 = e.1 ∧ leAt (token e.1 e.2) 5 1 = e.2 ∧
        leAt (token e.1 e.2) 6 2 = 0 ∧ (∀ b ∈ ((token e.1 e.2).drop 21).take 11, b = 0) ∧
        Config.ecdsaOk [1] (Config.sha256 ((token e.1 e.2).take 32)) ((token e.1 e.2).drop 32) = true) ∧
      (keyed.landlord hd = true ∧ keyed.keysShut = false ∧ keyed.key.life = .deployed ∧ provisioned.landlord hd = true ∧
        provisioned.keysShut = false ∧ provisioned.key.life = .provisioned ∧ provisioned.fuse = keyed.fuse ∧
        provisioned.key.lcCount = keyed.key.lcCount ∧ provisioned.lcSigner 1 = some [1] ∧ keyed.lcSigner 1 = some [1] ∧
        keyed.keyBusy = false ∧ provisioned.keyBusy = false) ∧
      (keyed.up = true ∧ keyed.mbx.sessions.length = 8) ∧ off.sys.powered = false ∧
      (debugging.notDebugger { hd with booth := 0xFF } = false ∧ debugging.key.life = .manufacture) ∧
      (let s : State := { keyed with dbg := { keyed.dbg with port := 2, rights := 31 } }
       s.up = true ∧ s.dbg.port = 2 ∧ s.key.life = .deployed ∧ s.dbg.expiry ≤ s.rev) ∧
      (let s : State := { keyed with dbg := { keyed.dbg with port := 2, rights := 31, expiry := 1 } }
       s.up = true ∧ s.dbg.port = 2 ∧ s.rev < s.dbg.expiry) ∧
      ((0x3FFFFF : W32).toNat < 2 ^ 22 ∧ debugging.dbg.port = 1 ∧ debugging.dbg.rights.getLsbD 4 = true ∧
        (0x3FFFFF : W32) &&& ~~~ (debugging.dbg.engines.setWidth 32) = 0 ∧ debugging.ledger.house = 0) := by
  refine ⟨?_, ?_, by decide +kernel, by decide +kernel, by decide +kernel, by decide +kernel, by decide +kernel, by decide +kernel⟩
  · refine ⟨?_, ?_, ?_, ?_⟩ <;> (simp only [State.admits, State.admitsAt, State.takes]; decide +kernel)
  · have len : ∀ f t, (tokenHead f t).length = 32 := fun f t => by simp [tokenHead]
    have sig : ∀ f t, Config.ecdsaOk [1] (Config.sha256 ((token f t).take 32)) ((token f t).drop 32) = true :=
      fun f t => signed_ok _ 32 (len f t)
    have res : ∀ f t, ((token f t).drop 21).take 11 = List.replicate 11 0 := fun f t => by
      have hl := len f t
      rw [token, signed, List.drop_append_of_le_length (by omega), List.take_append_of_le_length (by rw [List.length_drop]; omega)]
      rfl
    have tl : ∀ f t, (token f t).length = 96 := fun f t => by simp [token, signed, len]
    intro e he
    refine ⟨tl _ _, ?_, ?_, ?_, ?_, ?_, ?_, ?_, by rw [res]; decide, sig _ _⟩ <;> rw [token_reads _ _ _ _ (by decide)] <;> revert e <;> decide +kernel

theorem manifest_length : manifest.length = 256 := by
  have : manifestHead.length = 192 := by decide +kernel
  simp [manifest, signed, this]

theorem manifest_reads (off n : Nat) (h : off + n ≤ 192) : leAt manifest off n = leAt manifestHead off n := by
  rw [manifest, signed, leAt_append]
  have : manifestHead.length = 192 := by decide +kernel
  omega

/-- The manifest as it is read. -/
def plainManifest : Manifest :=
  { target := 1, signer := 1, downconv := false, version := 5, rollback := 5, length := 4096, chunks := 1, cfgFmt := 0
    chunkRoot := List.replicate 32 0, digest := List.replicate 32 0 }

theorem manifest_parse : parseManifest manifest = plainManifest := by
  have lh : manifestHead.length = 192 := by decide +kernel
  have mid : ∀ off, off + 32 ≤ 192 → (manifest.drop off).take 32 = (manifestHead.drop off).take 32 := fun off h => by
    rw [manifest, signed, List.drop_append_of_le_length (by omega), List.take_append_of_le_length (by rw [List.length_drop]; omega)]
  unfold parseManifest
  simp only [manifest_reads 5 1 (by decide), manifest_reads 6 1 (by decide), manifest_reads 7 1 (by decide),
    manifest_reads 0x10 4 (by decide), manifest_reads 0x14 4 (by decide), manifest_reads 0x18 4 (by decide),
    manifest_reads 0x1C 2 (by decide), manifest_reads 0x1E 2 (by decide), mid 0x20 (by decide), mid 0x40 (by decide)]
  decide +kernel

theorem manifest_good : keyed.manifestBad manifest = none := by
  have mid : (manifest.drop 0x60).take 96 = (manifestHead.drop 0x60).take 96 := by
    have lh : manifestHead.length = 192 := by decide +kernel
    rw [manifest, signed, List.drop_append_of_le_length (by omega), List.take_append_of_le_length (by rw [List.length_drop]; omega)]
  unfold State.manifestBad
  simp only [manifest_parse, manifest_length, manifest_reads 0 4 (by decide), manifest_reads 4 1 (by decide),
    manifest_reads 7 1 (by decide), manifest_reads 8 8 (by decide), mid]
  decide +kernel

theorem manifest_signed :
    Config.ecdsaOk [1] (Config.sha256 (manifest.take 0xC0)) ((manifest.drop 0xC0).take 64) = true := by
  have lh : manifestHead.length = 0xC0 := by decide +kernel
  have : ((manifest.drop 0xC0).take 64) = manifest.drop 0xC0 :=
    List.take_of_length_le (by rw [List.length_drop, manifest_length])
  rw [this]
  exact signed_ok _ _ lh

/-- An update in a state, the conditions of R470 all false. -/
def updating (u : UpdState) (target : Nat) : State :=
  { keyed with rtc := { keyed.rtc with lowBackup := false }
               upd := { keyed.upd with state := u, manifest := { plainManifest with target } } }

/-- A chunk's content. -/
def chunk : List Byte := List.replicate 4096 1

/-- A download that holds the chunk in its place and waits for verification; `root` its chunk root. -/
def verifying (root : List Byte) : State :=
  { updating .verifying 1 with
    upd := { keyed.upd with
      state := .verifying, chunkHash := [(0, Config.sha256 chunk)], chunkData := [(0, chunk)]
      manifest := { plainManifest with chunkRoot := root, digest := Config.sha256 chunk } } }

theorem witness_UpdateCourse_manifest :
    (keyed.admits hd 2 ∧ keyed.landlord hd = true) ∧ (parseManifest manifest).signer = 1 ∧
      ((keyed.slotAt 1).state = .valid ∧ keyed.slotUsable 1 = true ∧ (keyed.slotAt 1).uses 7 = true ∧ (keyed.slotAt 1).material = [1]) ∧
      Config.ecdsaOk [1] (Config.sha256 (manifest.take 0xC0)) ((manifest.drop 0xC0).take 64) = true ∧
      keyed.manifestBad manifest = none ∧ (parseManifest manifest).target ≠ 3 ∧
      keyed.upd.floor (parseManifest manifest).target ≤ (parseManifest manifest).version ∧ keyed.upd.state = .idle ∧
      ({ keyed with rtc := { keyed.rtc with lowBackup := false } } : State).updConds = [false, false, false, false, false] ∧
      ({ keyed with upd := { keyed.upd with lock := true } } : State).upd.lock = true := by
  rw [manifest_parse]
  exact ⟨⟨by simp only [State.admits, State.admitsAt, State.takes]; decide +kernel, by decide +kernel⟩, by decide +kernel,
    by decide +kernel, manifest_signed, manifest_good, by decide +kernel, by decide +kernel, by decide +kernel, by decide +kernel,
    by decide +kernel⟩

theorem witness_UpdateCourse_chunks :
    ((updating .downloading 1).admits hd 1 ∧ (updating .downloading 1).admits hd 9 ∧ (roomy (updating .downloading 1)).admits hd 2056) ∧
      (let s := updating .downloading 1
       s.upd.state = .downloading ∧ 0 < s.upd.manifest.chunks ∧ (List.replicate 2048 (1 : Byte)).length = s.upd.manifest.partLen 0 1 ∧
        s.upd.lock = false ∧ s.tampered = false ∧ s.key.rootLost = false ∧ s.upd.has 0 = false ∧ s.upd.parts = none ∧
        8 + (1 + 7) / 8 = 9 ∧ 8 + (16384 + 7) / 8 = 2056) ∧
      (Config.sha256 chunk).length = 32 ∧
      Config.sha256 (List.replicate 2048 1 ++ List.replicate 2048 1) = Config.sha256 chunk :=
  ⟨by refine ⟨?_, ?_, ?_⟩ <;> (simp only [State.admits, State.admitsAt, State.takes]; decide +kernel), by decide +kernel,
    sha256_length _, by rw [List.replicate_append_replicate, chunk]⟩

theorem witness_UpdateCourse_end :
    ((updating .verified 1).admits hd 8 ∧ (updating .trial 2).admits hd 0 ∧ keyed.admits hd 0) ∧
      (let s := updating .verified 1
       s.upd.state = .verified ∧ s.upd.manifest.target = 1 ∧ s.updConds = [false, false, false, false, false] ∧
        s.soonest ≤ (100000 : W64).toNat ∧ s.paired = false) ∧
      (let s := (updating .trial 2).setReg 0x9000 0
       s.held = true ∧ s.up = true ∧ s.flag 0x9000 12 = false ∧ s.upd.state = .trial ∧ s.upd.trialNs = 0) ∧
      (keyed.held = false ∧ keyed.slotUsable keyed.key.ownerRoot = true ∧ keyed.upd.state = .idle ∧ keyed.sys.coreBad = false ∧
        keyed.upd.state ≠ .armed ∧ (keyed.slotAt keyed.key.ownerRoot).material = [1]) ∧
      ∀ on : Bool, let b := leBytes 8 keyed.fuse.serial.toNat ++ leBytes 8 keyed.upd.nonce.toNat ++ [if on then 1 else 0]
        Config.ecdsaOk (keyed.slotAt keyed.key.ownerRoot).material (Config.sha256 b) (Config.ecdsaSome [1] (Config.sha256 b)).toList =
          true := by
  have hm : (keyed.slotAt keyed.key.ownerRoot).material = [1] := by decide +kernel
  refine ⟨?_, by decide +kernel, by decide +kernel, by decide +kernel, fun on => ?_⟩
  · refine ⟨?_, ?_, ?_⟩ <;> (simp only [State.admits, State.admitsAt, State.takes]; decide +kernel)
  · rw [hm]; exact ecdsaOk_some _ _

theorem witness_UpdateCourse_verify :
    (let s := verifying (Config.sha256 (Config.sha256 chunk))
     s.up = true ∧ s.upd.state = .verifying ∧
      Config.sha256 (s.upd.chunkHash.flatMap (·.2)) = s.upd.manifest.chunkRoot ∧
      (∀ e ∈ s.upd.chunkData, Config.sha256 e.2 = sget [] s.upd.chunkHash e.1) ∧
      Config.sha256 s.upd.content = s.upd.manifest.digest ∧ (s.slotAt s.upd.manifest.signer).state = .valid) ∧
      (let s := verifying [1]
       s.up = true ∧ s.upd.state = .verifying ∧ Config.sha256 (s.upd.chunkHash.flatMap (·.2)) ≠ s.upd.manifest.chunkRoot) := by
  refine ⟨⟨by decide +kernel, rfl, ?_, ?_, ?_, by decide +kernel⟩, by decide +kernel, rfl, ?_⟩
  · show Config.sha256 (Config.sha256 chunk ++ []) = Config.sha256 (Config.sha256 chunk)
    rw [List.append_nil]
  · intro e he
    rw [show (verifying (Config.sha256 (Config.sha256 chunk))).upd.chunkData = [(0, chunk)] from rfl, List.mem_singleton] at he
    subst he; rfl
  · show Config.sha256 (chunk ++ []) = Config.sha256 chunk
    rw [List.append_nil]
  · intro h
    have := congrArg List.length h
    rw [sha256_length] at this
    exact absurd this (by decide)

/-- The chunk's packet in Q31 of a download. -/
def arrived : State :=
  (updating .downloading 1).setQ 31
    { keyed.q 31 with words := chunkWords.zipIdx.map fun e => (e.1, e.2 == 516), wr := 517, ps := 517 }

theorem bytesOf_ones (n : Nat) : bytesOf (List.replicate n 0x0101010101010101) = List.replicate (8 * n) 1 := by
  induction n with
  | zero => rfl
  | succ n ih =>
    have h8 : leBytes 8 (0x0101010101010101 : W64).toNat = List.replicate 8 1 := by decide +kernel
    have : bytesOf (List.replicate (n + 1) 0x0101010101010101) =
        leBytes 8 (0x0101010101010101 : W64).toNat ++ bytesOf (List.replicate n 0x0101010101010101) := rfl
    rw [this, ih, h8, List.replicate_append_replicate, show 8 + 8 * n = 8 * (n + 1) by omega]

theorem witness_UpdateCourse_packet :
    (arrived.up = true ∧ arrived.upd.state = .downloading ∧ arrived.hostp.queues.length = 32 ∧ arrived.upd.lock = false ∧
      arrived.parityHeld 18 = false ∧ arrived.tampered = false ∧ arrived.key.rootLost = false ∧ arrived.upd.has 0 = false ∧ 0 < arrived.upd.manifest.chunks) ∧
      chunkWords.length = 517 ∧
      ((chunkWords.getD 0 0).toNat / 2 ^ 48 = 0x5543 ∧ (chunkWords.getD 0 0).toNat / 2 ^ 16 % 2 ^ 13 = 0 ∧
        (chunkWords.getD 0 0).toNat % 2 ^ 13 = arrived.upd.manifest.chunkLen 0) ∧
      Config.sha256 ((bytesOf (chunkWords.drop 5)).take 4096) = bytesOf ((chunkWords.drop 1).take 4) := by
  obtain ⟨hb, hl⟩ := bytesOf_wordsOf 8 4 (Config.sha256 chunk) (by simp) (by decide)
  have hw : chunkWords = BitVec.ofNat 64 (0x5543 * 2 ^ 48 + 4096) ::
      (wordsOf 8 (Config.sha256 chunk) ++ List.replicate 512 0x0101010101010101) := rfl
  have h1 : (chunkWords.drop 1).take 4 = wordsOf 8 (Config.sha256 chunk) := by
    rw [hw, List.drop_succ_cons, List.drop_zero, ← hl, List.take_left]
  have h5 : chunkWords.drop 5 = List.replicate 512 0x0101010101010101 := by
    rw [hw, List.drop_succ_cons, ← hl, List.drop_left]
  refine ⟨by decide +kernel, by rw [hw, List.length_cons, List.length_append, hl, List.length_replicate], by decide +kernel, ?_⟩
  rw [h1, h5, hb]
  have : (bytesOf (List.replicate 512 0x0101010101010101)).take 4096 = chunk := by
    rw [bytesOf_ones, List.take_replicate, chunk]
    exact congrArg (List.replicate · 1) (by decide)
  rw [this]

theorem witness_LogCommands :
    (∀ n ∈ [4, 8, 40, 44, 2056], (roomy serving).admits hd n) ∧ (let s : State := { serving with sys := { serving.sys with run := .stopped } }
      s.admits hd 8 ∧ s.landlord hd = true ∧ s.sys.run = .stopped ∧ s.crsl.ovrDue = false ∧ s.sys.thermalHold = false ∧ s.restartPending = false ∧
        ({ s with sys := { s.sys with thermalHold := true } } : State).sys.thermalHold = true) ∧
      (roomy serving).landlord hd = true ∧ (roomy serving).running = true := by
  refine ⟨?_, ⟨?_, by decide +kernel⟩, by decide +kernel⟩ <;>
    (simp only [State.admits, State.admitsAt, State.takes]; decide +kernel)

theorem witness_ReadingCommandsChangeNothing : on.up = true ∧ serving.up = true := by decide +kernel

/-! ### Ill-formed commands, one for each check, and their well-formed neighbours -/

/-- One command for each check that its operands fail. -/
def illFormed : List Instr :=
  [.pointWindowRead .host 0xBFFC, .pointWindowWrite .host 0xC001 0, .highWaterClear .host 0x10000 0, .statusRegisterRead .host 2,
    .postedWriteComplete 22, .regRead hd 0x10000 1, .regRead hd 0 65536, .regWrite hd 1 [], .pointRead hd 65536 1,
    .pointWrite hd [{ point := 65536, value := 0 }], .forceSet hd 65536 0, .loopRead hd 65536, .loopLoad hd 0 [], .loopMode hd 0 256 0,
    .spotPermit hd 0 256, .spotStart hd 0 { spotParams with order := 256 }, .spotStop hd 256, .imageStage hd 256 0 0 [],
    .imageStage hd 0 0 4294967296 [], .imageLoad hd 0 256, .taskStop hd 65536, .varRead hd 0 (List.replicate 256 0),
    .limitSet hd 0 256 true, .shedSet hd 256, .requestList hd 0 65536, .prismPropose hd [], .prismRead hd 256, .prismSample [] 0,
    .fioRetry hd 256 true, .fanRetry hd 256, .fanLearn hd 0 256, .ioStatus hd 256 0,
    .canReception 0 { waiting.frame with dlc := 16 } 0 0, .canSend hd 0 { waiting.frame with ident := 2048 }, .canSend hd 256 waiting.frame,
    .canCancel hd 0 true 65536, .bacnetRequest 4096 0 .whoIs, .bacnetRequest 0 4194304 .whoIs,
    .covNotification 4096, .tunnelConnect 4096 true [], .scHubs hd 256 [] [], .ifRead hd 256, .neighbourRead hd 256, .timeSet hd [],
    .keyGenerate hd { genReq 3 4 with target := 256 }, .keyImport hd { impReq with slot := 255 }, .lifeCycleTransition hd [],
    .keyRevoke hd 256, .blobLoad hd [] false, .attest hd 256 0 (List.replicate 32 0), .attest hd 0 0 [], .debugOpen hd [0],
    .updManifest hd 0 [], .updChunk hd 0 0 [] [], .updStatus hd 65536 1, .updLock hd 0 [], .logRead hd 0 65536, .logStream hd 256 0,
    .ctrlRestart hd 256 0, .faultHandling (some { faultEv with source := 32 }),
    .criticalHandling (some { faultEv with code := 64 }), .loopsPhase 0 [] [512], .logicPhase 0 (List.replicate 17 0) []]

theorem test_ill_formed_refused : illFormed.all (fun c => !c.wellFormed) = true := by decide +kernel

/-- Their neighbours within the checks. -/
def wellFormedOnes : List Instr :=
  [.pointWindowRead .host 0xC000, .pointWindowWrite .host 0xFFFC 0, .postedWriteComplete 21, .regRead hd 0xFFFC 65535,
    .pointRead hd 65535 1, .loopLoad hd 0 (loopWords.take 24), .spotStart hd 0 spotParams, .imageStage hd 255 0 4294967295 [],
    .prismPropose hd (List.replicate 816 0), .prismSample (List.replicate 36 0) 0, .canSend hd 255 { waiting.frame with ident := 2047 },
    .ethFrameReceive 0 (tagged 1500), .timeSet hd (List.replicate 8 0), .keyGenerate hd (genReq 3 4), .keyImport hd impReq,
    .debugOpen hd [], .attest hd 0 0 (List.replicate 32 0), .updLock hd 0 (List.replicate 64 0), .faultHandling (some faultEv),
    .loopsPhase 0 [] [511]]

theorem test_well_formed_accepted : wellFormedOnes.all Instr.wellFormed = true := by decide +kernel

theorem test_error_frame_formed :
    (Instr.errorFrame 0 512 0 0).wellFormed = false ∧ (Instr.errorFrame 0 511 255 7).wellFormed = true := by
  decide +kernel

theorem test_no_row_gives_bits : decodeTableWord 32 0xFFFFFFFF = none := rfl

/-! ### Single commands, with the results the spec gives -/

/-- The state a command leaves. -/
def after (c : Instr) (s : State) : State :=
  match exec c s with
  | .next t => t
  | _ => s

/-- CUR, MK, RL, WR, FREE, PKT_COUNT of a queue. -/
def places (q : Queue) : List Nat := [q.cur, if q.marked then q.mark else 0, q.rl, q.wr, q.free, q.packets]

/-- Q26 with three Prism records of 14 words (the example of chapter 13). -/
def ringed : State :=
  on.setQ 26 { on.q 26 with depthLog := 9, words := (List.range 42).map fun i => (BitVec.ofNat 64 i, i % 14 == 13), wr := 42, ps := 42 }

/-- Steps 1 and 2 of the example: a read of 14 words, MARK. -/
theorem test_qrd_moves_cur : places ((after (.qRd 26 14 false) ringed).q 26) = [14, 0, 0, 42, 470, 3] := by decide +kernel

/-- Step 7: RELEASE after CUR 28 with the mark at 14. -/
theorem test_release_frees_packets :
    places ((after (.release 26) (ringed.setQ 26 { ringed.q 26 with cur := 28, mark := 14, marked := true })).q 26) =
      [28, 0, 28, 42, 498, 1] := by
  decide +kernel

/-- Step 5: REWIND to the mark. -/
theorem test_rewind_to_mark :
    ((after (.rewind 26) (ringed.setQ 26 { ringed.q 26 with cur := 23, mark := 14, marked := true })).q 26).cur = 14 := by
  decide +kernel

/-- Step 4: HOST_CS_N rises in the 10th word: nine are consumed and ABORTED is set. -/
theorem test_qrd_cut :
    let t := after (.qRd 26 9 true) (ringed.setQ 26 { ringed.q 26 with cur := 14 })
    (t.q 26).cur = 23 ∧ t.sq 13 4 = true := by
  decide +kernel

/-- The first line of the example of chapter 16: the increment. -/
theorem test_second_carries : incSec [0x59, 0x59, 0x23, 0x07, 0x28, 0x02, 0x00, 0x21] = [0, 0, 0, 0x01, 0x01, 0x03, 0x00, 0x21] := by
  decide +kernel

/-- The same line: the shift borrows to 28 February, because 2100 is not a leap year. -/
theorem test_hour_borrows : decHour [0, 0, 0, 0x01, 0x01, 0x03, 0x00, 0x21] = [0, 0, 0x23, 0x07, 0x28, 0x02, 0x00, 0x21] := by
  decide +kernel

/-- The example of chapter 03: points 40, 1,204 and 6,150 with GROUPS[3] 0001h, GROUPS[7] 0021h, GROUP_RW 0000h. -/
def tower : State :=
  ((({ on with pnt := { on.pnt with maps := [(0x3, 1), (0x7, 0x21)] } } : State).writeRec 40
    { quality := 0, owner := 0, src := 4, share := 1 }).writeRec 1204 { quality := 0, owner := 3, src := 3 }).writeRec 6150
    { quality := 0, owner := 7, src := 5 }

theorem test_shared_read_allowed : tower.groups 3 = 1 ∧ tower.check 3 .read 40 false false = .allow := by decide +kernel
theorem test_foreign_read_denied : tower.check 3 .read 6150 false false = .deny := by decide +kernel
theorem test_force_of_booth_0 : tower.check 0 .force 1204 false false = .allow := by decide +kernel

/-- Booth 3 may not clear the force booth 0 set. -/
theorem test_clear_denied : (tower.applyForce { someSlot with booth := 0 } 1204 0 1).check 3 .force 1204 false false = .deny := by
  decide +kernel

/-- The example of chapter 21: page 0Ch, offset C0C0h is point 6,150. -/
theorem test_window_point : ((after (.registerWrite .host 0x1808 0x0C) on).winPoint 0xC0C0) = 6150 := by decide +kernel

/-- R361's example, step 5: the clearing write with FEh leaves the field recorded after the latch. -/
theorem test_sequence_clear :
    let t := after (.sequenceClearWrite .host (statusOff 5) 0x01000000) seqRead
    t.sq 5 6 = false ∧ t.sq 5 2 = true := by
  decide +kernel

theorem test_boundary_advances : (after .revolutionBoundary on).rev = 1 := by decide +kernel
theorem test_identify_answers : ((after (.identify hd) serving).sess 0).expected = 2 := by decide +kernel

/-- The second response of the example of chapter 14: SSEQ out of turn leaves the expected one. -/
theorem test_seq_error :
    let t := after (.identify { hd with sseq := 2 }) serving
    (t.sess 0).expected = 1 ∧ t.sq 14 3 = true := by
  decide +kernel

theorem test_depth_refused : (after (.hostQcfgWrite .host 0 0x0D000000) on).sq 13 2 = true := by decide +kernel
theorem test_lock_is_set_only : (after (.hostLockWrite .host 0) (on.setReg 0x6808 5)).reg 0x6808 = 5 := by decide +kernel
theorem test_calendar_held : (after (.rtcIncrement 0) { on with rtc := { on.rtc with halt := true } }).rtc.cal = on.rtc.cal := by
  decide +kernel
theorem test_supply_lost : (after .powerLoss on).sys.powered = false ∧ (after .powerLoss on).hostp.irqLow = false := by
  decide +kernel
theorem test_unpowered_command_does_nothing : exec (.identify hd) off = .next off := rfl
theorem test_idle : step State.reset = .next State.reset := rfl
theorem test_front_runs : step { on with pending := [.tsWrap, .loopLate] } = exec .tsWrap { on with pending := [.loopLate] } := rfl

/-- A second CRITICAL while one is handled: CRIT_NEST (R495). -/
theorem test_nested_critical :
    (after (.sramUncorrectable 1) { on with flt := { on.flt with critical := some faultEv } }).sq 19 5 = true := by
  decide +kernel
theorem test_fan_wait_ends : ((after (.waitEnd 0) (fanned { state := .wait })).fch8 0).state = .kick := by decide +kernel
theorem test_bus_off : ((after (.busOff 0) (bussed {})).cbus 0).state = .busOff := by decide +kernel
theorem test_short_frame_dropped : (after (.ethFrameReceive 0 { frame with data := List.replicate 59 0 }) (ported { link := 2 })).total 0x6110 = 1 := by
  decide +kernel
theorem test_overload_switches_off :
    ((after (.overload 0) (field { farCfg := 0xC000, driven := true })).fch 0).driven = false := by
  decide +kernel
theorem test_fe_fault : (after .feFault { metering with prsm := { metering.prsm with badRun := 16 } }).prsm.feFault = true := by
  decide +kernel
theorem test_standby_decides :
    (after .takeover { paired .standby with trap := { (paired .standby).trap with bothMissed := 5 } }).trap.role = .deciding := by
  decide +kernel
theorem test_tamper_erases_root : (after .tamper keyed).key.rk = [] ∧ (after .tamper keyed).key.tamperLatch = true := by
  decide +kernel

end Sys2Proof.Tests
end

section
/-! SUPPORT. Chapter 00: a step runs the command at the front of the queue and every command answers a next state (O1); what the
block is right after reset (O7). -/

namespace Sys2Proof.Machine

/-! ### One step -/

/-- An empty queue idles (log entry 1). -/
theorem step_of_pending_nil {s : State} (h : s.pending = []) : step s = .next s := by
  unfold step; rw [h]

/-- The command at the front acts on the state with the queue's rest. -/
theorem step_pending_cons (c : Instr) (rest : List Instr) (s : State) :
    step { s with pending := c :: rest } = exec c { s with pending := rest } := rfl

/-! ### Every form of a command's outcome is a next state -/

theorem live_exists_next (f : State → State) (s : State) : ∃ t, live f s = .next t := by
  cases h : s.sys.powered
  · exact ⟨s, live_off f s h⟩
  · exact ⟨_, live_next f s h⟩

theorem liveTurn_exists_next (f : State → State) (s : State) : ∃ t, liveTurn f s = .next t := by
  unfold liveTurn; split <;> exact ⟨_, rfl⟩

theorem livePhase_exists_next (p : PhasePos) (f : State → State) (s : State) : ∃ t, livePhase p f s = .next t := by
  unfold livePhase; split <;> exact ⟨_, rfl⟩

/-- No command stops the block: each of the six forms of `exec_form` is a next state. -/
theorem exec_exists_next (c : Instr) (s : State) : ∃ t, exec c s = .next t := by
  obtain ⟨f, h⟩ | ⟨f, h⟩ | ⟨p, f, h⟩ | ⟨-, f, h⟩ | ⟨k, r, -, h⟩ | ⟨-, h⟩ := exec_form c s <;> rw [h]
  · exact live_exists_next f s
  · exact ⟨_, rfl⟩
  · exact livePhase_exists_next p f s
  · exact liveTurn_exists_next f s
  · exact ⟨_, rfl⟩
  · exact ⟨_, rfl⟩

/-! ### The state after reset -/

/-- Every register holds the word of its Reset column (R6). -/
@[simp] theorem State.reset_reg (off : Nat) : State.reset.reg off = resetWord off := rfl

@[simp] theorem State.reset_total (off : Nat) : State.reset.total off = 0 := rfl

@[simp] theorem State.reset_sq (b i : Nat) : State.reset.sq b i = false := rfl

/-- No block is locked: LOCK reads 0 after reset (R356). -/
@[simp] theorem State.reset_locked (b : Nat) : State.reset.locked b = false := by
  have hlock : resetWord 0x6808 = 0 := by decide
  simp [State.locked, State.flag, bitAt, hlock]

/-- IRQ_EN reads 0 after reset, so nothing calls for the interrupt line (R354). -/
theorem State.reset_irqWanted : State.reset.irqWanted = false := by
  have hen : State.reset.flag 0x6800 0 = false := by decide
  simp [State.irqWanted, hen]

theorem State.reset_lineTrue : State.reset.lineTrue := fun _ => State.reset_irqWanted.symm

/-- Every kind of unit has its number. -/
theorem State.reset_shaped : State.reset.shaped := by
  unfold State.shaped; decide

theorem State.reset_queues_length : State.reset.hostp.queues.length = 32 := rfl

/-- An ordinary point the configuration leaves unused has QUALITY C1h (R71). -/
theorem State.reset_point_quality {p : Nat} (h : p < 8064) : (State.reset.point p).quality = 0xC1 := by
  have hrec : State.reset.point p = ({} : PRec).sealed := if_neg (by omega)
  rw [hrec, PRec.sealed]

/-- Each of the 32 queues is empty at its default depth, and any other number reads an empty queue (R365). -/
theorem State.reset_q (n : Nat) : State.reset.q n = { depthLog := Queue.defaultDepths.getD n 8 } :=
  List.getD_map ..

@[simp] theorem State.reset_q_words (n : Nat) : (State.reset.q n).words = [] := by rw [State.reset_q]

/-- No session stands (R380). -/
@[simp] theorem State.reset_sess (n : Nat) : State.reset.sess n = {} :=
  List.getElem?_getD_replicate_default_eq _ 8 n

end Sys2Proof.Machine

open Sys2Proof.Machine

/-- Settles O1: `step` by its two cases, and `exec_exists_next` for every command. -/
theorem stepRunsFront : Obligations.StepRunsFront :=
  ⟨step_pending_cons, fun _ => step_of_pending_nil, exec_exists_next⟩

/-- Settles O7, one fact about `State.reset` a clause. -/
theorem resetState : Obligations.ResetState :=
  ⟨State.reset_lineTrue, State.reset_shaped, rfl, rfl, State.reset_locked, State.reset_reg, State.reset_total, State.reset_sq,
    fun _ => State.reset_point_quality, State.reset_queues_length, State.reset_q_words, rfl,
    fun n => by rw [State.reset_sess]⟩
end

section
/-! SUPPORT. Chapter 01: what a step moves of the queue, the fuses and the revolution counter (O3); a step that loses the calendar's
registers (O4, refuted); memory errors and a stopped Juggler (O9); watchdog, heat and power above its limit (O10). -/

namespace Sys2Proof.Machine

/-! ### Queue, fuses and revolution counter -/

theorem liveTurn_outside (f : State → State) (s t : State) (h : liveTurn f s = .next t) :
    t.pending = s.pending ∧ t.fuse = s.fuse ∧ (t.rev = s.rev ∨ t.rev = s.rev + 1) := by
  unfold liveTurn at h; split at h <;> cases h <;> simp

theorem execPowerLoss_outside (s t : State) (h : execPowerLoss s = .next t) :
    t.pending = s.pending ∧ t.fuse = s.fuse ∧ t.rev = s.rev := by
  unfold execPowerLoss at h; cases h; simp

/-- A cold start that comes up sets the revolution counter to 0; one that does not act or fails leaves it (R47). -/
theorem execColdStart_outside (k : Fin 3) (r : StartRes) (s t : State) (h : execColdStart k r s = .next t) :
    t.pending = s.pending ∧ t.fuse = s.fuse ∧ (t.rev = s.rev ∨ t.rev = 0) := by
  unfold execColdStart at h; cases h
  refine ⟨State.outside_pending .., State.outside_fuse .., ?_⟩
  rw [State.outside_rev]
  split
  · exact .inr rfl
  · exact .inl rfl

/-- What any command leaves of the queue, the fuses and the revolution counter, by the six forms of `exec_form`. -/
theorem exec_outside (c : Instr) (s t : State) (h : exec c s = .next t) :
    t.pending = s.pending ∧ t.fuse = s.fuse ∧
      (t.rev = s.rev ∨ (c = .revolutionBoundary ∧ t.rev = s.rev + 1) ∨ ∃ k r, c = .coldStart k r ∧ t.rev = 0) := by
  obtain ⟨f, e⟩ | ⟨f, e⟩ | ⟨p, f, e⟩ | ⟨hc, f, e⟩ | ⟨k, r, hc, e⟩ | ⟨-, e⟩ := exec_form c s <;> rw [e] at h
  · obtain ⟨hp, hf, hr⟩ := live_outside f s t h; exact ⟨hp, hf, .inl hr⟩
  · obtain ⟨hp, hf, hr⟩ := anyPower_outside f s t h; exact ⟨hp, hf, .inl hr⟩
  · obtain ⟨hp, hf, hr⟩ := livePhase_outside p f s t h; exact ⟨hp, hf, .inl hr⟩
  · obtain ⟨hp, hf, hr⟩ := liveTurn_outside f s t h
    exact ⟨hp, hf, hr.imp_right fun hr => .inl ⟨hc, hr⟩⟩
  · obtain ⟨hp, hf, hr⟩ := execColdStart_outside k r s t h
    exact ⟨hp, hf, hr.imp_right fun hr => .inr ⟨k, r, hc, hr⟩⟩
  · obtain ⟨hp, hf, hr⟩ := execPowerLoss_outside s t h; exact ⟨hp, hf, .inl hr⟩

/-! ### A TIME_SET that times out -/

/-- A completion touches neither the clock nor the fault unit. -/
theorem State.complete_rtc_flt (s : State) (x : Slot) (status detail : Nat) (data : List Byte) :
    (s.complete x status detail data).rtc = s.rtc ∧ (s.complete x status detail data).flt = s.flt := by
  unfold State.complete State.completeAs
  dsimp only
  split
  · obtain ⟨_, _, _, h⟩ := State.countDone_same _ x.session x.opcode status
    rw [h]; exact ⟨rfl, rfl⟩
  · obtain ⟨_, _, _, _, _, h⟩ := State.respond_same _ x.session x.opcode x.tag x.booth x.sseq 0 status detail data
    rw [h]; exact ⟨rfl, rfl⟩

/-- A TIME_SET that timed out gives the calendar the registers its slot recorded, however many those are (R385). -/
theorem timeout_timeSet {n : Nat} {tag : Byte} {s : State} {x : Slot} {old : List Byte}
    (hx : (s.mbx.slots.find? fun y => y.session == n && y.tag == tag) = some x) (hw : x.wait = .timeSet old)
    (hl : x.accepted + 2000000000 ≤ s.crsl.upNs + s.periodNs) :
    (timeout n tag s).rtc.cal = old.take 8 ∧ (timeout n tag s).flt = s.flt := by
  obtain ⟨hr, hf⟩ := (s.withdraw x).complete_rtc_flt x 0x0F 0 []
  have ht : timeout n tag s = (s.withdraw x).complete x 0x0F 0 [] := by
    unfold timeout; rw [hx]; exact if_pos hl
  have hu : s.withdraw x = (s.withdrawWrites x.ident).timeUnset old := by
    unfold State.withdraw; rw [hw]
  rw [ht, hr, hf, hu]
  exact ⟨rfl, rfl⟩

/-- A TIME_SET in flight for 2 s whose slot recorded no calendar register, its TIMEOUT the next command; every unit is there. -/
def lateTimeSet : State :=
  { State.reset with
    pending := [.timeout 0 0]
    crsl := { State.reset.crsl with upNs := 2000000000 }
    mbx := { State.reset.mbx with
      slots := [{ ident := 1, session := 0, tag := 0, opcode := 0x0B02, booth := 0, sseq := 1, accepted := 0, room := 5
                  wait := .timeSet [] }] } }

theorem lateTimeSet_shaped : lateTimeSet.shaped := State.reset_shaped

/-- Its next step leaves the calendar without registers. -/
theorem step_lateTimeSet : Reaches (step lateTimeSet) fun t => t.rtc.cal = [] := by
  obtain ⟨hcal, hflt⟩ := timeout_timeSet (n := 0) (tag := 0) (s := { lateTimeSet with pending := [] }.draw) rfl rfl (by decide)
  refine live_reaches (fun s => timeout 0 0 s) { lateTimeSet with pending := [] } rfl ?_ ?_
  · rw [hflt]; rfl
  · rw [State.outside_rtc, settle_rtc, hcal]; rfl

/-! ### Events in the log -/

/-- What is handled and what waits for it are as they were (R494, R495). -/
structure SameHandling (s t : State) : Prop where
  critical : t.flt.critical = s.flt.critical
  handling : t.flt.handling = s.flt.handling
  suspended : t.flt.suspended = s.flt.suspended
  queue : t.flt.queue = s.flt.queue
  nest : t.flt.nest = s.flt.nest

theorem SameHandling.refl (s : State) : SameHandling s s := ⟨rfl, rfl, rfl, rfl, rfl⟩

theorem SameHandling.trans {s t u : State} (h : SameHandling s t) (k : SameHandling t u) : SameHandling s u :=
  ⟨k.critical.trans h.critical, k.handling.trans h.handling, k.suspended.trans h.suspended, k.queue.trans h.queue,
    k.nest.trans h.nest⟩

theorem captureFirst_sameHandling (s : State) (e : LogEnt) : SameHandling s (s.captureFirst e) := by
  unfold State.captureFirst; split <;> exact ⟨rfl, rfl, rfl, rfl, rfl⟩

theorem bufferEntry_sameHandling (s : State) (e : LogEnt) : SameHandling s (s.bufferEntry e) := by
  unfold State.bufferEntry; dsimp only
  generalize (if e.cls.num < 2 then 240 else 256) = room
  split <;> exact ⟨rfl, rfl, rfl, rfl, rfl⟩

/-- What holds once an event's class is counted, and is kept by capture, folding and buffering, holds once it is logged (R492). -/
theorem State.logEvent_induction {P : State → Prop} (s : State) (cls : EvClass) (src code : Nat) (booth : Byte) (data : W64)
    (hcount : P (s.count (0x9840 + 4 * cls.num) 1)) (hcapture : ∀ t e, P t → P (t.captureFirst e))
    (hfold : ∀ (t : State) fs, P t → P ({ t with flt := { t.flt with folds := fs } }.count 0x9850 1))
    (hbuffer : ∀ t e, P t → P (t.bufferEntry e)) : P (s.logEvent cls src code booth data) := by
  unfold State.logEvent
  dsimp only
  have hfirst : P (if cls.num ≥ 2 then (s.count (0x9840 + 4 * cls.num) 1).captureFirst
      { seq := 0, cls, source := src, code, booth, rep := 0, rev := s.rev, data, start := s.startNumber }
      else s.count (0x9840 + 4 * cls.num) 1) := by
    split
    · exact hcapture _ _ hcount
    · exact hcount
  generalize (if cls.num ≥ 2 then (s.count (0x9840 + 4 * cls.num) 1).captureFirst
      { seq := 0, cls, source := src, code, booth, rep := 0, rev := s.rev, data, start := s.startNumber }
      else s.count (0x9840 + 4 * cls.num) 1) = u at hfirst ⊢
  split
  · exact hfirst
  · split
    · split
      · exact hfold _ _ hfirst
      · exact hbuffer _ _ hfirst
    · exact hbuffer _ _ hfirst

/-- Logging an event passes nothing on for handling (R492). -/
theorem logEvent_sameHandling (s : State) (cls : EvClass) (src code : Nat) (booth : Byte) (data : W64) :
    SameHandling s (s.logEvent cls src code booth data) :=
  s.logEvent_induction cls src code booth data ⟨rfl, rfl, rfl, rfl, rfl⟩ (fun _ _ h => h.trans (captureFirst_sameHandling _ _))
    (fun _ _ h => h.trans ⟨rfl, rfl, rfl, rfl, rfl⟩) (fun _ _ h => h.trans (bufferEntry_sameHandling _ _))

@[simp] theorem State.captureFirst_total (s : State) (e : LogEnt) (o : Nat) : (s.captureFirst e).total o = s.total o := by
  unfold State.captureFirst; split <;> rfl

theorem State.bufferEntry_total (s : State) (e : LogEnt) {o : Nat} (h : 0x9858 ≠ o) : (s.bufferEntry e).total o = s.total o := by
  unfold State.bufferEntry; dsimp only
  generalize (if e.cls.num < 2 then 240 else 256) = room
  split
  · rfl
  · exact State.total_count_ne _ 1 h

/-- An event advances the counter of its class by one (R492). -/
theorem State.logEvent_total (s : State) (cls : EvClass) (src code : Nat) (booth : Byte) (data : W64) :
    (s.logEvent cls src code booth data).total (0x9840 + 4 * cls.num) = s.total (0x9840 + 4 * cls.num) + 1 := by
  have hnum : cls.num < 4 := by cases cls <;> decide
  refine s.logEvent_induction cls src code booth data (P := fun t => t.total _ = s.total _ + 1) (s.total_count _ 1)
    (fun t e h => ?_) (fun t fs h => ?_) (fun t e h => ?_)
  · rw [t.captureFirst_total, h]
  · rw [State.total_count_ne _ 1 (by omega)]; exact h
  · rw [t.bufferEntry_total e (by omega), h]

/-- A CRITICAL that finds none in handling is handled, with its data, and counted in FLT_CNT3 (R492, R495). -/
theorem raise_critical_calm (s : State) (src code : Nat) (booth : Byte) (data : Nat) (h : s.calm = true) :
    (s.raise .critical src code booth data).flt.critical = some { source := src, code, booth, data := BitVec.ofNat 64 data } ∧
      (s.raise .critical src code booth data).flt.nest = s.flt.nest ∧
      (s.raise .critical src code booth data).total 0x984C = s.total 0x984C + 1 := by
  have hlog := logEvent_sameHandling s .critical src code booth (BitVec.ofNat 64 data)
  have hnone : (s.logEvent .critical src code booth (BitVec.ofNat 64 data)).flt.critical.isNone = true := hlog.critical ▸ h
  unfold State.raise State.criticalArrives
  dsimp only
  rw [if_pos hnone]
  exact ⟨rfl, hlog.nest, s.logEvent_total .critical src code booth _⟩

/-- A FAULT that finds nothing in handling is handled, with its data, and counted in FLT_CNT2 (R492, R494). -/
theorem raise_fault_idle (s : State) (src code : Nat) (booth : Byte) (data : Nat) (h : s.calm = true) (hn : s.flt.handling = none) :
    (s.raise .fault src code booth data).flt.handling = some { source := src, code, booth, data := BitVec.ofNat 64 data } ∧
      (s.raise .fault src code booth data).total 0x9848 = s.total 0x9848 + 1 := by
  have hlog := logEvent_sameHandling s .fault src code booth (BitVec.ofNat 64 data)
  have hidle : (s.logEvent .fault src code booth (BitVec.ofNat 64 data)).flt.handling.isNone = true ∧
      (s.logEvent .fault src code booth (BitVec.ofNat 64 data)).flt.critical.isNone = true := by
    rw [hlog.handling, hlog.critical, hn]; exact ⟨rfl, h⟩
  unfold State.raise State.faultArrives
  dsimp only
  rw [if_pos hidle]
  exact ⟨rfl, s.logEvent_total .fault src code booth _⟩

/-- A FAULT is counted, whatever is being handled (R492). -/
theorem raise_fault_total (s : State) (src code : Nat) (booth : Byte) (data : Nat) :
    s.total 0x9848 < (s.raise .fault src code booth data).total 0x9848 := by
  have hcount := s.logEvent_total .fault src code booth (BitVec.ofNat 64 data)
  have harrive := (((LogOnly.refl (s.logEvent .fault src code booth (BitVec.ofNat 64 data))).flt
    { (s.logEvent .fault src code booth (BitVec.ofNat 64 data)).flt with
        faultsSince := (s.logEvent .fault src code booth (BitVec.ofNat 64 data)).flt.faultsSince + 1 }).faultArrives
    { source := src, code, booth, data := BitVec.ofNat 64 data }).total 0x9848
  exact Nat.lt_of_lt_of_le (Nat.lt_of_lt_of_eq (Nat.lt_succ_self _) hcount.symm) harrive

theorem faultArrives_nest (s : State) (ev : FaultEv) : (s.faultArrives ev).flt.nest = s.flt.nest := by
  unfold State.faultArrives
  split
  · rfl
  · split
    · rfl
    · exact (logEvent_sameHandling _ _ _ _ _ _).nest

/-- Only a CRITICAL can nest (R495). -/
theorem raise_nest (s : State) (cls : EvClass) (src code : Nat) (booth : Byte) (data : Nat) (h : cls ≠ .critical) :
    (s.raise cls src code booth data).flt.nest = s.flt.nest := by
  have hlog := (logEvent_sameHandling s cls src code booth (BitVec.ofNat 64 data)).nest
  cases cls with
  | note => exact hlog
  | warn => exact hlog
  | fault => exact (faultArrives_nest _ _).trans hlog
  | critical => exact absurd rfl h

/-! ### Writers' requests dropped -/

/-- Dropping requests touches the ledger and the counters alone, and no counter falls (R233). -/
structure DropsOnly (s t : State) : Prop where
  same : ∃ l c, t = { s with ledger := l, cnt := c }
  total : ∀ o, s.total o ≤ t.total o

theorem DropsOnly.refl (s : State) : DropsOnly s s := ⟨⟨_, _, rfl⟩, fun _ => Nat.le_refl _⟩

theorem DropsOnly.trans {s t u : State} (h : DropsOnly s t) (k : DropsOnly t u) : DropsOnly s u := by
  refine ⟨?_, fun o => Nat.le_trans (h.total o) (k.total o)⟩
  obtain ⟨l, c, rfl⟩ := h.same
  obtain ⟨l', c', rfl⟩ := k.same
  exact ⟨_, _, rfl⟩

theorem DropsOnly.task {s t : State} (h : DropsOnly s t) (i : Nat) : t.task i = s.task i := by
  obtain ⟨_, _, e⟩ := h.same; rw [e]; rfl

theorem dropReq_dropsOnly (s : State) (p : Nat) : DropsOnly s (s.dropReq p) := by
  unfold State.dropReq
  split
  · exact ⟨⟨_, _, rfl⟩, (s.endReq p).total_count_le 0x1094 1⟩
  · exact DropsOnly.refl s

theorem dropWriter_dropsOnly (s : State) (w : Writer) : DropsOnly s (s.dropWriter w) :=
  List.foldlRecOn _ _ (DropsOnly.refl s) fun _ h _ _ => h.trans (dropReq_dropsOnly _ _)

/-! ### A Juggler stopped -/

/-- What stopping tasks leaves: the starts, what is being handled, and counters that do not fall. -/
structure TasksOnly (s t : State) : Prop where
  sys : t.sys = s.sys
  flt : t.flt = s.flt
  total : ∀ o, s.total o ≤ t.total o

theorem TasksOnly.refl (s : State) : TasksOnly s s := ⟨rfl, rfl, fun _ => Nat.le_refl _⟩

theorem TasksOnly.trans {s t u : State} (h : TasksOnly s t) (k : TasksOnly t u) : TasksOnly s u :=
  ⟨k.sys.trans h.sys, k.flt.trans h.flt, fun o => Nat.le_trans (h.total o) (k.total o)⟩

theorem DropsOnly.tasksOnly {s t : State} (h : DropsOnly s t) : TasksOnly s t := by
  obtain ⟨_, _, e⟩ := h.same
  exact ⟨by rw [e], by rw [e], h.total⟩

theorem stopTask_tasksOnly (s : State) (i : Nat) (st : TaskState) : TasksOnly s (s.stopTask i st) := by
  unfold State.stopTask
  dsimp only
  have hdrop := (dropWriter_dropsOnly s (.task i)).tasksOnly
  split
  · exact TasksOnly.refl s
  · split <;> exact hdrop.trans ⟨rfl, rfl, fun _ => Nat.le_refl _⟩

theorem State.task_setTask_self (s : State) (i : Nat) (t : Task) : (s.setTask i t).task i = t := sget_sset_self _ _ _ _

theorem State.task_setTask_ne (s : State) {i j : Nat} (t : Task) (h : i ≠ j) : (s.setTask i t).task j = s.task j :=
  sget_sset_ne _ _ _ h

/-- A task that is neither EMPTY nor RETIRED takes the state it is stopped with (R143). -/
theorem stopTask_task_self (s : State) (i : Nat) (st : TaskState) (he : (s.task i).state ≠ .empty)
    (hr : (s.task i).state ≠ .retired) : (s.stopTask i st).task i = { s.task i with state := st } := by
  unfold State.stopTask
  dsimp only
  rw [if_neg (not_or.mpr ⟨he, hr⟩)]
  split <;> exact State.task_setTask_self _ _ _

theorem stopTask_task_ne (s : State) {i j : Nat} (st : TaskState) (h : i ≠ j) : (s.stopTask i st).task j = s.task j := by
  unfold State.stopTask
  dsimp only
  split
  · rfl
  · have hdrop := (dropWriter_dropsOnly s (.task i)).task j
    split <;> exact (State.task_setTask_ne _ _ h).trans hdrop

/-- A task is STOPPED_FAULT after a fold that names it, and stays so. -/
theorem foldl_stopTask_task (l : List Nat) (s : State) (i : Nat) (he : (s.task i).state ≠ .empty)
    (hr : (s.task i).state ≠ .retired) (h : i ∈ l ∨ (s.task i).state = .stoppedFault) :
    ((l.foldl (fun (s : State) i => s.stopTask i .stoppedFault) s).task i).state = .stoppedFault := by
  induction l generalizing s with
  | nil => exact h.resolve_left (List.not_mem_nil)
  | cons j l ih =>
    rw [List.foldl_cons]
    by_cases hj : j = i
    · subst hj
      have hstop := stopTask_task_self s j .stoppedFault he hr
      have hstate : ((s.stopTask j .stoppedFault).task j).state = .stoppedFault := by rw [hstop]
      exact ih _ (by rw [hstate]; decide) (by rw [hstate]; decide) (.inr hstate)
    · have hkeep := stopTask_task_ne s .stoppedFault hj
      refine ih _ (hkeep ▸ he) (hkeep ▸ hr) ?_
      rw [hkeep]
      exact h.imp_left fun hm => (List.mem_cons.mp hm).resolve_left (Ne.symm hj)

/-- A key that does not read as an unlisted one is listed with what it reads. -/
theorem mem_of_sget_ne {α : Type} (d : α) (m : Sparse α) {k : Nat} (h : sget d m k ≠ d) : (k, sget d m k) ∈ m := by
  induction m with
  | nil => exact absurd rfl h
  | cons x t ih =>
    obtain ⟨k', v⟩ := x
    by_cases e : k' = k
    · subst e; simp [sget]
    · simp only [sget, e, if_false] at h ⊢
      exact List.mem_cons_of_mem _ (ih h)

/-- A task-table entry that is not EMPTY has its row. -/
theorem State.task_row {s : State} {i : Nat} (h : (s.task i).state ≠ .empty) : (i, s.task i) ∈ s.prg.tasks := by
  refine mem_of_sget_ne {} s.prg.tasks fun e => h ?_
  rw [State.task, e]

theorem foldl_stopTask_tasksOnly (l : List Nat) (s : State) :
    TasksOnly s (l.foldl (fun (s : State) i => s.stopTask i .stoppedFault) s) :=
  List.foldlRecOn _ _ (TasksOnly.refl s) fun _ h _ _ => h.trans (stopTask_tasksOnly _ _ _)

theorem foldl_dropWriter_dropsOnly {α : Type} (w : α → Writer) (l : List α) (s : State) :
    DropsOnly s (l.foldl (fun (s : State) e => s.dropWriter (w e)) s) :=
  List.foldlRecOn _ _ (DropsOnly.refl s) fun _ h _ _ => h.trans (dropWriter_dropsOnly _ _)

/-- A Juggler that stops raises its FAULT in a state `u` that shows it stopped, with its running tasks STOPPED_FAULT (R98, R499). -/
theorem stopJuggler_raises (s : State) (k cause : Nat) :
    ∃ u, s.stopJuggler k cause = u.raise .fault 19 0x2D 0xFF (k * 256 + cause) ∧
      TasksOnly { s with sys := { s.sys with jugState := lmod s.sys.jugState k fun _ => 2 } } u ∧
      ∀ i, (s.task i).jug = k → (s.task i).state = .running → (u.task i).state = .stoppedFault := by
  refine ⟨_, rfl, ?_, fun i hj hs => ?_⟩
  · exact ((foldl_stopTask_tasksOnly _ _).trans
      (foldl_dropWriter_dropsOnly (fun e : Nat × LoopCtx => .loop e.1) _ _).tasksOnly).trans ⟨rfl, rfl, fun _ => Nat.le_refl _⟩
  · have he : (s.task i).state ≠ .empty := by rw [hs]; decide
    have hr : (s.task i).state ≠ .retired := by rw [hs]; decide
    refine (congrArg Task.state ((foldl_dropWriter_dropsOnly (fun e : Nat × LoopCtx => .loop e.1) _ _).task i)).trans ?_
    refine foldl_stopTask_task _ _ i he hr (.inl ?_)
    exact List.mem_map.mpr ⟨(i, s.task i), List.mem_filter.mpr ⟨State.task_row he, by simp [hj, hs]⟩, rfl⟩

/-- JUGGLER_STOP of a Juggler that is not stopped (R98). -/
theorem jugglerStop_stops (s : State) (k cause : Nat) (h : s.sys.jugState.getD k 0 ≠ 2) (hk : k < s.sys.jugState.length) :
    (jugglerStop k cause s).sys.jugState.getD k 0 = 2 ∧ s.total 0x9848 < (jugglerStop k cause s).total 0x9848 ∧
      (jugglerStop k cause s).flt.nest = s.flt.nest ∧
      ∀ i, (s.task i).jug = k → (s.task i).state = .running → ((jugglerStop k cause s).task i).state = .stoppedFault := by
  have hcounted : ∃ r, jugglerStop k cause s = State.stopJuggler { s with regs := r } k (cause + 1) := by
    unfold jugglerStop
    dsimp only
    rw [if_neg h]
    split
    · exact ⟨_, rfl⟩
    · exact ⟨s.regs, rfl⟩
  obtain ⟨r, hr⟩ := hcounted
  obtain ⟨u, hu, hleft, htasks⟩ := stopJuggler_raises { s with regs := r } k (cause + 1)
  obtain ⟨f, c, st, hraise⟩ := (raise_logOnly u .fault 19 0x2D 0xFF (k * 256 + (cause + 1))).same
  rw [hr, hu]
  refine ⟨?_, Nat.lt_of_le_of_lt (hleft.total _) (raise_fault_total u _ _ _ _), ?_, fun i hj hs => ?_⟩
  · rw [hraise]
    dsimp only
    rw [hleft.sys]
    exact lmod_getD_self _ _ _ _ hk
  · rw [raise_nest u .fault _ _ _ _ (by decide), hleft.flt]
  · rw [hraise]; exact htasks i hj hs

/-! ### The stop of control -/

/-- The starts and run state stand, and no SQ field of a block other than the ledger's is cleared. -/
structure SysStands (s t : State) : Prop where
  sys : t.sys = s.sys
  sq : ∀ b i, b ≠ 2 → s.sq b i = true → t.sq b i = true

theorem SysStands.refl (s : State) : SysStands s s := ⟨rfl, fun _ _ _ h => h⟩

theorem SysStands.trans {s t u : State} (h : SysStands s t) (k : SysStands t u) : SysStands s u :=
  ⟨k.sys.trans h.sys, fun b i hb e => k.sq b i hb (h.sq b i hb e)⟩

theorem SysStands.of_stat {s t : State} (hsys : t.sys = s.sys) (hstat : t.stat = s.stat) : SysStands s t :=
  ⟨hsys, fun b i _ h => by unfold State.sq State.statOf at h ⊢; rwa [hstat]⟩

theorem LogOnly.sysStands {s t : State} (h : LogOnly s t) : SysStands s t := by
  obtain ⟨_, _, _, e⟩ := h.same
  exact ⟨by rw [e], fun b i _ => h.sq b i⟩

theorem setSQ_count_sysStands (s : State) (b i off n : Nat) : SysStands s ((s.setSQ b i).count off n) :=
  (((LogOnly.refl s).setSQ b i).count off n).sysStands

theorem setReg_sysStands (s : State) (off : Nat) (w : W32) : SysStands s (s.setReg off w) := .of_stat rfl rfl

theorem DropsOnly.sysStands {s t : State} (h : DropsOnly s t) : SysStands s t := by
  obtain ⟨_, _, e⟩ := h.same
  exact .of_stat (by rw [e]) (by rw [e])

theorem ite_sysStands {s t u : State} {c : Prop} [Decidable c] (ht : SysStands s t) (hu : SysStands s u) :
    SysStands s (if c then t else u) := by
  split
  · exact ht
  · exact hu

theorem foldl_sysStands {α : Type} (f : State → α → State) (hf : ∀ t x, SysStands t (f t x)) (l : List α) (s : State) :
    SysStands s (l.foldl f s) :=
  List.foldlRecOn _ _ (SysStands.refl s) fun t h x _ => h.trans (hf t x)

theorem discardCommit_sysStands (s : State) : SysStands s s.discardCommit := by
  unfold State.discardCommit
  split
  · exact SysStands.refl s
  · dsimp only
    refine SysStands.trans ?_ (foldl_sysStands _ (fun t (e : W32 × Nat) => setReg_sysStands t e.2 e.1) _ _)
    refine ⟨rfl, fun b i hb h => ?_⟩
    unfold State.sq State.statOf at h ⊢
    dsimp only
    rwa [sget_sset_ne _ _ _ (Ne.symm hb)]

theorem swbAbort_sysStands (s : State) (booth : Nat) : SysStands s (s.swbAbort booth) := by
  unfold State.swbAbort
  split
  · refine SysStands.trans ?_ (setSQ_count_sysStands _ 6 6 _ _)
    exact .of_stat rfl rfl
  · exact SysStands.refl s

theorem abortArmed_sysStands (s : State) : SysStands s s.abortArmed :=
  foldl_sysStands (fun (t : State) (e : Nat × Armed) => t.swbAbort e.1) (fun t e => swbAbort_sysStands t e.1) _ _

theorem keepPacket_sysStands (s : State) (k : Nat) (b : SpotBuf) : SysStands s (s.keepPacket k b) := by
  unfold State.keepPacket
  split
  · exact SysStands.refl s
  · split
    · exact setSQ_count_sysStands s 5 1 _ _
    · exact .of_stat rfl rfl

theorem setCtx_sysStands (s : State) (c : Nat) (x : LoopCtx) : SysStands s (s.setCtx c x) := .of_stat rfl rfl

theorem endSpot_sysStands (s : State) (k cause : Nat) : SysStands s (s.endSpot k cause) := by
  unfold State.endSpot
  dsimp only
  split
  · exact SysStands.refl s
  · refine SysStands.trans ?_ (ite_sysStands (setSQ_count_sysStands _ 5 3 _ _) (setSQ_count_sysStands _ 5 2 _ _))
    refine SysStands.trans ?_ (setCtx_sysStands _ _ _)
    refine SysStands.trans ?_
      (ite_sysStands (setCtx_sysStands _ _ _) (ite_sysStands (setCtx_sysStands _ _ _) (SysStands.refl _)))
    split
    · exact .of_stat rfl rfl
    · refine SysStands.trans ?_ (keepPacket_sysStands _ _ _)
      exact .of_stat rfl rfl

theorem endSpots_sysStands (s : State) (cause : Nat) : SysStands s (s.endSpots cause) :=
  foldl_sysStands _ (fun t k => endSpot_sysStands t k cause) _ _

theorem relinquishOnStop_sysStands (s : State) : SysStands s s.relinquishOnStop := by
  unfold State.relinquishOnStop State.relinquishAt
  split
  · exact SysStands.trans (foldl_sysStands _ (fun t e => swbAbort_sysStands t _) _ _) (.of_stat rfl rfl)
  · exact SysStands.refl s

theorem badRecord_sysStands (s : State) (p : Nat) : SysStands s (s.badRecord p) := by
  unfold State.badRecord
  dsimp only
  split
  · exact SysStands.refl s
  · refine SysStands.trans ?_ ((LogOnly.refl _).report _ _ _ _ _ |>.count _ _).sysStands
    exact .of_stat rfl rfl

theorem verifyRead_sysStands (s : State) (p : Nat) : SysStands s (s.verifyRead p) := by
  unfold State.verifyRead
  split
  · exact SysStands.refl s
  · split
    · exact badRecord_sysStands s p
    · split
      · exact SysStands.refl s
      · exact .of_stat rfl rfl

theorem writeRec_sysStands (s : State) (p : Nat) (r : PRec) : SysStands s (s.writeRec p r) := .of_stat rfl rfl

theorem setQuality_sysStands (s : State) (p : Nat) (q : Byte) (ts : Stamp) : SysStands s (s.setQuality p q ts) := by
  unfold State.setQuality
  dsimp only
  split
  · exact verifyRead_sysStands s p
  · exact (verifyRead_sysStands s p).trans (writeRec_sysStands _ _ _)

theorem enterHeld_sysStands (s : State) (c : Int) : SysStands s (s.enterHeld c) := by
  unfold State.enterHeld
  split
  · exact SysStands.refl s
  · exact .of_stat rfl rfl

theorem dropLoad_sysStands (s : State) (p stages : Nat) : SysStands s (s.dropLoad p stages) := by
  unfold State.dropLoad
  split
  · exact .of_stat rfl rfl
  · exact SysStands.refl s

/-- An output driven to its safe value (R25, R62). -/
theorem safeOut_sysStands (s : State) (p : Nat) : SysStands s (s.safeOut p) := by
  have hread := (dropReq_dropsOnly s p).sysStands.trans (verifyRead_sysStands (s.dropReq p) p)
  unfold State.safeOut
  dsimp only
  split
  · exact hread
  · split
    · split
      · exact hread.trans (.of_stat rfl rfl)
      · refine SysStands.trans ?_ (writeRec_sysStands _ _ _)
        refine SysStands.trans (SysStands.trans ?_ (enterHeld_sysStands _ _)) (dropLoad_sysStands _ _ _)
        exact hread.trans (.of_stat rfl rfl)
    · refine SysStands.trans ?_ (setQuality_sysStands _ _ _ _)
      exact hread.trans (.of_stat rfl rfl)

theorem handField_sysStands (s : State) (k : Nat) : SysStands s (s.handField k) := by
  unfold State.handField
  split
  · exact .of_stat rfl rfl
  · exact SysStands.refl s

theorem handAo_sysStands (s : State) (j : Nat) : SysStands s (s.handAo j) := by
  unfold State.handAo
  dsimp only
  split
  · split
    · split <;> exact .of_stat rfl rfl
    · exact .of_stat rfl rfl
  · exact SysStands.refl s

theorem setFan_sysStands (s : State) (c : Nat) (x : FanCh) : SysStands s (s.setFan c x) := .of_stat rfl rfl

theorem fromStopped_sysStands (s : State) (c : Nat) : SysStands s (s.fromStopped c) := by
  unfold State.fromStopped State.startKick
  dsimp only
  split <;> exact .of_stat rfl rfl

theorem handFan_sysStands (s : State) (c : Nat) : SysStands s (s.handFan c) := by
  unfold State.handFan
  dsimp only
  split
  · exact SysStands.refl s
  · split
    · exact setFan_sysStands s c _
    · split
      · split
        · exact setFan_sysStands s c _
        · exact (setFan_sysStands s c _).trans (fromStopped_sysStands _ c)
      · split <;> exact .of_stat rfl rfl
      · split <;> exact .of_stat rfl rfl
      · split
        · exact .of_stat rfl rfl
        · split <;> exact .of_stat rfl rfl
      · exact setFan_sysStands s c _
      · exact setFan_sysStands s c _

theorem handOff_sysStands (s : State) (p : Nat) : SysStands s (s.handOff p) := by
  unfold State.handOff
  split
  · exact handField_sysStands s _
  · split
    · exact handAo_sysStands s _
    · split
      · exact handFan_sysStands s _
      · exact SysStands.refl s

theorem driveSafe_sysStands (s : State) : SysStands s s.driveSafe :=
  foldl_sysStands _ (fun t p => (safeOut_sysStands t p).trans (handOff_sysStands _ p)) _ _

theorem dropFrames_sysStands (s : State) : SysStands s s.dropFrames := by
  refine foldl_sysStands _ (fun t b => ?_) _ _
  exact .of_stat rfl rfl

theorem controlStop_of_not_running {s : State} (h : s.sys.run ≠ .running) : s.controlStop = s := if_pos h

/-- Where control ran, its stop sets RUN_STATE to STOPPED and ends the hold of outputs between work that leaves the starts (R62). -/
theorem controlStop_of_running {s : State} (h : s.sys.run = .running) :
    ∃ u c, SysStands s u ∧
      SysStands { u with sys := { u.sys with run := .stopped, outHold := false }, crsl := c } s.controlStop := by
  have hbefore := (((discardCommit_sysStands s).trans (abortArmed_sysStands _)).trans (endSpots_sysStands _ 5)).trans
    (relinquishOnStop_sysStands _)
  unfold State.controlStop
  rw [if_neg (not_not.mpr h)]
  exact ⟨_, _, hbefore, (driveSafe_sysStands _).trans (dropFrames_sysStands _)⟩

/-- Control does not run after its stop, and no SQ field outside the ledger's block is cleared (R62). -/
theorem controlStop_stops (s : State) :
    s.controlStop.sys.run ≠ .running ∧ ∀ b i, b ≠ 2 → s.sq b i = true → s.controlStop.sq b i = true := by
  by_cases h : s.sys.run = .running
  · obtain ⟨u, c, hbefore, hafter⟩ := controlStop_of_running h
    refine ⟨?_, fun b i hb e => hafter.sq b i hb (hbefore.sq b i hb e)⟩
    rw [hafter.sys]
    exact RunState.noConfusion
  · rw [controlStop_of_not_running h]
    exact ⟨h, fun _ _ _ e => e⟩

/-- Where control does not run, a nested CRITICAL asks for its warm start and stops nothing more (R495). -/
theorem afterNest_of_not_running {s : State} (h : s.sys.run ≠ .running) :
    ∃ f r, s.afterNest = { s with flt := f, sys := { s.sys with startReq := r } } := by
  unfold State.afterNest
  rw [controlStop_of_not_running h]
  split
  · exact ⟨_, _, rfl⟩
  · exact ⟨s.flt, s.sys.startReq, rfl⟩

/-- THERMAL_STOP at 105 °C (R491): control stopped and held, THERMAL set. -/
theorem thermalStop_stops (s : State) (tj : Nat) (ht : 1050 ≤ tj) (hh : s.sys.thermalHold = false) :
    (thermalStop tj s).sys.thermalHold = true ∧ (thermalStop tj s).sq 19 4 = true ∧ (thermalStop tj s).sys.run ≠ .running := by
  have hskip : ¬(tj < 1050 ∨ s.sys.thermalHold = true) := not_or.mpr ⟨by omega, by rw [hh]; decide⟩
  unfold thermalStop
  rw [if_neg hskip]
  dsimp only
  have hset := (raise_logOnly ((s.takeTj tj).setSQ 19 4) .critical 19 0x23 0xFF tj).sq 19 4 (State.sq_setSQ_self _ 19 4)
  obtain ⟨hrun, hsq⟩ := controlStop_stops (((s.takeTj tj).setSQ 19 4).raise .critical 19 0x23 0xFF tj)
  generalize State.controlStop _ = u at hrun hsq ⊢
  exact ⟨rfl, hsq 19 4 (by decide) hset, hrun⟩

/-- THERMAL_CLEAR at 95 °C ends the hold (R491). -/
theorem thermalClear_clears (s : State) (tj : Nat) (ht : tj ≤ 950) (hh : s.sys.thermalHold = true) :
    (thermalClear tj s).sys.thermalHold = false ∧ (thermalClear tj s).flt.nest = s.flt.nest := by
  have hskip : ¬(s.sys.thermalHold = false ∨ 950 < tj) := not_or.mpr ⟨by rw [hh]; decide, by omega⟩
  unfold thermalClear
  rw [if_neg hskip]
  dsimp only
  refine ⟨?_, raise_nest _ _ _ _ _ _ (by decide)⟩
  rw [(raise_logOnly _ _ _ _ _ _).sysStands.sys]

/-- OVER_P above 3.9 W is reported (R491). -/
theorem overP_reports (s : State) (mw : Nat) (hm : 3900 < mw) :
    (overP mw s).sq 21 3 = true ∧ (overP mw s).flt.nest = s.flt.nest := by
  unfold overP
  rw [if_pos hm]
  exact ⟨(raise_logOnly _ _ _ _ _ _).sq _ _ (State.sq_setSQ_self s 21 3), raise_nest _ _ _ _ _ _ (by decide)⟩

/-- WDOG with no CRITICAL in handling (R29, R496): the change of core asked for where the spare is ready, else a warm start with cause 5h
and no command service. -/
theorem wdog_asks (s : State) (h : s.calm = true) :
    (wdog s).sq 19 0 = true ∧ (wdog s).flt.nest = s.flt.nest ∧
      (s.sys.spareReady = true → (wdog s).sys.coreDue = true ∧ (wdog s).sys.cmdOk = s.sys.cmdOk) ∧
      (s.sys.spareReady = false → (wdog s).sys.startReq = some 5 ∧ (wdog s).sys.cmdOk = false) := by
  obtain ⟨-, hnest, -⟩ := raise_critical_calm (s.setSQ 19 0) 19 0x25 0xFF s.sys.activeSv.toNat h
  have hlog := raise_logOnly (s.setSQ 19 0) .critical 19 0x25 0xFF s.sys.activeSv.toNat
  have hsys : ((s.setSQ 19 0).raise .critical 19 0x25 0xFF s.sys.activeSv.toNat).sys = s.sys := hlog.sysStands.sys
  have hsq := hlog.sq _ _ (State.sq_setSQ_self s 19 0)
  unfold wdog
  dsimp only
  generalize (s.setSQ 19 0).raise .critical 19 0x25 0xFF s.sys.activeSv.toNat = u at hnest hsys hsq ⊢
  split
  next hready =>
    rw [hsys] at hready
    exact ⟨hsq, hnest, fun _ => ⟨rfl, by rw [← hsys]⟩, fun e => absurd (hready.symm.trans e) (by decide)⟩
  next hready =>
    rw [hsys] at hready
    exact ⟨hsq, hnest, fun e => absurd e hready, fun _ => ⟨rfl, rfl⟩⟩

/-! ### The events in a module that is up -/

theorem State.up_iff {s : State} : s.up = true ↔ s.sys.powered = true ∧ s.flt.nest = false := by
  simp [State.up]

theorem sramUncorrectable_reaches (s : State) (hup : s.up = true) (hcalm : s.calm = true) (a : W64) :
    Reaches (exec (.sramUncorrectable a) s) fun t =>
      t.flt.critical = some { source := 19, code := 0x26, booth := 0xFF, data := a } ∧ t.total 0x984C = s.total 0x984C + 1 := by
  obtain ⟨hp, hn⟩ := State.up_iff.mp hup
  obtain ⟨hcrit, hnest, htotal⟩ := raise_critical_calm s.draw 19 0x26 0xFF a.toNat hcalm
  refine live_reaches (sramUncorrectable a) s hp (hnest.trans hn) ⟨?_, ?_⟩
  · rw [State.outside_flt, settle_flt]
    rw [BitVec.ofNat_toNat, BitVec.setWidth_eq] at hcrit
    exact hcrit
  · rw [State.outside_total, settle_total _ _ (by decide)]
    exact htotal

theorem lpddrUncorrectable_reaches (s : State) (hup : s.up = true) (hcalm : s.calm = true) (hidle : s.flt.handling = none) (a : W64) :
    Reaches (exec (.lpddrUncorrectable a) s) fun t =>
      t.flt.handling = some { source := 19, code := 0x27, booth := 0xFF, data := a } ∧ t.total 0x9848 = s.total 0x9848 + 1 := by
  obtain ⟨hp, hn⟩ := State.up_iff.mp hup
  obtain ⟨hfault, htotal⟩ := raise_fault_idle s.draw 19 0x27 0xFF a.toNat hcalm hidle
  refine live_reaches (lpddrUncorrectable a) s hp ((raise_nest _ _ _ _ _ _ (by decide)).trans hn) ⟨?_, ?_⟩
  · rw [State.outside_flt, settle_flt]
    rw [BitVec.ofNat_toNat, BitVec.setWidth_eq] at hfault
    exact hfault
  · rw [State.outside_total, settle_total _ _ (by decide)]
    exact htotal

theorem jugglerStop_reaches (s : State) (hup : s.up = true) (k : Fin 16) (c : Fin 4) (hk : s.sys.jugState.getD k 0 ≠ 2)
    (hlt : k.val < s.sys.jugState.length) :
    Reaches (exec (.jugglerStop k c) s) fun t => t.sys.jugState.getD k 0 = 2 ∧ s.total 0x9848 < t.total 0x9848 ∧
      ∀ i, (s.task i).jug = k → (s.task i).state = .running → (t.task i).state = .stoppedFault := by
  obtain ⟨hp, hn⟩ := State.up_iff.mp hup
  obtain ⟨hjug, htotal, hnest, htasks⟩ := jugglerStop_stops s.draw k.val c.val hk hlt
  refine live_reaches (jugglerStop k.val c.val) s hp (hnest.trans hn) ⟨?_, ?_, fun i hj hs => ?_⟩
  · rw [State.outside_sys, settle_sys]; exact hjug
  · rw [State.outside_total, settle_total _ _ (by decide)]; exact htotal
  · rw [State.task, State.outside_prg, settle_prg]; exact htasks i hj hs

/-- What a stop for heat leaves outlasts the rest of the command: where control does not run, a nested CRITICAL stops nothing more. -/
theorem thermalStop_reaches (s : State) (hup : s.up = true) (tj : Nat) (ht : 1050 ≤ tj) (hh : s.sys.thermalHold = false) :
    Reaches (exec (.thermalStop tj) s) fun t => t.sys.thermalHold = true ∧ t.sq 19 4 = true ∧ t.sys.run ≠ .running := by
  obtain ⟨hp, -⟩ := State.up_iff.mp hup
  obtain ⟨hhold, hsq, hrun⟩ := thermalStop_stops s.draw tj ht hh
  obtain ⟨f, r, hnest⟩ := afterNest_of_not_running hrun
  refine ⟨_, live_next (thermalStop tj) s hp, ?_⟩
  dsimp only
  rw [State.outside_sys, State.outside_sq, settle_sys, settle_sq _ _ (by decide), hnest]
  exact ⟨hhold, hsq, hrun⟩

theorem wdog_reaches (s : State) (hup : s.up = true) (hcalm : s.calm = true) :
    Reaches (exec .wdog s) fun t => t.sq 19 0 = true ∧
      (s.sys.spareReady = true → t.sys.coreDue = true ∧ t.sys.cmdOk = s.sys.cmdOk) ∧
      (s.sys.spareReady = false → t.sys.startReq = some 5 ∧ t.sys.cmdOk = false) := by
  obtain ⟨hp, hn⟩ := State.up_iff.mp hup
  obtain ⟨hsq, hnest, hspare, hnospare⟩ := wdog_asks s.draw hcalm
  refine live_reaches wdog s hp (hnest.trans hn) ?_
  rw [State.outside_sys, State.outside_sq, settle_sys]
  exact ⟨settle_sq_mono _ _ hsq, hspare, hnospare⟩

theorem thermalClear_reaches (s : State) (hup : s.up = true) (tj : Nat) (ht : tj ≤ 950) (hh : s.sys.thermalHold = true) :
    Reaches (exec (.thermalClear tj) s) fun t => t.sys.thermalHold = false := by
  obtain ⟨hp, hn⟩ := State.up_iff.mp hup
  obtain ⟨hhold, hnest⟩ := thermalClear_clears s.draw tj ht hh
  refine live_reaches (thermalClear tj) s hp (hnest.trans hn) ?_
  rw [State.outside_sys, settle_sys]
  exact hhold

theorem overP_reaches (s : State) (hup : s.up = true) (mw : Nat) (hm : 3900 < mw) :
    Reaches (exec (.overP mw) s) fun t => t.sq 21 3 = true := by
  obtain ⟨hp, hn⟩ := State.up_iff.mp hup
  obtain ⟨hsq, hnest⟩ := overP_reports s.draw mw hm
  refine live_reaches (overP mw) s hp (hnest.trans hn) ?_
  rw [State.outside_sq]
  exact settle_sq_mono _ _ hsq

end Sys2Proof.Machine

open Sys2Proof.Machine

/-- Settles O3, by the front command of the queue and `exec_outside`. -/
theorem everyStepQueueFusesRevolution : Obligations.EveryStepQueueFusesRevolution := by
  intro s t h
  unfold step at h
  split at h
  next hnil =>
    cases h
    exact ⟨by rw [hnil, List.tail_nil], rfl, .inl rfl⟩
  next c rest hcons =>
    obtain ⟨hp, hf, hr⟩ := exec_outside c _ t h
    rw [hcons]
    refine ⟨hp, hf, hr.imp_right (Or.imp ?_ ?_)⟩
    · exact And.imp_left (congrArg some)
    · exact fun ⟨k, r, hc, hr⟩ => ⟨k, r, congrArg some hc, hr⟩

/-- Refutes O4: the statement ranges over every state whose units are all there, and nothing in that fixes how many calendar registers
a TIME_SET in flight recorded; its TIMEOUT puts back what was recorded (R385), so `lateTimeSet` steps to a calendar of none. A TIME_SET
taken by the service records nine bytes, so that `shaped` lacks a clause on the slots for it to be kept by every step. -/
theorem not_everyStepKeepsUnits : ¬ Obligations.EveryStepKeepsUnits := by
  intro h
  obtain ⟨t, hstep, hcal⟩ := step_lateTimeSet
  obtain ⟨-, -, -, -, -, -, -, -, -, -, -, -, -, hlength, -⟩ := h lateTimeSet t lateTimeSet_shaped hstep
  rw [hcal] at hlength
  exact absurd hlength (by decide)

/-- Settles O9, an event a clause. -/
theorem memoryFaults : Obligations.MemoryFaults := fun s hup =>
  ⟨sramUncorrectable_reaches s hup, lpddrUncorrectable_reaches s hup, jugglerStop_reaches s hup⟩

/-- Settles O10, an event a clause. -/
theorem faultsTakeEffect : Obligations.FaultsTakeEffect := fun s hup =>
  ⟨wdog_reaches s hup, fun _ => thermalStop_reaches s hup, thermalClear_reaches s hup, overP_reaches s hup⟩
end

section
/-! SUPPORT. Words, their fields and the registers that hold them: what a read of a field returns after a write (R4, R45, R355). -/
namespace Sys2Proof.Machine

/-! ### Fields of a word -/

/-- No field of a word exceeds the widest range (R357). -/
theorem bits_lt_word (w : W32) (hi lo : Nat) : bits w hi lo < 2 ^ 32 :=
  Nat.lt_of_le_of_lt (Nat.le_trans (Nat.mod_le _ _) (Nat.div_le_self _ _)) w.isLt

theorem testBit_bits (w : W32) (hi lo i : Nat) : (bits w hi lo).testBit i = (decide (i < hi + 1 - lo) && w.getLsbD (lo + i)) := by
  unfold bits
  rw [Nat.testBit_mod_two_pow, Nat.testBit_div_two_pow, Nat.add_comm i lo, BitVec.testBit_toNat]

theorem getLsbD_fieldMask (hi lo j : Nat) : (fieldMask hi lo).getLsbD j = decide (j < 32 ∧ lo ≤ j ∧ j ≤ hi) := by
  unfold fieldMask
  rw [BitVec.getLsbD_ofNat, Nat.testBit_mul_two_pow, Nat.testBit_two_pow_sub_one, Bool.eq_iff_iff]
  simp only [Bool.and_eq_true, decide_eq_true_eq]
  omega

theorem getLsbD_place (v lo j : Nat) : (place v lo).getLsbD j = (decide (j < 32) && (decide (lo ≤ j) && v.testBit (j - lo))) := by
  unfold place
  rw [BitVec.getLsbD_ofNat, Nat.testBit_mul_two_pow]

theorem getLsbD_mergeBits (w m v : W32) (j : Nat) :
    (mergeBits w m v).getLsbD j = if m.getLsbD j then v.getLsbD j else w.getLsbD j := by
  unfold mergeBits
  rw [BitVec.getLsbD_or, BitVec.getLsbD_and, BitVec.getLsbD_and, BitVec.getLsbD_not]
  by_cases hj : j < 32
  · cases m.getLsbD j <;> simp only [hj, decide_true, Bool.not_true, Bool.not_false, Bool.and_false, Bool.and_true,
      Bool.or_false, Bool.false_or, if_true, Bool.false_eq_true, if_false]
  · simp only [BitVec.getLsbD_of_ge _ j (Nat.not_lt.mp hj), Bool.false_and, Bool.or_false, ite_self]

/-- A field of a word reads what was placed in it (R4). -/
theorem bits_setBits_self (w : W32) {hi lo : Nat} (v : Nat) (h : hi < 32) :
    bits (setBits w hi lo v) hi lo = v % 2 ^ (hi + 1 - lo) := by
  refine Nat.eq_of_testBit_eq fun i => ?_
  rw [testBit_bits, Nat.testBit_mod_two_pow]
  by_cases hin : i < hi + 1 - lo
  · have hmask : (fieldMask hi lo).getLsbD (lo + i) = true := by rw [getLsbD_fieldMask]; simp only [decide_eq_true_eq]; omega
    have hset : (setBits w hi lo v).getLsbD (lo + i) = (place v lo).getLsbD (lo + i) :=
      (getLsbD_mergeBits w (fieldMask hi lo) (place v lo) _).trans (if_pos hmask)
    have hlt : lo + i < 32 := by omega
    rw [hset, getLsbD_place, Nat.add_sub_cancel_left]
    simp only [hlt, Nat.le_add_right, decide_true, Bool.true_and]
  · simp only [hin, decide_false, Bool.false_and]

/-- A merge over a field gives the field its new bits (R45). -/
theorem bits_mergeBits_self (w v : W32) {hi : Nat} (lo : Nat) (h : hi < 32) :
    bits (mergeBits w (fieldMask hi lo) v) hi lo = bits v hi lo := by
  refine Nat.eq_of_testBit_eq fun i => ?_
  rw [testBit_bits, testBit_bits]
  by_cases hin : i < hi + 1 - lo
  · have hmask : (fieldMask hi lo).getLsbD (lo + i) = true := by rw [getLsbD_fieldMask]; simp only [decide_eq_true_eq]; omega
    rw [getLsbD_mergeBits, if_pos hmask]
  · simp only [hin, decide_false, Bool.false_and]

theorem and_whole (v : W32) : v &&& 0xFFFFFFFF = v := BitVec.and_allOnes

theorem mergeBits_whole (w v : W32) : mergeBits w 0xFFFFFFFF v = v := by
  unfold mergeBits
  rw [and_whole, show ~~~(0xFFFFFFFF : W32) = 0#32 from rfl, BitVec.and_zero, BitVec.zero_or]

/-! ### Registers and their fields read after a write -/

@[simp] theorem State.reg_setReg_self (s : State) (off : Nat) (w : W32) : (s.setReg off w).reg off = w := sget_sset_self _ _ _ _

theorem State.fld_setReg_ne (s : State) {off o : Nat} (w : W32) (hi lo : Nat) (h : off ≠ o) :
    (s.setReg off w).fld o hi lo = s.fld o hi lo := congrArg (bits · hi lo) (s.reg_setReg_ne w h)

theorem State.fld_setFld_self (s : State) (off : Nat) {hi lo : Nat} (v : Nat) (h : hi < 32) :
    (s.setFld off hi lo v).fld off hi lo = v % 2 ^ (hi + 1 - lo) := by
  unfold State.fld State.setFld
  rw [State.reg_setReg_self]
  exact bits_setBits_self _ v h

theorem State.reg_setFld_ne (s : State) {off o : Nat} (hi lo v : Nat) (h : off ≠ o) : (s.setFld off hi lo v).reg o = s.reg o :=
  s.reg_setReg_ne _ h

end Sys2Proof.Machine
end

section
/-! SUPPORT. Chapter 02: writes judged field by field and the selector windows (O20). -/
namespace Sys2Proof.Machine

/-! ### A write judged field by field (R355 to R357) -/

/-- A held field writes nothing at once (R44). -/
theorem judgeFld_now_of_sh {locked : Bool} {v : W32} {j : Judged} {f : Fld} (h : f.sh = true) :
    (judgeFld locked v j f).now = j.now := by
  unfold judgeFld
  dsimp only
  rw [if_pos h]
  split
  · rfl
  · split <;> rfl

/-- A field of any value, not locked: written at once, or held with code SH. -/
theorem judgeFld_unlocked (v : W32) (j : Judged) (hi lo : Nat) (lk : Bool) :
    judgeFld false v j { hi, lo, lk } = { j with now := j.now ||| fieldMask hi lo } ∧
      judgeFld false v j { hi, lo, lk, sh := true } = { j with held := j.held ||| fieldMask hi lo } := by
  have hrange : ¬(bits v hi lo < 0 ∨ 0xFFFFFFFF < bits v hi lo) := by
    have := bits_lt_word v hi lo; omega
  have hlock : ¬(lk && false) = true := by rw [Bool.and_false]; exact Bool.false_ne_true
  unfold judgeFld
  dsimp only
  rw [if_neg hlock, if_neg hrange, if_neg hlock, if_neg hrange]
  exact ⟨rfl, rfl⟩

/-- A whole word held for the boundary (R44). -/
theorem State.judged_held_whole {s : State} {off : Nat} (v : W32) (hf : fieldsOf off = [rwLkSh 31 0])
    (hl : s.locked (off / 0x800) = false) : s.judged off v = { held := 0xFFFFFFFF } := by
  unfold State.judged judge
  rw [hf, hl, List.foldl_cons, List.foldl_nil]
  exact (judgeFld_unlocked v {} 31 0 true).2

/-- A whole word written at once. -/
theorem State.judged_now_whole {s : State} {off : Nat} (v : W32) (hf : fieldsOf off = [rwLk 31 0])
    (hl : s.locked (off / 0x800) = false) : s.judged off v = { now := 0xFFFFFFFF } := by
  unfold State.judged judge
  rw [hf, hl, List.foldl_cons, List.foldl_nil]
  exact (judgeFld_unlocked v {} 31 0 true).1

/-- PERIOD is the one field of CRSL_CONFIG written at once (R37). -/
theorem State.judged_period {s : State} (v : W32) (hl : s.locked 1 = false) : (s.judged 0x0800 v).now = fieldMask 1 0 := by
  have hjudge : s.judged 0x0800 v = judge false [rwLkSh 19 10 1, rwLkSh 9 9, rwLk 1 0] v := by
    unfold State.judged; rw [hl]; rfl
  rw [hjudge]
  unfold judge
  rw [List.foldl_cons, List.foldl_cons, List.foldl_cons, List.foldl_nil]
  refine (congrArg Judged.now (judgeFld_unlocked v _ 1 0 true).1).trans ?_
  dsimp only
  rw [judgeFld_now_of_sh rfl, judgeFld_now_of_sh rfl]
  rfl

/-! ### What a write leaves -/

@[simp] theorem State.shadowWrite_regs (s : State) (off sel : Nat) (m v : W32) : (s.shadowWrite off sel m v).regs = s.regs := by
  unfold State.shadowWrite; split <;> rfl

@[simp] theorem State.shadowWrite_flt (s : State) (off sel : Nat) (m v : W32) : (s.shadowWrite off sel m v).flt = s.flt := by
  unfold State.shadowWrite; split <;> rfl

theorem State.reg_of_regs {s t : State} (h : t.regs = s.regs) (off : Nat) : t.reg off = s.reg off := by
  unfold State.reg; rw [h]

theorem State.putFields_flt (s : State) (off : Nat) (j : Judged) (v : W32) : (s.putFields off j v).flt = s.flt := by
  unfold State.putFields
  dsimp only
  rw [State.shadowWrite_flt]
  split <;> split <;> rfl

/-- Fields held for the boundary leave every register as it is (R44). -/
theorem State.putFields_regs_of_now_zero (s : State) (off : Nat) {j : Judged} (v : W32) (h : j.now = 0) :
    (s.putFields off j v).regs = s.regs := by
  unfold State.putFields
  dsimp only
  rw [State.shadowWrite_regs, if_pos h]
  split <;> rfl

/-- Fields written at once stand in the register (R355). -/
theorem State.putFields_reg_self (s : State) (off : Nat) {j : Judged} (v : W32) (h : j.now ≠ 0) :
    (s.putFields off j v).reg off = mergeBits (s.reg off) j.now v := by
  unfold State.putFields
  dsimp only
  rw [State.reg_of_regs (State.shadowWrite_regs ..), if_neg h]
  refine (State.reg_setReg_self _ off _).trans ?_
  split <;> rfl

/-- A whole word with code SH is held with its selector entry, and that is all (R44). -/
theorem plainWrite_held_whole {s : State} {off : Nat} (v : W32) (hf : fieldsOf off = [rwLkSh 31 0])
    (hl : s.locked (off / 0x800) = false) : plainWrite off v s = s.shadowWrite off (s.selOf off) 0xFFFFFFFF v := by
  unfold plainWrite
  rw [State.judged_held_whole v hf hl, hf]
  rfl

theorem State.shadowWrite_whole (s : State) (off sel : Nat) (v : W32) :
    s.shadowWrite off sel 0xFFFFFFFF v =
      { s with shadow := putShadow s.shadow { off, sel, mask := 0xFFFFFFFF, val := v, due := s.dueNow } } := by
  unfold State.shadowWrite
  rw [if_neg (by decide), and_whole]

/-! ### One word written by a path -/

theorem writeWord_eq_regWrite (p : Path) {off : Nat} (v : W32) (s : State) (h : off ≠ 0x681C) : writeWord p off v s = regWrite p off v s :=
  if_neg h

/-- A register of the SYS to PRG blocks that is no status register, its configuration not frozen (R355, R474). -/
theorem writeWord_low (p : Path) {off : Nat} (v : W32) {s : State} (hoff : off < 0x3800)
    (hmap : off % 4 = 0 ∧ inBlock off = true ∧ statusReg off = false) (hf : s.cfgFrozen = false) :
    writeWord p off v s = writeLow off v s := by
  obtain ⟨halign, hblock, hstatus⟩ := hmap
  rw [writeWord_eq_regWrite p v s (by omega)]
  unfold regWrite
  rw [if_neg (by omega), if_neg (not_or.mpr ⟨not_not.mpr halign, ne_false_of_eq_true hblock⟩), hstatus, if_neg Bool.false_ne_true, hf,
    if_neg (by simp only [Bool.false_eq_true, false_and, not_false_eq_true]), if_pos hoff]

/-- A register of the NET to PWR blocks that is no status register and holds no configuration. -/
theorem writeWord_high (p : Path) {off : Nat} (v : W32) (s : State) (hoff : 0x6000 ≤ off ∧ off < 0xC000 ∧ off ≠ 0x681C)
    (hmap : off % 4 = 0 ∧ inBlock off = true ∧ statusReg off = false) (hc : isConfig off = false) :
    writeWord p off v s = writeHigh off v s := by
  obtain ⟨hlo, hhi, hqcmd⟩ := hoff
  obtain ⟨halign, hblock, hstatus⟩ := hmap
  rw [writeWord_eq_regWrite p v s hqcmd]
  unfold regWrite
  rw [if_neg (by omega), if_neg (not_or.mpr ⟨not_not.mpr halign, ne_false_of_eq_true hblock⟩), hstatus, if_neg Bool.false_ne_true, hc,
    if_neg (by simp only [Bool.false_eq_true, and_false, not_false_eq_true]), if_neg (by omega), if_neg (by omega)]

/-! ### Selector windows (R94, R129) -/

theorem pntMapDataWrite_held (s : State) (p : Path) (v : W32) (hup : s.up = true) (hf : s.cfgFrozen = false) (hl : s.locked 3 = false)
    (hr : mapInRange (s.fld 0x1828 31 28) (s.fld 0x1828 11 0) = true) :
    Reaches (exec (.pntMapDataWrite p v) s) fun t => t.pnt.maps = s.pnt.maps ∧
      t.shadow = putShadow s.shadow { off := 0x182C, sel := s.selOf 0x182C, mask := 0xFFFFFFFF, val := v, due := s.dueNow } := by
  obtain ⟨hp, hn⟩ := State.up_iff.mp hup
  have hwrite : writeWord p 0x182C v s.draw = s.draw.shadowWrite 0x182C (s.draw.selOf 0x182C) 0xFFFFFFFF v := by
    have hmap : mapWrite v s.draw = plainWrite 0x182C v s.draw := (if_neg (ne_true_of_eq_false hl)).trans (if_pos hr)
    rw [writeWord_low p v (s := s.draw) (by decide) (by decide) hf, ← plainWrite_held_whole v rfl hl]
    exact hmap
  rw [State.shadowWrite_whole] at hwrite
  refine live_reaches (writeWord p 0x182C v) s hp ?_ ?_ <;> rw [hwrite]
  · exact hn
  · rw [State.outside_pnt, State.outside_shadow, settle_pnt, settle_shadow]
    exact ⟨rfl, rfl⟩

theorem pntMapDataWrite_refused (s : State) (p : Path) (v : W32) (hup : s.up = true) (hf : s.cfgFrozen = false) (hl : s.locked 3 = false)
    (hr : mapInRange (s.fld 0x1828 31 28) (s.fld 0x1828 11 0) = false) :
    Reaches (exec (.pntMapDataWrite p v) s) fun t => t.sq 3 4 = true ∧ t.shadow = s.shadow := by
  obtain ⟨hp, hn⟩ := State.up_iff.mp hup
  have hwrite : writeWord p 0x182C v s.draw = s.draw.setSQ 3 4 := by
    have hmap : mapWrite v s.draw = s.draw.setSQ 3 4 := (if_neg (ne_true_of_eq_false hl)).trans (if_neg (ne_true_of_eq_false hr))
    rw [writeWord_low p v (s := s.draw) (by decide) (by decide) hf]
    exact hmap
  refine live_reaches (writeWord p 0x182C v) s hp ?_ ?_ <;> rw [hwrite]
  · exact hn
  · rw [State.outside_sq, State.outside_shadow, settle_shadow]
    exact ⟨settle_sq_mono _ _ (State.sq_setSQ_self _ 3 4), rfl⟩

theorem ctxWindow_onMap (w : Fin 32) : (0x2940 + 4 * w.val) % 4 = 0 ∧ inBlock (0x2940 + 4 * w.val) = true ∧
    statusReg (0x2940 + 4 * w.val) = false := by
  revert w; decide

/-- The context window's words lie among the LOOP registers and have no other behaviour (R129). -/
theorem writeLow_ctx (w : Fin 32) (v : W32) (s : State) : writeLow (0x2940 + 4 * w.val) v s = ctxWrite (0x2940 + 4 * w.val) v s := by
  have hfam : inFam (0x2940 + 4 * w.val) 0x2940 4 32 = true := by revert w; decide
  have hwater : highWater (0x2940 + 4 * w.val) = false := by revert w; decide
  unfold writeLow
  rw [if_neg (by omega), if_neg (by omega), hwater, if_neg Bool.false_ne_true, if_neg (by omega), if_neg (by omega), if_neg (by omega),
    if_neg (by omega), hfam, if_pos rfl]

/-- Words 5 to 23 of a context, written with the window's rights, are held whole (R129). -/
theorem ctxWrite_held (w : Fin 32) (v : W32) (s : State) (h5 : 5 ≤ w.val) (h23 : w.val ≤ 23) (ho : s.ctxOpen = true)
    (hu : s.selCtx.inUse = true) (hl : s.locked 5 = false) (hs : s.selOf (0x2940 + 4 * w.val) % 2 = 0) :
    ctxWrite (0x2940 + 4 * w.val) v s = s.shadowWrite (0x2940 + 4 * w.val) (s.selOf (0x2940 + 4 * w.val)) 0xFFFFFFFF v := by
  have hword : (0x2940 + 4 * w.val - 0x2940) / 4 = w.val := by omega
  have hmask : ctxMask w.val v = 0xFFFFFFFF := by
    unfold ctxMask; rw [if_neg (by omega), if_pos ⟨h5, h23⟩]
  have hwritable : ¬decide (w.val = 0 ∨ 5 ≤ w.val ∧ w.val ≤ 23) = false := by simp [h5, h23]
  unfold ctxWrite
  dsimp only
  rw [ho, hu, hl, hs, hword, if_neg (by decide), if_pos rfl, if_neg hwritable, if_neg Bool.false_ne_true, Nat.zero_mul, Nat.zero_add, hmask]

theorem loopCtxWrite_held (s : State) (p : Path) (v : W32) (hup : s.up = true) (hf : s.cfgFrozen = false) (w : Fin 32) (h5 : 5 ≤ w.val)
    (h23 : w.val ≤ 23) (ho : s.ctxOpen = true) (hu : s.selCtx.inUse = true) (hl : s.locked 5 = false)
    (hs : s.selOf (0x2940 + 4 * w.val) % 2 = 0) :
    Reaches (exec (.loopCtxWrite p w v) s) fun t => t.loop = s.loop ∧
      t.shadow = putShadow s.shadow { off := 0x2940 + 4 * w.val, sel := s.selOf (0x2940 + 4 * w.val),
                                      mask := 0xFFFFFFFF, val := v, due := s.dueNow } := by
  obtain ⟨hp, hn⟩ := State.up_iff.mp hup
  have hwrite : writeWord p (0x2940 + 4 * w.val) v s.draw =
      s.draw.shadowWrite (0x2940 + 4 * w.val) (s.draw.selOf (0x2940 + 4 * w.val)) 0xFFFFFFFF v := by
    rw [writeWord_low p v (s := s.draw) (by omega) (ctxWindow_onMap w) hf, writeLow_ctx]
    exact ctxWrite_held w v s.draw h5 h23 ho hu hl hs
  rw [State.shadowWrite_whole] at hwrite
  refine live_reaches (writeWord p (0x2940 + 4 * w.val) v) s hp ?_ ?_ <;> rw [hwrite]
  · exact hn
  · rw [State.outside_loop, State.outside_shadow, settle_loop, settle_shadow]
    exact ⟨rfl, rfl⟩

end Sys2Proof.Machine

open Sys2Proof.Machine

/-- Settles O20, a write a clause. -/
theorem windowWritesHeld : Obligations.WindowWritesHeld := fun s p v hup hf =>
  ⟨pntMapDataWrite_held s p v hup hf, pntMapDataWrite_refused s p v hup hf,
    fun w h5 h23 ho hu hl hs => loopCtxWrite_held s p v hup hf w h5 h23 ho hu hl hs⟩
end

section
/-! SUPPORT. Chapter 02: shadowed writes merged (O21). -/
namespace Sys2Proof.Machine

/-! ### Shadowed writes merged (R45) -/

theorem Shadow.same_iff {a b : Shadow} : a.same b = true ↔ a.off = b.off ∧ a.sel = b.sel ∧ a.due = b.due := by
  unfold Shadow.same; exact decide_eq_true_iff

/-- The first write to a register for a boundary stands behind those held before it. -/
theorem putShadow_of_none {l : List Shadow} {n : Shadow} (h : ∀ x ∈ l, x.same n = false) : putShadow l n = l ++ [n] := by
  have hnone : l.find? (fun x => x.same n) = none := List.find?_eq_none.mpr fun x hx => ne_true_of_eq_false (h x hx)
  unfold putShadow; rw [hnone]

/-- A later write to the same register and boundary takes the place of the earlier one, merged with it. -/
theorem putShadow_append_same {l : List Shadow} {a n : Shadow} (h : ∀ x ∈ l, x.same n = false) (ha : a.same n = true) :
    putShadow (l ++ [a]) n = l ++ [{ a with mask := a.mask ||| n.mask, val := mergeBits a.val n.mask n.val }] := by
  have hnone : l.find? (fun x => x.same n) = none := List.find?_eq_none.mpr fun x hx => ne_true_of_eq_false (h x hx)
  have hfind : (l ++ [a]).find? (fun x => x.same n) = some a := by
    rw [List.find?_append, hnone, Option.none_or]
    exact List.find?_cons_of_pos ha
  have hfilter : (l ++ [a]).filter (fun x => !x.same n) = l := by
    rw [List.filter_append, List.filter_eq_self.mpr fun x hx => by rw [h x hx]; rfl, List.filter_cons_of_neg (by rw [ha]; decide),
      List.filter_nil, List.append_nil]
  unfold putShadow
  rw [hfind]
  dsimp only
  rw [hfilter]

theorem State.shadowWrite_of_ne (s : State) (off sel : Nat) {m : W32} (v : W32) (h : m ≠ 0) :
    s.shadowWrite off sel m v = { s with shadow := putShadow s.shadow { off, sel, mask := m, val := v &&& m, due := s.dueNow } } :=
  if_neg h

/-- Two writes to one register before one boundary are held as one (R45). -/
theorem State.shadowWrite_shadowWrite (s : State) (off sel : Nat) {m1 m2 : W32} (v1 v2 : W32) (h1 : m1 ≠ 0) (h2 : m2 ≠ 0)
    (h : ∀ x ∈ s.shadow, ¬(x.off = off ∧ x.sel = sel ∧ x.due = s.dueNow)) :
    (s.shadowWrite off sel m1 v1).shadowWrite off sel m2 v2 = { s with shadow := s.shadow ++
      [{ off, sel, mask := m1 ||| m2, val := mergeBits (v1 &&& m1) m2 (v2 &&& m2), due := s.dueNow }] } := by
  have hother : ∀ (m v : W32), ∀ x ∈ s.shadow, x.same { off, sel, mask := m, val := v, due := s.dueNow } = false := fun m v x hx =>
    eq_false_of_ne_true fun e => h x hx (Shadow.same_iff.mp e)
  have hmerge := putShadow_append_same (hother m2 (v2 &&& m2)) (a := { off, sel, mask := m1, val := v1 &&& m1, due := s.dueNow })
    (Shadow.same_iff.mpr ⟨rfl, rfl, rfl⟩)
  rw [s.shadowWrite_of_ne off sel v1 h1, putShadow_of_none (hother _ _), State.shadowWrite_of_ne _ off sel v2 h2]
  exact congrArg (fun l => { s with shadow := l }) hmerge

/-- Each bit of two writes merged is the later one's where both write it (R45). -/
theorem getLsbD_merged (m1 v1 m2 v2 : W32) (i : Nat) : (mergeBits (v1 &&& m1) m2 (v2 &&& m2)).getLsbD i =
    if m2.getLsbD i then v2.getLsbD i else (m1.getLsbD i && v1.getLsbD i) := by
  rw [getLsbD_mergeBits, BitVec.getLsbD_and, BitVec.getLsbD_and, Bool.and_comm (v1.getLsbD i)]
  split
  next hm => rw [hm, Bool.and_true]
  · rfl

end Sys2Proof.Machine

open Sys2Proof.Machine

/-- Settles O21: the two writes are one entry, behind every entry held before. -/
theorem shadowMerge : Obligations.ShadowMerge := by
  intro s off sel m1 v1 m2 v2 h1 h2 h t
  have ht : t = _ := s.shadowWrite_shadowWrite off sel v1 v2 h1 h2 h
  rw [ht]
  refine ⟨rfl, _, List.mem_append_right _ (List.mem_singleton_self _), rfl, rfl, rfl, rfl, getLsbD_merged m1 v1 m2 v2, ?_,
    fun y hy => List.mem_append_left _ hy⟩
  intro y hy hoff hsel hdue
  obtain hold | hnew := List.mem_append.mp hy
  · exact absurd ⟨hoff, hsel, hdue⟩ (h y hold)
  · exact List.mem_singleton.mp hnew
end

section
/-! SUPPORT. Chapter 02: registers with behaviour of their own (O22). -/
namespace Sys2Proof.Machine

/-! ### Registers with behaviour of their own (R37, R57, R74, R356, R363) -/

/-- A write to CRSL_CONFIG whose PERIOD is judged: the register keeps its word but for PERIOD. -/
theorem periodWrite_taken (s : State) (v : W32) (hl : s.locked 1 = false) (hr : s.sys.run = .stopped) (ho : s.crsl.ovrDue = false) :
    (periodWrite v s).fld 0x0800 1 0 = bits v 1 0 ∧ (periodWrite v s).flt = s.flt := by
  have hnow := State.judged_period v hl
  have hne : fieldMask 1 0 ≠ 0 := by decide
  unfold periodWrite
  dsimp only
  rw [if_neg (by rw [hnow]; exact hne), if_pos (.inr ⟨hr, ho⟩), State.fld, State.putFields_reg_self _ _ _ (by rw [hnow]; exact hne),
    State.putFields_flt, State.putFields_flt]
  dsimp only
  rw [hnow]
  exact ⟨bits_mergeBits_self _ _ _ (by decide), rfl⟩

theorem periodWrite_refused (s : State) (v : W32) (hl : s.locked 1 = false)
    (h : s.running = true ∨ s.sys.run = .stopped ∧ s.crsl.ovrDue = true) :
    (periodWrite v s).fld 0x0800 1 0 = s.fld 0x0800 1 0 ∧ (periodWrite v s).sq 1 11 = true ∧ (periodWrite v s).flt = s.flt := by
  have hnow := State.judged_period v hl
  have hrefused : ¬(s.sys.run = .starting ∨ s.sys.run = .stopped ∧ s.crsl.ovrDue = false) := by
    obtain hrun | ⟨hstop, hovr⟩ := h
    · have hrun : s.sys.run = .running := of_decide_eq_true hrun
      rw [hrun]; rintro (h | ⟨h, -⟩) <;> exact RunState.noConfusion h
    · rw [hstop, hovr]; rintro (h | ⟨-, h⟩)
      · exact RunState.noConfusion h
      · exact Bool.noConfusion h
  unfold periodWrite
  dsimp only
  rw [if_neg (by rw [hnow]; decide), if_neg hrefused]
  refine ⟨?_, State.sq_setSQ_self _ 1 11, State.putFields_flt ..⟩
  exact congrArg (bits · 1 0) (State.reg_of_regs (State.putFields_regs_of_now_zero s 0x0800 v rfl) 0x0800)

theorem crslPeriodWrite_taken (s : State) (p : Path) (v : W32) (hup : s.up = true) (hf : s.cfgFrozen = false) (hl : s.locked 1 = false)
    (hr : s.sys.run = .stopped) (ho : s.crsl.ovrDue = false) :
    Reaches (exec (.crslPeriodWrite p v) s) fun t => t.fld 0x0800 1 0 = bits v 1 0 := by
  obtain ⟨hp, hn⟩ := State.up_iff.mp hup
  have hwrite : writeWord p 0x0800 v s.draw = periodWrite v s.draw := writeWord_low p v (s := s.draw) (by decide) (by decide) hf
  obtain ⟨hfld, hflt⟩ := periodWrite_taken s.draw v hl hr ho
  refine live_reaches (writeWord p 0x0800 v) s hp ?_ ?_ <;> rw [hwrite]
  · rw [hflt]; exact hn
  · rw [State.outside_fld, settle_fld]; exact hfld

theorem crslPeriodWrite_refused (s : State) (p : Path) (v : W32) (hup : s.up = true) (hf : s.cfgFrozen = false) (hl : s.locked 1 = false)
    (h : s.running = true ∨ s.sys.run = .stopped ∧ s.crsl.ovrDue = true) :
    Reaches (exec (.crslPeriodWrite p v) s) fun t => t.fld 0x0800 1 0 = s.fld 0x0800 1 0 ∧ t.sq 1 11 = true := by
  obtain ⟨hp, hn⟩ := State.up_iff.mp hup
  have hwrite : writeWord p 0x0800 v s.draw = periodWrite v s.draw := writeWord_low p v (s := s.draw) (by decide) (by decide) hf
  obtain ⟨hfld, hsq, hflt⟩ := periodWrite_refused s.draw v hl h
  refine live_reaches (writeWord p 0x0800 v) s hp ?_ ?_ <;> rw [hwrite]
  · rw [hflt]; exact hn
  · rw [State.outside_fld, settle_fld, State.outside_sq]
    exact ⟨hfld, settle_sq_mono _ _ hsq⟩

/-- A word of PNT_EPOCH takes the value written, and WRAPS returns to 0 (R74). -/
theorem epochWrite_whole (s : State) {off : Nat} (v : W32) (hf : fieldsOf off = [rwLk 31 0]) (hl : s.locked (off / 0x800) = false)
    (hoff : 0x1818 ≠ off) :
    (epochWrite off v s).reg off = v ∧ (epochWrite off v s).fld 0x1818 7 0 = 0 ∧ (epochWrite off v s).flt = s.flt := by
  have hne : (0xFFFFFFFF : W32) ≠ 0 := by decide
  unfold epochWrite
  dsimp only
  rw [State.judged_now_whole v hf hl]
  dsimp only
  rw [if_neg hne]
  refine ⟨?_, State.fld_setFld_self _ _ _ (by decide), State.putFields_flt ..⟩
  rw [State.reg_setFld_ne _ _ _ _ hoff, State.putFields_reg_self _ _ _ hne, mergeBits_whole]

theorem pntEpochWrite_reaches (s : State) (p : Path) (v : W32) (hup : s.up = true) (hf : s.cfgFrozen = false) (up : Bool)
    (hl : s.locked 3 = false) :
    Reaches (exec (.pntEpochWrite p up v) s) fun t => t.reg (if up then 0x1814 else 0x1810) = v ∧ t.fld 0x1818 7 0 = 0 := by
  obtain ⟨hp, hn⟩ := State.up_iff.mp hup
  have hwrite : writeWord p (if up then 0x1814 else 0x1810) v s.draw = epochWrite (if up then 0x1814 else 0x1810) v s.draw := by
    cases up <;> exact writeWord_low p v (s := s.draw) (by decide) (by decide) hf
  obtain ⟨hreg, hfld, hflt⟩ : (epochWrite (if up then 0x1814 else 0x1810) v s.draw).reg (if up then 0x1814 else 0x1810) = v ∧
      (epochWrite (if up then 0x1814 else 0x1810) v s.draw).fld 0x1818 7 0 = 0 ∧
      (epochWrite (if up then 0x1814 else 0x1810) v s.draw).flt = s.flt := by
    cases up <;> exact epochWrite_whole s.draw v rfl hl (by decide)
  refine live_reaches (writeWord p (if up then 0x1814 else 0x1810) v) s hp ?_ ?_ <;> rw [hwrite]
  · rw [hflt]; exact hn
  · rw [State.outside_reg, State.outside_fld, settle_reg, settle_fld]; exact ⟨hreg, hfld⟩

/-- The high-water fields of CRSL_PHASE_HWp are among those a write clears (R57). -/
theorem phaseHighWater_onMap {k : Nat} (h : k < 5) : (0x0820 + 4 * k) % 4 = 0 ∧ inBlock (0x0820 + 4 * k) = true ∧
    statusReg (0x0820 + 4 * k) = false ∧ highWater (0x0820 + 4 * k) = true ∧ inFam (0x0820 + 4 * k) 0x0820 4 5 = true := by
  revert k; decide

theorem highWaterClear_reaches (s : State) (p : Path) (v : W32) (hup : s.up = true) (hf : s.cfgFrozen = false) {k : Nat} (hk : k < 5) :
    Reaches (exec (.highWaterClear p (0x0820 + 4 * k) v) s) fun t => t.fld (0x0820 + 4 * k) 31 16 = 0 := by
  obtain ⟨hp, hn⟩ := State.up_iff.mp hup
  obtain ⟨halign, hblock, hstatus, hwater, hfam⟩ := phaseHighWater_onMap hk
  have hlow : writeLow (0x0820 + 4 * k) v s.draw = s.draw.setFld (0x0820 + 4 * k) 31 16 0 := by
    unfold writeLow highWaterWrite
    rw [if_neg (by omega), if_neg (by omega), if_pos hwater, if_pos hfam]
  have hwrite : whenever (highWater (0x0820 + 4 * k)) (writeWord p (0x0820 + 4 * k) v) s.draw =
      s.draw.setFld (0x0820 + 4 * k) 31 16 0 := by
    rw [← hlow, ← writeWord_low p v (s := s.draw) (by omega) ⟨halign, hblock, hstatus⟩ hf]
    exact if_pos hwater
  refine live_reaches (fun s => whenever (highWater (0x0820 + 4 * k)) (writeWord p (0x0820 + 4 * k) v) s) s hp ?_ ?_ <;> rw [hwrite]
  · exact hn
  · rw [State.outside_fld, settle_fld]
    exact State.fld_setFld_self _ _ _ (by decide)

theorem hostLockWrite_reaches (s : State) (p : Path) (v : W32) (hup : s.up = true) :
    Reaches (exec (.hostLockWrite p v) s) fun t => t.reg 0x6808 = s.reg 0x6808 ||| (v &&& fieldMask 21 0) := by
  obtain ⟨hp, hn⟩ := State.up_iff.mp hup
  have hwrite : writeWord p 0x6808 v s.draw = lockWrite v s.draw := writeWord_high p v s.draw (by decide) (by decide) (by decide)
  refine live_reaches (writeWord p 0x6808 v) s hp ?_ ?_ <;> rw [hwrite]
  · exact hn
  · rw [State.outside_reg, settle_reg]
    exact State.reg_setReg_self _ _ _

/-- A LOCK bit at 1 stays 1 (R356). -/
theorem hostLockWrite_keeps_lock (s : State) (p : Path) (v : W32) (b : Nat) (hup : s.up = true) (hb : s.locked b = true) :
    Reaches (exec (.hostLockWrite p v) s) fun t => t.locked b = true := by
  obtain ⟨t, ht, hreg⟩ := hostLockWrite_reaches s p v hup
  have hlock : t.locked b = (s.reg 0x6808 ||| (v &&& fieldMask 21 0)).getLsbD b := congrArg (BitVec.getLsbD · b) hreg
  refine ⟨t, ht, hlock.trans ?_⟩
  rw [BitVec.getLsbD_or, show (s.reg 0x6808).getLsbD b = true from hb, Bool.true_or]

theorem State.addShutter_mask (s : State) (m : W32) :
    (s.addShutter m).hostp.shutMask = s.hostp.shutMask ||| m.setWidth 22 ∧ (s.addShutter m).flt = s.flt := by
  have hdue : s.dueShutter.hostp.shutMask = s.hostp.shutMask ∧ s.dueShutter.flt = s.flt := by
    unfold State.dueShutter; split <;> exact ⟨rfl, rfl⟩
  unfold State.addShutter
  dsimp only
  split
  next hzero => exact ⟨by rw [hzero]; exact (BitVec.or_zero ..).symm, rfl⟩
  · exact ⟨congrArg (· ||| m.setWidth 22) hdue.1, hdue.2⟩

theorem hostShutterWrite_reaches (s : State) (p : Path) (v : W32) (hup : s.up = true) :
    Reaches (exec (.hostShutterWrite p v) s) fun t => t.hostp.shutMask = s.hostp.shutMask ||| v.setWidth 22 := by
  obtain ⟨hp, hn⟩ := State.up_iff.mp hup
  have hwrite : writeWord p 0x6820 v s.draw = s.draw.addShutter v := writeWord_high p v s.draw (by decide) (by decide) (by decide)
  obtain ⟨hmask, hflt⟩ := s.draw.addShutter_mask v
  refine live_reaches (writeWord p 0x6820 v) s hp ?_ ?_ <;> rw [hwrite]
  · rw [hflt]; exact hn
  · rw [State.outside_hostp, settle_hostp_shutMask]; exact hmask

end Sys2Proof.Machine

open Sys2Proof.Machine

/-- Settles O22, a write a clause. -/
theorem ownRegisters : Obligations.OwnRegisters :=
  ⟨fun s p v hup hf => ⟨crslPeriodWrite_taken s p v hup hf, crslPeriodWrite_refused s p v hup hf,
      pntEpochWrite_reaches s p v hup hf, fun _ => highWaterClear_reaches s p v hup hf, hostLockWrite_reaches s p v hup,
      hostShutterWrite_reaches s p v hup⟩,
    hostLockWrite_keeps_lock⟩
end

section
/-! SUPPORT. Chapter 02: reads of one word (O18). -/
namespace Sys2Proof.Machine

/-! ### Reads of one word (R47, R223, R360) -/

/-- A command that leaves the domain-health fields sets no SQ field at its end (R34). -/
theorem settle_statOf_of_health {s t : State} (h : t.health = s.health) (b : Nat) : (settle s t).statOf b = t.statOf b := by
  have hnote : noteDomains s t = t := by
    unfold noteDomains
    rw [h, List.filter_eq_nil_iff.mpr]
    · rfl
    · intro e he
      have hsame : e.1 = e.2 := by
        rw [List.zip_eq_zipWith, List.zipWith_self] at he
        obtain ⟨x, -, rfl⟩ := List.mem_map.mp he
        rfl
      rw [hsame, bne_self_eq_false]; exact Bool.false_ne_true
  obtain ⟨c, hdrive⟩ := driveIrq_same (noteDomains s t)
  rw [settle, hdrive, hnote]
  rfl

theorem readWord_eq {p : Path} {off : Nat} {s t : State} {w : W32} (h : regRead p off s = (t, w)) : readWord p off s = t.setDout [w] := by
  unfold readWord; rw [h]

theorem regRead_low (p : Path) {off : Nat} (s : State) (h : off ∈ [0x0808, 0x300C, 0x7810, 0x8038, 0x980C]) :
    regRead p off s = lowLatch off s := by
  have hplace : ∀ o ∈ [0x0808, 0x300C, 0x7810, 0x8038, 0x980C], o < 0xC000 ∧ statusReg o = false ∧ revLow o = true := by decide
  obtain ⟨hwin, hstatus, hlow⟩ := hplace off h
  unfold regRead
  rw [if_neg (Nat.not_le.mpr hwin), if_neg (ne_true_of_eq_false hstatus), if_pos hlow]

theorem lowWordReadLatch_reaches (s : State) (p : Path) {off : Nat} (hup : s.up = true)
    (h : off ∈ [0x0808, 0x300C, 0x7810, 0x8038, 0x980C]) :
    Reaches (exec (.lowWordReadLatch p off) s) fun t => t.hostp.dout = [s.draw.view off] ∧
      t.hostp.hiLatch = sput s.hostp.hiLatch off (s.draw.view (off + 4), s.instant) := by
  obtain ⟨hp, hn⟩ := State.up_iff.mp hup
  have hread : whenever (revLow off) (readWord p off) s.draw = _ :=
    (if_pos (decide_eq_true h)).trans (readWord_eq (regRead_low p s.draw h))
  refine live_reaches (fun s => whenever (revLow off) (readWord p off) s) s hp ?_ ?_ <;> rw [hread]
  · exact hn
  · rw [State.outside_hostp, settle_hostp_dout, settle_hostp_hiLatch]
    exact ⟨rfl, rfl⟩

/-- The energy registers lie behind the mirror's status register, apart from the latched pairs of R47 (R223). -/
theorem regRead_prsmLow (p : Path) {off : Nat} (s : State) (h : prsmLow off = true) : regRead p off s = prsmLatchLow off s := by
  obtain ⟨hlo, hhi, -⟩ : 0x3900 ≤ off ∧ off < 0x3D00 ∧ (off - 0x3900) % 8 = 0 := of_decide_eq_true h
  have hstatus : statusReg off = false := by
    have hblock : off / 0x800 = 7 := by omega
    unfold statusReg
    rw [hblock, show decide (off = statusOff 7) = false from decide_eq_false (by rw [show statusOff 7 = 0x3800 from rfl]; omega),
      Bool.and_false]
  have hrev : ∀ o, 0x38FC ≤ o → o < 0x3D00 → revLow o = false := fun o h1 h2 => by
    unfold revLow; rw [decide_eq_false_iff_not]; simp only [List.mem_cons, List.not_mem_nil, or_false]; omega
  unfold regRead
  rw [if_neg (by omega), if_neg (ne_true_of_eq_false hstatus), if_neg (ne_true_of_eq_false (hrev off (by omega) hhi)),
    if_neg (fun e => ne_true_of_eq_false (hrev (off - 4) (by omega) (by omega)) e.2), if_pos h]

theorem prsmLowWordRead_reaches (s : State) (p : Path) {off : Nat} (hup : s.up = true) (h : prsmLow off = true) :
    Reaches (exec (.prsmLowWordRead p off) s) fun t => t.hostp.dout = [s.draw.view off] ∧
      t.hostp.prsmLatch = some (off, s.draw.view (off + 4)) := by
  obtain ⟨hp, hn⟩ := State.up_iff.mp hup
  have hread : whenever (prsmLow off) (readWord p off) s.draw = _ := (if_pos h).trans (readWord_eq (regRead_prsmLow p s.draw h))
  refine live_reaches (fun s => whenever (prsmLow off) (readWord p off) s) s hp ?_ ?_ <;> rw [hread]
  · exact hn
  · rw [State.outside_hostp, settle_hostp_dout, settle_hostp_prsmLatch]
    exact ⟨rfl, rfl⟩

/-- The status register of a block with SQ fields lies where its read finds it (R360). -/
theorem statusOff_place {blk : Nat} (h : blk < 22) (h4 : blk ≠ 4) (h20 : blk ≠ 20) : statusOff blk < 0xC000 ∧
    statusReg (statusOff blk) = true ∧ statusOff blk / 0x800 = blk ∧ (statusOff blk = 0x3800 → blk = 7) := by
  revert blk; decide

theorem regRead_status (p : Path) {blk : Nat} (s : State) (h : blk < 22) (h4 : blk ≠ 4) (h20 : blk ≠ 20)
    (h7 : blk = 7 → s.isMr = true) : regRead p (statusOff blk) s = (s.latchSeq p blk, s.view (statusOff blk)) := by
  obtain ⟨hwin, hstatus, hblk, hprsm⟩ := statusOff_place h h4 h20
  have hmr : ¬(statusOff blk = 0x3800 ∧ s.isMr = false) := fun ⟨e, hf⟩ => ne_true_of_eq_false hf (h7 (hprsm e))
  unfold regRead
  rw [if_neg (Nat.not_le.mpr hwin), if_pos hstatus, if_neg hmr, hblk]

theorem State.pathOf_setPath_self (s : State) (p : Path) (r : PathRec) : (s.setPath p r).pathOf p = r := sget_sset_self _ _ _ _

/-- A read of a status register loads its path's latch with the full sequence (R360). -/
theorem State.latchSeq_latch (s : State) (p : Path) (blk : Nat) :
    sget none ((s.latchSeq p blk).pathOf p).seqLatch blk = some (s.statOf blk).seq := by
  unfold State.latchSeq
  dsimp only
  rw [State.pathOf_setPath_self]
  exact sget_sset_self none (s.pathOf p).seqLatch blk (some (s.statOf blk).seq)

theorem settle_pathOf (s t : State) (p : Path) : (settle s t).pathOf p = t.pathOf p := by
  unfold State.pathOf; rw [settle_hostp_paths]

theorem statusRegisterRead_reaches (s : State) (p : Path) {blk : Nat} (hup : s.up = true) (h : blk < 22) (h4 : blk ≠ 4) (h20 : blk ≠ 20)
    (h7 : blk = 7 → s.isMr = true) :
    Reaches (exec (.statusRegisterRead p (statusOff blk)) s) fun t =>
      t.hostp.dout = [s.draw.view (statusOff blk)] ∧ sget none (t.pathOf p).seqLatch blk = some (s.statOf blk).seq ∧
        t.statOf blk = s.statOf blk := by
  obtain ⟨hp, hn⟩ := State.up_iff.mp hup
  obtain ⟨-, hstatus, -, -⟩ := statusOff_place h h4 h20
  have hread : whenever (statusReg (statusOff blk)) (readWord p (statusOff blk)) s.draw =
      (s.draw.latchSeq p blk).setDout [s.draw.view (statusOff blk)] :=
    (if_pos hstatus).trans (readWord_eq (regRead_status p s.draw h h4 h20 h7))
  refine live_reaches (fun s => whenever (statusReg (statusOff blk)) (readWord p (statusOff blk)) s) s hp ?_ ?_ <;> rw [hread]
  · exact hn
  · refine ⟨?_, ?_, ?_⟩
    · rw [State.outside_hostp, settle_hostp_dout]; rfl
    · exact (congrArg (fun r : PathRec => sget none r.seqLatch blk) (settle_pathOf s _ p)).trans (s.draw.latchSeq_latch p blk)
    · have hhealth : ((s.draw.latchSeq p blk).setDout [s.draw.view (statusOff blk)]).health = s.health := rfl
      rw [State.outside_statOf, settle_statOf_of_health hhealth]; rfl

/-- The half of the record at READ that a path's next read of PRSM_RING_DATA returns (R223). -/
theorem regRead_ring (p : Path) (s : State) (hm : s.isMr = true) (hl : s.prsm.seenLog = true) (hpar : s.parityHeld 7 = false) :
    ∃ r, regRead p 0x38C8 s = (s.setPath p r,
      (let w := ((sget [] s.prsm.ring (s.prsm.ringRead % 4096)).getD ((s.pathOf p).half / 2) 0).toNat
        if (s.pathOf p).half % 2 = 0 then lo32 w else hi32 w)) := by
  have hring : regRead p 0x38C8 s = ringDataRead p s := rfl
  have hserved : ¬(s.isMr = false ∨ s.prsm.seenLog = false ∨ s.parityHeld 7 = true) := by
    rw [hm, hl, hpar]; decide
  rw [hring]
  unfold ringDataRead
  rw [if_neg hserved]
  exact ⟨_, rfl⟩

theorem prsmRingDataRead_reaches (s : State) (p : Path) (hup : s.up = true) (hm : s.isMr = true) (hl : s.prsm.seenLog = true)
    (hpar : s.parityHeld 7 = false) :
    Reaches (exec (.prsmRingDataRead p) s) fun t => t.prsm.ringRead = s.prsm.ringRead ∧
      t.hostp.dout = [(let w := ((sget [] s.prsm.ring (s.prsm.ringRead % 4096)).getD ((s.pathOf p).half / 2) 0).toNat
        if (s.pathOf p).half % 2 = 0 then lo32 w else hi32 w)] := by
  obtain ⟨hp, hn⟩ := State.up_iff.mp hup
  obtain ⟨r, hread⟩ := regRead_ring p s.draw hm hl hpar
  have hread := readWord_eq hread
  refine live_reaches (readWord p 0x38C8) s hp ?_ ?_ <;> rw [hread]
  · exact hn
  · rw [State.outside_prsm, State.outside_hostp, settle_prsm, settle_hostp_dout]
    exact ⟨rfl, rfl⟩

end Sys2Proof.Machine

open Sys2Proof.Machine

/-- Settles O18, a read a clause. -/
theorem readsLatch : Obligations.ReadsLatch := fun s p _ hup =>
  ⟨lowWordReadLatch_reaches s p hup, prsmLowWordRead_reaches s p hup,
    fun _ => statusRegisterRead_reaches s p hup, prsmRingDataRead_reaches s p hup⟩
end

section
/-! SUPPORT. Chapter 02: a start that reaches the rescue monitor twice (O8). -/
namespace Sys2Proof.Machine

/-! ### A warm start asked for in rescue, with Kst lost (R443, R486) -/

/-- A state in rescue with a warm start asked for and a lost Kst: the value its check is compared with is opaque but has 32 bytes, so that a
recorded check of none cannot agree (R443). -/
def rescued : State :=
  { State.reset with
    sys := { State.reset.sys with startReq := some 3, rescue := true }
    key := { State.reset.key with check := some [] } }

/-- Kst's check value has 32 bytes: a recorded value of another length fails the comparison (R443). -/
theorem State.rootCheck_eq : State.rootCheck = fun s =>
    if s.keysShut then s else match s.key.check with
      | none => s.recordCheck
      | some c => if c.length = 32 ∧ c = s.kstTag then s else s.loseRoot := by
  funext s
  unfold State.rootCheck
  split
  · rfl
  · cases s.key.check with
    | none => rfl
    | some c => exact if_congr ⟨fun h => ⟨h ▸ hkdf_length _ _ _, h⟩, And.right⟩ rfl rfl

/-- The lost root and the rescue monitor are each CRITICAL: control stops and a warm start is asked for (R15, R443). -/
theorem rescued_warmStart_nest : (warmStartRow 3 rescued.draw).flt.nest = true := by
  unfold warmStartRow warmStart State.keyStart
  rw [State.rootCheck_eq]
  decide +kernel

theorem State.afterNest_startReq {s : State} (h : s.flt.nest = true) : s.afterNest.sys.startReq = some 4 := by
  unfold State.afterNest
  exact congrArg (fun t : State => t.sys.startReq) (if_pos h)
end Sys2Proof.Machine
open Sys2Proof.Machine

/-- Refutes O8: nothing says that the start nests no CRITICAL. On `rescued` a warm start finds Kst lost, a CRITICAL (R443), and comes up
in the rescue monitor, another one (R486): the second asks for a warm start of its own (R15), so that the request of the first is gone and
a new one stands. -/
theorem not_startsTakeEffect : ¬ Obligations.StartsTakeEffect := by
  intro h
  obtain ⟨hwarm, -, -⟩ := h.2 rescued (by decide +kernel)
  obtain ⟨t, ht, -, -, -, hreq⟩ := hwarm 0 (by decide +kernel)
  have hstep : exec (.warmStart 0) rescued = .next ((settle rescued (warmStartRow 3 rescued.draw).afterNest).outside rescued rescued.rev) :=
    live_next (warmStartRow 3) rescued rfl
  cases hstep.symm.trans ht
  rw [State.outside_sys, settle_sys, State.afterNest_startReq rescued_warmStart_nest] at hreq
  cases hreq
end

section
/-! SUPPORT. Chapter 02: counters a logged event leaves, and the checkpoint's writes (O12, O13). -/
namespace Sys2Proof.Machine

/-! ### Counters that logging an event leaves (R492) -/

/-- A logged event advances no counter below those of the fault unit. -/
theorem State.logEvent_total_low (s : State) (cls : EvClass) (src code : Nat) (booth : Byte) (data : W64) {o : Nat} (h : o < 0x9840) :
    (s.logEvent cls src code booth data).total o = s.total o := by
  refine s.logEvent_induction cls src code booth data (P := fun t => t.total o = s.total o) (s.total_count_ne 1 (by omega))
    (fun t e k => ?_) (fun t fs k => ?_) (fun t e k => ?_)
  · rw [t.captureFirst_total, k]
  · rw [State.total_count_ne _ 1 (by omega)]; exact k
  · rw [t.bufferEntry_total e (by omega), k]

theorem State.faultArrives_total_low (s : State) (ev : FaultEv) {o : Nat} (h : o < 0x9840) : (s.faultArrives ev).total o = s.total o := by
  unfold State.faultArrives
  split
  · rfl
  · split
    · rfl
    · rw [State.total_count_ne _ 1 (by omega)]
      exact State.logEvent_total_low _ _ _ _ _ _ h

theorem State.criticalArrives_total_low (s : State) (ev : FaultEv) {o : Nat} (h : o < 0x9840) :
    (s.criticalArrives ev).total o = s.total o := by
  unfold State.criticalArrives
  split
  · rfl
  · exact State.logEvent_total_low _ _ _ _ _ _ h

theorem State.raise_total_low (s : State) (cls : EvClass) (src code : Nat) (booth : Byte) (data : Nat) {o : Nat} (h : o < 0x9840) :
    (s.raise cls src code booth data).total o = s.total o := by
  have hlog := s.logEvent_total_low cls src code booth (BitVec.ofNat 64 data) h
  cases cls with
  | note => exact hlog
  | warn => exact hlog
  | fault => exact (State.faultArrives_total_low _ _ h).trans hlog
  | critical => exact (State.criticalArrives_total_low _ _ h).trans hlog

theorem State.report_total_low (s : State) (cls : EvClass) (blk bit : Nat) (booth : Byte) (data : Nat) {o : Nat} (h : o < 0x9840) :
    (s.report cls blk bit booth data).total o = s.total o := (s.setSQ blk bit).raise_total_low cls blk bit booth data h

theorem State.reportBare_total_low (s : State) (cls : EvClass) (blk bit : Nat) (booth : Byte) {o : Nat} (h : o < 0x9840) :
    (s.reportBare cls blk bit booth).total o = s.total o := s.report_total_low cls blk bit booth _ h

/-- Only a CRITICAL reported can nest (R495). -/
theorem reportBare_nest (s : State) {cls : EvClass} (blk bit : Nat) (booth : Byte) (h : cls ≠ .critical) :
    (s.reportBare cls blk bit booth).flt.nest = s.flt.nest := raise_nest (s.setSQ blk bit) cls blk bit booth _ h

/-- A bit read as a field of its own. -/
theorem State.flag_of_fld {s : State} {off i : Nat} (h : s.fld off i i = 1) : s.flag off i = true := by
  have hbit := testBit_bits (s.reg off) i i 0
  rw [show bits (s.reg off) i i = 1 from h, Nat.add_sub_cancel_left, Nat.add_zero] at hbit
  exact (Bool.true_and _).symm.trans hbit.symm

/-! ### The write of a checkpoint (R59, R149, R154) -/

theorem ckptLate_reaches (s : State) (hup : s.up = true) (hw : s.prg.ckpt.writing.isSome = true) (hf : s.prg.ckpt.writingFinal = false)
    (hb : s.prg.ckpt.begun + 100 ≤ s.rev) :
    Reaches (exec .ckptLate s) fun t => t.sq 1 8 = true ∧ t.total 0x08B8 = s.total 0x08B8 + 1 ∧ t.prg.ckpt.again = true := by
  obtain ⟨hp, hn⟩ := State.up_iff.mp hup
  let u : State := { s.draw with prg := { s.prg with ckpt := { s.prg.ckpt with again := true } } }
  have hlate : s.draw.ckptLate = (u.reportBare .warn 1 8 0xFF).count 0x08B8 1 := if_pos ⟨hw, hf, hb⟩
  obtain ⟨f, c, st, hsame⟩ := (reportBare_logOnly u .warn 1 8 0xFF).same
  refine live_reaches (fun s => s.ckptLate) s hp ?_ ?_ <;> rw [hlate]
  · exact (reportBare_nest u 1 8 0xFF (by decide)).trans hn
  · rw [State.outside_sq, State.outside_total, State.outside_prg, settle_prg, settle_total _ _ (by decide), State.total_count,
      State.reportBare_total_low _ _ _ _ _ (by decide)]
    exact ⟨settle_sq_mono _ _ (reportBare_sq u .warn 1 8 0xFF), rfl, by rw [State.count_prg, hsame]⟩

theorem State.nextWaiting_of_none {s : State} (h : s.prg.ckpt.waiting = none) : s.nextWaiting = s := by
  unfold State.nextWaiting; dsimp only; rw [h]

/-- A snapshot that waited is written next, numbered after the newest complete checkpoint (R154). -/
theorem State.nextWaiting_of_some {s : State} {w : Retentive} (h : s.prg.ckpt.waiting = some w) (hw : s.prg.ckpt.writing = none) :
    s.nextWaiting = { s with prg := { s.prg with ckpt := { s.prg.ckpt with
      writing := some ({ w with seq := s.prg.ckpt.newestSeq + 1 } : Retentive).sealed, waiting := none, begun := s.rev } } } := by
  unfold State.nextWaiting; dsimp only; rw [h, hw]; rfl

/-- Beginning the write of a snapshot that waited alters the write in progress alone. -/
theorem State.nextWaiting_same (s : State) : ∃ w v b, s.nextWaiting =
    { s with prg := { s.prg with ckpt := { s.prg.ckpt with writing := w, waiting := v, begun := b } } } := by
  unfold State.nextWaiting
  dsimp only
  split
  · split
    · exact ⟨_, _, _, rfl⟩
    · exact ⟨_, _, _, rfl⟩
  · exact ⟨_, _, _, rfl⟩

/-- The checkpoint record once the write of `r` to a bank has read back correct (R149). -/
def Ckpt.kept (c : Ckpt) (bank : Nat) (r : Retentive) : Ckpt :=
  { c with banks := lmod c.banks bank fun _ => some r, newest := some bank, final := none, writing := none }

/-- A commit record that read back correct is the newest complete checkpoint (R147, R149). -/
theorem Ckpt.kept_newestRec (c : Ckpt) {bank : Nat} {r : Retentive} (hb : bank < c.banks.length) (hr : r.crc = r.crcOf) :
    (c.kept bank r).newestRec = some r := by
  have hbank : (lmod c.banks bank fun _ => some r).getD bank none = some r := lmod_getD_self _ _ _ _ hb
  show usable ((lmod c.banks bank fun _ => some r).getD bank none) = some r
  unfold usable
  rw [hbank, Option.filter_some, hr, BEq.rfl, if_pos rfl]

/-- A good commit record: its bank, one of two, holds the newest, and DURABLE and the registers are brought up to date (R149, R153). -/
theorem State.checkpointDone_good {s : State} {r : Retentive} (hw : s.prg.ckpt.writing = some r) (hf : s.prg.ckpt.writingFinal = false) :
    ∃ b d g, s.checkpointDone true =
      ((({ s with prg := { s.prg with ckpt := s.prg.ckpt.kept b r, durable := d }, regs := g } : State).count 0x309C 1).count
        0x08B4 1).nextWaiting ∧ b < 2 := by
  unfold State.checkpointDone
  extract_lets c bank src bad
  rw [show c.writing = some r from hw]
  dsimp -zeta only
  extract_lets kept shown swb booth u
  have hshown : ∃ g, u = { kept with regs := g } := by
    dsimp -zetaDelta only [u]
    split
    · exact ⟨(shown.setFld 0x3008 31 30 3).regs, rfl⟩
    · exact ⟨shown.regs, rfl⟩
  obtain ⟨g, hg⟩ := hshown
  rw [if_neg (ne_true_of_eq_false hf), if_pos rfl, hg]
  refine ⟨bank, kept.prg.durable, g, rfl, ?_⟩
  dsimp only [bank]
  split <;> decide

/-- A commit record that does not read back correct leaves its bank without a checkpoint (R149). -/
theorem State.checkpointDone_bad {s : State} {r : Retentive} (hw : s.prg.ckpt.writing = some r) (hf : s.prg.ckpt.writingFinal = false) :
    ∃ l, s.checkpointDone false = ((({ s with prg := { s.prg with ckpt := { s.prg.ckpt with banks := l, writing := none } } } :
      State).setSQ 6 1).count 0x30AC 1).nextWaiting := by
  unfold State.checkpointDone
  dsimp only
  rw [hw, hf]
  exact ⟨_, rfl⟩

theorem checkpointComplete_next (s : State) {r w : Retentive} (hup : s.up = true) (hw : s.prg.ckpt.writing = some r)
    (hb : s.prg.ckpt.banks.length = 2) (hr : r.crc = r.crcOf) (hf : s.prg.ckpt.writingFinal = false) (hv : s.prg.ckpt.waiting = some w) :
    Reaches (exec (.checkpointComplete true) s) fun t => t.prg.ckpt.newestRec = some r ∧ t.prg.ckpt.waiting = none ∧
      t.prg.ckpt.writing = some ({ w with seq := r.seq + 1 } : Retentive).sealed := by
  obtain ⟨hp, hn⟩ := State.up_iff.mp hup
  obtain ⟨b, d, g, hdone, hbank⟩ := State.checkpointDone_good (s := s.draw) hw hf
  have hkept := s.prg.ckpt.kept_newestRec (hb ▸ hbank) hr
  have hseq : (s.prg.ckpt.kept b r).newestSeq = r.seq := by unfold Ckpt.newestSeq; rw [hkept]; rfl
  have hdone := hdone.trans (State.nextWaiting_of_some (w := w) hv rfl)
  refine live_reaches (fun s => s.checkpointDone true) s hp ?_ ?_ <;> rw [hdone]
  · exact hn
  · rw [State.outside_prg, settle_prg]
    exact ⟨hkept, rfl, congrArg (fun n => some ({ w with seq := n + 1 } : Retentive).sealed) hseq⟩

theorem checkpointComplete_last (s : State) {r : Retentive} (hup : s.up = true) (hw : s.prg.ckpt.writing = some r)
    (hb : s.prg.ckpt.banks.length = 2) (hr : r.crc = r.crcOf) (hf : s.prg.ckpt.writingFinal = false) (hv : s.prg.ckpt.waiting = none) :
    Reaches (exec (.checkpointComplete true) s) fun t => t.prg.ckpt.writing = none ∧ t.prg.ckpt.newestRec = some r ∧
      t.prg.ckpt.final = none ∧ t.total 0x309C = s.total 0x309C + 1 := by
  obtain ⟨hp, hn⟩ := State.up_iff.mp hup
  obtain ⟨b, d, g, hdone, hbank⟩ := State.checkpointDone_good (s := s.draw) hw hf
  have hdone := hdone.trans (State.nextWaiting_of_none hv)
  refine live_reaches (fun s => s.checkpointDone true) s hp ?_ ?_ <;> rw [hdone]
  · exact hn
  · rw [State.outside_prg, State.outside_total, settle_prg, settle_total _ _ (by decide), State.total_count_ne _ 1 (by decide),
      State.total_count]
    exact ⟨rfl, s.prg.ckpt.kept_newestRec (hb ▸ hbank) hr, rfl, rfl⟩

theorem checkpointComplete_unused (s : State) {r : Retentive} (hup : s.up = true) (hw : s.prg.ckpt.writing = some r)
    (hf : s.prg.ckpt.writingFinal = false) (hv : s.prg.ckpt.waiting = none) :
    Reaches (exec (.checkpointComplete false) s) fun t => t.prg.ckpt.writing = none ∧ t.prg.ckpt.newest = s.prg.ckpt.newest ∧
      t.sq 6 1 = true ∧ t.total 0x30AC = s.total 0x30AC + 1 := by
  obtain ⟨hp, hn⟩ := State.up_iff.mp hup
  obtain ⟨l, hdone⟩ := State.checkpointDone_bad (s := s.draw) hw hf
  have hdone := hdone.trans (State.nextWaiting_of_none hv)
  refine live_reaches (fun s => s.checkpointDone false) s hp ?_ ?_ <;> rw [hdone]
  · exact hn
  · rw [State.outside_prg, State.outside_sq, State.outside_total, settle_prg, settle_total _ _ (by decide), State.total_count]
    exact ⟨rfl, rfl, settle_sq_mono _ _ (State.sq_setSQ_self _ 6 1), rfl⟩

/-! ### The final save (R150) -/

theorem finalSaveComplete_held (s : State) {r : Retentive} (hup : s.up = true) (hw : s.prg.ckpt.writing = some r)
    (hf : s.prg.ckpt.writingFinal = true) :
    Reaches (exec (.finalSaveComplete true) s) fun t => t.prg.ckpt.final.map (·.2) = some r ∧ t.flag 0x3014 13 = true ∧
      t.total 0x30A4 = s.total 0x30A4 + 1 ∧ t.total 0x30A8 = s.total 0x30A8 + r.pages := by
  obtain ⟨hp, hn⟩ := State.up_iff.mp hup
  let u : State := { s.draw with prg := { s.prg with ckpt := { s.prg.ckpt with
    final := some (s.prg.ckpt.newestSeq, r), writing := none, writingFinal := false } } }
  have hdone : s.draw.finalDone true = (((u.setFld 0x3014 13 13 1).count 0x30A4 1).count 0x30A8 r.pages).nextWaiting := by
    unfold State.finalDone; dsimp only; rw [State.draw_prg, hw, hf]; rfl
  obtain ⟨w, v, b, hnext⟩ := State.nextWaiting_same (((u.setFld 0x3014 13 13 1).count 0x30A4 1).count 0x30A8 r.pages)
  have hshown : (u.setFld 0x3014 13 13 1).fld 0x3014 13 13 = 1 := State.fld_setFld_self _ _ _ (by decide)
  refine live_reaches (fun s => s.finalDone true) s hp ?_ ?_ <;> rw [hdone, hnext]
  · exact hn
  · rw [State.outside_prg, State.outside_flag, State.outside_total, State.outside_total, settle_prg, settle_flag,
      settle_total _ _ (by decide), settle_total _ _ (by decide)]
    refine ⟨rfl, ?_, ?_, ?_⟩
    · exact State.flag_of_fld hshown
    · exact (State.total_count_ne _ _ (by decide)).trans (State.total_count _ _ 1)
    · exact (State.total_count _ _ _).trans (congrArg (· + r.pages) (State.total_count_ne _ 1 (by decide)))

theorem finalSaveComplete_unused (s : State) {r : Retentive} (hup : s.up = true) (hw : s.prg.ckpt.writing = some r)
    (hf : s.prg.ckpt.writingFinal = true) :
    Reaches (exec (.finalSaveComplete false) s) fun t => t.prg.ckpt.final = s.prg.ckpt.final ∧ t.sq 6 1 = true ∧
      t.total 0x30AC = s.total 0x30AC + 1 := by
  obtain ⟨hp, hn⟩ := State.up_iff.mp hup
  let u : State := { s.draw with prg := { s.prg with ckpt := { s.prg.ckpt with writing := none, writingFinal := false } } }
  have hdone : s.draw.finalDone false = (((u.setSQ 6 1).count 0x30AC 1).count 0x30A8 r.pages).nextWaiting := by
    unfold State.finalDone; dsimp only; rw [State.draw_prg, hw, hf]; rfl
  obtain ⟨w, v, b, hnext⟩ := State.nextWaiting_same (((u.setSQ 6 1).count 0x30AC 1).count 0x30A8 r.pages)
  refine live_reaches (fun s => s.finalDone false) s hp ?_ ?_ <;> rw [hdone, hnext]
  · exact hn
  · rw [State.outside_prg, State.outside_sq, State.outside_total, settle_prg, settle_total _ _ (by decide)]
    exact ⟨rfl, settle_sq_mono _ _ (State.sq_setSQ_self u 6 1), (State.total_count_ne _ _ (by decide)).trans (State.total_count _ _ 1)⟩

end Sys2Proof.Machine

open Sys2Proof.Machine

/-- Settles O13, an event a clause. -/
theorem checkpoints : Obligations.Checkpoints := fun s _ hup hw hb hr =>
  ⟨ckptLate_reaches s hup (Option.isSome_of_eq_some hw),
    fun _ => checkpointComplete_next s hup hw hb hr,
    fun hf hv => ⟨checkpointComplete_last s hup hw hb hr hf hv, checkpointComplete_unused s hup hw hf hv⟩,
    fun hf => ⟨finalSaveComplete_held s hup hw hf, finalSaveComplete_unused s hup hw hf⟩⟩
end

section
/-! SUPPORT. Chapter 02: the places of a revolution and its overruns (O12). -/
namespace Sys2Proof.Machine

/-! ### The places of a revolution (R36, R39, R47) -/

theorem State.control_iff {s : State} : s.control = true ↔ s.up = true ∧ s.sys.run = .running := by
  unfold State.control State.running; rw [Bool.and_eq_true, decide_eq_true_iff]

/-- A phase command leads into its phase where control runs, and into the Guard window whether it runs or not (R39). -/
theorem livePhase_reaches (p : PhasePos) (f : State → State) (s : State) (hp : s.sys.powered = true) (h : s.running = true ∨ p = .guard) :
    Reaches (livePhase p f s) fun t => t.crsl.phase = p ∧ t.rev = s.rev := by
  unfold livePhase State.atPhase
  rw [if_pos hp, if_pos h]
  exact ⟨_, rfl, rfl, rfl⟩

/-- The boundary advances the revolution counter and leaves the commands that wait (R47). -/
theorem revolutionBoundary_reaches (s : State) (hp : s.sys.powered = true) :
    Reaches (exec .revolutionBoundary s) fun t => t.rev = s.rev + 1 ∧ t.pending = s.pending :=
  ⟨_, if_pos hp, rfl, rfl⟩

/-! ### Late laws, tasks and phases (R58 to R61) -/

/-- Marking late contexts touches the contexts alone (R58). -/
theorem foldl_setCtx_same (f : State → Nat → LoopCtx) (l : List Nat) (s : State) :
    ∃ x, l.foldl (fun (t : State) n => t.setCtx n (f t n)) s = { s with loop := x } :=
  List.foldlRecOn (motive := fun t => ∃ x, t = { s with loop := x }) l _ ⟨s.loop, rfl⟩ fun _ ⟨_, h⟩ _ _ => ⟨_, by rw [h]; rfl⟩

theorem loopLate_reaches (s : State) (hup : s.up = true) (hl : s.crsl.late ≠ []) :
    Reaches (exec .loopLate s) fun t => t.crsl.late = [] ∧ t.sq 1 13 = true ∧
      t.total 0x0890 = s.total 0x0890 + s.crsl.late.length := by
  obtain ⟨hp, hn⟩ := State.up_iff.mp hup
  obtain ⟨x, hmarked⟩ := foldl_setCtx_same
    (fun t n => (((t.ctx n).status 0 true).stat 57 (decide (2 ≤ s.ledger.house))).sealed) s.crsl.late s.draw
  let v : State := ({ s.draw with loop := x } : State).count 0x0890 s.crsl.late.length
  let u : State := { v with crsl := { s.crsl with late := [] } }
  have hlate : s.draw.loopsLate = u.reportBare .warn 1 13 0xFF := by
    unfold State.loopsLate
    dsimp only
    rw [if_neg (by rw [List.isEmpty_iff]; exact hl)]
    exact congrArg (fun t : State => State.reportBare
      { t.count 0x0890 s.crsl.late.length with crsl := { (t.count 0x0890 s.crsl.late.length).crsl with late := [] } } .warn 1 13 0xFF)
      hmarked
  obtain ⟨f, c, st, hsame⟩ := (reportBare_logOnly u .warn 1 13 0xFF).same
  refine live_reaches (fun s => s.loopsLate) s hp ?_ ?_ <;> rw [hlate]
  · exact (reportBare_nest u 1 13 0xFF (by decide)).trans hn
  · rw [State.outside_crsl, State.outside_sq, State.outside_total, settle_crsl, settle_total _ _ (by decide),
      State.reportBare_total_low _ _ _ _ _ (by decide)]
    exact ⟨by rw [hsame], settle_sq_mono _ _ (reportBare_sq u .warn 1 13 0xFF),
      State.total_count { s.draw with loop := x } 0x0890 s.crsl.late.length⟩

/-- Dropping a request advances LDG_CNT5 alone (R233). -/
theorem dropWriter_total_ne (s : State) (w : Writer) {o : Nat} (h : 0x1094 ≠ o) : (s.dropWriter w).total o = s.total o :=
  List.foldlRecOn (motive := fun t : State => t.total o = s.total o) _ _ rfl fun t k r _ => by
    refine Eq.trans ?_ k
    unfold State.dropReq
    split
    · exact State.total_count_ne _ 1 h
    · rfl

theorem stopTask_total_ne (s : State) (i : Nat) (st : TaskState) {o : Nat} (h : 0x1094 ≠ o) : (s.stopTask i st).total o = s.total o := by
  have hdrop := dropWriter_total_ne s (.task i) h
  unfold State.stopTask
  dsimp only
  split
  · rfl
  · split <;> exact hdrop

/-- The overrun of a running task that is due: it is stopped, its Juggler's count and its image's cells follow, and the FAULT is raised in a
state that leaves the rest (R60, R98). -/
theorem taskOverrun_raises (s : State) (i : Nat) (hr : (s.task i).state = .running) (hd : s.taskDue (s.task i) = true) :
    ∃ a g c b, s.taskOverrun i = (({ s.stopTask i .stoppedOverrun with
        prg := { (s.stopTask i .stoppedOverrun).prg with active := a }, regs := g, cnt := c } : State).reportBare .fault 1 14 b).count 0x0894 1 ∧
      sget 0 c 0x0894 = s.total 0x0894 := by
  have hcnt : ∀ n, sget 0 (sset 0 (s.stopTask i .stoppedOverrun).cnt (0x2100 + 4 * (s.task i).jug) n) 0x0894 = s.total 0x0894 := fun n =>
    (sget_sset_ne 0 _ _ (by omega)).trans (stopTask_total_ne s i _ (by decide))
  unfold State.taskOverrun
  extract_lets k stopped _ cells off shown u
  rw [if_pos ⟨hr, hd⟩]
  have hcells : ∃ a, cells = { stopped with prg := { stopped.prg with active := a } } := by
    dsimp -zetaDelta only [cells]
    split
    · exact ⟨_, rfl⟩
    · exact ⟨stopped.prg.active, rfl⟩
  obtain ⟨a, ha⟩ := hcells
  refine ⟨a, shown.regs, u.cnt, BitVec.ofNat 8 k.booth, ?_, ?_⟩
  · dsimp -zetaDelta only [u, shown]
    rw [ha]
    rfl
  · dsimp -zetaDelta only [u, shown]
    rw [ha]
    exact hcnt _

theorem stoppedOverrun_reaches (s : State) (hup : s.up = true) (i : Fin 256) (hr : (s.task i).state = .running)
    (hd : s.taskDue (s.task i) = true) :
    Reaches (exec (.stoppedOverrun i) s) fun t =>
      (t.task i).state = .stoppedOverrun ∧ t.sq 1 14 = true ∧ t.total 0x0894 = s.total 0x0894 + 1 := by
  obtain ⟨hp, hn⟩ := State.up_iff.mp hup
  have htask := stopTask_task_self s.draw i .stoppedOverrun (by rw [State.task, State.draw_prg]; exact hr ▸ by decide)
    (by rw [State.task, State.draw_prg]; exact hr ▸ by decide)
  obtain ⟨a, g, c, b, hover, hcnt⟩ := taskOverrun_raises s.draw i hr hd
  have hflt := (stopTask_tasksOnly s.draw i .stoppedOverrun).flt
  generalize s.draw.stopTask i .stoppedOverrun = v at htask hover hflt
  let u : State := { v with prg := { v.prg with active := a }, regs := g, cnt := c }
  obtain ⟨f, n, st, hsame⟩ := (reportBare_logOnly u .fault 1 14 b).same
  refine live_reaches (fun s => s.taskOverrun i) s hp ?_ ?_ <;> rw [hover]
  · exact (reportBare_nest u 1 14 b (by decide)).trans ((congrArg Flt.nest hflt).trans hn)
  · rw [State.outside_sq, State.outside_total, settle_total _ _ (by decide), State.total_count,
      State.reportBare_total_low _ _ _ _ _ (by decide)]
    refine ⟨?_, settle_sq_mono _ _ (reportBare_sq u .fault 1 14 b), congrArg (· + 1) hcnt⟩
    have hprg : ((u.reportBare .fault 1 14 b).count 0x0894 1).prg = u.prg := by rw [State.count_prg, hsame]
    unfold State.task
    rw [State.outside_prg, settle_prg, hprg]
    exact congrArg Task.state htask

/-- A late hard phase is reported and counted in its own counter (R61). -/
theorem phaseLate_reaches (s : State) (hup : s.up = true) (hrun : s.sys.run = .running) (ph : HardPhase) :
    Reaches (exec (.phaseLate ph) s) fun t => t.sq 1 12 = true ∧
      t.total (match ph with | .intake => 0x0884 | .commit => 0x0888) =
        s.total (match ph with | .intake => 0x0884 | .commit => 0x0888) + 1 := by
  obtain ⟨hp, hn⟩ := State.up_iff.mp hup
  have hlate : ∀ o, o ≠ 0x69FC → o < 0x9840 → phaseLate ph s.draw = (s.draw.reportBare .warn 1 12 0xFF).count o 1 →
      Reaches (exec (.phaseLate ph) s) fun t => t.sq 1 12 = true ∧ t.total o = s.total o + 1 := fun o hne hlow h => by
    refine live_reaches (fun s => phaseLate ph s) s hp ?_ ?_ <;> rw [h]
    · exact (reportBare_nest s.draw 1 12 0xFF (by decide)).trans hn
    · rw [State.outside_sq, State.outside_total, settle_total _ _ hne.symm, State.total_count,
        State.reportBare_total_low _ _ _ _ _ hlow]
      exact ⟨settle_sq_mono _ _ (reportBare_sq s.draw .warn 1 12 0xFF), rfl⟩
  cases ph
  · exact hlate 0x0884 (by decide) (by decide) (if_neg (not_not.mpr hrun))
  · exact hlate 0x0888 (by decide) (by decide) (if_neg (not_not.mpr hrun))

theorem housekeepingCarryOver_reaches (s : State) (hup : s.up = true) (hrun : s.sys.run = .running) :
    Reaches (exec .housekeepingCarryOver s) fun t => t.total 0x088C = s.total 0x088C + 1 := by
  obtain ⟨hp, hn⟩ := State.up_iff.mp hup
  have hcarry : housekeepingCarryOver s.draw = s.draw.count 0x088C 1 := if_pos (decide_eq_true hrun)
  refine live_reaches (fun s => housekeepingCarryOver s) s hp ?_ ?_ <;> rw [hcarry]
  · exact hn
  · rw [State.outside_total, settle_total _ _ (by decide), State.total_count]
    rfl

/-! ### The Carousel's record while outputs are driven to safe values (R62) -/

theorem foldl_crsl {α : Type} {f : State → α → State} (hf : ∀ t x, (f t x).crsl = t.crsl) (l : List α) (s : State) :
    (l.foldl f s).crsl = s.crsl :=
  List.foldlRecOn (motive := fun t : State => t.crsl = s.crsl) l _ rfl fun t h x _ => (hf t x).trans h

theorem LogOnly.crsl {s t : State} (h : LogOnly s t) : t.crsl = s.crsl := by
  obtain ⟨_, _, _, e⟩ := h.same; rw [e]

theorem DropsOnly.crsl {s t : State} (h : DropsOnly s t) : t.crsl = s.crsl := by
  obtain ⟨_, _, e⟩ := h.same; rw [e]

theorem badRecord_crsl (s : State) (p : Nat) : (s.badRecord p).crsl = s.crsl := by
  unfold State.badRecord
  dsimp only
  split
  · rfl
  · exact ((LogOnly.refl _).report _ _ _ _ _ |>.count _ _).crsl

theorem verifyRead_crsl (s : State) (p : Nat) : (s.verifyRead p).crsl = s.crsl := by
  unfold State.verifyRead
  split
  · rfl
  · split
    · exact badRecord_crsl s p
    · split <;> rfl

theorem setQuality_crsl (s : State) (p : Nat) (q : Byte) (ts : Stamp) : (s.setQuality p q ts).crsl = s.crsl := by
  unfold State.setQuality
  dsimp only
  split <;> exact verifyRead_crsl s p

theorem enterHeld_crsl (s : State) (c : Int) : (s.enterHeld c).crsl = s.crsl := by
  unfold State.enterHeld; split <;> rfl

theorem dropLoad_crsl (s : State) (p stages : Nat) : (s.dropLoad p stages).crsl = s.crsl := by
  unfold State.dropLoad; split <;> rfl

theorem writeRec_crsl (s : State) (p : Nat) (r : PRec) : (s.writeRec p r).crsl = s.crsl := rfl

theorem safeOut_crsl (s : State) (p : Nat) : (s.safeOut p).crsl = s.crsl := by
  have hread := (verifyRead_crsl (s.dropReq p) p).trans (dropReq_dropsOnly s p).crsl
  unfold State.safeOut
  dsimp only
  split
  · exact hread
  · split
    · split
      · exact hread
      · exact (((writeRec_crsl _ _ _).trans (dropLoad_crsl _ _ _)).trans (enterHeld_crsl _ _)).trans hread
    · exact (setQuality_crsl _ _ _ _).trans hread

theorem handField_crsl (s : State) (k : Nat) : (s.handField k).crsl = s.crsl := by
  unfold State.handField; split <;> rfl

theorem handAo_crsl (s : State) (j : Nat) : (s.handAo j).crsl = s.crsl := by
  unfold State.handAo
  dsimp only
  split
  · split
    · split
      · exact State.count_crsl _ _ _
      · dsimp only
    · dsimp only
  · rfl

theorem fromStopped_crsl (s : State) (c : Nat) : (s.fromStopped c).crsl = s.crsl := by
  unfold State.fromStopped; dsimp only; split <;> rfl

theorem handFan_crsl (s : State) (c : Nat) : (s.handFan c).crsl = s.crsl := by
  unfold State.handFan
  dsimp only
  split
  · rfl
  · split
    · rfl
    · split
      · split
        · rfl
        · exact fromStopped_crsl _ c
      · split <;> rfl
      · split <;> rfl
      · split
        · rfl
        · split <;> rfl
      · rfl
      · rfl

theorem handOff_crsl (s : State) (p : Nat) : (s.handOff p).crsl = s.crsl := by
  unfold State.handOff
  split
  · exact handField_crsl s _
  · split
    · exact handAo_crsl s _
    · split
      · exact handFan_crsl s _
      · rfl

theorem driveSafe_crsl (s : State) : s.driveSafe.crsl = s.crsl :=
  foldl_crsl (fun t p => (handOff_crsl _ p).trans (safeOut_crsl t p)) _ s

theorem dropFrames_crsl (s : State) : s.dropFrames.crsl = s.crsl := by
  unfold State.dropFrames
  refine foldl_crsl (fun _ _ => ?_) _ s
  rfl

/-! ### A hard phase still running at the Guard (R62) -/

/-- The stop of control drops the moves of the revolution and leaves RUN_STATE at STOPPED (R62). -/
theorem controlStop_stopped {s : State} (h : s.sys.run = .running) : s.controlStop.sys.run = .stopped ∧ s.controlStop.crsl.moves = [] := by
  constructor
  · obtain ⟨u, c, -, hafter⟩ := controlStop_of_running h
    rw [hafter.sys]
  · unfold State.controlStop
    rw [if_neg (not_not.mpr h)]
    dsimp only
    rw [dropFrames_crsl, driveSafe_crsl]

theorem hardOvr_stops (s : State) (h : s.sys.run = .running) (ph : HardPhase) (d l : Bool) (i : BitVec 4) :
    (hardOvr ph d l i s).sys.run = .stopped ∧ (hardOvr ph d l i s).crsl.ovrDue = true ∧ (hardOvr ph d l i s).crsl.moves = [] := by
  have hover : hardOvr ph d l i s = _ := if_neg (not_not.mpr h)
  rw [hover]
  extract_lets cap shown _ stopped
  have hshown : shown.sys.run = .running := by
    dsimp -zetaDelta only [shown]
    split
    · exact h
    · rw [State.setPair_sys, State.setReg_sys, h]
  obtain ⟨hrun, hmoves⟩ : stopped.sys.run = .stopped ∧ stopped.crsl.moves = [] := controlStop_stopped hshown
  clear_value stopped
  exact ⟨hrun, rfl, hmoves⟩

theorem hardOvr_reaches (s : State) (hup : s.up = true) (hrun : s.sys.run = .running) (ph : HardPhase) (d l : Bool) (i : BitVec 4) :
    Reaches (exec (.hardOvr ph d l i) s) fun t => t.sys.run = .stopped ∧ t.crsl.ovrDue = true ∧ t.crsl.moves = [] := by
  obtain ⟨hp, -⟩ := State.up_iff.mp hup
  obtain ⟨hstop, hdue, hmoves⟩ := hardOvr_stops s.draw hrun ph d l i
  obtain ⟨f, r, hnest⟩ := afterNest_of_not_running (s := hardOvr ph d l i s.draw) (by rw [hstop]; decide)
  refine ⟨_, live_next (hardOvr ph d l i) s hp, ?_⟩
  beta_reduce
  rw [hnest, State.outside_sys, State.outside_crsl, settle_sys, settle_crsl]
  exact ⟨hstop, hdue, hmoves⟩

end Sys2Proof.Machine

open Sys2Proof.Machine

/-- Settles O12: the places of the revolution from the frame of the phase commands, the overruns an event a clause. -/
theorem phasesRun : Obligations.PhasesRun := by
  refine ⟨fun s hup => ?_, fun s hctl => ?_⟩
  · obtain ⟨hp, -⟩ := State.up_iff.mp hup
    exact ⟨revolutionBoundary_reaches s hp,
      fun hrun => ⟨fun e => livePhase_reaches .intake (fun s => serve (intakePhase e s)) s hp (.inl hrun),
        fun e b u => livePhase_reaches .loops (loopsPhase e b u) s hp (.inl hrun),
        fun e b r => livePhase_reaches .logic (logicPhase e b r) s hp (.inl hrun),
        fun e p j => livePhase_reaches .commit (commitPhase e p j) s hp (.inl hrun)⟩,
      fun e p b j => livePhase_reaches .guard (housekeepingPhase e p b j) s hp (.inr rfl)⟩
  · obtain ⟨hup, hrun⟩ := State.control_iff.mp hctl
    exact ⟨loopLate_reaches s hup, stoppedOverrun_reaches s hup, phaseLate_reaches s hup hrun .intake,
      phaseLate_reaches s hup hrun .commit, hardOvr_reaches s hup hrun, housekeepingCarryOver_reaches s hup hrun⟩
end

section
/-! SUPPORT. Chapter 02: the synchronisation state, Announce messages, the timestamp wrap and stale points (O16). -/
namespace Sys2Proof.Machine

/-! ### A change of the synchronisation state (R51, R52) -/

/-- Every change of the synchronisation state sets SYNC_CHG (R51). -/
theorem State.setSync_changes {s : State} {x : SyncState} (h : s.crsl.sync ≠ x) :
    (s.setSync x).crsl.sync = x ∧ (s.setSync x).sq 1 10 = true := by
  unfold State.setSync
  rw [if_neg h]
  exact ⟨rfl, State.sq_setSQ_self _ 1 10⟩

theorem State.setSync_same (s : State) (x : SyncState) : ∃ c st, s.setSync x = { s with crsl := c, stat := st } := by
  unfold State.setSync
  split
  · exact ⟨s.crsl, s.stat, rfl⟩
  · exact ⟨_, _, rfl⟩

@[simp] theorem State.setSync_flt (s : State) (x : SyncState) : (s.setSync x).flt = s.flt := by
  obtain ⟨_, _, h⟩ := s.setSync_same x; rw [h]

@[simp] theorem State.setSync_total (s : State) (x : SyncState) (o : Nat) : (s.setSync x).total o = s.total o := by
  obtain ⟨_, _, h⟩ := s.setSync_same x; rw [h]; rfl

theorem State.enterAcquiring_changes {s : State} (offset : Int) (h : s.crsl.sync ≠ .acquiring) :
    (s.enterAcquiring offset).crsl.sync = .acquiring ∧ (s.enterAcquiring offset).sq 1 10 = true ∧
      (s.enterAcquiring offset).flt = s.flt ∧ ∀ o, (s.enterAcquiring offset).total o = s.total o := by
  obtain ⟨hsync, hsq⟩ := State.setSync_changes h
  have hflt := s.setSync_flt .acquiring
  have htotal := s.setSync_total .acquiring
  unfold State.enterAcquiring
  generalize s.setSync .acquiring = u at hsync hsq hflt htotal ⊢
  exact ⟨hsync, hsq, hflt, htotal⟩

theorem State.engineUp_iff {s : State} {k : Nat} :
    s.engineUp k = true ↔ s.sys.powered = true ∧ s.flt.nest = false ∧ s.sys.ioeBad.getLsbD k = false := by
  unfold State.engineUp
  rw [Bool.and_eq_true, State.up_iff, Bool.not_eq_true', and_assoc]

/-! ### Sync messages (R51, R53, R332) -/

/-- A frame sent touches the ports and their counters alone (R347). -/
theorem State.send_same (s : State) (p : Nat) (f : List Byte) :
    ∃ n c, s.send p f = { s with net := n, cnt := c } ∧ ∀ o < 0x6100, sget 0 c o = s.total o := by
  have hcount : ∀ i, ∀ o < 0x6100, sget 0 (sset 0 s.cnt (0x6100 + 0x20 * p + 4 * i) (s.total (0x6100 + 0x20 * p + 4 * i) + 1)) o = s.total o :=
    fun i o h => sget_sset_ne 0 s.cnt _ (by omega)
  unfold State.send
  dsimp only
  split
  · exact ⟨s.net, s.cnt, rfl, fun _ _ => rfl⟩
  · split
    · split
      · exact ⟨s.net, _, rfl, hcount 7⟩
      · exact ⟨_, s.cnt, rfl, fun _ _ => rfl⟩
    · exact ⟨_, _, rfl, hcount 1⟩

theorem State.delayReq_same (s : State) (port : Nat) (k : Int) :
    ∃ n c, s.delayReq port k = { s with net := n, cnt := c } ∧ ∀ o < 0x6100, sget 0 c o = s.total o := by
  unfold State.delayReq
  split
  · exact ⟨s.net, s.cnt, rfl, fun _ _ => rfl⟩
  · exact State.send_same { s with net := { s.net with reqNs := some s.crsl.upNs, reqSeq := (s.net.reqSeq + 1) % 65536 } } port _

/-- A usable Sync message is counted, and moves the synchronisation state where SYNC_EN is 1 (R51, R53). -/
theorem syncReceive_counted {s : State} {port : Nat} {m : SyncMsg} (hfit : s.ptpFits m.via = true) (hlo : -4 ≤ m.logInterval)
    (hhi : m.logInterval ≤ 0) (hport : s.net.slavePort = some port) :
    ∃ v, syncReceive port m s = (if s.flag 0x0800 9 then v.syncMoves m else v) ∧ v.crsl = s.crsl ∧ v.flt = s.flt ∧
      v.total 0x08A0 = s.total 0x08A0 + 1 := by
  obtain ⟨n, c, hreq, htotal⟩ := s.delayReq_same port m.minDelayReq
  let u : State := { s with net := n, cnt := c }
  let w : State := u.setReg 0x0814 (BitVec.ofInt 32 (clip32 m.offsetNs))
  let v : State := ({ w with net := { w.net with mpd := satNat 65535 m.pathDelayNs, logSync := m.logInterval } } : State).count 0x08A0 1
  have husable : ¬(s.ptpFits m.via = false ∨ m.logInterval < -4 ∨ 0 < m.logInterval ∨ s.net.slavePort ≠ some port) := by
    rw [hfit, hport]; simp only [Bool.true_eq_false, ne_eq, not_true_eq_false, or_false, false_or]; omega
  have hflag : v.flag 0x0800 9 = s.flag 0x0800 9 := congrArg (bitAt · 9) (u.reg_setReg_ne _ (by decide))
  refine ⟨v, ?_, rfl, rfl, (State.total_count _ _ 1).trans (congrArg (· + 1) (htotal _ (by decide)))⟩
  rw [← hflag]
  unfold syncReceive
  rw [if_neg husable, hreq]

theorem syncMessageReceive_reaches (s : State) (p : Fin 2) (m : SyncMsg) (he : s.engineUp 3 = true) (hfit : s.ptpFits m.via = true)
    (hlo : -4 ≤ m.logInterval) (hhi : m.logInterval ≤ 0) (hport : s.net.slavePort = some p.val) (hfree : s.crsl.sync = .free) :
    Reaches (exec (.syncMessageReceive p m) s) fun t =>
      t.total 0x08A0 = s.total 0x08A0 + 1 ∧ (s.flag 0x0800 9 = true → t.crsl.sync = .acquiring ∧ t.sq 1 10 = true) ∧
        (s.flag 0x0800 9 = false → t.crsl.sync = .free) := by
  obtain ⟨hp, hn, hb⟩ := State.engineUp_iff.mp he
  obtain ⟨v, hrec, hcrsl, hflt, htotal⟩ := syncReceive_counted (s := s.draw) (m := m) hfit hlo hhi hport
  have hvfree : v.crsl.sync = .free := (congrArg Crsl.sync hcrsl).trans hfree
  cases hen : s.flag 0x0800 9
  case false =>
    rw [show s.draw.flag 0x0800 9 = false from hen, if_neg Bool.false_ne_true] at hrec
    refine liveIoe_reaches 3 (fun s => syncReceive p.val m s) s hp hb ?_ ?_ <;> rw [hrec]
    · rw [hflt]; exact hn
    · rw [State.outside_total, State.outside_crsl, settle_crsl, settle_total _ _ (by decide)]
      exact ⟨htotal, fun h => Bool.noConfusion h, fun _ => hvfree⟩
  case true =>
    obtain ⟨hsync, hsq, hkflt, hktotal⟩ := State.enterAcquiring_changes m.offsetNs (s := v) (by rw [hvfree]; decide)
    have hmoves : v.syncMoves m = v.enterAcquiring m.offsetNs := by unfold State.syncMoves; rw [hvfree]
    rw [show s.draw.flag 0x0800 9 = true from hen, if_pos rfl, hmoves] at hrec
    refine liveIoe_reaches 3 (fun s => syncReceive p.val m s) s hp hb ?_ ?_ <;> rw [hrec]
    · rw [hkflt, hflt]; exact hn
    · rw [State.outside_total, State.outside_crsl, State.outside_sq, settle_crsl, settle_total _ _ (by decide), hktotal]
      exact ⟨htotal, fun _ => ⟨hsync, settle_sq_mono _ _ hsq⟩, fun h => Bool.noConfusion h⟩

/-! ### Sync messages missing, and HOLDOVER (R51, R52) -/

theorem syncTimeout_acquiring (s : State) (hup : s.up = true) (h : s.crsl.sync = .acquiring) :
    Reaches (exec .syncTimeout s) fun t => t.crsl.sync = .free ∧ t.sq 1 10 = true := by
  obtain ⟨hp, hn⟩ := State.up_iff.mp hup
  have hend : syncTimeout s.draw = s.draw.setSync .free := by unfold syncTimeout; rw [State.draw_crsl, h]
  obtain ⟨hsync, hsq⟩ := State.setSync_changes (s := s.draw) (x := .free) (by rw [State.draw_crsl, h]; decide)
  refine live_reaches (fun s => syncTimeout s) s hp ?_ ?_ <;> rw [hend]
  · rw [State.setSync_flt]; exact hn
  · rw [State.outside_crsl, State.outside_sq, settle_crsl]
    exact ⟨hsync, settle_sq_mono _ _ hsq⟩

/-- A change of the synchronisation state that is counted (R51, R52). -/
theorem setSync_count_reaches {x : SyncState} {o : Nat} (f : State → State) (s : State) (hup : s.up = true) (ho : 0x69FC ≠ o)
    (h : s.crsl.sync ≠ x) (hf : f s.draw = (s.draw.setSync x).count o 1) :
    Reaches (live f s) fun t => t.crsl.sync = x ∧ t.sq 1 10 = true ∧ t.total o = s.total o + 1 := by
  obtain ⟨hp, hn⟩ := State.up_iff.mp hup
  obtain ⟨hsync, hsq⟩ := State.setSync_changes (s := s.draw) h
  refine live_reaches f s hp ?_ ?_ <;> rw [hf]
  · rw [State.count_flt, State.setSync_flt]; exact hn
  · rw [State.outside_crsl, State.outside_sq, State.outside_total, settle_crsl, settle_total _ _ ho, State.total_count,
      State.setSync_total]
    exact ⟨hsync, settle_sq_mono _ _ hsq, rfl⟩

theorem syncTimeout_locked (s : State) (hup : s.up = true) (h : s.crsl.sync = .locked) :
    Reaches (exec .syncTimeout s) fun t => t.crsl.sync = .holdover ∧ t.sq 1 10 = true ∧ t.total 0x08A4 = s.total 0x08A4 + 1 :=
  setSync_count_reaches (fun s => syncTimeout s) s hup (by decide) (by rw [h]; decide)
    (by unfold syncTimeout; rw [State.draw_crsl, h])

theorem holdoverExpiry_reaches (s : State) (hup : s.up = true) (h : s.crsl.sync = .holdover)
    (hmax : s.fld 0x0818 9 0 * 1000000000 ≤ s.crsl.holdNs) :
    Reaches (exec .holdoverExpiry s) fun t => t.crsl.sync = .free ∧ t.sq 1 10 = true ∧ t.total 0x08A8 = s.total 0x08A8 + 1 :=
  setSync_count_reaches (fun s => holdoverExpiry s) s hup (by decide) (by rw [h]; decide) (if_pos ⟨h, hmax⟩)

/-! ### Lock (R51, R74) -/

/-- Entering LOCKED; a step of time beyond 1 ms is noted and counted (R51, R74). -/
theorem State.enterLocked_changes {s : State} (ptpNs : Int) (h : s.crsl.sync ≠ .locked) :
    (s.enterLocked ptpNs).crsl.sync = .locked ∧ (s.enterLocked ptpNs).sq 1 10 = true ∧ (s.enterLocked ptpNs).flt.nest = s.flt.nest ∧
      (ptpNs - s.crsl.absNs > 1000000 ∨ ptpNs - s.crsl.absNs < -1000000 →
        (s.enterLocked ptpNs).crsl.absNs = ptpNs ∧ (s.enterLocked ptpNs).total 0x18B8 = s.total 0x18B8 + 1) := by
  obtain ⟨hsync, hsq⟩ := State.setSync_changes h
  have hflt := s.setSync_flt .locked
  have htotal := s.setSync_total .locked 0x18B8
  unfold State.enterLocked
  generalize s.setSync .locked = v at hsync hsq hflt htotal ⊢
  dsimp only
  split
  next =>
    let u : State := { v with crsl := { v.crsl with absNs := ptpNs }
                              can := { v.can with bus := v.can.bus.map fun (b : CanBus) => { b with tref := { b.tref with step := true } } } }
    have hlog := report_logOnly u .note 3 1 0xFF (BitVec.ofInt 64 (ptpNs - s.crsl.absNs)).toNat
    rw [State.count_crsl, State.count_flt, State.total_count, State.report_total_low _ _ _ _ _ _ (by decide), hlog.crsl]
    exact ⟨hsync, hlog.sq 1 10 hsq, (raise_nest _ _ _ _ _ _ (by decide)).trans (congrArg Flt.nest hflt),
      fun _ => ⟨rfl, congrArg (· + 1) htotal⟩⟩
  next hnear => exact ⟨hsync, hsq, congrArg Flt.nest hflt, fun hfar => absurd hfar hnear⟩

theorem locked_reaches (s : State) (hup : s.up = true) (n : Nat) (h : s.crsl.sync = .acquiring)
    (hw : within1us (s32 (s.reg 0x0814)) = true) (hs : s.crsl.slewing = false) :
    Reaches (exec (.locked n) s) fun t => t.crsl.sync = .locked ∧ t.sq 1 10 = true ∧
      ((n : Int) - s.crsl.absNs > 1000000 ∨ (n : Int) - s.crsl.absNs < -1000000 →
        t.crsl.absNs = n ∧ t.total 0x18B8 = s.total 0x18B8 + 1) := by
  obtain ⟨hp, hn⟩ := State.up_iff.mp hup
  have hlock : lockedOn n s.draw = s.draw.enterLocked n := if_pos ⟨h, hw, hs⟩
  obtain ⟨hsync, hsq, hnest, hstep⟩ := State.enterLocked_changes (s := s.draw) n (by rw [State.draw_crsl, h]; decide)
  refine live_reaches (fun s => lockedOn n s) s hp ?_ ?_ <;> rw [hlock]
  · exact hnest.trans hn
  · rw [State.outside_crsl, State.outside_sq, State.outside_total, settle_crsl, settle_total _ _ (by decide)]
    exact ⟨hsync, settle_sq_mono _ _ hsq, hstep⟩

/-! ### Announce messages (R333) -/

/-- The better master's port is the slave port, and a change of it sets BMCA_CHG (R333). -/
theorem State.chooseSlave_slave (s : State) : s.chooseSlave.net = { s.net with
      slavePort := betterPort (s.port 0).announce (s.port 1).announce } ∧ s.chooseSlave.flt = s.flt ∧
      (s.chooseSlave.net.slavePort ≠ s.net.slavePort → s.chooseSlave.sq 12 4 = true) := by
  unfold State.chooseSlave
  dsimp only
  split
  next hsame => exact ⟨by rw [hsame], rfl, fun hne => absurd rfl hne⟩
  next => exact ⟨rfl, rfl, fun _ => State.sq_setSQ_self _ 12 4⟩

/-- The grandmaster's identity and its count follow the choice of the slave port in the registers alone (R333). -/
theorem announceReceive_same (s : State) (port : Nat) (a : Announce) (hfit : s.ptpFits a.via = true) :
    ∃ g, announceReceive port a s =
      { (s.setPort port { s.port port with announce := some a }).chooseSlave with regs := g } := by
  unfold announceReceive
  rw [if_neg (ne_false_of_eq_true hfit)]
  generalize (s.setPort port { s.port port with announce := some a }).chooseSlave = u
  dsimp only
  split
  · exact ⟨u.regs, rfl⟩
  · split
    · exact ⟨u.regs, rfl⟩
    · split <;> exact ⟨_, rfl⟩

theorem announceReceive_reaches (s : State) (p : Fin 2) (a : Announce) (he : s.engineUp 3 = true) (hfit : s.ptpFits a.via = true)
    (hp2 : p.val < s.net.ports.length) :
    Reaches (exec (.announceReceive p a) s) fun t =>
      (t.net.ports.getD p.val {}).announce = some a ∧
        t.net.slavePort = betterPort (t.net.ports.getD 0 {}).announce (t.net.ports.getD 1 {}).announce ∧
        (t.net.slavePort ≠ s.net.slavePort → t.sq 12 4 = true) := by
  obtain ⟨hp, hn, hb⟩ := State.engineUp_iff.mp he
  obtain ⟨g, hrec⟩ := announceReceive_same s.draw p a hfit
  let v : State := s.draw.setPort p { s.draw.port p with announce := some a }
  obtain ⟨hnet, hflt, hsq⟩ := v.chooseSlave_slave
  have hkept : (v.net.ports.getD p {}).announce = some a := congrArg NetPort.announce (lmod_getD_self s.net.ports p _ {} hp2)
  generalize v.chooseSlave = u at hnet hflt hsq hrec
  refine liveIoe_reaches 3 (fun s => announceReceive p.val a s) s hp hb ?_ ?_ <;> rw [hrec]
  · exact (congrArg Flt.nest hflt).trans hn
  · rw [State.outside_net, State.outside_sq, settle_net]
    dsimp only
    refine ⟨?_, ?_, fun hne => settle_sq_mono _ _ (hsq hne)⟩
    · rw [hnet]; exact hkept
    · rw [hnet]; rfl

/-! ### The timestamp and stale points (R74, R76) -/

theorem tsWrap_reaches (s : State) (hup : s.up = true) :
    Reaches (exec .tsWrap s) fun t => t.fld 0x1818 7 0 = (s.fld 0x1818 7 0 + 1) % 256 := by
  obtain ⟨hp, hn⟩ := State.up_iff.mp hup
  refine live_reaches (fun s => tsWrap s) s hp hn ?_
  rw [State.outside_fld, settle_fld]
  exact State.fld_setFld_self s.draw 0x1818 _ (by decide)

/-- A record whose CRC is right is read as it stands (R68). -/
theorem State.verifyRead_of_sound {s : State} {p : Nat} (h : s.sound p) : s.verifyRead p = s := if_pos h

/-- A new quality takes a new timestamp and leaves the value (R73, R74). -/
theorem State.setQuality_of_sound {s : State} {p : Nat} {q : Byte} (ts : Stamp) (h : s.sound p) (hq : (s.point p).quality ≠ q)
    (hbad : (s.point p).quality ≠ 0x85) : s.setQuality p q ts = s.writeRec p { s.point p with quality := q, stamp := ts } := by
  have hread : s.readRec p = s.point p := if_pos h.1
  unfold State.setQuality
  rw [State.verifyRead_of_sound h]
  dsimp only
  rw [hread]
  exact if_neg (not_or.mpr ⟨hq, hbad⟩)

/-- A record written reads back with its quality and value. -/
theorem State.writeRec_point (s : State) (p : Nat) (r : PRec) :
    ((s.writeRec p r).point p).quality = r.quality ∧ ((s.writeRec p r).point p).value = r.value := by
  have hstored : ∀ x : PRec, (s.storeRec p x).point p = x := sget_sset_self (defaultRec p) s.pnt.points p
  unfold State.writeRec
  rw [hstored]
  split <;> exact ⟨rfl, rfl⟩

theorem uncertainStale_reaches (s : State) (hup : s.up = true) (p : Fin 8192) (hsrc : (s.point p).src = 5)
    (hage : s.fld 0x181C 15 0 ≤ s.rev - sget 0 s.pnt.fresh p.val) (hq : (s.point p).quality = 0) (hs : s.sound p)
    (hph : s.crsl.phase = .intake) :
    Reaches (exec (.uncertainStale p) s) fun t =>
      (t.point p).quality = 0x40 ∧ (t.point p).value = (s.point p).value ∧ t.total 0x18AC = s.total 0x18AC + 1 := by
  obtain ⟨hp, hn⟩ := State.up_iff.mp hup
  let r : PRec := { s.draw.point p with quality := 0x40, stamp := s.draw.phaseStamp }
  have hset : s.draw.setQuality p 0x40 s.draw.phaseStamp = s.draw.writeRec p r :=
    State.setQuality_of_sound (s := s.draw) _ hs (by rw [State.point, State.draw_pnt]; exact hq ▸ by decide)
      (by rw [State.point, State.draw_pnt]; exact hq ▸ by decide)
  have hstale : uncertainStale p s.draw = (s.draw.writeRec p r).count 0x18AC 1 := by
    rw [← hset]
    refine if_pos ⟨?_, ?_, ?_, decide_eq_true hph⟩
    · have hcan : (decide ((s.draw.point p).src = 5) && decide (s.fld 0x181C 15 0 ≤ s.rev - sget 0 s.pnt.fresh p.val)) = true := by
        rw [decide_eq_true hage, Bool.and_true]; exact decide_eq_true hsrc
      exact (congrArg (· || _) hcan).trans (Bool.true_or _)
    · exact hq ▸ by decide
    · exact hq ▸ by decide
  obtain ⟨hquality, hvalue⟩ := s.draw.writeRec_point p r
  refine live_reaches (fun s => uncertainStale p s) s hp ?_ ?_ <;> rw [hstale]
  · exact hn
  · rw [State.outside_point, State.outside_total, settle_point, settle_total _ _ (by decide), State.total_count]
    exact ⟨hquality, hvalue, rfl⟩

end Sys2Proof.Machine

open Sys2Proof.Machine

/-- Settles O16, an event a clause. -/
theorem timeAlignment : Obligations.TimeAlignment :=
  ⟨fun s hup => ⟨syncMessageReceive_reaches s, syncTimeout_acquiring s hup, syncTimeout_locked s hup, locked_reaches s hup,
      holdoverExpiry_reaches s hup⟩,
    fun s hup => ⟨announceReceive_reaches s, tsWrap_reaches s hup, uncertainStale_reaches s hup⟩⟩
end

section
/-! SUPPORT. A command of a session taken in its turn: what stands before its effect, and what its completion leaves (R383 to R385). -/
namespace Sys2Proof.Machine

/-! ### What a completion leaves -/

/-- `t` shows what stands in `u`: MBX_LAST_ERR, the counters of the command service and the interrupt line apart (R354, R399), and what is
on the response paths. -/
structure Leaves (u t : State) : Prop where
  prg : t.prg = u.prg
  flt : t.flt = u.flt
  slots : t.mbx.slots = u.mbx.slots
  sessions : t.mbx.sessions = u.mbx.sessions
  reg : ∀ off, off ≠ 0x700C → t.reg off = u.reg off
  sq : ∀ b i, u.sq b i = true → t.sq b i = true
  total : ∀ o, o < 0x69FC → t.total o = u.total o

theorem Leaves.refl (u : State) : Leaves u u := ⟨rfl, rfl, rfl, rfl, fun _ _ => rfl, fun _ _ h => h, fun _ _ => rfl⟩

theorem Leaves.trans {u t v : State} (h : Leaves u t) (k : Leaves t v) : Leaves u v where
  prg := k.prg.trans h.prg
  flt := k.flt.trans h.flt
  slots := k.slots.trans h.slots
  sessions := k.sessions.trans h.sessions
  reg off hoff := (k.reg off hoff).trans (h.reg off hoff)
  sq b i e := k.sq b i (h.sq b i e)
  total o ho := (k.total o ho).trans (h.total o ho)

theorem Leaves.count {u t : State} (h : Leaves u t) {o : Nat} (n : Nat) (ho : 0x69FC ≤ o) : Leaves u (t.count o n) :=
  h.trans ⟨rfl, rfl, rfl, rfl, fun _ _ => rfl, fun _ _ e => e, fun _ hlow => State.total_count_ne t n (by omega)⟩

theorem Leaves.setSQ {u t : State} (h : Leaves u t) (b i : Nat) : Leaves u (t.setSQ b i) :=
  h.trans ⟨rfl, rfl, rfl, rfl, fun _ _ => rfl, fun _ _ e => State.sq_setSQ_mono t b i e, fun _ _ => rfl⟩

theorem Leaves.setLastErr {u t : State} (h : Leaves u t) (w : W32) : Leaves u (t.setReg 0x700C w) :=
  h.trans ⟨rfl, rfl, rfl, rfl, fun _ hne => t.reg_setReg_ne w hne.symm, fun _ _ e => e, fun _ _ => rfl⟩

theorem Leaves.ite {u t v : State} {c : Prop} [Decidable c] (h : Leaves u t) (k : Leaves u v) : Leaves u (if c then t else v) := by
  split
  · exact h
  · exact k

/-- A completion counts and notes in the registers and counters of the command service alone (R399). -/
theorem countDone_leaves (u : State) (n op status : Nat) : Leaves u (u.countDone n op status) := by
  unfold State.countDone
  extract_lets counted ordered proved
  have hcounted : Leaves u counted :=
    .ite ((Leaves.refl u).count 1 (by decide)) (.ite (((Leaves.refl u).count 1 (by decide)).setSQ 14 2)
      (.ite (Leaves.refl u) ((Leaves.refl u).count 1 (by decide))))
  have hordered : Leaves u ordered := .ite ((hcounted.count 1 (by decide)).setSQ 14 3) hcounted
  have hproved : Leaves u proved := .ite ((hordered.count 1 (by decide)).setSQ 14 5) hordered
  exact .ite hproved (hproved.setLastErr _)

theorem deliver_leaves (u : State) (n : Nat) (ws : List W64) : Leaves u (u.deliver n ws) := by
  obtain ⟨qs, r, h⟩ := u.deliver_same n ws
  rw [h]
  exact ⟨rfl, rfl, rfl, rfl, fun _ _ => rfl, fun _ _ e => e, fun _ _ => rfl⟩

theorem respond_leaves (u : State) (n op : Nat) (tag booth : Byte) (sseq : W32) (fl st de : Nat) (da : List Byte) :
    Leaves u (u.respond n op tag booth sseq fl st de da) := (countDone_leaves u n op st).trans (deliver_leaves _ n _)

/-- The end of a command shows what its effect left (R34, R354). -/
theorem settle_leaves (s u : State) (n : Nat) : Leaves u ((settle s u).outside s n) where
  prg := by rw [State.outside_prg, settle_prg]
  flt := by rw [State.outside_flt, settle_flt]
  slots := by rw [State.outside_mbx, settle_mbx]
  sessions := by rw [State.outside_mbx, settle_mbx]
  reg off _ := by rw [State.outside_reg, settle_reg]
  sq b i e := by rw [State.outside_sq]; exact settle_sq_mono s u e
  total o ho := by rw [State.outside_total, settle_total s u (by omega)]

theorem Leaves.fld {u t : State} (h : Leaves u t) {off : Nat} (hi lo : Nat) (hoff : off ≠ 0x700C) : t.fld off hi lo = u.fld off hi lo :=
  congrArg (bits · hi lo) (h.reg off hoff)

theorem Leaves.task {u t : State} (h : Leaves u t) (i : Nat) : t.task i = u.task i := by unfold State.task; rw [h.prg]

/-! ### A command taken in its turn (R383, R384) -/

/-- What the command itself names objects to nothing (R384). -/
structure CmdSpec.Clear (s : State) (c : CmdSpec) : Prop where
  undef : c.undef = false := by rfl
  absent : c.absent = false := by rfl
  denied : c.denied = false
  authFail : c.authFail = false := by rfl
  lockBlk : c.lockBlk = none := by rfl
  bad : c.bad = none
  changes : c.changes = true → s.trap.role.refuses = false
  busy : c.busy = none := by rfl
  refuse : c.refuse = none := by rfl

theorem admits_headerBad {s : State} {h : Hdr} {c : CmdSpec} {n : Nat} (ha : s.admits h n) : headerBad h c = false := by
  obtain ⟨⟨-, -, hhdr, -⟩, heff, -⟩ := ha
  unfold headerBad
  rw [hhdr, heff]
  rfl

theorem admits_canTake {s : State} {h : Hdr} {c : CmdSpec} (ha : s.admits h c.maxData) : s.draw.canTake h c = true := by
  obtain ⟨⟨-, hcmd, -, -, -, hroom, hfree, -⟩, -⟩ := ha
  exact State.canTake_room s.draw h c hcmd hroom hfree

/-- A command in its turn, of a form the service takes and with nothing of its own against it, passes every check (R384). -/
theorem admits_firstFail {s : State} {h : Hdr} {c : CmdSpec} (ha : s.admits h c.maxData) (hc : c.Clear s) :
    s.draw.firstFail h c = none := by
  have hhdr := admits_headerBad (c := c) ha
  obtain ⟨⟨-, -, -, hpay, htag, -, hfree, -, -, -, hpar, hrun⟩, -, hopen, hseq, hbooth⟩ := ha
  have hnone : (s.mbx.slots.any fun x => x.session == h.session.val && x.tag == h.tag && !x.discard) = false := by
    rw [List.any_eq_false] at htag ⊢
    exact fun x hx e => htag x hx (Bool.and_eq_true_iff.mp e).1
  exact State.firstFail_open s.draw h c hhdr hopen hseq hbooth hnone hpay hpar hrun (by rw [hc.lockBlk]; rfl)
    (Nat.le_trans hfree (s.pathFree_le _)) hc.undef hc.absent hc.denied hc.authFail hc.bad hc.changes hc.busy hc.refuse

/-- The path of the response stands as it was when the command was taken (R379, R383). -/
structure PathKept (s u : State) (h : Hdr) : Prop where
  queues : u.hostp.queues = s.hostp.queues
  resp : u.mbx.resp = s.mbx.resp
  slots : u.mbx.slots = s.mbx.slots
  qEn : ∀ k < 32, u.qEn k = s.qEn k
  expected : (u.sess h.session.val).expected = (s.sess h.session.val).expected + 1
  nest : u.flt.nest = false

theorem PathKept.of_same {s u v : State} {h : Hdr} (k : PathKept s u h) (hq : v.hostp = u.hostp) (hm : v.mbx = u.mbx)
    (hr : v.regs = u.regs) (hf : v.flt = u.flt) : PathKept s v h where
  queues := hq ▸ k.queues
  resp := hm ▸ k.resp
  slots := hm ▸ k.slots
  qEn n hn := by rw [← k.qEn n hn]; unfold State.qEn State.flag State.reg; rw [hr]
  expected := by rw [← k.expected]; unfold State.sess; rw [hm]
  nest := hf ▸ k.nest

/-- A register below the queues' leaves the path (R366). -/
theorem PathKept.setReg {s u : State} {h : Hdr} (k : PathKept s u h) {off : Nat} (w : W32) (ho : off < 0x6840) :
    PathKept s (u.setReg off w) h where
  queues := k.queues
  resp := k.resp
  slots := k.slots
  qEn n hn := (congrArg (bitAt · 31) (u.reg_setReg_ne w (by omega))).trans (k.qEn n hn)
  expected := k.expected
  nest := k.nest

/-- The state `v` that the effect of a command of `s` starts from: the command counted, its session's SSEQ moved on, an identifier taken
(R383, R384). -/
structure Taken (s : State) (h : Hdr) (v : State) : Prop where
  same : ∃ st ct ss m, v = { s.draw with
    stat := st, cnt := ct, mbx := { s.mbx with sessions := ss, slotsMax := m, nextIdent := s.mbx.nextIdent + 1 } }
  total : ∀ o, o < 0x69FC → v.total o = s.total o
  boothOf : v.boothOf h = s.boothOf h
  path : PathKept s v h

theorem admits_taken {s : State} {h : Hdr} {n : Nat} (c : CmdSpec) (ha : s.admits h n) : Taken s h (s.draw.advanceSseq h c).accept := by
  have hhdr := admits_headerBad (c := c) ha
  obtain ⟨⟨hup, -, -, -, -, -, -, -, -, hlen, -⟩, -, hopen, hseq, -⟩ := ha
  have hturn := State.advanceSseq_turn s.draw h c hopen hhdr hseq
  obtain ⟨st, haccept⟩ := State.accept_same (s.draw.advanceSseq h c)
  rw [hturn] at haccept ⊢
  have hsess := lmod_getD_self s.mbx.sessions h.session.val
    (fun _ => { s.sess h.session.val with expected := (s.sess h.session.val).expected + 1 }) {} (by have := h.session.isLt; omega)
  rw [haccept]
  exact ⟨⟨_, _, _, _, rfl⟩, fun o ho => State.total_count_ne _ 1 (by omega),
    (congrArg (fun x : Session => x.booth.toNat) hsess).trans rfl,
    ⟨rfl, rfl, rfl, fun _ _ => rfl, congrArg Session.expected hsess, (State.up_iff.mp hup).2⟩⟩

theorem PathKept.pathFree {s u : State} {h : Hdr} (k : PathKept s u h) (n : Nat) : u.pathFree n = s.pathFree n := by
  unfold State.pathFree State.q
  rw [k.queues, k.resp, k.slots]

/-- A response that fits its reservation stands on the path behind what was there (R379). -/
theorem respond_wrote {s u : State} {h : Hdr} {n : Nat} (ha : s.admits h n) (k : PathKept s u h) (op fl st de : Nat) {da : List Byte}
    (hd : da.length ≤ n) :
    s.wrote (u.respond h.session.val op h.tag h.booth h.sseq fl st de da) h.session.val
      (respPacket op h.tag h.booth h.sseq fl st de da) := by
  obtain ⟨⟨-, -, -, -, -, -, hfree, hen, hlen, -⟩, -⟩ := ha
  have hdone : PathKept s (u.countDone h.session.val op st) h := by
    have hleft := countDone_leaves u h.session.val op st
    obtain ⟨c, s', r, hsame⟩ := u.countDone_same h.session.val op st
    refine ⟨?_, ?_, hleft.slots.trans k.slots, fun j hj => ?_, ?_, ?_⟩
    · rw [hsame]; exact k.queues
    · rw [hsame]; exact k.resp
    · exact (congrArg (bitAt · 31) (hleft.reg (0x6840 + 4 * j) (by omega))).trans (k.qEn j hj)
    · rw [← k.expected]; unfold State.sess; rw [hleft.sessions]
    · rw [hleft.flt]; exact k.nest
  unfold State.wrote State.respond
  split
  next hn =>
    rw [State.deliver_host _ _ hn (hdone.queues ▸ hlen)
      (State.qRoom_resp _ _ _ _ _ _ _ _ _ hn ((hdone.qEn _ (by omega)).trans (hen hn)) (hdone.pathFree _ ▸ hfree) hd)]
    unfold State.q
    rw [hdone.queues]
  next hn => rw [State.deliver_tunnel _ _ hn, hdone.resp]

/-- A command that completes at once: its one response on the path, no slot kept, and what its effect left in `u` (R378, R384, R385). -/
theorem now_reaches {P : State → Prop} {f : State → State} {s : State} {h : Hdr} {c : CmdSpec} {body : State → Res} {st de fl : Nat}
    {da : List Byte} (hf : f s.draw = runCmd h c body s.draw) (ha : s.admits h c.maxData) (hc : c.Clear s) (hd : da.length ≤ c.maxData)
    (hbody : ∀ v, Taken s h v → ∃ u, body v = .now st de da fl u ∧ PathKept s u h ∧ ∀ t,
      s.wrote t h.session.val (respPacket c.opcode h.tag h.booth h.sseq fl st de da) → t.mbx.slots = s.mbx.slots →
        (t.sess h.session.val).expected = (s.sess h.session.val).expected + 1 → Leaves u t → P t) :
    Reaches (live f s) P := by
  have hp : s.sys.powered = true := (State.up_iff.mp ha.1.1).1
  obtain ⟨u, hu, k, hP⟩ := hbody _ (admits_taken c ha)
  have hrun := hf.trans (runCmd_now h c body s.draw (admits_canTake ha) (admits_firstFail ha hc) hu)
  have hleft := respond_leaves u h.session.val c.opcode h.tag h.booth h.sseq fl st de da
  have hwrote := respond_wrote ha k c.opcode fl st de hd
  generalize u.respond h.session.val c.opcode h.tag h.booth h.sseq fl st de da = v at hrun hleft hwrote
  have hend := hleft.trans (settle_leaves s v s.rev)
  refine live_reaches f s hp ?_ ?_ <;> rw [hrun]
  · rw [hleft.flt]; exact k.nest
  · refine hP _ ?_ (hend.slots.trans k.slots) ?_ hend
    · unfold State.wrote at hwrote ⊢
      rw [State.outside_q, settle_q, State.outside_mbx, settle_mbx]
      exact hwrote
    · rw [← k.expected]; unfold State.sess; rw [hend.sessions]

/-- A command that completes at once with OK is answered (R378). -/
theorem ok_reaches {P : State → Prop} {f : State → State} {s : State} {h : Hdr} {c : CmdSpec} {body : State → Res} {fl : Nat}
    {da : List Byte} (hf : f s.draw = runCmd h c body s.draw) (ha : s.admits h c.maxData) (hc : c.Clear s) (hd : da.length ≤ c.maxData)
    (hbody : ∀ v, Taken s h v → ∃ u, body v = .now 0 0 da fl u ∧ PathKept s u h ∧
      ∀ t, s.answered t h c.opcode fl da → Leaves u t → P t) : Reaches (live f s) P :=
  now_reaches hf ha hc hd fun v hv => by
    obtain ⟨u, hu, k, hP⟩ := hbody v hv
    exact ⟨u, hu, k, fun t hwrote hslots hexp hleft => hP t ⟨hwrote, hslots, hexp⟩ hleft⟩

/-- A command that waits keeps its slot, with no response yet, and no effect (R383, R385). -/
theorem later_reaches {P : State → Prop} {f : State → State} {s : State} {h : Hdr} {c : CmdSpec} {body : State → Res} {w : Wait}
    (hf : f s.draw = runCmd h c body s.draw) (ha : s.admits h c.maxData) (hc : c.Clear s)
    (hbody : ∀ v, Taken s h v → body v = .later w v)
    (hP : ∀ t, s.inFlightFor t h c.opcode c.maxData w → t.prg = s.prg → P t) : Reaches (live f s) P := by
  have hp : s.sys.powered = true := (State.up_iff.mp ha.1.1).1
  have hv := admits_taken c ha
  have hrun := hf.trans (runCmd_later h c body s.draw (admits_canTake ha) (admits_firstFail ha hc) (hbody _ hv))
  generalize (s.draw.advanceSseq h c).accept = v at hv hrun
  obtain ⟨⟨st, ct, ss, m, hsame⟩, -, -, k⟩ := hv
  have hident : v.mbx.nextIdent = s.mbx.nextIdent + 1 := by rw [hsame]
  have hns : v.crsl.upNs = s.crsl.upNs := by rw [hsame]; rfl
  have hprg : v.prg = s.prg := by rw [hsame]; rfl
  refine live_reaches f s hp ?_ ?_ <;> rw [hrun]
  · exact k.nest
  · refine hP _ ⟨?_, ?_, ?_, ?_⟩ ?_
    · rw [State.outside_mbx, settle_mbx]
      dsimp only
      rw [k.slots, hns, hident]
    · rw [State.outside_sess, settle_sess]; exact k.expected
    · rw [State.outside_hostp, settle_hostp_queues]; exact k.queues
    · rw [State.outside_mbx, settle_mbx]; exact k.resp
    · rw [State.outside_prg, settle_prg]; exact hprg

end Sys2Proof.Machine
end

section
/-! SUPPORT. Chapter 02: images, exchanges, tasks and variables by command (O36). -/
namespace Sys2Proof.Machine

/-! ### What the effect of a command of the programs starts from -/

section
variable {s v : State} {h : Hdr} (hv : Taken s h v)
include hv

theorem Taken.nextIdent : v.mbx.nextIdent = s.mbx.nextIdent + 1 := by
  obtain ⟨_, _, _, _, e⟩ := hv.same; rw [e]

theorem Taken.prg : v.prg = s.prg := by
  obtain ⟨_, _, _, _, e⟩ := hv.same; rw [e]; rfl

theorem Taken.rev : v.rev = s.rev := by
  obtain ⟨_, _, _, _, e⟩ := hv.same; rw [e]; rfl

theorem Taken.task (i : Nat) : v.task i = s.task i := by unfold State.task; rw [hv.prg]

theorem Taken.imageReason (booth own b : Nat) (img : Option Image) (swb : Bool) :
    v.imageReason booth own b img swb = s.imageReason booth own b img swb := by
  obtain ⟨_, _, _, _, e⟩ := hv.same; rw [e]; rfl

theorem Taken.swbTooSoon (b : Nat) : v.swbTooSoon b = s.swbTooSoon b := by
  obtain ⟨_, _, _, _, e⟩ := hv.same; rw [e]; rfl

theorem Taken.disarmable (booth : Nat) : v.disarmable booth = s.disarmable booth := by
  obtain ⟨_, _, _, _, e⟩ := hv.same; rw [e]; rfl

theorem Taken.restartable (i : Nat) : v.restartable i = s.restartable i := by
  obtain ⟨_, _, _, _, e⟩ := hv.same; rw [e]; rfl

theorem Taken.varsData (booth : Nat) (ids : List W64) : v.varsData booth ids = s.draw.varsData booth ids := by
  obtain ⟨_, _, _, _, e⟩ := hv.same; rw [e]; rfl

/-- No command waits ahead on a booth's images where none waited on them before this one was taken (R385). -/
theorem Taken.imagePending_false {booth : Nat} (hpend : s.imagePending (s.mbx.nextIdent + 1) booth = false) :
    ¬v.imagePending v.mbx.nextIdent booth = true := by
  have hsame : v.imagePending (s.mbx.nextIdent + 1) booth = s.imagePending (s.mbx.nextIdent + 1) booth := by
    obtain ⟨_, _, _, _, e⟩ := hv.same; rw [e]; rfl
  rw [hv.nextIdent, hsame, hpend]
  exact Bool.false_ne_true

end

/-- A command objects to nothing where its condition to refuse does not hold (R384). -/
theorem State.openDetail_false (s : State) {b : Bool} (h : b = false) : s.openDetail b = none := by rw [h]; rfl

/-- What a command on a booth's images names for the checks of R384. -/
def imageSpec (s : State) (h : Hdr) (booth op n : Nat) (bad refuse : Option Nat) : CmdSpec :=
  { opcode := op, maxData := n, changes := true, denied := s.notImageBooth h booth, bad, refuse }

/-- Such a command of its own booth's session is served (R389). -/
theorem imageSpec_clear {s : State} {h : Hdr} {booth : Nat} (hown : s.boothIs h booth = true) (hrole : s.trap.role.refuses = false)
    (op n : Nat) {bad refuse : Option Nat} (hbad : bad = none) (hrefuse : refuse = none) :
    (imageSpec s.draw h booth op n bad refuse).Clear s where
  denied := congrArg (!·) hown
  bad := hbad
  changes _ := hrole
  refuse := hrefuse

/-! ### Images (R132, R136, R158, R389) -/

theorem State.noteOut_same (s : State) (f : SyncChange → SyncChange) : ∃ tr, s.noteOut f = { s with trap := tr } := by
  unfold State.noteOut
  split
  · exact ⟨_, rfl⟩
  · exact ⟨s.trap, rfl⟩

theorem stageRes_stages (booth slot off : Nat) (bytes : List Byte) (v : State) : ∃ tr, stageRes booth slot off bytes v =
    okRes [] { v with trap := tr, prg := { v.prg with
      staged := sset [] v.prg.staged slot (stageBytes (sget [] v.prg.staged slot) off bytes) } } := by
  unfold stageRes
  extract_lets new _ u
  obtain ⟨tr, h⟩ := u.noteOut_same fun (c : SyncChange) => { c with stages := c.stages ++ [{ booth, slot, off, bytes }] }
  rw [h]
  exact ⟨tr, rfl⟩

theorem imageStage_reaches (s : State) (h : Hdr) {booth slot : Nat} (hb : booth ≤ 254) (hs : slot ≤ 7) (hown : s.boothIs h booth = true)
    (hrole : s.trap.role.refuses = false) (hpend : s.imagePending (s.mbx.nextIdent + 1) booth = false) (off : Nat) (bytes : List Byte)
    (ha : s.admits h 0) (hend : off + bytes.length ≤ 1048576) :
    Reaches (exec (.imageStage h booth slot off bytes) s) fun t => s.answered t h 0x0401 0 [] ∧
      sget [] t.prg.staged slot = stageBytes (sget [] s.prg.staged slot) off bytes ∧ t.prg.active = s.prg.active := by
  have hbad : (if 254 < booth then some 0 else if 7 < slot then some 1 else if 1048576 < off + bytes.length then some 4 else none) = none :=
    (if_neg (by omega)).trans ((if_neg (by omega)).trans (if_neg (by omega)))
  refine ok_reaches (f := fun s => cmdImageStage h booth slot off bytes s) (fl := 0) (da := []) rfl ha (imageSpec_clear hown hrole 0x0401 0 hbad rfl)
    (Nat.zero_le _) fun v hv => ?_
  obtain ⟨tr, hstage⟩ := stageRes_stages booth slot off bytes v
  refine ⟨_, (if_neg (hv.imagePending_false hpend)).trans hstage, hv.path.of_same rfl rfl rfl rfl, fun t hans hleft => ⟨hans, ?_, ?_⟩⟩
  · rw [hleft.prg, ← hv.prg]; exact sget_sset_self ..
  · rw [hleft.prg, ← hv.prg]

/-- An image that passes its checks waits to be activated (R136, R389). -/
theorem imageLoad_waits (s : State) (h : Hdr) {booth slot : Nat} (hb : booth ≤ 254) (hs : slot ≤ 7) (hown : s.boothIs h booth = true)
    (hrole : s.trap.role.refuses = false) (ha : s.admits h 8) (hload : s.loadable booth = true) (i : Image)
    (himg : parseImage (sget [] s.prg.staged slot) = some i)
    (hreason : s.imageReason booth (s.boothOf h) s.rev (parseImage (sget [] s.prg.staged slot)) false = none) :
    Reaches (exec (.imageLoad h booth slot) s) fun t => s.inFlightFor t h 0x0402 8 (.image booth slot i) ∧ t.prg = s.prg := by
  have hbad : (if 254 < booth then some 0 else if 7 < slot then some 1 else none) = none := (if_neg (by omega)).trans (if_neg (by omega))
  refine later_reaches (f := fun s => cmdImageLoad h booth slot s) rfl ha
    (imageSpec_clear hown hrole 0x0402 8 hbad (s.draw.openDetail_false (congrArg (!·) hload))) (fun v hv => ?_)
    fun t hwait hprg => ⟨hwait, hprg⟩
  dsimp only
  rw [hv.imageReason, hv.boothOf, hv.rev, hv.prg, hreason, himg]

/-- A refused image is shown with its REASON and counted (R136). -/
theorem imageRefused_pathKept {s u : State} {h : Hdr} (k : PathKept s u h) (r : Nat) : PathKept s (u.imageRefused r) h :=
  (k.setReg (off := 0x3008) (setBits (u.reg 0x3008) 27 24 r) (by decide)).of_same rfl rfl rfl rfl

theorem imageLoad_refused (s : State) (h : Hdr) {booth slot : Nat} (hb : booth ≤ 254) (hs : slot ≤ 7) (hown : s.boothIs h booth = true)
    (hrole : s.trap.role.refuses = false) (ha : s.admits h 8) (hload : s.loadable booth = true) (r : Nat)
    (hreason : s.imageReason booth (s.boothOf h) s.rev (parseImage (sget [] s.prg.staged slot)) false = some r) :
    Reaches (exec (.imageLoad h booth slot) s) fun t => s.turnedDown t h 0x0402 0 0x0E r [] ∧ t.prg = s.prg ∧ t.sq 6 6 = true ∧
      t.total 0x3084 = s.total 0x3084 + 1 := by
  have hbad : (if 254 < booth then some 0 else if 7 < slot then some 1 else none) = none := (if_neg (by omega)).trans (if_neg (by omega))
  refine now_reaches (f := fun s => cmdImageLoad h booth slot s) (st := 0x0E) (de := r) (fl := 0) (da := []) rfl ha
    (imageSpec_clear hown hrole 0x0402 8 hbad (s.draw.openDetail_false (congrArg (!·) hload))) (Nat.zero_le _) fun v hv => ?_
  refine ⟨v.imageRefused r, ?_, imageRefused_pathKept hv.path r,
    fun t hwrote hslots _ hleft => ⟨⟨hwrote, hslots⟩, hleft.prg.trans hv.prg, hleft.sq 6 6 (State.sq_setSQ_self _ 6 6), ?_⟩⟩
  · dsimp only
    rw [hv.imageReason, hv.boothOf, hv.rev, hv.prg, hreason]
  · rw [hleft.total _ (by decide), ← hv.total _ (by decide)]
    exact State.total_count _ _ 1

theorem unreleasable_false {s : State} {booth : Nat}
    (h : (s.prg.retired.any fun e => e.1 == booth) = false ∨ sget false s.prg.durable booth = true) : s.unreleasable booth = false := by
  unfold State.unreleasable
  obtain hnone | hdurable := h
  · rw [hnone]; rfl
  · rw [hdurable]; exact Bool.and_false _

theorem imageRelease_reaches (s : State) (h : Hdr) {booth : Nat} (hb : booth ≤ 254) (hown : s.boothIs h booth = true)
    (hrole : s.trap.role.refuses = false) (hpend : s.imagePending (s.mbx.nextIdent + 1) booth = false) (ha : s.admits h 0)
    (hfree : (s.prg.retired.any fun e => e.1 == booth) = false ∨ sget false s.prg.durable booth = true) :
    Reaches (exec (.imageRelease h booth) s) fun t => s.answered t h 0x0405 0 [] ∧
      t.prg.retired = s.prg.retired.filter (fun e => e.1 != booth) ∧
      t.total 0x30BC = s.total 0x30BC + (s.prg.retired.filter fun e => e.1 == booth).length ∧
      t.prg.tasks = s.prg.tasks.filter fun e => !(e.2.booth == booth && e.2.state == TaskState.retired) := by
  have hbad : (if 254 < booth then some 0 else none) = none := if_neg (by omega)
  have hrefuse : (!s.imagePending (s.mbx.nextIdent + 1) booth && s.unreleasable booth) = false := by
    rw [unreleasable_false hfree, Bool.and_false]
  refine ok_reaches (f := fun s => cmdImageRelease h booth s) (fl := 0) (da := []) rfl ha
    (imageSpec_clear hown hrole 0x0405 0 hbad (s.draw.openDetail_false hrefuse)) (Nat.zero_le _) fun v hv => ?_
  have hheld : ¬v.unreleasable booth = true := by
    rw [unreleasable_false (by rw [hv.prg]; exact hfree)]; exact Bool.false_ne_true
  refine ⟨_, (if_neg (hv.imagePending_false hpend)).trans (if_neg hheld), hv.path.of_same rfl rfl rfl rfl,
    fun t hans hleft => ⟨hans, ?_, ?_, ?_⟩⟩
  · rw [hleft.prg, ← hv.prg]; rfl
  · rw [hleft.total _ (by decide), ← hv.total _ (by decide), ← hv.prg]
    exact State.total_count ..
  · rw [hleft.prg, ← hv.prg]; rfl

/-! ### Exchanges (R153, R389) -/

theorem find?_sput {α : Type} (m : Sparse α) (k : Nat) (x : α) : ((sput m k x).find? fun e => e.1 == k) = some (k, x) := by
  induction m with
  | nil => exact List.find?_cons_of_pos (beq_self_eq_true k)
  | cons y l ih =>
    obtain ⟨k', y'⟩ := y
    unfold sput
    split
    · exact List.find?_cons_of_pos (beq_self_eq_true k)
    · split
      · exact List.find?_cons_of_pos (beq_self_eq_true k)
      next hne => rw [List.find?_cons_of_neg (by rw [beq_iff_eq]; exact Ne.symm hne)]; exact ih

/-- An image that passes its checks, for a boundary far enough ahead, is armed for it, shown and counted (R153). -/
theorem armRes_arms {v : State} (ident : Nat) {booth slot own : Nat} {b : W64} {eff : Option W64} {i : Image} (heff : eff = none)
    (himg : parseImage (sget [] v.prg.staged slot) = some i) (hreason : v.imageReason booth own b.toNat (some i) true = none)
    (hsoon : v.swbTooSoon b.toNat = false) :
    ∃ w, armRes ident booth slot own b eff v = .now 0 0 (leBytes 8 b.toNat) 0
      (((({ v with prg := { v.prg with armed := sput v.prg.armed booth { slot, image := i, boundary := b.toNat, dropped := 0 } } } :
        State).setReg 0x3008 w).setPair 0x300C b.toNat).count 0x3088 1) := by
  have hat : v.swbBoundary none b = (b.toNat, false) := rfl
  subst heff
  unfold armRes
  extract_lets img at_
  rw [show img = some i from himg, show at_ = (b.toNat, false) from hat, hreason]
  dsimp -zeta only
  rw [hsoon]
  exact ⟨_, rfl⟩

theorem swbArm_reaches (s : State) (h : Hdr) {booth slot : Nat} (hb : booth ≤ 254) (hs : slot ≤ 7) (hown : s.boothIs h booth = true)
    (hrole : s.trap.role.refuses = false) (hpend : s.imagePending (s.mbx.nextIdent + 1) booth = false) (b : W64) (i : Image)
    (ha : s.admits h 8) (himg : parseImage (sget [] s.prg.staged slot) = some i)
    (hreason : s.imageReason booth (s.boothOf h) b.toNat (some i) true = none) (hsoon : s.swbTooSoon b.toNat = false) :
    Reaches (exec (.swbArm h booth slot b) s) fun t => s.answered t h 0x0403 0 (leBytes 8 b.toNat) ∧
      t.total 0x3088 = s.total 0x3088 + 1 ∧
      (t.prg.armed.find? fun e => e.1 == booth) = some (booth, { slot, image := i, boundary := b.toNat, dropped := 0 }) := by
  have heff : h.eff = none := ha.2.1
  have hearly : s.draw.badEff h = none := by unfold State.badEff; rw [heff]
  have hbad : (if (s.draw.badEff h).isSome then s.draw.badEff h
      else if 254 < booth then some (Hdr.off h 0) else if 7 < slot then some (Hdr.off h 1) else none) = none := by
    rw [hearly]; exact (if_neg Bool.false_ne_true).trans ((if_neg (by omega)).trans (if_neg (by omega)))
  have hbusy : (if h.eff.isSome ∧ s.draw.schedRoom [.swb booth] = false then some 0x10 else none) = none := by rw [heff]; rfl
  have hclear := imageSpec_clear hown hrole 0x0403 8 hbad rfl
  refine ok_reaches (f := fun s => cmdSwbArm h booth slot b s) (fl := 0) rfl ha { hclear with busy := hbusy } (leBytes_length 8 b.toNat).le
    fun v hv => ?_
  obtain ⟨w, harm⟩ := armRes_arms (v := v) v.mbx.nextIdent (own := v.boothOf h) (b := b) heff (by rw [hv.prg]; exact himg)
    (by rw [hv.imageReason, hv.boothOf]; exact hreason) (by rw [hv.swbTooSoon]; exact hsoon)
  refine ⟨_, (if_neg (hv.imagePending_false hpend)).trans harm, ?_, fun t hans hleft => ⟨hans, ?_, ?_⟩⟩
  · exact (((hv.path.of_same rfl rfl rfl rfl).setReg w (off := 0x3008) (by decide)).setReg _ (off := 0x300C) (by decide)).setReg _
      (off := 0x3010) (by decide) |>.of_same rfl rfl rfl rfl
  · rw [hleft.total _ (by decide), ← hv.total _ (by decide)]
    exact State.total_count ..
  · rw [hleft.prg]
    exact find?_sput ..

theorem swbDisarm_reaches (s : State) (h : Hdr) {booth : Nat} (hb : booth ≤ 254) (hown : s.boothIs h booth = true)
    (hrole : s.trap.role.refuses = false) (hpend : s.imagePending (s.mbx.nextIdent + 1) booth = false) (ha : s.admits h 0)
    (hd : s.disarmable booth = true) :
    Reaches (exec (.swbDisarm h booth) s) fun t => s.answered t h 0x0404 0 [] ∧ t.prg.armed = serase s.prg.armed booth ∧
      t.fld 0x3008 31 30 = 0 := by
  have hbad : (if 254 < booth then some 0 else none) = none := if_neg (by omega)
  have hrefuse : (!s.imagePending (s.mbx.nextIdent + 1) booth && !s.disarmable booth) = false := by
    rw [hd, Bool.not_true, Bool.and_false]
  refine ok_reaches (f := fun s => cmdSwbDisarm h booth s) (fl := 0) (da := []) rfl ha
    (imageSpec_clear hown hrole 0x0404 0 hbad (s.draw.openDetail_false hrefuse)) (Nat.zero_le _) fun v hv => ?_
  let u : State := { v with
    prg := { v.prg with armed := serase v.prg.armed booth }
    mbx := { v.mbx with sched := v.mbx.sched.filter fun (x : Sched) => x.target != Target.swb booth } }
  have hwithdrawn : PathKept s u h := ⟨hv.path.queues, hv.path.resp, hv.path.slots, hv.path.qEn, hv.path.expected, hv.path.nest⟩
  refine ⟨_, (if_neg (hv.imagePending_false hpend)).trans (if_pos (by rw [hv.disarmable]; exact hd)),
    hwithdrawn.setReg (off := 0x3008) _ (by decide), fun t hans hleft => ⟨hans, ?_, ?_⟩⟩
  · rw [hleft.prg, ← hv.prg]; rfl
  · rw [hleft.fld 31 30 (by decide)]
    exact State.fld_setFld_self u 0x3008 0 (by decide)

/-! ### Tasks (R60, R143, R389) -/

/-- Stopping a task leaves the registers, the command service, the host port and the fault unit (R143). -/
theorem stopTask_same (s : State) (i : Nat) (x : TaskState) : ∃ l n c p st,
    s.stopTask i x = { s with ledger := l, cnt := n, crsl := c, prg := p, stat := st } := by
  obtain ⟨l, n, hdrop⟩ := (dropWriter_dropsOnly s (.task i)).same
  unfold State.stopTask
  dsimp only
  rw [hdrop]
  split
  · exact ⟨s.ledger, s.cnt, s.crsl, s.prg, s.stat, rfl⟩
  · split
    · exact ⟨_, _, _, _, _, rfl⟩
    · exact ⟨l, n, _, _, s.stat, rfl⟩

/-- Stopping a running task shows it in TASK_STOP of PRG_STATUS (R143). -/
theorem stopTask_sq {s : State} {i : Nat} (x : TaskState) (h : (s.task i).state = .running) : (s.stopTask i x).sq 6 0 = true := by
  unfold State.stopTask
  dsimp only
  rw [if_neg (by rw [h]; decide), if_pos h]
  exact State.sq_setSQ_self _ 6 0

/-- What a command on a task names for the checks of R384. -/
theorem taskSpec_clear {s : State} {h : Hdr} {i : Nat} (hi : i < 256) (hbooth : s.taskBooth h i = true)
    (hrole : s.trap.role.refuses = false) (op : Nat) {refuse : Option Nat} (hrefuse : refuse = none) :
    CmdSpec.Clear s { opcode := op, changes := true, denied := !s.draw.taskBooth h i, bad := if 255 < i then some 0 else none, refuse } where
  denied := congrArg (!·) hbooth
  bad := if_neg (by omega)
  changes _ := hrole
  refuse := hrefuse

theorem taskStop_reaches (s : State) (h : Hdr) {i : Nat} (hi : i < 256) (hrole : s.trap.role.refuses = false) (ha : s.admits h 0)
    (hbooth : s.taskBooth h i = true) (hpend : s.imagePending (s.mbx.nextIdent + 1) (s.task i).booth = false)
    (hrun : (s.task i).state = .running) :
    Reaches (exec (.taskStop h i) s) fun t => s.answered t h 0x0406 0 [] ∧ (t.task i).state = .stoppedCmd ∧ t.sq 6 0 = true ∧
      t.total 0x30B4 = s.total 0x30B4 + 1 := by
  refine ok_reaches (f := fun s => cmdTaskStop h i s) (fl := 0) (da := []) rfl ha (taskSpec_clear hi hbooth hrole 0x0406 rfl) (Nat.zero_le _) fun v hv => ?_
  have hvrun : (v.task i).state = .running := by rw [hv.task]; exact hrun
  have hstop : taskStopRes i v = okRes [] ((v.stopTask i .stoppedCmd).count 0x30B4 1) := by unfold taskStopRes; rw [if_pos hvrun]
  obtain ⟨l, n, c, p, st, hsame⟩ := stopTask_same v i .stoppedCmd
  refine ⟨_, (if_neg (by rw [hv.task]; exact hv.imagePending_false hpend)).trans hstop, ?_, fun t hans hleft => ⟨hans, ?_, ?_, ?_⟩⟩
  · rw [hsame]; exact hv.path.of_same rfl rfl rfl rfl
  · rw [hleft.task, State.task, State.count_prg, ← State.task,
      stopTask_task_self v i .stoppedCmd (by rw [hvrun]; decide) (by rw [hvrun]; decide)]
  · exact hleft.sq 6 0 (stopTask_sq .stoppedCmd hvrun)
  · rw [hleft.total _ (by decide), State.total_count, stopTask_total_ne v i _ (by decide), hv.total _ (by decide)]

theorem restartable_of_stopped {s : State} {i : Nat} (hstop : (s.task i).state = .stoppedCmd ∨ (s.task i).state = .stoppedOverrun)
    (hjug : s.sys.jugState.getD (s.task i).jug 0 ≠ 2) : s.restartable i = true :=
  Bool.and_eq_true_iff.mpr ⟨decide_eq_true (.inr hstop), decide_eq_true hjug⟩

/-- TASK_RESTART as the service carries it out: its own check, and its effect (R60, R143). -/
theorem cmdTaskRestart_eq (h : Hdr) (i : Nat) (s : State) : cmdTaskRestart h i s =
    runCmd h { opcode := 0x0407, changes := true, denied := !s.taskBooth h i, bad := if 255 < i then some 0 else none
               refuse := s.openDetail (!s.imagePending (s.mbx.nextIdent + 1) (s.task i).booth && !s.restartable i) }
      (fun s => if s.imagePending s.mbx.nextIdent (s.task i).booth then .later (.taskRestart i) s else taskRestartRes i s) s := by
  unfold cmdTaskRestart; rfl

theorem taskRestart_reaches (s : State) (h : Hdr) {i : Nat} (hi : i < 256) (hrole : s.trap.role.refuses = false) (ha : s.admits h 0)
    (hbooth : s.taskBooth h i = true) (hpend : s.imagePending (s.mbx.nextIdent + 1) (s.task i).booth = false)
    (hstop : (s.task i).state = .stoppedCmd ∨ (s.task i).state = .stoppedOverrun) (hjug : s.sys.jugState.getD (s.task i).jug 0 ≠ 2) :
    Reaches (exec (.taskRestart h i) s) fun t => s.answered t h 0x0407 0 [] ∧ t.task i = { s.task i with state := .running } ∧
      t.total 0x30B0 = s.total 0x30B0 + 1 := by
  have hfit := restartable_of_stopped (s := s.draw) hstop hjug
  have hrefuse : (!s.draw.imagePending (s.draw.mbx.nextIdent + 1) (s.draw.task i).booth && !s.draw.restartable i) = false := by
    rw [hfit, Bool.not_true, Bool.and_false]
  refine ok_reaches (f := fun s => cmdTaskRestart h i s) (fl := 0) (da := []) (cmdTaskRestart_eq h i s.draw) ha
    (taskSpec_clear hi hbooth hrole 0x0407 (s.draw.openDetail_false hrefuse)) (Nat.zero_le _) fun v hv => ?_
  have hidle : ¬(v.task i).state = .running := by
    rw [hv.task]; obtain h | h := hstop <;> rw [h] <;> decide
  have hstart : taskRestartRes i v = okRes [] ((v.setTask i { v.task i with state := .running }).count 0x30B0 1) := by
    unfold taskRestartRes; rw [hv.restartable, if_pos (restartable_of_stopped hstop hjug), if_neg hidle]
  refine ⟨_, (if_neg (by rw [hv.task]; exact hv.imagePending_false hpend)).trans hstart, hv.path.of_same rfl rfl rfl rfl,
    fun t hans hleft => ⟨hans, ?_, ?_⟩⟩
  · rw [hleft.task, ← hv.task]
    exact State.task_setTask_self v i _
  · rw [hleft.total _ (by decide), ← hv.total _ (by decide)]
    exact State.total_count ..

/-! ### Variables (R389) -/

/-- VAR_READ answers 16 bytes for each identifier (R389). -/
theorem varsData_length (s : State) (booth : Nat) (ids : List W64) : (s.varsData booth ids).length = 16 * ids.length := by
  have hone : ∀ syms id, (s.varData syms id).length = 16 := fun syms id => by
    unfold State.varData
    split
    · exact List.length_replicate
    · simp only [List.length_append, List.length_cons, List.length_nil, List.length_replicate, leBytes_length]
  unfold State.varsData
  dsimp only
  rw [List.length_flatMap, List.map_congr_left fun id _ => hone _ id, List.map_const', List.sum_replicate, smul_eq_mul, Nat.mul_comm]

theorem varRead_reaches (s : State) (h : Hdr) {booth : Nat} {ids : List W64} (hb : booth ≤ 254) (hown : s.boothIs h booth = true)
    (hne : ids ≠ []) (hlen : ids.length ≤ 32) (ha : s.admits h (16 * ids.length)) (hslots : s.mbx.slots = []) :
    Reaches (exec (.varRead h booth ids) s) fun t => s.answered t h 0x0408 0 (s.draw.varsData booth ids) ∧ t.prg = s.prg := by
  have hpend : s.imagePending (s.mbx.nextIdent + 1) booth = false := by unfold State.imagePending; rw [hslots]; rfl
  have hbad : (if 254 < booth then some 0 else if ids.isEmpty ∨ 32 < ids.length then some 1 else none) = none :=
    (if_neg (by omega)).trans (if_neg (not_or.mpr ⟨by rw [List.isEmpty_iff]; exact hne, by omega⟩))
  have hclear : CmdSpec.Clear s { opcode := 0x0408, maxData := 16 * ids.length, denied := s.draw.notImageBooth h booth, bad := _ } :=
    { denied := congrArg (!·) hown, bad := hbad, changes := fun e => Bool.noConfusion e }
  refine ok_reaches (f := fun s => cmdVarRead h booth ids s) rfl ha hclear (varsData_length s.draw booth ids).le fun v hv =>
    ⟨v, (if_neg (hv.imagePending_false hpend)).trans ?_, hv.path, fun t hans hleft => ⟨hans, hleft.prg.trans hv.prg⟩⟩
  rw [hv.varsData]
  rfl

end Sys2Proof.Machine

open Sys2Proof.Machine

/-- Settles O36, a command a clause. -/
theorem programCommands : Obligations.ProgramCommands :=
  ⟨fun s h _ _ hb hs hown hrole hpend =>
    ⟨fun off bytes ha _ => imageStage_reaches s h hb hs hown hrole hpend off bytes ha,
      fun ha hload => ⟨fun i himg => imageLoad_waits s h hb hs hown hrole ha hload i himg, imageLoad_refused s h hb hs hown hrole ha hload⟩,
      swbArm_reaches s h hb hs hown hrole hpend, swbDisarm_reaches s h hb hown hrole hpend, imageRelease_reaches s h hb hown hrole hpend⟩,
    fun s h hrole =>
    ⟨fun _ hi ha hbooth hpend => ⟨taskStop_reaches s h hi hrole ha hbooth hpend, taskRestart_reaches s h hi hrole ha hbooth hpend⟩,
      fun _ _ hb hown => varRead_reaches s h hb hown⟩⟩
end

section
/-! SUPPORT. Chapter 03: point records as reads verify them and engines write them, forces and config accesses at a boundary (O33). -/
namespace Sys2Proof.Machine

/-! ### Records verified by a read (R92, R93) -/

/-- A record met with a wrong CRC: QUALITY 85h over a fresh CRC (R93). -/
def PRec.marked (r : PRec) : PRec := ({ r with quality := 0x85 } : PRec).sealed

theorem State.point_of_pnt {s t : State} (h : t.pnt = s.pnt) (q : Nat) : t.point q = s.point q := by unfold State.point; rw [h]

theorem State.storeRec_point_self (s : State) (p : Nat) (r : PRec) : (s.storeRec p r).point p = r := sget_sset_self _ _ _ _

/-- A record stored leaves every other point, whose default record may be another one (R71). -/
theorem State.storeRec_point_ne (s : State) {p q : Nat} (r : PRec) (h : p ≠ q) : (s.storeRec p r).point q = s.point q := by
  unfold State.point State.storeRec sset
  dsimp only
  split
  · exact sget_serase_ne _ _ h
  · exact sget_sput_ne _ _ _ h

/-- What a read of a record sees: the record, or the record marked (R93). -/
theorem State.readRec_cases (s : State) (p : Nat) : s.readRec p = s.point p ∨ s.readRec p = (s.point p).marked := by
  unfold State.readRec
  dsimp only
  split
  · exact .inl rfl
  · exact .inr rfl

/-- `t` is `s` once a read has verified the record of `p` (R92): the record may be marked or noted, and a mismatch logged and counted. -/
structure Verified (s : State) (p : Nat) (t : State) : Prop where
  same : ∃ pts found f c st,
    t = { s with pnt := { s.pnt with points := pts, crcFound := found }, flt := f, cnt := c, stat := st }
  nest : t.flt.nest = s.flt.nest
  point : t.point p = s.point p ∨ t.point p = (s.point p).marked
  other : ∀ q, q ≠ p → t.point q = s.point q

theorem Verified.refl (s : State) (p : Nat) : Verified s p s := ⟨⟨_, _, _, _, _, rfl⟩, rfl, .inl rfl, fun _ _ => rfl⟩

theorem badRecord_verified (s : State) (p : Nat) : Verified s p (s.badRecord p) := by
  unfold State.badRecord
  dsimp only
  split
  · exact Verified.refl s p
  next =>
    let u : State := { s with pnt := { s.pnt with crcFound := s.pnt.crcFound.filter fun q => q != p } }
    have hlog := (report_logOnly (u.storeRec p (s.point p).marked) .warn 3 2 0xFF p).count 0x18B0 1
    have hpoint := fun q => State.point_of_pnt (q := q) (t := ((u.storeRec p (s.point p).marked).report .warn 3 2 0xFF p).count 0x18B0 1)
      (s := u.storeRec p (s.point p).marked) (by obtain ⟨_, _, _, e⟩ := hlog.same; rw [e])
    refine ⟨?_, raise_nest _ _ _ _ _ _ (by decide), .inr ?_, fun q hq => ?_⟩
    · obtain ⟨f, c, st, e⟩ := hlog.same
      exact ⟨_, _, f, c, st, e⟩
    · exact (hpoint p).trans (u.storeRec_point_self p _)
    · exact (hpoint q).trans (u.storeRec_point_ne _ hq.symm)

theorem verifyRead_verified (s : State) (p : Nat) : Verified s p (s.verifyRead p) := by
  unfold State.verifyRead
  split
  · exact Verified.refl s p
  · split
    · exact badRecord_verified s p
    · split
      · exact Verified.refl s p
      · exact ⟨⟨_, _, _, _, _, rfl⟩, rfl, .inl rfl, fun _ _ => rfl⟩

/-- A verified record reads as it was, or marked. -/
theorem State.readRec_verifyRead (s : State) (p : Nat) :
    (s.verifyRead p).readRec p = s.point p ∨ (s.verifyRead p).readRec p = (s.point p).marked := by
  obtain hread | hread := (s.verifyRead p).readRec_cases p <;> obtain hpoint | hpoint := (verifyRead_verified s p).point
  all_goals rw [hread, hpoint]
  · exact .inl rfl
  all_goals exact .inr rfl

theorem State.readRec_verifyRead_of_sound {s : State} {p : Nat} (h : s.sound p) : (s.verifyRead p).readRec p = s.point p := by
  rw [State.verifyRead_of_sound h]; exact if_pos h.1

/-! ### Records written (R67, R92) -/

/-- A record written stands with its CHG and CRC brought up to date. -/
theorem State.writeRec_stored (s : State) (p : Nat) (r : PRec) :
    ∃ n, (s.writeRec p r).point p = ({ r with chg := n } : PRec).sealed := by
  unfold State.writeRec
  rw [State.storeRec_point_self]
  split <;> exact ⟨_, rfl⟩

/-! ### What the end of an access at a boundary leaves -/

/-- A response leaves the points (R399). -/
theorem State.respond_pnt (s : State) (n op : Nat) (tag booth : Byte) (sseq : W32) (fl st de : Nat) (da : List Byte) :
    (s.respond n op tag booth sseq fl st de da).pnt = s.pnt := by
  obtain ⟨_, _, _, _, _, e⟩ := s.respond_same n op tag booth sseq fl st de da; rw [e]

/-- A completion leaves the points (R399). -/
theorem State.complete_pnt (s : State) (x : Slot) (status detail : Nat) (data : List Byte) :
    (s.complete x status detail data).pnt = s.pnt := by
  unfold State.complete State.completeAs
  dsimp only
  split
  · obtain ⟨_, _, _, e⟩ := State.countDone_same _ x.session x.opcode status
    rw [e]
  · exact State.respond_pnt ..

theorem State.noteOut_pnt (s : State) (f : SyncChange → SyncChange) : (s.noteOut f).pnt = s.pnt := by
  obtain ⟨_, e⟩ := s.noteOut_same f; rw [e]

/-! ### Forces (R87, R88) -/

theorem State.freeForce_of_forces {s t : State} (h : t.pnt.forces = s.pnt.forces) : t.freeForce = s.freeForce := by
  unfold State.freeForce State.force; rw [h]

theorem verifyRead_forces (s : State) (p : Nat) : (s.verifyRead p).pnt.forces = s.pnt.forces := by
  obtain ⟨_, _, _, _, _, e⟩ := (verifyRead_verified s p).same; rw [e]

theorem forced_verifyRead (s : State) (p : Nat) : ((s.verifyRead p).readRec p).forced = (s.point p).forced :=
  (s.readRec_verifyRead p).elim (congrArg PRec.forced) (congrArg PRec.forced)

/-- A force command that the check allows enters its force, a point that is not forced in the lowest free entry (R87). -/
theorem applyForce_pnt {s : State} {x : Slot} {p : Nat} {v : W64} {b i : Nat} (ha : s.check x.booth.toNat .force p false false = .allow)
    (hf : (s.point p).forced = false) (hi : s.freeForce = some i) :
    (s.applyForce x p v b).pnt = ((s.verifyRead p).enterForce p v x.booth i ((s.verifyRead p).stampAt 0)).pnt := by
  have hindex : (s.verifyRead p).forceIndex p = some i := by
    unfold State.forceIndex
    rw [forced_verifyRead, hf, State.freeForce_of_forces (verifyRead_forces s p)]
    exact hi
  unfold State.applyForce
  rw [ha]
  dsimp only
  rw [hindex]
  exact (State.complete_pnt ..).trans (State.noteOut_pnt ..)

/-- The record of a point that is no output, as its force is entered (R73, R88). -/
theorem forcedRec_software {s : State} {p : Nat} (e : Force) (i : Nat) (h : isOutput (s.readRec p).src = false) :
    s.forcedRec p e i = { s.readRec p with
      forced := true, fidx := BitVec.ofNat 10 i, stamp := e.stamp, orphan := e.orphan, value := e.value
      quality := if (s.readRec p).quality = 0x43 then 0 else (s.readRec p).quality } := if_neg (ne_true_of_eq_false h)

theorem enterForce_software {s : State} {p : Nat} (v : W64) (setter : Byte) (i : Nat) (ts : Stamp)
    (h : isOutput (s.readRec p).src = false) :
    ((s.enterForce p v setter i ts).point p).value = v ∧ ((s.enterForce p v setter i ts).point p).forced = true ∧
      ((s.enterForce p v setter i ts).point p).quality = if (s.readRec p).quality = 0x43 then 0 else (s.readRec p).quality := by
  unfold State.enterForce
  extract_lets old e _ u
  rw [show u.forcedRec p e i = _ from forcedRec_software e i h]
  obtain ⟨n, hstored⟩ := (u.chargeForce p v).writeRec_stored p _
  rw [hstored]
  exact ⟨rfl, rfl, rfl⟩

theorem applyForce_enters {s : State} {x : Slot} {p b : Nat} {v : W64} (ha : s.check x.booth.toNat .force p false false = .allow)
    (hf : (s.point p).forced = false) (ho : isOutput (s.point p).src = false) (i : Nat) (hi : s.freeForce = some i) :
    ((s.applyForce x p v b).point p).value = v ∧ ((s.applyForce x p v b).point p).forced = true ∧
      (s.sound p → ((s.applyForce x p v b).point p).quality = if (s.point p).quality = 0x43 then 0 else (s.point p).quality) := by
  have hsrc : isOutput ((s.verifyRead p).readRec p).src = false := by
    obtain e | e := s.readRec_verifyRead p <;> rw [e] <;> exact ho
  obtain ⟨hvalue, hforced, hquality⟩ := enterForce_software v x.booth i ((s.verifyRead p).stampAt 0) hsrc
  rw [State.point_of_pnt (applyForce_pnt ha hf hi)]
  exact ⟨hvalue, hforced, fun hs => by rw [hquality, State.readRec_verifyRead_of_sound hs]⟩

/-- A force cleared takes the flag and the entry away and leaves the value (R88). -/
theorem leaveForce_leaves (s : State) (p : Nat) (ts : Stamp) :
    ((s.leaveForce p ts).point p).forced = false ∧ ((s.leaveForce p ts).point p).value = (s.readRec p).value ∧
      (s.leaveForce p ts).pnt.forces = serase s.pnt.forces (s.readRec p).fidx.toNat := by
  unfold State.leaveForce
  extract_lets r i live _ u
  obtain ⟨n, hstored⟩ := u.writeRec_stored p { r with forced := false, fidx := 0, orphan := false, stamp := ts }
  rw [hstored]
  exact ⟨rfl, rfl, rfl⟩

theorem applyUnforce_pnt {s : State} {x : Slot} {p b : Nat} (ha : s.check x.booth.toNat .force p false false = .allow)
    (hf : (s.point p).forced = true) :
    (s.applyUnforce x p b).pnt = ((s.verifyRead p).leaveForce p ((s.verifyRead p).stampAt 0)).pnt := by
  unfold State.applyUnforce
  rw [ha]
  dsimp only
  rw [if_pos ((forced_verifyRead s p).trans hf)]
  exact (State.complete_pnt ..).trans (State.noteOut_pnt ..)

theorem applyUnforce_leaves {s : State} {x : Slot} {p b : Nat} (ha : s.check x.booth.toNat .force p false false = .allow)
    (hf : (s.point p).forced = true) :
    ((s.applyUnforce x p b).point p).forced = false ∧ ((s.applyUnforce x p b).point p).value = (s.point p).value ∧
      (s.applyUnforce x p b).pnt.forces = serase s.pnt.forces (s.point p).fidx.toNat := by
  obtain ⟨hforced, hvalue, hforces⟩ := leaveForce_leaves (s.verifyRead p) p ((s.verifyRead p).stampAt 0)
  have hread : ((s.verifyRead p).readRec p).value = (s.point p).value ∧ ((s.verifyRead p).readRec p).fidx = (s.point p).fidx := by
    obtain e | e := s.readRec_verifyRead p <;> rw [e] <;> exact ⟨rfl, rfl⟩
  have hpnt := applyUnforce_pnt (b := b) ha hf
  rw [State.point_of_pnt hpnt, hpnt, hforces, verifyRead_forces, hread.2]
  exact ⟨hforced, hvalue.trans hread.1, rfl⟩

/-! ### Config accesses (R71, R82) -/

/-- The record `r` with the fields of a config access (R82); an unused point comes into use (R71), a PRISM point without a source reads
C1h (R72). -/
def PRec.configured (r : PRec) (c : SyncConf) (mr : Bool) (ts : Stamp) : PRec :=
  { r with
    owner := c.owner, typ := c.typ, src := c.src, share := c.share, unit := c.unit
    value := if r.quality = 0xC1 then 0 else r.value
    stamp := if c.src = 6 ∧ mr = false then ts else if r.quality = 0xC1 then ts else r.stamp
    quality := if c.src = 6 ∧ mr = false then 0xC1 else if r.quality = 0xC1 then 0x42 else r.quality }

theorem verifyRead_isMr (s : State) (p : Nat) : (s.verifyRead p).isMr = s.isMr := by
  obtain ⟨_, _, _, _, _, e⟩ := (verifyRead_verified s p).same; rw [e]; rfl

/-- A config access of an ordinary point writes the verified record with its new fields, and is counted (R82). -/
theorem takeConf_writes (s : State) (c : SyncConf) (ts : Stamp) (hp : c.point < 8064) : ∃ t : State, s.takeConf c ts =
    (t.writeRec c.point (((s.verifyRead c.point).readRec c.point).configured c s.isMr ts)).count 0x089C 1 := by
  unfold State.takeConf
  extract_lets p u r v n₁ n₂ n₃
  have hmr : v.isMr = s.isMr := by
    have hcount : v.isMr = u.isMr := by dsimp -zetaDelta only [v]; split <;> rfl
    exact hcount.trans (verifyRead_isMr s p)
  have hunused : (r.quality = 0xC1 ∧ p < 8064) ↔ r.quality = 0xC1 := and_iff_left hp
  have hprism : (c.src = 6 ∧ v.isMr = false ∧ p < 8064) ↔ (c.src = 6 ∧ s.isMr = false) := by rw [hmr, and_iff_left (show p < 8064 from hp)]
  have hrec : n₃ = r.configured c s.isMr ts := by
    dsimp -zetaDelta only [n₃, n₂, n₁, PRec.configured]
    rw [if_congr hprism rfl rfl, if_congr hunused rfl rfl]
    split_ifs <;> rfl
  exact ⟨v, by rw [hrec]⟩

theorem applyConfig_pnt (s : State) (x : Slot) (p : Nat) (owner : Byte) (typ src : BitVec 4) (share unit : BitVec 16) (b : Nat) :
    (s.applyConfig x p owner typ src share unit b).pnt =
      (s.takeConf { point := p, owner, typ, src, share, unit } (s.stampAt 0)).pnt :=
  (State.complete_pnt ..).trans (State.noteOut_pnt ..)

theorem takeConf_stored (s : State) (c : SyncConf) (ts : Stamp) (hp : c.point < 8064) : ∃ n, (s.takeConf c ts).point c.point =
    PRec.sealed { ((s.verifyRead c.point).readRec c.point).configured c s.isMr ts with chg := n } := by
  obtain ⟨t, htake⟩ := takeConf_writes s c ts hp
  rw [htake, State.point_of_pnt (State.count_pnt ..)]
  exact t.writeRec_stored c.point _

theorem applyConfig_takes (s : State) (x : Slot) {p : Nat} (owner : Byte) (typ src : BitVec 4) (share unit : BitVec 16) (b : Nat)
    (hp : p < 8064) :
    let r := (s.applyConfig x p owner typ src share unit b).point p
    r.owner = owner ∧ r.typ = typ ∧ r.src = src ∧ r.share = share ∧ r.unit = unit ∧
      (s.sound p → ((s.point p).quality = 0xC1 → r.value = 0) ∧ ((s.point p).quality ≠ 0xC1 → r.value = (s.point p).value) ∧
        r.quality = (if src = 6 ∧ s.isMr = false then 0xC1 else if (s.point p).quality = 0xC1 then 0x42 else (s.point p).quality)) := by
  obtain ⟨n, hstored⟩ := takeConf_stored s { point := p, owner, typ, src, share, unit } (s.stampAt 0) hp
  rw [State.point_of_pnt (applyConfig_pnt ..), hstored]
  refine ⟨rfl, rfl, rfl, rfl, rfl, fun hs => ?_⟩
  rw [State.readRec_verifyRead_of_sound hs]
  exact ⟨fun hunused => if_pos hunused, fun hused => if_neg hused, rfl⟩

end Sys2Proof.Machine

open Sys2Proof.Machine

/-- Settles O33: a force entered, a force cleared and a config access, each from the record it writes. -/
theorem forcesAndConfigApply : Obligations.ForcesAndConfigApply := fun s x _ b _ =>
  ⟨fun ha hf ho i hi => applyForce_enters ha hf ho i hi, fun ha hf => applyUnforce_leaves ha hf,
    fun owner typ src share unit hp => applyConfig_takes s x owner typ src share unit b hp⟩
end

section
/-! SUPPORT. Chapter 03: what a command of a session leaves of the points, and the 0200h group (O31). -/
namespace Sys2Proof.Machine

/-! ### The points once a command has run (R383 to R385) -/

theorem Reaches.and {o : Host.Outcome State Fault Refusal} {P Q : State → Prop} (h : Reaches o P) (k : Reaches o Q) :
    Reaches o fun t => P t ∧ Q t := by
  obtain ⟨t, ht, hP⟩ := h
  obtain ⟨u, hu, hQ⟩ := k
  cases ht.symm.trans hu
  exact ⟨t, ht, hP, hQ⟩

theorem Reaches.imp {o : Host.Outcome State Fault Refusal} {P Q : State → Prop} (h : Reaches o P) (k : ∀ t, P t → Q t) :
    Reaches o Q := by
  obtain ⟨t, ht, hP⟩ := h
  exact ⟨t, ht, k t hP⟩

/-- A command whose effect nests no CRITICAL leaves the points as its effect left them (R495). -/
theorem live_pnt_reaches {f : State → State} {s u : State} (hp : s.sys.powered = true) (hrun : f s.draw = u)
    (hn : u.flt.nest = false) : Reaches (live f s) fun t => t.pnt = u.pnt := by
  refine live_reaches f s hp ?_ ?_ <;> rw [hrun]
  · exact hn
  · rw [State.outside_pnt, settle_pnt]

/-- A command that completes at once, as `now_reaches` gives it, leaves the points as its effect `u` left them. -/
theorem now_pnt_reaches {P : State → Prop} {f : State → State} {s : State} {h : Hdr} {c : CmdSpec} {body : State → Res}
    {st de fl : Nat} {da : List Byte} (hf : f s.draw = runCmd h c body s.draw) (ha : s.admits h c.maxData) (hc : c.Clear s)
    (hd : da.length ≤ c.maxData)
    (hbody : ∀ v, Taken s h v → ∃ u, body v = .now st de da fl u ∧ PathKept s u h ∧ ∀ t,
      s.wrote t h.session.val (respPacket c.opcode h.tag h.booth h.sseq fl st de da) → t.mbx.slots = s.mbx.slots →
        (t.sess h.session.val).expected = (s.sess h.session.val).expected + 1 → Leaves u t → t.pnt = u.pnt → P t) :
    Reaches (live f s) P := by
  have hp : s.sys.powered = true := (State.up_iff.mp ha.1.1).1
  obtain ⟨u, hu, k, hP⟩ := hbody _ (admits_taken c ha)
  have hrun := hf.trans (runCmd_now h c body s.draw (admits_canTake ha) (admits_firstFail ha hc) hu)
  have hgiven : f s.draw = runCmd h c (fun _ => .now st de da fl u) s.draw :=
    hrun.trans (runCmd_now h c (fun _ => .now st de da fl u) s.draw (admits_canTake ha) (admits_firstFail ha hc) rfl).symm
  have hans := now_reaches (P := fun t => t.pnt = u.pnt → P t) hgiven ha hc hd fun _ _ => ⟨u, rfl, k, hP⟩
  have hnest : (u.respond h.session.val c.opcode h.tag h.booth h.sseq fl st de da).flt.nest = false := by
    rw [(respond_leaves ..).flt]; exact k.nest
  have hpnt := live_pnt_reaches hp hrun hnest
  rw [State.respond_pnt] at hpnt
  exact (hans.and hpnt).imp fun t ht => ht.1 ht.2

/-- A command answered at once with OK, and the points as its effect left them (R378). -/
theorem ok_pnt_reaches {P : State → Prop} {f : State → State} {s : State} {h : Hdr} {c : CmdSpec} {body : State → Res} {fl : Nat}
    {da : List Byte} (hf : f s.draw = runCmd h c body s.draw) (ha : s.admits h c.maxData) (hc : c.Clear s) (hd : da.length ≤ c.maxData)
    (hbody : ∀ v, Taken s h v → ∃ u, body v = .now 0 0 da fl u ∧ PathKept s u h ∧
      ∀ t, s.answered t h c.opcode fl da → t.pnt = u.pnt → P t) : Reaches (live f s) P :=
  now_pnt_reaches hf ha hc hd fun v hv => by
    obtain ⟨u, hu, k, hP⟩ := hbody v hv
    exact ⟨u, hu, k, fun t hwrote hslots hexp _ => hP t ⟨hwrote, hslots, hexp⟩⟩

/-- A command that waits keeps its slot, with no response yet, and the points as `u`, what it queued, has them (R383, R385). -/
theorem later_pnt_reaches {P : State → Prop} {f : State → State} {s : State} {h : Hdr} {c : CmdSpec} {body : State → Res} {w : Wait}
    (hf : f s.draw = runCmd h c body s.draw) (ha : s.admits h c.maxData) (hc : c.Clear s)
    (hbody : ∀ v, Taken s h v → ∃ u, body v = .later w u ∧ PathKept s u h ∧ u.crsl = v.crsl ∧
      ∀ t, s.inFlightFor t h c.opcode c.maxData w → t.pnt = u.pnt → P t) : Reaches (live f s) P := by
  have hp : s.sys.powered = true := (State.up_iff.mp ha.1.1).1
  have hv := admits_taken c ha
  obtain ⟨u, hu, k, hcrsl, hP⟩ := hbody _ hv
  have hrun := hf.trans (runCmd_later h c body s.draw (admits_canTake ha) (admits_firstFail ha hc) hu)
  have hns : u.crsl.upNs = s.crsl.upNs := by
    obtain ⟨⟨_, _, _, _, e⟩, -⟩ := hv; rw [hcrsl, e]; rfl
  rw [hv.nextIdent] at hrun
  refine live_reaches f s hp ?_ ?_ <;> rw [hrun]
  · exact k.nest
  · refine hP _ ⟨?_, ?_, ?_, ?_⟩ ?_
    · rw [State.outside_mbx, settle_mbx]
      dsimp only
      rw [k.slots, hns]
    · rw [State.outside_sess, settle_sess]; exact k.expected
    · rw [State.outside_hostp, settle_hostp_queues]; exact k.queues
    · rw [State.outside_mbx, settle_mbx]; exact k.resp
    · rw [State.outside_pnt, settle_pnt]

/-! ### What the effect of a command on points starts from -/

section
variable {s v : State} {h : Hdr} (hv : Taken s h v)
include hv

theorem Taken.pnt : v.pnt = s.pnt := by
  obtain ⟨_, _, _, _, e⟩ := hv.same; rw [e]; rfl

theorem Taken.check (b : Nat) (k : Kind) (p : Nat) (path others : Bool) : v.check b k p path others = s.check b k p path others := by
  obtain ⟨_, _, _, _, e⟩ := hv.same; rw [e]; rfl

theorem Taken.readRec (p : Nat) : v.readRec p = s.readRec p := by
  obtain ⟨_, _, _, _, e⟩ := hv.same; rw [e]; rfl

theorem Taken.fld (off hi lo : Nat) : v.fld off hi lo = s.fld off hi lo := by
  obtain ⟨_, _, _, _, e⟩ := hv.same; rw [e]; rfl

theorem Taken.dueNow : v.dueNow = s.dueNow := by
  obtain ⟨_, _, _, _, e⟩ := hv.same; rw [e]; rfl

theorem Taken.changesOther (p : Nat) (owner : Byte) (typ src : BitVec 4) (unit : BitVec 16) :
    v.changesOther p owner typ src unit = s.changesOther p owner typ src unit := by
  obtain ⟨_, _, _, _, e⟩ := hv.same; rw [e]; rfl

theorem Taken.forcesData (booth first count : Nat) : v.forcesData booth first count = s.forcesData booth first count := by
  obtain ⟨_, _, _, _, e⟩ := hv.same; rw [e]; rfl

theorem Taken.forcesAfter : v.forcesAfter = s.forcesAfter := by
  unfold State.forcesAfter; rw [hv.path.slots, hv.pnt]

end

/-! ### Reads (R80, R387) -/

/-- The eight words of a record are 32 bytes (R67). -/
theorem bytesOf32_words_length (r : PRec) : (bytesOf32 r.words).length = 32 := by
  unfold bytesOf32 PRec.words
  simp only [List.flatMap_cons, List.flatMap_nil, List.length_append, leBytes_length, List.length_nil]

/-- A read that the check allows gives the record, verified by the read (R79, R92). -/
theorem State.readPoint_allowed {s : State} {b p : Nat} (h : s.check b .read p false false = .allow) :
    s.readPoint b p = (s.verifyRead p, s.readRec p) := by
  unfold State.readPoint; rw [h]

theorem State.pointsData_one {s : State} {b p : Nat} (h : s.check b .read p false false = .allow) :
    s.pointsData b p 1 = (s.verifyRead p, bytesOf32 (s.readRec p).words) := by
  have hread : s.taskReads b (pointRange p 1) = (s.verifyRead p, [s.readRec p]) := by
    have hone : pointRange p 1 = [p] := rfl
    rw [hone]
    unfold State.taskReads
    dsimp only
    rw [State.readPoint_allowed h]
    rfl
  unfold State.pointsData
  rw [hread]
  dsimp only
  rw [List.flatMap_cons, List.flatMap_nil, List.append_nil]

/-- A verifying read leaves the path of the response (R92). -/
theorem PathKept.verifyRead {s u : State} {h : Hdr} (k : PathKept s u h) (p : Nat) : PathKept s (u.verifyRead p) h := by
  have hnest := (verifyRead_verified u p).nest
  obtain ⟨_, _, _, _, _, e⟩ := (verifyRead_verified u p).same
  rw [e] at hnest ⊢
  exact ⟨k.queues, k.resp, k.slots, k.qEn, k.expected, hnest.trans k.nest⟩

theorem State.pointsPending_empty {s : State} (h : s.mbx.slots = []) (ident : Nat) (ps : List Nat) :
    ¬s.pointsPending ident ps = true := by
  unfold State.pointsPending; rw [h]; exact Bool.false_ne_true

theorem pointRead_reaches (s : State) (h : Hdr) {p : Nat} (hp : p < 8192) (ha : s.admits h 32) (hslots : s.mbx.slots = [])
    (hcheck : s.check (s.boothOf h) .read p false false = .allow) :
    Reaches (exec (.pointRead h p 1) s) fun t => s.answered t h 0x0201 0 (bytesOf32 (s.readRec p).words) ∧
      (∀ q, q ≠ p → t.point q = s.point q) ∧ (t.point p).value = (s.point p).value := by
  have hbad : (if 8191 < p then some 0 else if 1 = 0 ∨ 64 < 1 ∨ 8192 < p + 1 then some 2 else none) = none :=
    (if_neg (by omega)).trans (if_neg (by omega))
  refine ok_pnt_reaches (f := fun s => cmdPointRead h p 1 s) (fl := 0) rfl ha
    { denied := rfl, bad := hbad, changes := fun e => Bool.noConfusion e } (bytesOf32_words_length (s.readRec p)).le fun v hv => ?_
  have hdata := State.pointsData_one ((hv.check (s.boothOf h) .read p false false).trans hcheck)
  have hsame := verifyRead_verified v p
  refine ⟨v.verifyRead p, ?_, hv.path.verifyRead p, fun t hans hpnt => ⟨hans, fun q hq => ?_, ?_⟩⟩
  · rw [if_neg (State.pointsPending_empty (hv.path.slots.trans hslots) _ _), hv.boothOf, hdata, hv.readRec]
    rfl
  · rw [State.point_of_pnt hpnt, hsame.other q hq, State.point_of_pnt hv.pnt]
  · have hvalue : ((v.verifyRead p).point p).value = (v.point p).value :=
      hsame.point.elim (congrArg PRec.value) (congrArg PRec.value)
    rw [State.point_of_pnt hpnt, hvalue, State.point_of_pnt hv.pnt]

/-! ### Writes (R146, R387) -/

theorem pointWrite_reaches (s : State) (h : Hdr) {p : Nat} (hp : p < 8192) (v : W64) (hrole : s.trap.role.refuses = false)
    (ha : s.admits h 1) (hmax : 1 ≤ s.fld 0x0800 19 10) :
    Reaches (exec (.pointWrite h [{ point := p, value := v }]) s) fun t =>
      s.inFlightFor t h 0x0202 1 .intake ∧ t.pnt.points = s.pnt.points ∧
        t.pnt.netq = s.pnt.netq ++ [{ slot := some (s.mbx.nextIdent + 1), window := false, rev := s.rev, booth := h.booth,
                                      writes := [{ point := p, value := v }] }] := by
  have hbad : badWrite [{ point := p, value := v }] 8 = none := if_neg (by dsimp only; omega)
  have hbooth : BitVec.ofNat 8 (s.boothOf h) = h.booth := by
    obtain ⟨-, -, -, -, hb⟩ := ha
    rw [hb]; exact (BitVec.ofNat_toNat ..).trans (BitVec.setWidth_eq _)
  refine later_pnt_reaches (f := fun s => cmdPointWrite h [{ point := p, value := v }] s) rfl ha
    { denied := rfl, bad := hbad, changes := fun _ => hrole } fun u hu =>
    ⟨_, if_neg (by rw [hu.fld]; exact Nat.not_lt.mpr hmax), hu.path.of_same rfl rfl rfl rfl, rfl, fun t hwait hpnt => ⟨hwait, ?_, ?_⟩⟩
  · rw [hpnt, ← hu.pnt]
  · rw [hpnt, ← hu.pnt, ← hu.nextIdent, ← hu.rev, ← hbooth, ← hu.boothOf]

/-! ### Forces by command (R87, R88) -/

/-- A denied access is counted and shown, with its point in PNT_DENY_LAST (R80). -/
theorem State.noteDenial_deny (s : State) (b : Nat) (d : Kind) (p : Nat) :
    ∃ w c st, s.noteDenial b d p .deny = { s.setReg 0x1824 w with cnt := c, stat := st } := ⟨_, _, _, rfl⟩

theorem State.noteDenial_pnt (s : State) (b : Nat) (d : Kind) (p : Nat) : (s.noteDenial b d p .deny).pnt = s.pnt := by
  obtain ⟨_, _, _, e⟩ := s.noteDenial_deny b d p; rw [e]; rfl

/-- A denial leaves the path of the response. -/
theorem PathKept.noteDenial {s u : State} {h : Hdr} (k : PathKept s u h) (b : Nat) (d : Kind) (p : Nat) :
    PathKept s (u.noteDenial b d p .deny) h := by
  obtain ⟨w, _, _, e⟩ := u.noteDenial_deny b d p
  rw [e]
  exact (k.setReg (off := 0x1824) w (by decide)).of_same rfl rfl rfl rfl

/-- A denial is shown in PNT_STATUS (R80). -/
theorem State.noteDenial_sq (s : State) (b : Nat) (d : Kind) (p : Nat) : (s.noteDenial b d p .deny).sq 3 7 = true :=
  State.sq_setSQ_self _ 3 7

/-- A command of the force group on a point of the table (R387). -/
theorem forceSpec_clear {s : State} {p : Nat} (hp : p < 8192) (hrole : s.trap.role.refuses = false) (op : Nat) :
    CmdSpec.Clear s { opcode := op, maxData := 8, changes := true, bad := if 8191 < p then some 0 else none } where
  denied := rfl
  bad := if_neg (by omega)
  changes _ := hrole

/-- A command on a force that its check allows waits for its boundary (R88). -/
theorem force_waits {f : State → State} {body : State → Res} {w : Wait} (s : State) (h : Hdr) {p op : Nat} (hp : p < 8192)
    (hrole : s.trap.role.refuses = false) (ha : s.admits h 8)
    (hf : f s.draw = runCmd h { opcode := op, maxData := 8, changes := true, bad := if 8191 < p then some 0 else none } body s.draw)
    (hbody : ∀ v, Taken s h v → body v = .later w v) :
    Reaches (live f s) fun t => s.inFlightFor t h op 8 w ∧ t.pnt = s.pnt :=
  later_pnt_reaches hf ha (forceSpec_clear hp hrole op) fun v hv =>
    ⟨v, hbody v hv, hv.path, rfl, fun _ hwait hpnt => ⟨hwait, hpnt.trans hv.pnt⟩⟩

/-- A command on a force that its check denies is refused with the point, and shown (R80). -/
theorem force_denied {f : State → State} {body : State → Res} (s : State) (h : Hdr) {p op : Nat} (hp : p < 8192)
    (hrole : s.trap.role.refuses = false) (ha : s.admits h 8)
    (hf : f s.draw = runCmd h { opcode := op, maxData := 8, changes := true, bad := if 8191 < p then some 0 else none } body s.draw)
    (hbody : ∀ v, Taken s h v → body v = .now 9 p [] 0 (v.noteDenial (v.boothOf h) .force p .deny)) :
    Reaches (live f s) fun t => s.turnedDown t h op 0 9 p [] ∧ t.sq 3 7 = true ∧ t.pnt = s.pnt :=
  now_pnt_reaches hf ha (forceSpec_clear hp hrole op) (Nat.zero_le _) fun v hv =>
    ⟨_, hbody v hv, hv.path.noteDenial .., fun _ hwrote hslots _ hleft hpnt =>
      ⟨⟨hwrote, hslots⟩, hleft.sq 3 7 (v.noteDenial_sq ..), (hpnt.trans (v.noteDenial_pnt ..)).trans hv.pnt⟩⟩

/-- FORCE_SET with room for its force in the table answers as its check (R79, R87). -/
theorem forceSet_room {s v : State} {h : Hdr} (hv : Taken s h v) {p : Nat} (hroom : p ∈ s.forcesAfter ∨ s.forcesAfter.length < 1024) :
    ¬(p ∉ v.forcesAfter ∧ 1024 ≤ v.forcesAfter.length) := by
  rw [hv.forcesAfter]
  exact fun hfull => hroom.elim hfull.1 (Nat.not_lt.mpr hfull.2)

theorem forceCommands_allowed (s : State) (h : Hdr) {p : Nat} (v : W64) (hp : p < 8192) (hrole : s.trap.role.refuses = false)
    (ha : s.admits h 8) (hroom : p ∈ s.forcesAfter ∨ s.forcesAfter.length < 1024)
    (hcheck : s.check (s.boothOf h) .force p false false = .allow) :
    Reaches (exec (.forceSet h p v) s) (fun t => s.inFlightFor t h 0x0203 8 (.force p v) ∧ t.pnt = s.pnt) ∧
      Reaches (exec (.forceClear h p) s) fun t => s.inFlightFor t h 0x0204 8 (.unforce p) ∧ t.pnt = s.pnt := by
  refine ⟨force_waits (f := fun s => cmdForceSet h p v s) s h hp hrole ha rfl fun u hu => ?_,
    force_waits (f := fun s => cmdForceClear h p s) s h hp hrole ha rfl fun u hu => ?_⟩
  · rw [if_neg (forceSet_room hu hroom), hu.boothOf, hu.check, hcheck]
  · rw [hu.boothOf, hu.check, hcheck]

theorem forceCommands_denied (s : State) (h : Hdr) {p : Nat} (v : W64) (hp : p < 8192) (hrole : s.trap.role.refuses = false)
    (ha : s.admits h 8) (hroom : p ∈ s.forcesAfter ∨ s.forcesAfter.length < 1024)
    (hcheck : s.check (s.boothOf h) .force p false false = .deny) :
    Reaches (exec (.forceSet h p v) s) (fun t => s.turnedDown t h 0x0203 0 9 p [] ∧ t.sq 3 7 = true ∧ t.pnt = s.pnt) ∧
      Reaches (exec (.forceClear h p) s) fun t => s.turnedDown t h 0x0204 0 9 p [] ∧ t.sq 3 7 = true ∧ t.pnt = s.pnt := by
  refine ⟨force_denied (f := fun s => cmdForceSet h p v s) s h hp hrole ha rfl fun u hu => ?_,
    force_denied (f := fun s => cmdForceClear h p s) s h hp hrole ha rfl fun u hu => ?_⟩
  · rw [if_neg (forceSet_room hu hroom), hu.boothOf, hu.check, hcheck]
  · rw [hu.boothOf, hu.check, hcheck]

/-! ### Config accesses by command (R82) -/

theorem pointConfig_reaches (s : State) (h : Hdr) {p : Nat} (hp : p < 8192) (owner : Byte) (typ src : BitVec 4) (share unit : BitVec 16)
    (hrole : s.trap.role.refuses = false) (ha : s.admits h 8) (hlord : s.landlord h = true) (htyp : typ.toNat ≤ 8)
    (hsrc : src.toNat ≤ 12) (howner : s.ownerRefused p owner = false)
    (hcheck : s.check (s.boothOf h) .config p false (s.changesOther p owner typ src unit) = .allow) :
    Reaches (exec (.pointConfig h p owner typ src share unit) s) fun t =>
      s.inFlightFor t h 0x0205 8 (.config p owner typ src share unit s.dueNow) ∧ t.pnt = s.pnt := by
  have hbad : (if 8191 < p then some 0 else if 8 < typ.toNat ∨ 12 < src.toNat then some 3 else none) = none :=
    (if_neg (by omega)).trans (if_neg (by omega))
  have hrefuse : (if s.draw.ownerRefused p owner = true then some 1 else none) = none := if_neg (ne_true_of_eq_false howner)
  refine later_pnt_reaches (f := fun s => cmdPointConfig h p owner typ src share unit s) rfl ha
    { denied := congrArg (!·) hlord, bad := hbad, changes := fun _ => hrole, refuse := hrefuse } fun v hv =>
    ⟨v, ?_, hv.path, rfl, fun t hwait hpnt => ⟨hwait, hpnt.trans hv.pnt⟩⟩
  rw [hv.boothOf, hv.changesOther, hv.check, hcheck, hv.dueNow]

/-! ### Binding the window (R89) -/

/-- WINDOW_BIND as the service carries it out: its own checks, and its effect (R387). -/
theorem cmdWindowBind_eq (h : Hdr) (s : State) : cmdWindowBind h s =
    runCmd h { opcode := 0x0206, denied := decide (4 ≤ h.session.val)
               busy := if s.pnt.winSession.isSome ∧ s.pnt.winSession ≠ some h.session.val then some 0 else none }
      (fun s => okRes [] { s with pnt := { s.pnt with
        winSession := some h.session.val
        winStage := if s.pnt.winSession = some h.session.val then s.pnt.winStage else none } }) s := by
  unfold cmdWindowBind; rfl

theorem windowBind_reaches (s : State) (h : Hdr) (ha : s.admits h 0) (hhost : h.session.val < 4) (hfree : s.pnt.winSession = none) :
    Reaches (exec (.windowBind h) s) fun t => s.answered t h 0x0206 0 [] ∧ t.pnt.winSession = some h.session.val := by
  have hbusy : (if s.draw.pnt.winSession.isSome = true ∧ s.draw.pnt.winSession ≠ some h.session.val then some 0 else none) = none := by
    rw [State.draw_pnt, hfree]; rfl
  exact ok_pnt_reaches (f := fun s => cmdWindowBind h s) (cmdWindowBind_eq h s.draw) ha
    { denied := decide_eq_false (Nat.not_le.mpr hhost), bad := rfl, changes := fun e => Bool.noConfusion e, busy := hbusy }
    (Nat.zero_le _) fun v hv => ⟨_, rfl, hv.path.of_same rfl rfl rfl rfl, fun t hans hpnt => ⟨hans, by rw [hpnt]⟩⟩

theorem windowUnbind_reaches (s : State) (h : Hdr) (ha : s.admits h 0) (hbound : s.pnt.winSession = some h.session.val) :
    Reaches (exec (.windowUnbind h) s) fun t => s.answered t h 0x0207 0 [] ∧ t.pnt.winSession = none ∧ t.pnt.winStage = none :=
  ok_pnt_reaches (f := fun s => cmdWindowUnbind h s) (fl := 0) (da := []) rfl ha
    { denied := decide_eq_false (not_not.mpr hbound), bad := rfl, changes := fun e => Bool.noConfusion e }
    (Nat.zero_le _) fun v hv => ⟨_, rfl, hv.path.of_same rfl rfl rfl rfl, fun t hans hpnt =>
      ⟨hans, congrArg Pnt.winSession hpnt, congrArg Pnt.winStage hpnt⟩⟩

/-! ### The list of forces (R387) -/

theorem State.forcesPending_empty {s : State} (h : s.mbx.slots = []) (ident : Nat) : ¬s.forcesPending ident = true := by
  unfold State.forcesPending; rw [h]; exact Bool.false_ne_true

theorem forceList_reaches (s : State) (h : Hdr) {p : Nat} (ha : s.admits h 16) (hslots : s.mbx.slots = [])
    (hlen : (s.forcesData (s.boothOf h) p 1).length ≤ 16) (hp : p < 1024) :
    Reaches (exec (.forceList h p 1) s) fun t => s.answered t h 0x0208 0 (s.forcesData (s.boothOf h) p 1) ∧ t.pnt = s.pnt := by
  have hbad : (if 1023 < p then some 0 else if 1 = 0 ∨ 64 < 1 then some 2 else none) = none :=
    (if_neg (by omega)).trans (if_neg (by omega))
  refine ok_pnt_reaches (f := fun s => cmdForceList h p 1 s) rfl ha
    { denied := rfl, bad := hbad, changes := fun e => Bool.noConfusion e } hlen fun v hv =>
    ⟨v, ?_, hv.path, fun t hans hpnt => ⟨hans, hpnt.trans hv.pnt⟩⟩
  rw [if_neg (State.forcesPending_empty (hv.path.slots.trans hslots) _), hv.boothOf, hv.forcesData]
  rfl

end Sys2Proof.Machine

open Sys2Proof.Machine

/-- Settles O31, a command a clause. -/
theorem pointCommands : Obligations.PointCommands := fun s h _ hp =>
  ⟨pointRead_reaches s h hp, pointWrite_reaches s h hp,
    fun v hrole ha _ hroom => ⟨forceCommands_allowed s h v hp hrole ha hroom, forceCommands_denied s h v hp hrole ha hroom⟩,
    pointConfig_reaches s h hp, windowBind_reaches s h, windowUnbind_reaches s h,
    fun ha hslots hlen hidx => forceList_reaches s h ha hslots hlen hidx⟩
end

section
/-! SUPPORT. Chapter 03: the point window (O19). -/
namespace Sys2Proof.Machine

/-! ### Words of the window (R89) -/

theorem readWord_window (p : Path) {off : Nat} (s : State) (h : 0xC000 ≤ off ∧ off ≤ 0xFFFC ∧ off % 4 = 0) {t : State} {w : W32}
    (hread : windowRead p off s = (t, w)) : whenever (decide (0xC000 ≤ off)) (readWord p off) s = t.setDout [w] := by
  have hreg : regRead p off s = (t, w) := (if_pos h.1).trans ((if_pos h.2).trans hread)
  unfold whenever
  rw [if_pos (decide_eq_true h.1), readWord_eq hreg]

theorem writeWord_window (p : Path) {off : Nat} (v : W32) (s : State) (h : 0xC000 ≤ off ∧ off ≤ 0xFFFC ∧ off % 4 = 0) :
    whenever (decide (0xC000 ≤ off)) (writeWord p off v) s = windowWrite off v s := by
  have hreg : regWrite p off v s = windowWrite off v s := (if_pos h.1).trans (if_pos h.2)
  unfold whenever
  rw [if_pos (decide_eq_true h.1), writeWord_eq_regWrite p v s (by omega), hreg]

theorem window_word0 {r : Nat} (hr : r < 512) :
    0xC000 ≤ 0xC000 + 32 * r ∧ 0xC000 + 32 * r ≤ 0xFFFC ∧ (0xC000 + 32 * r) % 4 = 0 := by omega

theorem window_word1 {r : Nat} (hr : r < 512) :
    0xC000 ≤ 0xC004 + 32 * r ∧ 0xC004 + 32 * r ≤ 0xFFFC ∧ (0xC004 + 32 * r) % 4 = 0 := by omega

theorem window_index0 (r : Nat) : (0xC000 + 32 * r - 0xC000) % 32 / 4 = 0 := by omega

theorem window_index1 (r : Nat) : (0xC004 + 32 * r - 0xC000) % 32 / 4 = 1 := by omega

/-- Words 0 and 1 of a record reach the same point. -/
theorem State.winPoint_word1 (s : State) (r : Nat) : s.winPoint (0xC004 + 32 * r) = s.winPoint (0xC000 + 32 * r) := by
  have hrecord : (0xC004 + 32 * r - 0xC000) / 32 = (0xC000 + 32 * r - 0xC000) / 32 := by omega
  unfold State.winPoint; rw [hrecord]

/-! ### Reads (R86, R90) -/

/-- A read of word 0 takes nothing from the latch: it latches what the window gives it, an unbound access counted (R86, R90). -/
theorem windowRead_word0 (p : Path) (r : Nat) (s : State) {t : State} {x : PRec}
    (hrec : (if s.winBooth.isNone then s.count 0x1894 1 else s).winRecord (s.winPoint (0xC000 + 32 * r)) = (t, x)) :
    windowRead p (0xC000 + 32 * r) s =
      (t.setWin p (some { point := s.winPoint (0xC000 + 32 * r), words := x.words }), x.words.getD 0 0) := by
  unfold windowRead
  extract_lets pt i u latched
  have hi : i = 0 := window_index0 r
  have hanew : latched = none := by
    dsimp -zetaDelta only [latched]
    split
    · exact if_neg fun h => h.2.1 hi
    · rfl
  rw [hanew, hi]
  dsimp only
  rw [hrec]
  rfl

theorem State.setWin_win (s : State) (p : Path) (l : Option WinLatch) : ((s.setWin p l).pathOf p).win = l :=
  congrArg PathRec.win (s.pathOf_setPath_self p _)

theorem pointWindowRead_unbound (s : State) (p : Path) {r : Nat} (hup : s.up = true) (hr : r < 512) (hb : s.winBooth = none) :
    Reaches (exec (.pointWindowRead p (0xC000 + 32 * r)) s) fun t =>
      t.hostp.dout = [substitute.words.getD 0 0] ∧ t.total 0x1894 = s.total 0x1894 + 1 := by
  obtain ⟨hp, hn⟩ := State.up_iff.mp hup
  have hrec : (if s.draw.winBooth.isNone then s.draw.count 0x1894 1 else s.draw).winRecord (s.draw.winPoint (0xC000 + 32 * r)) =
      (s.draw.count 0x1894 1, substitute) := by
    have hbooth : (s.draw.count 0x1894 1).winBooth = none := hb
    rw [if_pos (Option.isNone_iff_eq_none.mpr (show s.draw.winBooth = none from hb))]
    unfold State.winRecord
    rw [hbooth]
  have hread := readWord_window p s.draw (window_word0 hr) (windowRead_word0 p r s.draw hrec)
  refine live_reaches (whenever (decide (0xC000 ≤ 0xC000 + 32 * r)) (readWord p (0xC000 + 32 * r))) s hp ?_ ?_ <;> rw [hread]
  · exact hn
  · rw [State.outside_hostp, settle_hostp_dout, State.outside_total, settle_total _ _ (by decide)]
    exact ⟨rfl, s.total_count 0x1894 1⟩

theorem pointWindowRead_allowed (s : State) (p : Path) {r : Nat} (hup : s.up = true) (hr : r < 512) {b : Nat} (hb : s.winBooth = some b)
    (hcheck : s.check b .read (s.winPoint (0xC000 + 32 * r)) false false = .allow) :
    Reaches (exec (.pointWindowRead p (0xC000 + 32 * r)) s) fun t =>
      t.hostp.dout = [(s.readRec (s.winPoint (0xC000 + 32 * r))).words.getD 0 0] ∧
        (t.pathOf p).win = some { point := s.winPoint (0xC000 + 32 * r),
                                  words := (s.readRec (s.winPoint (0xC000 + 32 * r))).words } := by
  obtain ⟨hp, hn⟩ := State.up_iff.mp hup
  have hrec : (if s.draw.winBooth.isNone then s.draw.count 0x1894 1 else s.draw).winRecord (s.draw.winPoint (0xC000 + 32 * r)) =
      (s.draw.verifyRead (s.winPoint (0xC000 + 32 * r)), s.readRec (s.winPoint (0xC000 + 32 * r))) := by
    have hbooth : s.draw.winBooth = some b := hb
    rw [hbooth, if_neg (by rw [Option.isNone_some]; decide)]
    unfold State.winRecord
    rw [hbooth]
    exact State.readPoint_allowed (s := s.draw) hcheck
  have hread := readWord_window p s.draw (window_word0 hr) (windowRead_word0 p r s.draw hrec)
  have hnest := (verifyRead_verified s.draw (s.winPoint (0xC000 + 32 * r))).nest
  generalize s.draw.verifyRead (s.winPoint (0xC000 + 32 * r)) = u at hread hnest
  refine live_reaches (whenever (decide (0xC000 ≤ 0xC000 + 32 * r)) (readWord p (0xC000 + 32 * r))) s hp ?_ ?_ <;> rw [hread]
  · exact hnest.trans hn
  · rw [State.outside_hostp, settle_hostp_dout]
    exact ⟨rfl, (congrArg PathRec.win (settle_pathOf s _ p)).trans (u.setWin_win p _)⟩

/-! ### Writes (R91) -/

/-- A write to an unbound window is ignored and counted (R89). -/
theorem windowWrite_unbound {off : Nat} (v : W32) {s : State} (hb : s.winBooth = none) :
    windowWrite off v s = (s.setSQ 3 6).count 0x1894 1 := by
  unfold windowWrite; rw [hb]

theorem windowWrite_word0 (r : Nat) (v : W32) {s : State} {b : Nat} (hb : s.winBooth = some b) :
    windowWrite (0xC000 + 32 * r) v s = { s with pnt := { s.pnt with winStage := some (s.winPoint (0xC000 + 32 * r), v) } } := by
  unfold windowWrite
  rw [hb]
  exact if_pos (window_index0 r)

theorem windowWrite_word1 (r : Nat) (v lo : W32) {s : State} {b : Nat} (hb : s.winBooth = some b)
    (hstage : s.pnt.winStage = some (s.winPoint (0xC000 + 32 * r), lo)) :
    windowWrite (0xC004 + 32 * r) v s = { s with pnt := { s.pnt with
      winStage := none
      netq := s.pnt.netq ++ [{ slot := none, window := true, rev := s.rev, booth := BitVec.ofNat 8 b,
                               writes := [{ point := s.winPoint (0xC000 + 32 * r), value := v ++ lo }] }] } } := by
  unfold windowWrite
  rw [hb]
  dsimp only
  rw [window_index1, if_neg (by decide), hstage, State.winPoint_word1]
  exact if_pos ⟨rfl, rfl⟩

/-- What a word written to the window leaves of the points (R91). -/
theorem pointWindowWrite_pnt (s : State) (p : Path) {off : Nat} (v : W32) (hup : s.up = true)
    (hoff : 0xC000 ≤ off ∧ off ≤ 0xFFFC ∧ off % 4 = 0) {u : State} (hwrite : windowWrite off v s.draw = u) (hf : u.flt = s.flt) :
    Reaches (exec (.pointWindowWrite p off v) s) fun t => t.pnt = u.pnt := by
  obtain ⟨hp, hn⟩ := State.up_iff.mp hup
  exact live_pnt_reaches (f := whenever (decide (0xC000 ≤ off)) (writeWord p off v)) hp
    ((writeWord_window p v s.draw hoff).trans hwrite) ((congrArg Flt.nest hf).trans hn)

theorem pointWindowWrite_stages (s : State) (p : Path) {r : Nat} (hup : s.up = true) (hr : r < 512) {b : Nat} (v : W32)
    (hb : s.winBooth = some b) :
    Reaches (exec (.pointWindowWrite p (0xC000 + 32 * r) v) s) fun t =>
      t.pnt.winStage = some (s.winPoint (0xC000 + 32 * r), v) ∧ t.pnt.netq = s.pnt.netq ∧ t.pnt.points = s.pnt.points :=
  (pointWindowWrite_pnt s p v hup (window_word0 hr) (windowWrite_word0 r v (s := s.draw) hb) rfl).imp fun _ hpnt => by
    rw [hpnt]; exact ⟨rfl, rfl, rfl⟩

theorem pointWindowWrite_submits (s : State) (p : Path) {r : Nat} (hup : s.up = true) (hr : r < 512) {b : Nat} (lo v : W32)
    (hb : s.winBooth = some b) (hstage : s.pnt.winStage = some (s.winPoint (0xC000 + 32 * r), lo)) :
    Reaches (exec (.pointWindowWrite p (0xC004 + 32 * r) v) s) fun t =>
      t.pnt.winStage = none ∧
        t.pnt.netq = s.pnt.netq ++ [{ slot := none, window := true, rev := s.rev, booth := BitVec.ofNat 8 b,
                                      writes := [{ point := s.winPoint (0xC000 + 32 * r), value := v ++ lo }] }] :=
  (pointWindowWrite_pnt s p v hup (window_word1 hr) (windowWrite_word1 r v lo (s := s.draw) hb hstage) rfl).imp fun _ hpnt => by
    rw [hpnt]; exact ⟨rfl, rfl⟩

theorem pointWindowWrite_unbound (s : State) (p : Path) {r : Nat} (hup : s.up = true) (hr : r < 512) (v : W32) (hb : s.winBooth = none) :
    Reaches (exec (.pointWindowWrite p (0xC000 + 32 * r) v) s) fun t =>
      t.sq 3 6 = true ∧ t.total 0x1894 = s.total 0x1894 + 1 ∧ t.pnt = s.pnt := by
  obtain ⟨hp, hn⟩ := State.up_iff.mp hup
  have hwrite := (writeWord_window p v s.draw (window_word0 hr)).trans (windowWrite_unbound v (s := s.draw) hb)
  refine live_reaches (whenever (decide (0xC000 ≤ 0xC000 + 32 * r)) (writeWord p (0xC000 + 32 * r) v)) s hp ?_ ?_ <;> rw [hwrite]
  · exact hn
  · rw [State.outside_sq, State.outside_total, State.outside_pnt, settle_pnt, settle_total _ _ (by decide)]
    exact ⟨settle_sq_mono _ _ (State.sq_setSQ_self _ 3 6), (s.draw.setSQ 3 6).total_count 0x1894 1, rfl⟩

end Sys2Proof.Machine

open Sys2Proof.Machine

/-- Settles O19, an access a clause. -/
theorem pointWindow : Obligations.PointWindow := fun s p _ hup hr =>
  ⟨pointWindowRead_unbound s p hup hr, fun _ => pointWindowRead_allowed s p hup hr, fun _ v => pointWindowWrite_stages s p hup hr v,
    fun _ lo v => pointWindowWrite_submits s p hup hr lo v, fun v => pointWindowWrite_unbound s p hup hr v⟩
end

section
/-! SUPPORT. Chapter 04: what a command of a session leaves of the module's units, and the 0300h group on loops (O34). -/
namespace Sys2Proof.Machine

/-! ### The units once a command has run (R383 to R385) -/

/-- Every unit of `t` stands as in `u`: only the command service, the host port, the registers, counters and status records, the queue of
commands, the free values and what stands outside every effect may differ. -/
def UnitsKept (u t : State) : Prop := ∃ m hp r ct st p fr fu n,
  t = { u with mbx := m, hostp := hp, regs := r, cnt := ct, stat := st, pending := p, free := fr, fuse := fu, rev := n }

theorem UnitsKept.trans {u t v : State} (h : UnitsKept u t) (k : UnitsKept t v) : UnitsKept u v := by
  obtain ⟨_, _, _, _, _, _, _, _, _, rfl⟩ := h
  obtain ⟨_, _, _, _, _, _, _, _, _, rfl⟩ := k
  exact ⟨_, _, _, _, _, _, _, _, _, rfl⟩

theorem UnitsKept.flt {u t : State} (h : UnitsKept u t) : t.flt = u.flt := by
  obtain ⟨_, _, _, _, _, _, _, _, _, rfl⟩ := h; rfl

theorem UnitsKept.loop {u t : State} (h : UnitsKept u t) : t.loop = u.loop := by
  obtain ⟨_, _, _, _, _, _, _, _, _, rfl⟩ := h; rfl

theorem Taken.unitsKept {s v : State} {h : Hdr} (hv : Taken s h v) : UnitsKept s v := by
  obtain ⟨_, _, _, _, e⟩ := hv.same; rw [e]; exact ⟨_, _, _, _, _, _, _, _, _, rfl⟩

/-- A response leaves the units (R378). -/
theorem respond_unitsKept (u : State) (n op : Nat) (tag booth : Byte) (sseq : W32) (fl st de : Nat) (da : List Byte) :
    UnitsKept u (u.respond n op tag booth sseq fl st de da) := by
  obtain ⟨_, _, _, _, _, e⟩ := u.respond_same n op tag booth sseq fl st de da
  rw [e]; exact ⟨_, _, _, _, _, _, _, _, _, rfl⟩

/-- The end of a command leaves the units (R34, R354). -/
theorem settle_unitsKept (s u : State) (n : Nat) : UnitsKept u ((settle s u).outside s n) := by
  obtain ⟨_, _, _, e⟩ := settle_same s u
  rw [e]; exact ⟨_, _, _, _, _, _, _, _, _, rfl⟩

/-- A command whose effect nests no CRITICAL leaves the units as its effect left them (R495). -/
theorem live_unitsKept {f : State → State} {s u : State} (hp : s.sys.powered = true) (hrun : f s.draw = u)
    (hn : u.flt.nest = false) : Reaches (live f s) (UnitsKept u) := by
  refine live_reaches f s hp ?_ ?_ <;> rw [hrun]
  · exact hn
  · exact settle_unitsKept s u s.rev

theorem admits_powered {s : State} {h : Hdr} {n : Nat} (ha : s.admits h n) : s.sys.powered = true := by
  obtain ⟨⟨hup, -⟩, -⟩ := ha
  exact (State.up_iff.mp hup).1

theorem admits_calm {s : State} {h : Hdr} {n : Nat} (ha : s.admits h n) : s.flt.nest = false := by
  obtain ⟨⟨hup, -⟩, -⟩ := ha
  exact (State.up_iff.mp hup).2

/-- A command answered at once with OK, and the units as its effect left them (R378). -/
theorem ok_units_reaches {P : State → Prop} {f : State → State} {s : State} {h : Hdr} {c : CmdSpec} {body : State → Res} {fl : Nat}
    {da : List Byte} (hf : f s.draw = runCmd h c body s.draw) (ha : s.admits h c.maxData) (hc : c.Clear s) (hd : da.length ≤ c.maxData)
    (hbody : ∀ v, Taken s h v → ∃ u, body v = .now 0 0 da fl u ∧ PathKept s u h ∧
      ∀ t, s.answered t h c.opcode fl da → Leaves u t → UnitsKept u t → P t) : Reaches (live f s) P := by
  obtain ⟨u, hu, k, hP⟩ := hbody _ (admits_taken c ha)
  have htake := admits_canTake ha
  have hpass := admits_firstFail ha hc
  have hrun := hf.trans (runCmd_now h c body s.draw htake hpass hu)
  have hgiven := hrun.trans (runCmd_now h c (fun _ => .now 0 0 da fl u) s.draw htake hpass rfl).symm
  have hans := ok_reaches (P := fun t => UnitsKept u t → P t) hgiven ha hc hd fun _ _ => ⟨u, rfl, k, hP⟩
  have hnest := (respond_leaves u h.session.val c.opcode h.tag h.booth h.sseq fl 0 0 da).flt ▸ k.nest
  have hunits := live_unitsKept (admits_powered ha) hrun hnest
  exact (hans.and hunits).imp fun t ⟨hPt, hkept⟩ => hPt ((respond_unitsKept ..).trans hkept)

/-- A command that waits leaves the units as they were (R383, R385). -/
theorem later_units_reaches {f : State → State} {s : State} {h : Hdr} {c : CmdSpec} {body : State → Res} {w : Wait}
    (hf : f s.draw = runCmd h c body s.draw) (ha : s.admits h c.maxData) (hc : c.Clear s)
    (hbody : ∀ v, Taken s h v → body v = .later w v) :
    Reaches (live f s) fun t => s.inFlightFor t h c.opcode c.maxData w ∧ UnitsKept s t := by
  have hv := admits_taken c ha
  have hrun := hf.trans (runCmd_later h c body s.draw (admits_canTake ha) (admits_firstFail ha hc) (hbody _ hv))
  have hwait := later_reaches (P := fun t => s.inFlightFor t h c.opcode c.maxData w) hf ha hc hbody fun _ hw _ => hw
  have hslot : UnitsKept s (f s.draw) := hrun ▸ hv.unitsKept.trans ⟨_, _, _, _, _, _, _, _, _, rfl⟩
  have hunits := live_unitsKept (f := f) (admits_powered ha) rfl (by rw [hrun]; exact hv.path.nest)
  exact (hwait.and hunits).imp fun t ⟨hw, hkept⟩ => ⟨hw, hslot.trans hkept⟩

/-! ### A check that fails (R384) -/

/-- A command to which nothing before its fields objects fails with BAD_PARAM and the offset of the field out of range, whatever the
checks after the fields say (R384). -/
theorem admits_badParam {s : State} {h : Hdr} {c : CmdSpec} {off : Nat} (ha : s.admits h c.maxData)
    (hc : { c with bad := none, changes := false, busy := none, refuse := none }.Clear s) (hbad : c.bad = some off) :
    s.draw.firstFail h c = some (8, off, 0, []) := by
  have hhdr := admits_headerBad (c := c) ha
  obtain ⟨⟨-, -, -, hpay, htag, -, -, -, -, -, hpar, -⟩, -, hopen, hseq, hbooth⟩ := ha
  obtain ⟨hundef, habsent, hdenied, hauth, hlock, -⟩ := hc
  dsimp only at hundef habsent hdenied hauth hlock
  have hnone : (s.mbx.slots.any fun x => x.session == h.session.val && x.tag == h.tag && !x.discard) = false := by
    rw [List.any_eq_false] at htag ⊢
    exact fun x hx e => htag x hx (Bool.and_eq_true_iff.mp e).1
  have hheld : ∀ o : Option Nat, (o.map s.draw.parityHeld).getD false = false := fun o => by
    cases o <;> simp [State.parityHeld, hpar]
  have hsess : s.draw.sess h.session.val = s.sess h.session.val := rfl
  unfold State.firstFail
  dsimp only
  simp [hhdr, hsess, hopen, hseq, hbooth, hnone, hpay, hundef, habsent, hdenied, hauth, hlock, hheld, hbad]

/-- A command in its turn whose check fails is turned down with that check, before the command ends: its response is on the path and no
unit changed (R379, R384). -/
theorem runCmd_turnsDown {s : State} {h : Hdr} {c : CmdSpec} (body : State → Res) {st de fl : Nat} {da : List Byte}
    (ha : s.admits h c.maxData) (hfail : s.draw.firstFail h c = some (st, de, fl, da)) (hd : da.length ≤ c.maxData) :
    s.turnedDown (runCmd h c body s.draw) h c.opcode fl st de da ∧ UnitsKept s (runCmd h c body s.draw) ∧
      ∀ o, o < 0x69FC → (runCmd h c body s.draw).total o = s.total o := by
  have hv := admits_taken c ha
  rw [runCmd_fails h c body s.draw (admits_canTake ha) hfail]
  have hleft := respond_leaves (s.draw.advanceSseq h c).accept h.session.val c.opcode h.tag h.booth h.sseq fl st de da
  exact ⟨⟨respond_wrote ha hv.path c.opcode fl st de hd, hleft.slots.trans hv.path.slots⟩,
    hv.unitsKept.trans (respond_unitsKept ..), fun o ho => (hleft.total o ho).trans (hv.total o ho)⟩

/-- A response on its path stays there through the end of the command (R379). -/
theorem State.turnedDown_settle {s u : State} {h : Hdr} {op fl st de : Nat} {da : List Byte} (ht : s.turnedDown u h op fl st de da)
    (rev : Nat) : s.turnedDown ((settle s u).outside s rev) h op fl st de da := by
  obtain ⟨hwrote, hslots⟩ := ht
  refine ⟨?_, (settle_leaves s u rev).slots.trans hslots⟩
  unfold State.wrote at hwrote ⊢
  rwa [State.outside_q, settle_q, State.outside_mbx, settle_mbx]

/-! ### What the effect of a command on loops starts from -/

theorem State.ctx_of_loop {u t : State} (h : t.loop = u.loop) (c : Nat) : t.ctx c = u.ctx c := by unfold State.ctx; rw [h]

theorem State.ctx_setCtx_self (s : State) (c : Nat) (x : LoopCtx) : (s.setCtx c x).ctx c = x := sget_sset_self ..

section
variable {s v : State} {h : Hdr} (hv : Taken s h v)
include hv

theorem Taken.loop : v.loop = s.loop := hv.unitsKept.loop

theorem Taken.ctx (c : Nat) : v.ctx c = s.ctx c := State.ctx_of_loop hv.loop c

/-- No command waits ahead on a context where none waited on it before this one was taken (R385). -/
theorem Taken.ctxPending_false {c : Nat} (hpend : s.ctxPending (s.mbx.nextIdent + 1) c = false) :
    ¬v.ctxPending v.mbx.nextIdent c = true := by
  have hsame : v.ctxPending (s.mbx.nextIdent + 1) c = s.ctxPending (s.mbx.nextIdent + 1) c := by
    obtain ⟨_, _, _, _, e⟩ := hv.same; rw [e]; rfl
  rw [hv.nextIdent, hsame, hpend]
  exact Bool.false_ne_true

end

/-! ### Loops read, loaded and switched (R113, R115, R388) -/

/-- The 64 words of a context are 256 bytes (R96). -/
theorem LoopCtx.bytes_length (c : LoopCtx) : c.bytes.length = 256 := by
  unfold LoopCtx.bytes bytesOf32
  rw [List.length_flatMap, List.map_congr_left fun w _ => leBytes_length 4 w.toNat, List.map_const', List.sum_replicate, List.length_map,
    List.length_range]
  rfl

theorem loopRead_reaches (s : State) (h : Hdr) {c : Nat} (hlast : c ≤ 511) (ha : s.admits h 256) (hslots : s.mbx.slots = [])
    (hbooth : s.ctxBooth h c = true) :
    Reaches (exec (.loopRead h c) s) fun t => s.answered t h 0x0301 0 (s.ctx c).bytes ∧ t.loop = s.loop := by
  have hpend : s.ctxPending (s.mbx.nextIdent + 1) c = false := by unfold State.ctxPending; rw [hslots]; rfl
  have hbad : (if 511 < c then some 0 else none) = none := if_neg (by omega)
  refine ok_units_reaches (f := fun s => cmdLoopRead h c s) rfl ha
    { denied := congrArg (!·) hbooth, bad := hbad, changes := fun e => Bool.noConfusion e } (s.ctx c).bytes_length.le fun v hv =>
    ⟨v, (if_neg (hv.ctxPending_false hpend)).trans ?_, hv.path, fun t hans _ hkept => ⟨hans, hkept.loop.trans hv.loop⟩⟩
  rw [hv.ctx]
  rfl

/-- A load that passes every check sets no GAIN_REJ (R113). -/
theorem State.gainFails_of_pass {s : State} {h : Hdr} {c : Nat} {ws : List W32} (hpass : s.firstFail h (s.loadSpec h c ws) = none) :
    ¬s.gainFails h c ws = true := by
  unfold State.gainFails
  dsimp only
  rw [hpass, Bool.and_eq_true_iff, decide_eq_true_iff]
  exact fun e => nomatch e.2.1

/-- A load whose first failing check is a field out of its range sets GAIN_REJ where neither its number, its kind nor its schedule is
at fault (R113). -/
theorem State.gainFails_of_badParam {s : State} {h : Hdr} {c off : Nat} {ws : List W32} (htake : s.canTake h (s.loadSpec h c ws) = true)
    (hfail : s.firstFail h (s.loadSpec h c ws) = some (8, off, 0, [])) (hlast : c ≤ 511) (hkind : bits (ws.getD 0 0) 31 30 ≠ 3)
    (hsched : badWord ws ≠ some 1) : s.gainFails h c ws = true := by
  unfold State.gainFails
  dsimp only
  rw [htake, hfail, Bool.true_and, decide_eq_true_iff]
  exact ⟨rfl, hlast, hkind, hsched⟩

theorem loopLoad_waits (s : State) (h : Hdr) {c : Nat} (ws : List W32) (hrole : s.trap.role.refuses = false) (ha : s.admits h 8)
    (hdenied : s.loadDenied h c ws = false) (hbad : s.loadBad c ws = none) (hrefused : s.loadRefused c ws = false) :
    Reaches (exec (.loopLoad h c ws) s) fun t => s.inFlightFor t h 0x0302 8 (.load c ws) ∧ t.loop = s.loop := by
  have hclear : (s.draw.loadSpec h c ws).Clear s :=
    { denied := hdenied, bad := hbad, changes := fun _ => hrole, refuse := if_neg (ne_true_of_eq_false hrefused) }
  have hrun : cmdLoopLoad h c ws s.draw = runCmd h (s.draw.loadSpec h c ws) (fun s => .later (.load c ws) s) s.draw :=
    if_neg (State.gainFails_of_pass (admits_firstFail ha hclear))
  exact (later_units_reaches (f := fun s => cmdLoopLoad h c ws s) hrun ha hclear fun _ _ => rfl).imp fun t ⟨hwait, hkept⟩ =>
    ⟨hwait, hkept.loop⟩

/-- A load that R101 or R113 refuses is answered with the offset of its first word, shown in GAIN_REJ and counted (R113, R384). -/
theorem loopLoad_gainRejected (s : State) (h : Hdr) {c : Nat} (hlast : c ≤ 511) (ws : List W32) (off : Nat)
    (ha : s.admits h 8) (hdenied : s.loadDenied h c ws = false) (hkind : bits (ws.getD 0 0) 31 30 ≠ 3)
    (hsched : badWord ws ≠ some 1) (hbad : s.loadBad c ws = some off) :
    Reaches (exec (.loopLoad h c ws) s) fun t => s.turnedDown t h 0x0302 0 8 off [] ∧ t.sq 5 6 = true ∧
      t.total 0x28BC = s.total 0x28BC + 1 ∧ t.loop = s.loop := by
  have hfail : s.draw.firstFail h (s.draw.loadSpec h c ws) = some (8, off, 0, []) :=
    admits_badParam ha { denied := hdenied, bad := rfl, changes := fun e => Bool.noConfusion e } hbad
  obtain ⟨hdown, hkept, htotal⟩ := runCmd_turnsDown (fun s => .later (.load c ws) s) ha hfail (Nat.zero_le _)
  have hload : cmdLoopLoad h c ws s.draw = _ := if_pos (State.gainFails_of_badParam (admits_canTake ha) hfail hlast hkind hsched)
  generalize runCmd h (s.draw.loadSpec h c ws) (fun s => .later (.load c ws) s) s.draw = u at hdown hkept htotal hload
  have hend := settle_leaves s ((u.setSQ 5 6).count 0x28BC 1) s.rev
  refine live_reaches (fun s => cmdLoopLoad h c ws s) s (admits_powered ha) ?_ ?_ <;> rw [hload]
  · exact hkept.flt ▸ admits_calm ha
  · refine ⟨State.turnedDown_settle (u := (u.setSQ 5 6).count 0x28BC 1) hdown s.rev, hend.sq 5 6 (State.sq_setSQ_self u 5 6), ?_,
      (settle_unitsKept ..).loop.trans hkept.loop⟩
    rw [hend.total _ (by decide), State.total_count, ← htotal _ (by decide)]
    rfl

/-- LOOP_MODE waits for its boundary (R115). -/
theorem loopMode_waits (s : State) (h : Hdr) {c mode : Nat} (hlast : c ≤ 511) (manOut : W32) (hrole : s.trap.role.refuses = false)
    (ha : s.admits h 8) (hbooth : s.ctxBooth h c = true) (hmode : mode ≤ 2) :
    Reaches (exec (.loopMode h c mode manOut) s) fun t => s.inFlightFor t h 0x0303 8 (.mode c mode manOut) ∧ t.loop = s.loop := by
  have hbad : (if 511 < c then some 0 else if 2 < mode then some 2 else none) = none := (if_neg (by omega)).trans (if_neg (by omega))
  exact (later_units_reaches (f := fun s => cmdLoopMode h c mode manOut s) rfl ha
    { denied := congrArg (!·) hbooth, bad := hbad, changes := fun _ => hrole } fun _ _ => rfl).imp fun t ⟨hwait, hkept⟩ =>
    ⟨hwait, hkept.loop⟩

/-! ### Permission for tests (R121, R388) -/

/-- SPOT_PERMIT as the service carries it out: its own checks, and its effect (R121, R385). -/
theorem cmdSpotPermit_eq (h : Hdr) (c permit : Nat) (s : State) : cmdSpotPermit h c permit s =
    runCmd h { opcode := 0x0304, changes := true
               denied := !((s.ctx c).inUse && decide ((s.ctx c).owner = s.boothOf h) || decide (s.boothOf h = 255))
               bad := if 511 < c then some 0 else if 1 < permit then some 2 else none }
      (fun s => if s.ctxPending s.mbx.nextIdent c then .later (.permit c permit h.booth) s else permitRes c permit h.booth s) s := by
  unfold cmdSpotPermit; rfl

theorem spotPermit_reaches (s : State) (h : Hdr) {c permit : Nat} (hlast : c ≤ 511) (hrole : s.trap.role.refuses = false)
    (ha : s.admits h 0) (hpermit : permit ≤ 1) (hpend : s.ctxPending (s.mbx.nextIdent + 1) c = false) (huse : (s.ctx c).inUse = true)
    (howner : (s.ctx c).owner = s.boothOf h ∨ s.boothOf h = 255) :
    Reaches (exec (.spotPermit h c permit) s) fun t => s.answered t h 0x0304 0 [] ∧
      t.ctx c = { s.ctx c with permit := decide (permit = 1)
                               permitOwn := decide (permit = 1) &&
                                 (decide ((s.ctx c).owner = s.boothOf h) || (s.ctx c).permitOwn) } := by
  have hbad : (if 511 < c then some 0 else if 1 < permit then some 2 else none) = none := (if_neg (by omega)).trans (if_neg (by omega))
  have hdenied : (!((s.ctx c).inUse && decide ((s.ctx c).owner = s.boothOf h) || decide (s.boothOf h = 255))) = false := by
    rw [huse]; obtain hown | hhost := howner
    · rw [decide_eq_true hown]; rfl
    · rw [decide_eq_true hhost, Bool.or_true]; rfl
  have hbooth : h.booth.toNat = s.boothOf h := by
    obtain ⟨-, -, -, -, hbound⟩ := ha
    rw [hbound]; rfl
  refine ok_units_reaches (f := fun s => cmdSpotPermit h c permit s) (fl := 0) (da := []) (cmdSpotPermit_eq h c permit s.draw) ha
    { denied := hdenied, bad := hbad, changes := fun _ => hrole } (Nat.zero_le _) fun v hv => ?_
  have hres : permitRes c permit h.booth v = okRes [] (v.setCtx c { s.ctx c with
      permit := decide (permit = 1)
      permitOwn := decide (permit = 1) && (decide ((s.ctx c).owner = s.boothOf h) || (s.ctx c).permitOwn) }) := by
    unfold permitRes
    dsimp only
    rw [hv.ctx, if_pos huse, hbooth]
  refine ⟨_, (if_neg (hv.ctxPending_false hpend)).trans hres, hv.path.of_same rfl rfl rfl rfl, fun t hans _ hkept => ⟨hans, ?_⟩⟩
  rw [State.ctx_of_loop hkept.loop]
  exact State.ctx_setCtx_self ..

end Sys2Proof.Machine

open Sys2Proof.Machine

/-- Settles O34, a command a clause. -/
theorem loopCommands : Obligations.LoopCommands := fun s h _ hlast hrole =>
  ⟨loopRead_reaches s h hlast, fun ws => loopLoad_waits s h ws hrole, fun ws off => loopLoad_gainRejected s h hlast ws off,
    fun _ manOut ha => loopMode_waits s h hlast manOut hrole ha, fun _ ha => spotPermit_reaches s h hlast hrole ha⟩
end

section
/-! SUPPORT. Chapter 04: Spotlight's slots, and the commands that start, stop and forward its tests (O35). -/
namespace Sys2Proof.Machine

/-! ### Slots (R121) -/

theorem State.spot_of_loop {u t : State} (h : t.loop = u.loop) (k : Nat) : t.spot k = u.spot k := by unfold State.spot; rw [h]

theorem State.spot_setSpot_self (s : State) {k : Nat} (x : Spot) (hk : k < s.loop.spots.length) : (s.setSpot k x).spot k = x :=
  lmod_getD_self _ _ _ _ hk

theorem State.spots_setSpot_length (s : State) (k : Nat) (x : Spot) : (s.setSpot k x).loop.spots.length = s.loop.spots.length :=
  lmod_length ..

theorem idxWhere_lt {n k : Nat} {f : Nat → Bool} (h : idxWhere n f = some k) : k < n := List.mem_range.mp (List.mem_of_find?_eq_some h)

/-- A check objects to nothing where its condition does not hold and the checks behind it object to nothing. -/
theorem guarded_eq_none {α : Type} {c : Prop} [Decidable c] {d : α} {o : Option α} :
    (if c then some d else o) = none ↔ ¬c ∧ o = none := by
  split
  next hc => exact ⟨fun e => absurd e (Option.some_ne_none d), fun e => absurd hc e.1⟩
  next hc => exact ⟨fun e => ⟨hc, e⟩, And.right⟩

/-- A start is not refused where a slot is free, the loop regulates, Spotlight is enabled, the context's Juggler has room, and the house
sheds no tests (R121, R247). -/
theorem State.spotRefused_none_iff (s : State) (c : Nat) : s.spotRefused c = none ↔
    ¬s.freeSpot.isNone = true ∧ ¬((s.ctx c).mode = 0 ∨ (s.ctx c).mode = 3) ∧ ¬s.flag 0x2800 0 = false ∧
      ¬600 * 2 ^ s.crsl.period < s.fld (0x0840 + 4 * (c / 32)) 15 0 ∧ ¬3 ≤ s.ledger.house := by
  unfold State.spotRefused State.openDetail
  simp only [guarded_eq_none, decide_eq_true_iff, and_true]

/-! ### What the effect of a command of Spotlight starts from -/

section
variable {s v : State} {h : Hdr} (hv : Taken s h v)
include hv

theorem Taken.spot (k : Nat) : v.spot k = s.spot k := State.spot_of_loop hv.loop k

theorem Taken.freeSpot : v.freeSpot = s.freeSpot := by unfold State.freeSpot State.spot; rw [hv.loop]

theorem Taken.spotRefused_none {c : Nat} (hopen : s.spotRefused c = none) : v.spotRefused c = none := by
  rw [State.spotRefused_none_iff] at hopen ⊢
  obtain ⟨_, _, _, _, e⟩ := hv.same; rw [e]; exact hopen

end

/-! ### Tests started (R121) -/

/-- A test that nothing refuses starts in the free slot, and the loop's context shows it (R121). -/
theorem spotStartRes_starts {v : State} {c k : Nat} (p : SpotParams) (hopen : v.spotRefused c = none) (hfree : v.freeSpot = some k) :
    ∃ x y, (x.state = 1 ∧ x.ctx = c ∧ x.params = p ∧ x.count = 0) ∧
      spotStartRes c p v = okRes [BitVec.ofNat 8 k] (((v.setSpot k x).count 0x28A8 1).setCtx c y) := by
  unfold spotStartRes
  rw [hopen, hfree]
  exact ⟨_, _, ⟨rfl, rfl, rfl, rfl⟩, rfl⟩

theorem spotStart_reaches (s : State) (hspots : s.loop.spots.length = 4) (hrole : s.trap.role.refuses = false) (h : Hdr) {c : Nat}
    {p : SpotParams} {k : Nat} (ha : s.admits h 1) (hpend : s.ctxPending (s.mbx.nextIdent + 1) c = false)
    (hbooth : s.spotBooth h c = true) (hbad : s.spotBad c p = none) (hopen : s.spotRefused c = none) (hfree : s.freeSpot = some k) :
    Reaches (exec (.spotStart h c p) s) fun t =>
      s.answered t h 0x0305 0 [BitVec.ofNat 8 k] ∧ (t.spot k).state = 1 ∧ (t.spot k).ctx = c ∧ (t.spot k).params = p ∧
        (t.spot k).count = 0 ∧ t.total 0x28A8 = s.total 0x28A8 + 1 := by
  have hdraw : s.draw.spotRefused c = none := (State.spotRefused_none_iff s.draw c).mpr ((State.spotRefused_none_iff s c).mp hopen)
  have hrefuse : (if s.draw.ctxPending (s.draw.mbx.nextIdent + 1) c = true then none else s.draw.spotRefused c) = none := by
    rw [hdraw, ite_self]
  refine ok_units_reaches (f := fun s => cmdSpotStart h c p s) (fl := 0) rfl ha
    { denied := congrArg (!·) hbooth, bad := hbad, changes := fun _ => hrole, refuse := hrefuse }
    (List.length_singleton (a := BitVec.ofNat 8 k)).le fun v hv => ?_
  obtain ⟨x, y, ⟨hstate, hctx, hparams, hcount⟩, hstart⟩ :=
    spotStartRes_starts p (hv.spotRefused_none hopen) (hv.freeSpot.trans hfree)
  refine ⟨_, (if_neg (hv.ctxPending_false hpend)).trans hstart, hv.path.of_same rfl rfl rfl rfl, fun t hans hleft hkept => ?_⟩
  have hslot : t.spot k = x := (State.spot_of_loop hkept.loop k).trans
    (v.spot_setSpot_self x (by rw [hv.loop, hspots]; exact idxWhere_lt hfree))
  rw [hslot, hleft.total _ (by decide), ← hv.total _ (by decide)]
  exact ⟨hans, hstate, hctx, hparams, hcount, (v.setSpot k x).total_count 0x28A8 1⟩

/-! ### Tests stopped (R125) -/

/-- A slot whose test was aborted with a cause, its injection taken away (R125). -/
def Spot.Aborted (x : Spot) (cause : Nat) : Prop := x.state = 3 ∧ x.cause = cause ∧ x.inject = 0

/-- `u` is `s` with the test of slot `k` aborted with a cause, before SPOT_ABORT is raised and counted (R125): at most loops, counters and
status records have changed. -/
structure Stopped (s : State) (k cause : Nat) (u : State) : Prop where
  same : ∃ l ct st, u = { s with loop := l, cnt := ct, stat := st }
  total : u.total 0x28B0 = s.total 0x28B0
  slot : (u.spot k).Aborted cause

theorem setSpot_stopped {s : State} {k cause : Nat} {x : Spot} (hk : k < s.loop.spots.length) (hx : x.Aborted cause) :
    Stopped s k cause (s.setSpot k x) :=
  ⟨⟨_, _, _, rfl⟩, rfl, by rw [State.spot_setSpot_self _ _ hk]; exact hx⟩

section
variable {s u : State} {k cause : Nat} (h : Stopped s k cause u)
include h

theorem Stopped.setCtx (c : Nat) (x : LoopCtx) : Stopped s k cause (u.setCtx c x) := by
  obtain ⟨⟨_, _, _, rfl⟩, htotal, hslot⟩ := h
  exact ⟨⟨_, _, _, rfl⟩, htotal, hslot⟩

/-- Keeping or dropping a packet leaves what the slot's test came to (R127). -/
theorem Stopped.keepPacket (hk : k < u.loop.spots.length) (b : SpotBuf) : Stopped s k cause (u.keepPacket k b) := by
  obtain ⟨⟨_, _, _, hsame⟩, htotal, hslot⟩ := h
  unfold State.keepPacket
  split
  · exact ⟨⟨_, _, _, hsame⟩, htotal, hslot⟩
  · split
    · exact ⟨by rw [hsame]; exact ⟨_, _, _, rfl⟩, (State.total_count_ne _ 1 (by decide)).trans htotal, hslot⟩
    · obtain ⟨_, htotal', hslot'⟩ := setSpot_stopped (x := { u.spot k with full := (u.spot k).full ++ [b] }) hk hslot
      exact ⟨by rw [hsame]; exact ⟨_, _, _, rfl⟩, htotal'.trans htotal, hslot'⟩

end

/-- A running test ended with a cause is aborted, its slot showing it; SPOT_ABORT is raised and counted (R125). -/
theorem endSpot_aborts {s : State} {k cause : Nat} (hk : k < s.loop.spots.length) (hrun : (s.spot k).state = 1) (hcause : cause ≠ 0) :
    ∃ u, Stopped s k cause u ∧ s.endSpot k cause = (u.setSQ 5 2).count 0x28B0 1 := by
  unfold State.endSpot
  extract_lets x y closed c marked ended
  have hy : y.Aborted cause := ⟨if_neg hcause, rfl, rfl⟩
  have hclosed : Stopped s k cause closed := by
    unfold closed
    split
    · exact setSpot_stopped hk hy
    · exact (setSpot_stopped hk hy).keepPacket (by rw [State.spots_setSpot_length]; exact hk) x.cur
  have hmarked : Stopped s k cause marked := by
    unfold marked
    split
    · exact hclosed.setCtx ..
    · split
      · exact hclosed.setCtx ..
      · exact hclosed
  exact ⟨ended, hmarked.setCtx .., (if_neg (not_not.mpr hrun)).trans (if_neg hcause)⟩

theorem spotStop_reaches (s : State) (hspots : s.loop.spots.length = 4) (hrole : s.trap.role.refuses = false) (h : Hdr) {k : Nat}
    (ha : s.admits h 0) (hk : k < 4) (hpend : s.ctxPending (s.mbx.nextIdent + 1) (s.spot k).ctx = false) (hrun : (s.spot k).state = 1)
    (hbooth : s.spotBooth h (s.spot k).ctx = true) :
    Reaches (exec (.spotStop h k) s) fun t => s.answered t h 0x0306 0 [] ∧ (t.spot k).state = 3 ∧ (t.spot k).cause = 1 ∧
      (t.spot k).inject = 0 ∧ t.sq 5 2 = true ∧ t.total 0x28B0 = s.total 0x28B0 + 1 := by
  have hdenied : (decide ((s.spot k).state = 1) && !s.spotBooth h (s.spot k).ctx) = false := by rw [hbooth]; exact Bool.and_false _
  refine ok_units_reaches (f := fun s => cmdSpotStop h k s) (fl := 0) (da := []) rfl ha
    { denied := hdenied, bad := if_neg (by omega), changes := fun _ => hrole } (Nat.zero_le _) fun v hv => ?_
  obtain ⟨u, ⟨⟨_, _, _, hsame⟩, htotal, haborted⟩, hend⟩ := endSpot_aborts (s := v) (k := k) (cause := 1)
    (by rw [hv.loop, hspots]; exact hk) (by rw [hv.spot]; exact hrun) (by decide)
  refine ⟨_, if_neg (by rw [hv.spot]; exact hv.ctxPending_false hpend), ?_, fun t hans hleft hkept => ?_⟩
  · rw [hend, hsame]; exact hv.path.of_same rfl rfl rfl rfl
  · rw [hend] at hleft hkept
    obtain ⟨hstate, hshown, hinject⟩ := (State.spot_of_loop (t := t) (u := u) hkept.loop k) ▸ haborted
    refine ⟨hans, hstate, hshown, hinject, hleft.sq 5 2 (State.sq_setSQ_self u 5 2), ?_⟩
    rw [hleft.total _ (by decide), State.total_count, ← hv.total _ (by decide), ← htotal]
    rfl

/-! ### Packets forwarded (R126, R127) -/

/-- The oldest complete packet of a slot leaves it for its queue, where that has room (R126). -/
theorem State.spotForward_room (s : State) {k : Nat} {b : SpotBuf} {rest : List SpotBuf} (hfull : (s.spot k).full = b :: rest)
    (hroom : s.qRoom (8 + b.queue) b.packet.length = true) :
    s.spotForward k = (s.setSpot k { s.spot k with full := rest }).setQ (8 + b.queue) ((s.q (8 + b.queue)).push b.packet) := by
  unfold State.spotForward
  dsimp only
  rw [hfull]
  exact (if_pos hroom).trans (State.produce_room _ _ _ hroom)

/-- It is dropped where the queue has no room (R127). -/
theorem State.spotForward_full (s : State) {k : Nat} {b : SpotBuf} {rest : List SpotBuf} (hfull : (s.spot k).full = b :: rest)
    (hroom : s.qRoom (8 + b.queue) b.packet.length = false) :
    s.spotForward k = ((s.setSpot k { s.spot k with full := rest }).setSQ 5 1).count 0x28B8 1 := by
  unfold State.spotForward
  dsimp only
  rw [hfull]
  exact if_neg (ne_true_of_eq_false hroom)

theorem spotPacketForward_reaches (s : State) (hspots : s.loop.spots.length = 4) (k : Fin 4) (b : SpotBuf) (rest : List SpotBuf)
    (hup : s.up = true) (hqueues : s.hostp.queues.length = 32) (hfull : (s.spot k.val).full = b :: rest) (hb : b.queue < 4)
    (hroom : s.qRoom (8 + b.queue) b.packet.length = true) :
    Reaches (exec (.spotPacketForward k) s) fun t =>
      t.q (8 + b.queue) = (s.q (8 + b.queue)).push b.packet ∧ (t.spot k.val).full = rest := by
  obtain ⟨hp, hn⟩ := State.up_iff.mp hup
  have hmove := State.spotForward_room s.draw hfull hroom
  refine live_reaches (fun s => s.spotForward k.val) s hp ?_ ?_ <;> rw [hmove]
  · exact hn
  · rw [State.outside_q, settle_q, State.spot_of_loop (settle_unitsKept ..).loop]
    exact ⟨State.q_setQ_self _ _ (by rw [State.setSpot_hostp, State.draw_hostp, hqueues]; omega),
      congrArg Spot.full (s.draw.spot_setSpot_self _ (hspots.symm ▸ k.isLt : k.val < s.loop.spots.length))⟩

theorem spotPacketForward_drops (s : State) (hspots : s.loop.spots.length = 4) (k : Fin 4) (b : SpotBuf) (rest : List SpotBuf)
    (hup : s.up = true) (hfull : (s.spot k.val).full = b :: rest) (hroom : s.qRoom (8 + b.queue) b.packet.length = false) :
    Reaches (exec (.spotPacketForward k) s) fun t => t.hostp.queues = s.hostp.queues ∧ (t.spot k.val).full = rest ∧
      t.sq 5 1 = true ∧ t.total 0x28B8 = s.total 0x28B8 + 1 := by
  obtain ⟨hp, hn⟩ := State.up_iff.mp hup
  have hdrop := State.spotForward_full s.draw hfull hroom
  have hend := settle_leaves s (((s.draw.setSpot k.val { s.draw.spot k.val with full := rest }).setSQ 5 1).count 0x28B8 1) s.rev
  refine live_reaches (fun s => s.spotForward k.val) s hp ?_ ?_ <;> rw [hdrop]
  · exact hn
  · rw [State.outside_hostp, settle_hostp_queues, State.spot_of_loop (settle_unitsKept ..).loop, hend.total _ (by decide)]
    exact ⟨rfl, congrArg Spot.full (s.draw.spot_setSpot_self _ (hspots.symm ▸ k.isLt : k.val < s.loop.spots.length)),
      hend.sq 5 1 (State.sq_setSQ_self _ 5 1), State.total_count ..⟩

end Sys2Proof.Machine

open Sys2Proof.Machine

/-- Settles O35, a command a clause. -/
theorem spotlightTests : Obligations.SpotlightTests := fun s hspots hrole =>
  ⟨fun h _ _ _ ha hpend hbooth => spotStart_reaches s hspots hrole h ha hpend hbooth,
    fun h _ => spotStop_reaches s hspots hrole h,
    fun k b rest hup hqueues hfull hb => ⟨spotPacketForward_reaches s hspots k b rest hup hqueues hfull hb,
      spotPacketForward_drops s hspots k b rest hup hfull⟩⟩
end

section
/-! SUPPORT. Chapter 20: the supply (O6). -/
namespace Sys2Proof.Machine

/-! ### Counters above those of the fault unit (R492) -/

/-- A logged event advances no counter above those of the fault unit. -/
theorem State.logEvent_total_high (s : State) (cls : EvClass) (src code : Nat) (booth : Byte) (data : W64) {o : Nat} (h : 0x9858 < o) :
    (s.logEvent cls src code booth data).total o = s.total o := by
  have hnum : cls.num < 4 := by cases cls <;> decide
  refine s.logEvent_induction cls src code booth data (P := fun t => t.total o = s.total o) (s.total_count_ne 1 (by omega))
    (fun t e k => ?_) (fun t fs k => ?_) (fun t e k => ?_)
  · rw [t.captureFirst_total, k]
  · rw [State.total_count_ne _ 1 (by omega)]; exact k
  · rw [t.bufferEntry_total e (by omega), k]

/-! ### Early warning (R150, R511, R512) -/

/-- The front of early warning: EW_N low, PWR_CNT0 and the NOTE 2Bh (R511). -/
def State.warnEarly (s : State) (mv : Nat) : State :=
  ((({ s with pwr := { s.pwr with early := true, ewN := false } } : State).setSQ 21 1).count 0xA840 1).raise .note 19 0x2B 0xFF mv

/-- A hold-up test in progress abandoned and counted (R512). -/
def State.abandonTest (s : State) : State :=
  if s.pwr.testing then ({ s with pwr := { s.pwr with testing := false } } : State).count 0xA848 1 else s

theorem earlyWarning_of_not_early {s : State} (mv : Nat) (h : s.pwr.early = false) :
    earlyWarning mv s = (s.warnEarly mv).abandonTest.finalSave := if_neg (ne_true_of_eq_false h)

theorem holdupTestEnd_none {s : State} (h : s.pwr.testing = true) : holdupTestEnd none s = s.abandonTest := by
  unfold holdupTestEnd State.abandonTest; rw [h]; rfl

theorem State.warnEarly_logOnly (s : State) (mv : Nat) :
    LogOnly { s with pwr := { s.pwr with early := true, ewN := false } } (s.warnEarly mv) :=
  (((LogOnly.refl _).setSQ 21 1).count 0xA840 1).raise .note 19 0x2B 0xFF mv

@[simp] theorem State.warnEarly_pwr (s : State) (mv : Nat) : (s.warnEarly mv).pwr = { s.pwr with early := true, ewN := false } := by
  obtain ⟨_, _, _, hsame⟩ := (s.warnEarly_logOnly mv).same; rw [hsame]

@[simp] theorem State.warnEarly_nest (s : State) (mv : Nat) : (s.warnEarly mv).flt.nest = s.flt.nest :=
  raise_nest _ .note 19 0x2B 0xFF mv (by decide)

@[simp] theorem State.warnEarly_sq (s : State) (mv : Nat) : (s.warnEarly mv).sq 21 1 = true :=
  (raise_logOnly _ .note 19 0x2B 0xFF mv).sq 21 1 (State.sq_setSQ_self _ 21 1)

@[simp] theorem State.warnEarly_total_warnings (s : State) (mv : Nat) : (s.warnEarly mv).total 0xA840 = s.total 0xA840 + 1 :=
  (State.logEvent_total_high _ .note 19 0x2B 0xFF _ (by decide)).trans (State.total_count _ _ 1)

@[simp] theorem State.warnEarly_total_abandoned (s : State) (mv : Nat) : (s.warnEarly mv).total 0xA848 = s.total 0xA848 :=
  (State.logEvent_total_high _ .note 19 0x2B 0xFF _ (by decide)).trans (State.total_count_ne _ 1 (by decide))

@[simp] theorem State.abandonTest_pwr (s : State) : s.abandonTest.pwr = { s.pwr with testing := false } := by
  unfold State.abandonTest
  split
  next => rfl
  next h => rw [← Bool.eq_false_of_not_eq_true h]

@[simp] theorem State.abandonTest_flt (s : State) : s.abandonTest.flt = s.flt := by unfold State.abandonTest; split <;> rfl

@[simp] theorem State.abandonTest_sq (s : State) (b i : Nat) : s.abandonTest.sq b i = s.sq b i := by
  unfold State.abandonTest; split <;> rfl

@[simp] theorem State.abandonTest_total (s : State) :
    s.abandonTest.total 0xA848 = s.total 0xA848 + (if s.pwr.testing then 1 else 0) := by
  unfold State.abandonTest
  split
  · exact State.total_count _ _ 1
  · rfl

theorem State.abandonTest_total_ne (s : State) {o : Nat} (h : 0xA848 ≠ o) : s.abandonTest.total o = s.total o := by
  unfold State.abandonTest
  split
  · exact State.total_count_ne _ 1 h
  · rfl

/-- A final save alters the checkpoint record and its count of abandoned checkpoints alone (R150). -/
theorem State.finalSave_same (s : State) : ∃ c g, s.finalSave = { s with cnt := c, prg := g } := by
  unfold State.finalSave; dsimp only; split <;> exact ⟨_, _, rfl⟩

@[simp] theorem State.finalSave_pwr (s : State) : s.finalSave.pwr = s.pwr := by
  obtain ⟨_, _, hsame⟩ := s.finalSave_same; rw [hsame]

@[simp] theorem State.finalSave_flt (s : State) : s.finalSave.flt = s.flt := by
  obtain ⟨_, _, hsame⟩ := s.finalSave_same; rw [hsame]

@[simp] theorem State.finalSave_sq (s : State) (b i : Nat) : s.finalSave.sq b i = s.sq b i := by
  obtain ⟨_, _, hsame⟩ := s.finalSave_same; rw [hsame]; rfl

theorem State.finalSave_total_ne (s : State) {o : Nat} (h : 0x30A0 ≠ o) : s.finalSave.total o = s.total o := by
  unfold State.finalSave
  dsimp only
  split
  · exact State.total_count_ne s 1 h
  · rfl

@[simp] theorem State.finalSave_finalDue (s : State) : s.finalSave.prg.ckpt.finalDue = true := rfl

@[simp] theorem State.finalSave_writing (s : State) : s.finalSave.prg.ckpt.writing = none := rfl

theorem earlyWarning_reaches (s : State) (hup : s.up = true) (mv : Nat) (h : s.pwr.early = false) :
    Reaches (exec (.earlyWarning mv) s) fun t =>
      t.pwr.early = true ∧ t.pwr.ewN = false ∧ t.pwr.testing = false ∧ t.sq 21 1 = true ∧
        t.total 0xA840 = s.total 0xA840 + 1 ∧ t.total 0xA848 = s.total 0xA848 + (if s.pwr.testing then 1 else 0) ∧
        t.prg.ckpt.finalDue = true ∧ t.prg.ckpt.writing = none := by
  obtain ⟨hp, hn⟩ := State.up_iff.mp hup
  have hrun := earlyWarning_of_not_early (s := s.draw) mv h
  refine live_reaches (fun s => earlyWarning mv s) s hp ?_ ?_ <;> rw [hrun]
  · simpa using hn
  · have hwarnings : (s.draw.warnEarly mv).abandonTest.finalSave.total 0xA840 = s.total 0xA840 + 1 := by
      rw [State.finalSave_total_ne _ (by decide), State.abandonTest_total_ne _ (by decide), State.warnEarly_total_warnings]; rfl
    have habandoned : (s.draw.warnEarly mv).abandonTest.finalSave.total 0xA848 =
        s.total 0xA848 + (if s.pwr.testing then 1 else 0) := by
      rw [State.finalSave_total_ne _ (by decide), State.abandonTest_total, State.warnEarly_total_abandoned, State.warnEarly_pwr]; rfl
    have hsq : (settle s (s.draw.warnEarly mv).abandonTest.finalSave).sq 21 1 = true := settle_sq_mono _ _ (by simp)
    simp [hsq, settle_total, hwarnings, habandoned]

theorem earlyWarningEnd_reaches (s : State) (hup : s.up = true) (h : s.pwr.early = true) :
    Reaches (exec .earlyWarningEnd s) fun t => t.pwr = { s.pwr with early := false, ewN := true } := by
  obtain ⟨hp, hn⟩ := State.up_iff.mp hup
  have hrun : earlyWarningEnd s.draw = { s.draw with pwr := { s.pwr with early := false, ewN := true } } := if_pos h
  refine live_reaches (fun s => earlyWarningEnd s) s hp ?_ ?_ <;> rw [hrun]
  · exact hn
  · rw [State.outside_pwr, settle_pwr]

/-! ### The hold-up test (R512) -/

theorem holdupTest_reaches (s : State) (hup : s.up = true) (hen : bitAt (s.setting19 0xA800) 0 = true) (hearly : s.pwr.early = false)
    (harmed : s.upd.state ≠ .armed) (htrial : s.upd.state ≠ .trial) (hsw : s.switching = false) :
    Reaches (exec .holdupTest s) fun t => t.pwr = { s.pwr with testing := true } := by
  obtain ⟨hp, hn⟩ := State.up_iff.mp hup
  have hrun : holdupTest s.draw = { s.draw with pwr := { s.pwr with testing := true } } := by
    refine if_neg ?_
    rintro (h | h | h | h | h)
    · exact absurd (hen.symm.trans h) (by decide)
    · exact absurd (hearly.symm.trans h) (by decide)
    · exact harmed h
    · exact htrial h
    · exact absurd (hsw.symm.trans h) (by decide)
  refine live_reaches (fun s => holdupTest s) s hp ?_ ?_ <;> rw [hrun]
  · exact hn
  · rw [State.outside_pwr, settle_pwr]

/-- The result of a hold-up test of `us` µs recorded: C = 20 mA × time / 1 V, and PWR_CNT1 (R512). -/
def State.recordHoldup (s : State) (us : Nat) : State :=
  ({ s with pwr := { s.pwr with testing := false, holdValid := true, holdUf := us * 20 / 1000, atNs := s.crsl.upNs } } : State).count
    0xA844 1

theorem holdupTestEnd_some {s : State} (us : Nat) (h : s.pwr.testing = true) : holdupTestEnd (some us) s =
    if us * 20 / 1000 < 658 then (s.recordHoldup us).report .warn 21 2 0xFF (us * 20 / 1000) else s.recordHoldup us :=
  if_neg (ne_false_of_eq_true h)

theorem holdupTestEnd_logOnly {s : State} (us : Nat) (h : s.pwr.testing = true) :
    LogOnly (s.recordHoldup us) (holdupTestEnd (some us) s) := by
  rw [holdupTestEnd_some us h]
  split
  · exact report_logOnly _ .warn 21 2 0xFF _
  · exact .refl _

theorem holdupTestEnd_nest {s : State} (us : Nat) (h : s.pwr.testing = true) :
    (holdupTestEnd (some us) s).flt.nest = s.flt.nest := by
  rw [holdupTestEnd_some us h]
  split
  · exact raise_nest _ .warn 21 2 0xFF _ (by decide)
  · rfl

theorem holdupTestEnd_total {s : State} (us : Nat) (h : s.pwr.testing = true) :
    (holdupTestEnd (some us) s).total 0xA844 = s.total 0xA844 + 1 := by
  have hcount : (s.recordHoldup us).total 0xA844 = s.total 0xA844 + 1 := State.total_count _ _ 1
  rw [holdupTestEnd_some us h]
  split
  · exact (State.logEvent_total_high _ .warn 21 2 0xFF _ (by decide)).trans hcount
  · exact hcount

/-- A store below 658 µF sets HOLDUP_LOW (R512). -/
theorem holdupTestEnd_low {s : State} {us : Nat} (h : s.pwr.testing = true) (hlow : us * 20 / 1000 < 658) :
    (holdupTestEnd (some us) s).sq 21 2 = true := by
  rw [holdupTestEnd_some us h, if_pos hlow]
  exact report_sq _ .warn 21 2 0xFF _

theorem holdupTestEnd_reaches (s : State) (hup : s.up = true) (us : Nat) (h : s.pwr.testing = true) :
    Reaches (exec (.holdupTestEnd (some us)) s) fun t =>
      t.pwr = { s.pwr with testing := false, holdValid := true, holdUf := us * 20 / 1000, atNs := s.crsl.upNs } ∧
        t.total 0xA844 = s.total 0xA844 + 1 ∧ (us * 20 / 1000 < 658 → t.sq 21 2 = true) := by
  obtain ⟨hp, hn⟩ := State.up_iff.mp hup
  obtain ⟨_, _, _, hsame⟩ := (holdupTestEnd_logOnly (s := s.draw) us h).same
  refine live_reaches (fun s => holdupTestEnd (some us) s) s hp ((holdupTestEnd_nest (s := s.draw) us h).trans hn) ?_
  rw [State.outside_pwr, State.outside_total, settle_pwr, settle_total _ _ (by decide)]
  refine ⟨?_, holdupTestEnd_total us h, fun hlow => settle_sq_mono _ _ (holdupTestEnd_low h hlow)⟩
  rw [hsame]; rfl

theorem holdupTestEnd_abandoned (s : State) (hup : s.up = true) (h : s.pwr.testing = true) :
    Reaches (exec (.holdupTestEnd none) s) fun t => t.pwr = { s.pwr with testing := false } ∧ t.total 0xA848 = s.total 0xA848 + 1 := by
  obtain ⟨hp, hn⟩ := State.up_iff.mp hup
  have hrun : holdupTestEnd none s.draw = s.draw.abandonTest := holdupTestEnd_none h
  have hcount : s.draw.abandonTest.total 0xA848 = s.total 0xA848 + 1 := by rw [State.abandonTest_total, State.draw_pwr, h]; rfl
  refine live_reaches (fun s => holdupTestEnd none s) s hp ?_ ?_ <;> rw [hrun]
  · simpa using hn
  · simp [settle_total, hcount]

/-! ### The loss of supply (R207, R511) -/

theorem powerLoss_reaches (s : State) (hup : s.up = true) :
    Reaches (exec .powerLoss s) fun t => t.sys.powered = false ∧ t.prsm.powered = false ∧ t.hostp.irqLow = false ∧
      t.rtc = { s.rtc with shift := none } ∧ t.regs = s.regs ∧ t.pnt = s.pnt := by
  obtain ⟨hp, -⟩ := State.up_iff.mp hup
  have hlost : whenever (s.sys.powered || s.prsm.powered) powerLoss s = powerLoss s := by rw [hp]; rfl
  refine ⟨_, rfl, ?_⟩
  rw [hlost]
  exact ⟨rfl, rfl, rfl, rfl, rfl, rfl⟩

end Sys2Proof.Machine

open Sys2Proof.Machine

/-- Settles O6, an event a clause. -/
theorem supplyEvents : Obligations.SupplyEvents := fun s hup =>
  ⟨earlyWarning_reaches s hup, earlyWarningEnd_reaches s hup, holdupTest_reaches s hup, holdupTestEnd_reaches s hup,
    holdupTestEnd_abandoned s hup, powerLoss_reaches s hup⟩
end

section
/-! SUPPORT. Chapters 06, 09 to 11, 15 and 16: an event of one unit leaves every other unit, the points and the registers (O15). -/
namespace Sys2Proof.Machine

/-! ### States around one another -/

/-- Every unit, point and register of `t` stands as in `u`: only the log, the counters, the status records, the host port, the queue of
commands, the free values and the fuses may differ. -/
def Around (u t : State) : Prop := ∃ f c st hp p fr fu,
  t = { u with flt := f, cnt := c, stat := st, hostp := hp, pending := p, free := fr, fuse := fu }

theorem Around.refl (s : State) : Around s s := ⟨_, _, _, _, _, _, _, rfl⟩

theorem Around.trans {u t v : State} (h : Around u t) (k : Around t v) : Around u v := by
  obtain ⟨_, _, _, _, _, _, _, rfl⟩ := h
  obtain ⟨_, _, _, _, _, _, _, rfl⟩ := k
  exact ⟨_, _, _, _, _, _, _, rfl⟩

theorem Around.rev {u t : State} (h : Around u t) : t.rev = u.rev := by
  obtain ⟨_, _, _, _, _, _, _, rfl⟩ := h; rfl

theorem Around.works {s t : State} (h : Around s t) : s.works t := by
  obtain ⟨_, _, _, _, _, _, _, rfl⟩ := h
  simp [State.works]

theorem draw_around (s : State) : Around s s.draw := ⟨_, _, _, _, _, _, _, rfl⟩

theorem LogOnly.around {u t : State} (h : LogOnly u t) : Around u t := by
  obtain ⟨_, _, _, e⟩ := h.same; exact ⟨_, _, _, _, _, _, _, e⟩

/-- The end of a command leaves the units (R34, R354). -/
theorem settle_around {s t : State} (h : t.rev = s.rev) : Around t ((settle s t).outside s s.rev) := by
  obtain ⟨_, _, _, e⟩ := settle_same s t
  rw [e, ← h]; exact ⟨_, _, _, _, _, _, _, rfl⟩

/-! ### The units of the events -/

/-- The room buses replaced. -/
def State.setCan (s : State) (x : Can) : State := { s with can := x }

/-- The field channels replaced. -/
def State.setFioCh (s : State) (x : List FioCh) : State := { s with fioCh := x }

/-- The fan channels replaced. -/
def State.setFans (s : State) (x : List FanCh) : State := { s with fan := x }

/-- `put` replaces the unit that `get` reads and nothing else: the unit of `s` put back into what followed from another one gives a state
around `s`. -/
structure Replaces {α : Type} (put : State → α → State) (get : State → α) : Prop where
  same : ∀ s, put s (get s) = s := by exact fun _ => rfl
  rev : ∀ s x, (put s x).rev = s.rev := by exact fun _ _ => rfl
  back : ∀ {s u t x}, Around s u → Around (put u x) t → Around s (put t (get s)) ∧ t.regs = s.regs := by
    rintro _ _ _ _ ⟨_, _, _, _, _, _, _, rfl⟩ ⟨_, _, _, _, _, _, _, rfl⟩
    exact ⟨⟨_, _, _, _, _, _, _, rfl⟩, rfl⟩

theorem can_replaces : Replaces State.setCan State.can := {}
theorem fioCh_replaces : Replaces State.setFioCh State.fioCh := {}
theorem fans_replaces : Replaces State.setFans State.fan := {}
theorem trap_replaces : Replaces State.setTrap State.trap := {}
theorem prism_replaces : Replaces State.setPrism State.prsm := {}
theorem rtc_replaces : Replaces State.setRtc State.rtc := {}

/-! ### What an event of one unit leaves -/

/-- `t` differs from `s` in the unit that `put` replaces, and in what an event of that unit logs and counts; no CRITICAL nested. -/
structure StaysIn {α : Type} (put : State → α → State) (s t : State) : Prop where
  unit : ∃ x, LogOnly (put s x) t
  nest : t.flt.nest = s.flt.nest

section
variable {α : Type} {put : State → α → State} {get : State → α} {s t : State}

theorem StaysIn.of_put (x : α) (h : (put s x).flt = s.flt := by rfl) : StaysIn put s (put s x) := ⟨⟨x, .refl _⟩, by rw [h]⟩

theorem Replaces.staysIn (h : Replaces put get) (s : State) : StaysIn put s s := ⟨⟨get s, (h.same s).symm ▸ .refl _⟩, rfl⟩

theorem StaysIn.count (h : StaysIn put s t) (o n : Nat) : StaysIn put s (t.count o n) :=
  ⟨h.unit.imp fun _ k => k.count o n, h.nest⟩

theorem StaysIn.setSQ (h : StaysIn put s t) (b i : Nat) : StaysIn put s (t.setSQ b i) := ⟨h.unit.imp fun _ k => k.setSQ b i, h.nest⟩

theorem StaysIn.report (h : StaysIn put s t) {cls : EvClass} (hcls : cls ≠ .critical) (b i : Nat) (booth : Byte) (data : Nat) :
    StaysIn put s (t.report cls b i booth data) :=
  ⟨h.unit.imp fun _ k => k.report cls b i booth data, (raise_nest _ cls b i booth data hcls).trans h.nest⟩

theorem StaysIn.ite {c : Prop} [Decidable c] {u : State} (h : c → StaysIn put s t) (k : ¬c → StaysIn put s u) :
    StaysIn put s (if c then t else u) := by
  split
  · exact h ‹_›
  · exact k ‹_›

/-- With supply an event of the partition or the backup domain runs as any command. -/
theorem anyPower_eq_live (f : State → State) {s : State} (h : s.sys.powered = true) : anyPower f s = live f s := by
  unfold anyPower live; rw [if_pos h, if_pos h]

/-- A command of the powered module whose effect stays in one unit leaves everything else. -/
theorem StaysIn.live {f : State → State} (hput : Replaces put get) (hup : s.up = true) (h : StaysIn put s.draw (f s.draw)) :
    Reaches (live f s) fun t => s.works (put t (get s)) ∧ t.regs = s.regs := by
  obtain ⟨hpow, hcalm⟩ := State.up_iff.mp hup
  obtain ⟨x, hlog⟩ := h.unit
  have hrev : (f s.draw).rev = s.rev := hlog.around.rev.trans (hput.rev _ x)
  refine live_reaches f s hpow (h.nest.trans hcalm) ?_
  obtain ⟨haround, hregs⟩ := hput.back (draw_around s) (hlog.around.trans (settle_around hrev))
  exact ⟨haround.works, hregs⟩

/-- The same for a command of an I/O engine, which does nothing where its engine failed (R488). -/
theorem StaysIn.liveIoe {f : State → State} {e : Nat} (hput : Replaces put get) (hup : s.up = true)
    (h : StaysIn put s.draw (f s.draw)) : Reaches (liveIoe e f s) fun t => s.works (put t (get s)) ∧ t.regs = s.regs :=
  StaysIn.live hput hup (.ite (fun _ => hput.staysIn _) fun _ => h)

/-- The same for an event of the partition or the backup domain in a powered module. -/
theorem StaysIn.anyPower {f : State → State} (hput : Replaces put get) (hup : s.up = true) (h : StaysIn put s.draw (f s.draw)) :
    Reaches (anyPower f s) fun t => s.works (put t (get s)) ∧ t.regs = s.regs := by
  rw [anyPower_eq_live f (State.up_iff.mp hup).1]
  exact h.live hput hup

end

/-! ### The events -/

theorem setBus_staysIn (s : State) (b : Nat) (x : CanBus) : StaysIn State.setCan s (s.setBus b x) := .of_put (put := State.setCan) _
theorem setFch_staysIn (s : State) (k : Nat) (x : FioCh) : StaysIn State.setFioCh s (s.setFch k x) := .of_put (put := State.setFioCh) _
theorem setFan_staysIn (s : State) (c : Nat) (x : FanCh) : StaysIn State.setFans s (s.setFan c x) := .of_put (put := State.setFans) _
theorem setTrap_staysIn (s : State) (x : Trap) : StaysIn State.setTrap s (s.setTrap x) := .of_put x
theorem setRtc_staysIn (s : State) (x : Rtc) : StaysIn State.setRtc s (s.setRtc x) := .of_put x

/-- An error frame that leaves the bus short of bus-off touches its bus alone (R298, R308). -/
theorem errorFrame_staysIn (s : State) {b tec : Nat} (rec lec : Nat) (h : (s.cbus b).tecCnt + 8 * tec ≤ 255) :
    StaysIn State.setCan s (s.errorFrame b tec rec lec) := by
  unfold State.errorFrame
  extract_lets u tx rx passive st counted shown
  have hcounted : StaysIn State.setCan s counted := (setBus_staysIn ..).count _ 1
  have hshown : StaysIn State.setCan s shown := .ite (fun _ => hcounted.setSQ 11 5) fun _ => hcounted
  exact .ite (fun _ => can_replaces.staysIn s) fun _ => .ite (fun hoff => absurd hoff (Nat.not_lt.mpr h)) fun _ => hshown

theorem debounce_staysIn (s : State) (k : Nat) (level : Bool) : StaysIn State.setFioCh s (s.debounce k level) := by
  unfold State.debounce
  exact .ite (fun _ => setFch_staysIn ..) fun _ => fioCh_replaces.staysIn s

theorem waitEnd_staysIn (s : State) (c : Nat) : StaysIn State.setFans s (s.waitEnd c) := by
  unfold State.waitEnd
  exact .ite (fun _ => (setFan_staysIn ..).count _ 1) fun _ => fans_replaces.staysIn s

theorem speedUpdate_staysIn (s : State) (c : Nat) : StaysIn State.setFans s (s.speedUpdate c) := by
  unfold State.speedUpdate
  exact .ite (fun _ => fans_replaces.staysIn s) fun _ => .ite (fun _ => setFan_staysIn ..) fun _ => setFan_staysIn ..

theorem hbLost_staysIn (s : State) (ring : Bool) : StaysIn State.setTrap s (hbLost ring s) := by
  have hsame := trap_replaces.staysIn s
  have hlost : ∀ x, StaysIn State.setTrap s ((s.setTrap x).reportBare .warn 15 0 0xFF) := fun x =>
    (setTrap_staysIn s x).report (by decide) ..
  unfold hbLost
  exact .ite (fun _ => hsame) fun _ => .ite (fun _ => .ite (fun _ => hlost _) fun _ => hsame) fun _ =>
    .ite (fun _ => hlost _) fun _ => hsame

theorem syncLoss_staysIn (s : State) : StaysIn State.setTrap s (syncLoss s) := by
  have hlost : ∀ x, StaysIn State.setTrap s ((s.setTrap x).count 0x7898 1) := fun x => (setTrap_staysIn s x).count ..
  unfold syncLoss
  exact .ite (fun _ => hlost _) fun _ => .ite (fun _ => hlost _) fun _ => trap_replaces.staysIn s

theorem partnerStale_staysIn (s : State) : StaysIn State.setTrap s (partnerStale s) := by
  unfold partnerStale
  exact .ite (fun _ => (setTrap_staysIn ..).setSQ 15 4) fun _ => trap_replaces.staysIn s

theorem witnessWaitExpiry_staysIn (s : State) : StaysIn State.setTrap s (witnessWaitExpiry s) := by
  unfold witnessWaitExpiry
  exact .ite (fun _ => setTrap_staysIn ..) fun _ => trap_replaces.staysIn s

theorem batSwitch_staysIn (s : State) (toBat : Bool) : StaysIn State.setRtc s (batSwitch toBat s) := by
  unfold batSwitch
  exact .ite (fun _ => setRtc_staysIn ..) fun _ => .ite (fun _ => rtc_replaces.staysIn s) fun _ =>
    .ite (fun _ => setRtc_staysIn ..) fun _ => setRtc_staysIn ..

theorem batMeasurement_staysIn (s : State) (mv : Nat) : StaysIn State.setRtc s (batMeasurement mv s) := by
  unfold batMeasurement
  exact .ite (fun _ => (setRtc_staysIn ..).report (by decide) ..) fun _ => setRtc_staysIn ..

/-! ### Events of the partition -/

/-- An event of the partition replaces the partition, by itself where it is not running. -/
theorem State.onPrism_eq (s : State) (g : Prism → Prism) : s.onPrism g = s.setPrism (if s.prismUp then g s.prsm else s.prsm) := by
  unfold State.onPrism; split <;> rfl

/-- An event that replaces the partition leaves everything else, the fault unit too, whether the module has its supply or not. -/
theorem prismEvent_reaches {f : State → State} {s : State} {p : Prism} (hcalm : s.flt.nest = false) (hf : f s.draw = s.draw.setPrism p) :
    Reaches (anyPower f s) fun t => Around (s.setPrism p) t ∧ t.flt = s.flt := by
  refine ⟨_, rfl, ?_⟩
  rw [hf, State.afterNest_of (s.draw.setPrism p) hcalm]
  dsimp only
  split
  · exact ⟨(draw_around (s.setPrism p)).trans (settle_around (t := s.draw.setPrism p) rfl), by rw [State.outside_flt, settle_flt]; rfl⟩
  · exact ⟨⟨_, _, _, _, _, _, _, rfl⟩, rfl⟩

theorem prismEvent_prsm {f : State → State} {s : State} {p : Prism} (hcalm : s.flt.nest = false) (hf : f s.draw = s.draw.setPrism p) :
    Reaches (anyPower f s) fun t => t.prsm = p ∧ t.regs = s.regs :=
  (prismEvent_reaches hcalm hf).imp fun t ⟨haround, _⟩ => by
    obtain ⟨_, _, _, _, _, _, _, rfl⟩ := haround
    exact ⟨rfl, rfl⟩

theorem onPrism_reaches {s : State} (g : Prism → Prism) (hcalm : s.flt.nest = false) :
    Reaches (anyPower (fun s => s.onPrism g) s) fun t =>
      Around (s.setPrism (if s.prismUp then g s.prsm else s.prsm)) t ∧ t.flt = s.flt :=
  prismEvent_reaches hcalm (s.draw.onPrism_eq g)

theorem onPrism_works {s : State} (g : Prism → Prism) (hup : s.up = true) :
    Reaches (anyPower (fun s => s.onPrism g) s) fun t => s.works { t with prsm := s.prsm } ∧ t.regs = s.regs ∧ t.flt = s.flt :=
  (onPrism_reaches g (State.up_iff.mp hup).2).imp fun t ⟨haround, hflt⟩ => by
    obtain ⟨hback, hregs⟩ := prism_replaces.back (.refl s) haround
    exact ⟨hback.works, hregs, hflt⟩

end Sys2Proof.Machine

open Sys2Proof.Machine

/-- Settles O15, the events of a unit a clause. -/
theorem eventsStayInTheirUnit : Obligations.EventsStayInTheirUnit := by
  intro s hup
  refine ⟨?_, ?_, ?_, ?_, ?_, ?_⟩
  · rintro _ ⟨b, tec, rec, lec, hshort, rfl⟩
    exact (errorFrame_staysIn s.draw rec lec hshort).liveIoe (f := fun s => s.errorFrame b tec rec lec) can_replaces hup
  · rintro _ (⟨k, level, rfl⟩ | ⟨k, rfl⟩)
    · exact (debounce_staysIn s.draw k level).liveIoe (f := fun s => s.debounce k level) fioCh_replaces hup
    · exact (setFch_staysIn s.draw k _).liveIoe (f := fun s => s.wireBreakOff k) fioCh_replaces hup
  · rintro _ ⟨c, rfl | rfl⟩
    · exact (waitEnd_staysIn s.draw c).liveIoe (f := fun s => s.waitEnd c) fans_replaces hup
    · exact (speedUpdate_staysIn s.draw c).liveIoe (f := fun s => s.speedUpdate c) fans_replaces hup
  · rintro _ (⟨ring, rfl⟩ | rfl | rfl | rfl)
    · exact (hbLost_staysIn s.draw ring).live (f := fun s => hbLost ring s) trap_replaces hup
    · exact (syncLoss_staysIn s.draw).live (f := fun s => syncLoss s) trap_replaces hup
    · exact (partnerStale_staysIn s.draw).live (f := fun s => partnerStale s) trap_replaces hup
    · exact (witnessWaitExpiry_staysIn s.draw).live (f := fun s => witnessWaitExpiry s) trap_replaces hup
  · rintro _ (rfl | rfl | ⟨m, rfl⟩) <;> exact onPrism_works _ hup
  · rintro _ (⟨b, rfl⟩ | ⟨mv, rfl⟩)
    · exact (batSwitch_staysIn s.draw b).anyPower (f := fun s => batSwitch b s) rtc_replaces hup
    · exact (batMeasurement_staysIn s.draw mv).anyPower (f := fun s => batMeasurement mv s) rtc_replaces hup
end

section
/-! SUPPORT. Chapter 06: the energy of a sample goes whole to one register of each kind (O40). -/
namespace Sys2Proof.Machine

/-! ### Registers with their remainders (R188) -/

/-- What total register `i` of a meter holds with its remainder, in 2^-32 of its unit (R188). -/
def Meter.energy (x : Meter) (i : Nat) : Nat := x.reg.getD i 0 * 2 ^ 32 + x.rem.getD i 0

/-- The eight total registers of a meter and their remainders are there (R184). -/
structure Meter.Whole (x : Meter) : Prop where
  reg : x.reg.length = 8
  rem : x.rem.length = 8

theorem Meter.Whole.addTotal {x : Meter} (h : x.Whole) (q inc : Nat) : (x.addTotal q inc).Whole :=
  ⟨(lmod_length ..).trans h.reg, (lmod_length ..).trans h.rem⟩

/-- An increment is added in full to its register and remainder, and to no other (R188). -/
theorem Meter.energy_addTotal {x : Meter} (h : x.Whole) {q : Nat} (inc i : Nat) (hq : q < 8) :
    (x.addTotal q inc).energy i = x.energy i + if i = q then inc else 0 := by
  have hreg : q < x.reg.length := h.reg ▸ hq
  have hrem : q < x.rem.length := h.rem ▸ hq
  change (lmod x.reg q _).getD i 0 * 2 ^ 32 + (lmod x.rem q _).getD i 0 = x.reg.getD i 0 * 2 ^ 32 + x.rem.getD i 0 + _
  by_cases hi : i = q
  · subst hi
    rw [lmod_getD_self _ _ _ _ hreg, lmod_getD_self _ _ _ _ hrem, if_pos rfl]
    omega
  · rw [lmod_getD_ne _ _ _ (Ne.symm hi), lmod_getD_ne _ _ _ (Ne.symm hi), if_neg hi, Nat.add_zero]

/-! ### The register of an increment (R184, R186, R187) -/

/-- The register that active energy goes to by the sign of `p` (R184). -/
def activeReg (p : Int) : Nat := if 0 < p then 0 else 1

/-- The register of the quadrant of the signs of `p` and `q` (R186). -/
def quadrantReg (p q : Int) : Nat := if 0 ≤ p then (if 0 < q then 2 else 5) else if 0 < q then 3 else 4

/-- The register that apparent energy goes to by the sign of `p` (R187). -/
def apparentReg (p : Int) : Nat := if 0 ≤ p then 6 else 7

section
variable {x : Meter} (h : x.Whole)
include h

theorem Meter.Whole.routeActive (p : Int) : (x.routeActive p).Whole := by
  unfold Meter.routeActive
  split
  · exact h.addTotal ..
  · split
    · exact h.addTotal ..
    · exact h

theorem Meter.Whole.routeReactive (p q : Int) : (x.routeReactive p q).Whole := by
  unfold Meter.routeReactive
  split
  · exact h
  · split <;> split <;> exact h.addTotal ..

theorem Meter.energy_routeActive (p : Int) (i : Nat) :
    (x.routeActive p).energy i = x.energy i + if i = activeReg p then p.natAbs else 0 := by
  unfold Meter.routeActive activeReg
  split
  next hp => rw [Meter.energy_addTotal h _ _ (by decide), show p.toNat = p.natAbs by omega]
  next hp =>
    split
    · exact Meter.energy_addTotal h _ _ (by decide)
    · rw [show p.natAbs = 0 by omega, ite_self, Nat.add_zero]

theorem Meter.energy_routeReactive (p q : Int) (i : Nat) :
    (x.routeReactive p q).energy i = x.energy i + if i = quadrantReg p q then q.natAbs else 0 := by
  unfold Meter.routeReactive quadrantReg
  split
  next hq => rw [hq, Int.natAbs_zero, ite_self, Nat.add_zero]
  next =>
    split <;> split <;> exact Meter.energy_addTotal h _ _ (by decide)

theorem Meter.energy_routeApparent (p : Int) (sa i : Nat) :
    (x.routeApparent p sa).energy i = x.energy i + if i = apparentReg p then sa else 0 := by
  unfold Meter.routeApparent apparentReg
  split <;> exact Meter.energy_addTotal h _ _ (by decide)

end

/-- Per-phase energy goes to registers of its own (R185). -/
theorem routePhases_energy (ps : List Int) (j : Nat) (x : Meter) (i : Nat) : (routePhases ps j x).energy i = x.energy i := by
  induction ps generalizing j x with
  | nil => rfl
  | cons p t ih =>
    rw [routePhases, ih]
    split
    · rfl
    · split <;> rfl

/-- The energies of a sample go each whole to one register of its kind (R184, R186, R187). -/
theorem Meter.energy_register {x : Meter} (h : x.Whole) (three : Bool) (ps : List Int) (p q : Int) (sa i : Nat) :
    (x.register three ps p q sa).energy i = x.energy i + ((if i = activeReg p then p.natAbs else 0) +
      (if i = quadrantReg p q then q.natAbs else 0) + if i = apparentReg p then sa else 0) := by
  have htotals : (((x.routeActive p).routeReactive p q).routeApparent p sa).energy i = x.energy i +
      ((if i = activeReg p then p.natAbs else 0) + (if i = quadrantReg p q then q.natAbs else 0) + if i = apparentReg p then sa else 0) := by
    rw [energy_routeApparent ((h.routeActive p).routeReactive p q), energy_routeReactive (h.routeActive p), energy_routeActive h,
      Nat.add_assoc, Nat.add_assoc, Nat.add_assoc]
  unfold Meter.register
  dsimp only
  split
  · exact htotals
  · exact (routePhases_energy ..).trans htotals

end Sys2Proof.Machine

open Sys2Proof.Machine

/-- Settles O40: `Meter.energy_register` read at each of the eight registers, by the signs of P and Q. -/
theorem energyIsRouted : Obligations.EnergyIsRouted := by
  intro x three ps p q sa hreg hrem
  have hsum := Meter.energy_register ⟨hreg, hrem⟩ three ps p q sa
  refine ⟨?_, ?_, ?_, ?_, ?_, ?_, ?_, ?_⟩ <;> refine (hsum _).trans (congrArg (x.energy _ + ·) ?_)
  all_goals grind [activeReg, quadrantReg, apparentReg]
end

section
/-! SUPPORT. Chapter 14: the 0600h group on Prism (O43). -/
namespace Sys2Proof.Machine

/-! ### What commands leave of the partition -/

theorem UnitsKept.prsm {u t : State} (h : UnitsKept u t) : t.prsm = u.prsm := by
  obtain ⟨_, _, _, _, _, _, _, _, _, rfl⟩ := h; rfl

/-- A command that waits on what it put into the partition leaves the partition so (R383, R385). -/
theorem later_prism_reaches {f : State → State} {s : State} {h : Hdr} {c : CmdSpec} {body : State → Res} {w : Wait} {p : Prism}
    (hf : f s.draw = runCmd h c body s.draw) (ha : s.admits h c.maxData) (hc : c.Clear s)
    (hbody : ∀ v, Taken s h v → body v = .later w (v.setPrism p)) :
    Reaches (live f s) fun t => s.inFlightFor t h c.opcode c.maxData w ∧ t.prsm = p := by
  have hv := admits_taken c ha
  have hrun := hf.trans (runCmd_later h c body s.draw (admits_canTake ha) (admits_firstFail ha hc) (hbody _ hv))
  have hwait := later_pnt_reaches (P := fun t => s.inFlightFor t h c.opcode c.maxData w) hf ha hc fun v hv =>
    ⟨_, hbody v hv, hv.path.of_same rfl rfl rfl rfl, rfl, fun _ hw _ => hw⟩
  have hunits := live_unitsKept (f := f) (admits_powered ha) rfl (by rw [hrun]; exact hv.path.nest)
  exact (hwait.and hunits).imp fun t ⟨hw, hkept⟩ => ⟨hw, hkept.prsm.trans (by rw [hrun]; rfl)⟩

section
variable {s v : State} {h : Hdr} (hv : Taken s h v)
include hv

theorem Taken.prsm : v.prsm = s.prsm := hv.unitsKept.prsm

theorem Taken.powered : v.sys.powered = s.sys.powered := by
  obtain ⟨_, _, _, _, e⟩ := hv.same; rw [e]; rfl

theorem Taken.reg (off : Nat) : v.reg off = s.reg off := by
  obtain ⟨_, _, _, _, e⟩ := hv.same; rw [e]; rfl

end

/-! ### The commands (R215, R391) -/

/-- The partition with a proposal in its buffer (R215): seen by a module that has its supply. -/
def Prism.proposed (p : Prism) (kind : Nat) (x : Sum (List Byte) W32) (powered : Bool) : Prism :=
  { p with proposal := some x, propSeq := (p.propSeq + 1) % 256, propKind := kind, propResult := 0, propReason := 0
           seenLog := p.seenLog || powered }

theorem State.writeProposal_eq (s : State) (kind : Nat) (x : Sum (List Byte) W32) :
    s.writeProposal kind x = s.setPrism (s.prsm.proposed kind x s.sys.powered) := rfl

theorem prismPropose_reaches (s : State) (h : Hdr) (hmr : s.isMr = true) {set : List Byte} (hlen : set.length = 816)
    (hbooth : s.boothOf h = 0) (hidle : s.prsm.propResult ≠ 0) (hrole : s.trap.role.refuses = false) (ha : s.admits h 4) :
    Reaches (exec (.prismPropose h set) s) fun t => s.inFlightFor t h 0x0601 4 .prism ∧
      t.prsm = s.prsm.proposed 0 (.inl set) s.sys.powered :=
  later_prism_reaches (f := fun s => cmdPrismPropose h set s) rfl ha
    { absent := congrArg (!·) hmr, denied := decide_eq_false (not_not_intro hbooth), bad := if_pos hlen, changes := fun _ => hrole
      busy := if_neg hidle } fun v hv => by rw [State.writeProposal_eq, hv.prsm, hv.powered]

theorem bytesOf32_length (ws : List W32) : (bytesOf32 ws).length = 4 * ws.length := by
  induction ws with
  | nil => rfl
  | cons w t ih => rw [bytesOf32, List.flatMap_cons, List.length_append, leBytes_length, ← bytesOf32, ih, List.length_cons]; omega

/-- The words of PRISM_READ: the registers of a meter, its status and its block sequence (R391). -/
def State.meterWords (s : State) (m : Nat) : List W32 :=
  ((List.range 16).map fun j => s.reg (0x3900 + 0x40 * m + 4 * j)) ++
    [s.reg (0x3840 + 4 * m), sget 0 s.prsm.mval (mvalKey m 0 1 6)]

theorem State.meterWords_length (s : State) (m : Nat) : (s.meterWords m).length = 18 := by
  unfold State.meterWords
  rw [List.length_append, List.length_map, List.length_range]; rfl

theorem Taken.meterWords {s v : State} {h : Hdr} (hv : Taken s h v) (m : Nat) : v.meterWords m = s.meterWords m := by
  unfold State.meterWords
  simp only [hv.reg, hv.prsm]

theorem prismRead_reaches (s : State) (h : Hdr) (hmr : s.isMr = true) (hland : s.landlord h = true) {m : Nat} (hm : m < 16)
    (ha : s.admits h 72) :
    Reaches (exec (.prismRead h m) s) fun t => s.answered t h 0x0602 0 (bytesOf32 (s.meterWords m)) ∧ t.prsm = s.prsm :=
  ok_units_reaches (f := fun s => cmdPrismRead h m s) rfl ha
    { absent := congrArg (!·) hmr, denied := congrArg (!·) hland, bad := if_pos hm, changes := fun e => Bool.noConfusion e }
    (by rw [bytesOf32_length, s.meterWords_length]) fun v hv =>
    ⟨v, congrArg (fun ws => okRes (bytesOf32 ws) v) (hv.meterWords m), hv.path, fun t hans _ hkept => ⟨hans, hkept.prsm.trans hv.prsm⟩⟩

end Sys2Proof.Machine

open Sys2Proof.Machine

/-- Settles O43, a command a clause. -/
theorem prismCommands : Obligations.PrismCommands := fun s h hmr hland =>
  ⟨fun set hlen hbooth hidle hrole ha => (prismPropose_reaches s h hmr hlen hbooth hidle hrole ha).imp fun t ⟨hwait, hprism⟩ => by
      rw [hprism]; exact ⟨hwait, rfl, rfl, rfl, rfl⟩,
    fun m hm ha => prismRead_reaches s h hmr hland hm ha⟩
end

section
/-! SUPPORT. Chapter 06: a sample, the intervals and the blocks of the partition (O39). -/
namespace Sys2Proof.Machine

/-! ### The meters of a partition -/

theorem getD_map_range {α : Type} (f : Nat → α) (d : α) {n k : Nat} (h : k < n) : ((List.range n).map f).getD k d = f k := by
  rw [List.getD_eq_getElem?_getD, List.getElem?_map, List.getElem?_range h]; rfl

theorem Prism.meter_of_map {p : Prism} {f : Nat → Meter} (h : p.meters = (List.range 16).map f) {k : Nat} (hk : k < 16) :
    p.meter k = f k := by
  rw [Prism.meter, h, getD_map_range f _ hk]

theorem Prism.meter_congr {p q : Prism} (h : p.meters = q.meters) (k : Nat) : p.meter k = q.meter k := by
  unfold Prism.meter; rw [h]

/-! ### One sample (R165, R194) -/

/-- The integrators touch their own words alone (R171). -/
theorem Prism.integrate_same (p : Prism) (codes : List (BitVec 24)) :
    ∃ y x out st, (p.integrate codes).1 = { p with rog := y, rogIn := x, rogOut := out, chSettle := st } := by
  unfold Prism.integrate
  refine List.foldlRecOn (motive := fun a : Prism × List Int => ∃ y x out st,
    a.1 = { p with rog := y, rogIn := x, rogOut := out, chSettle := st }) _ _ ⟨_, _, _, _, rfl⟩ ?_
  rintro ⟨q, xs⟩ ⟨_, _, _, _, rfl⟩ i -
  split
  · exact ⟨_, _, _, _, rfl⟩
  · exact ⟨_, _, _, _, rfl⟩

/-- What a frame released to the chain leaves of the partition (R177 to R192). -/
structure Prism.SampleKept (p q : Prism) : Prop where
  sample : q.sample = p.sample
  badRun : q.badRun = p.badRun
  goodRun : q.goodRun = p.goodRun
  frameErrs : q.frameErrs = p.frameErrs
  saves : q.saves = p.saves
  chain : q.chain = p.chain

theorem Prism.chainSample_kept (p : Prism) (codes : List (BitVec 24)) : p.SampleKept (p.chainSample codes) := by
  obtain ⟨_, _, _, _, e⟩ := p.integrate_same codes
  have h : p.SampleKept (p.integrate codes).1 := by rw [e]; exact ⟨rfl, rfl, rfl, rfl, rfl, rfl⟩
  exact ⟨h.sample, h.badRun, h.goodRun, h.frameErrs, h.saves, h.chain⟩

/-- The meters after a frame are each its own sample, by a partition of the same set, meters and faults. -/
theorem Prism.chainSample_meters (p : Prism) (codes : List (BitVec 24)) :
    ∃ (q : Prism) (w : List Aligned), q.cfg = p.cfg ∧ q.meters = p.meters ∧ q.feFault = p.feFault ∧ q.saveLost = p.saveLost ∧
      (p.chainSample codes).meters = (List.range 16).map fun k => (q.meterSample w codes k (q.meter k)).1 := by
  obtain ⟨_, _, _, _, e⟩ := p.integrate_same codes
  refine ⟨_, _, ?_, ?_, ?_, ?_, List.map_map ..⟩ <;> dsimp only <;> rw [e]

theorem Prism.meterSample_unused {p : Prism} {k : Nat} (w : List Aligned) (codes : List (BitVec 24)) (x : Meter)
    (h : (p.cfg.m k).used = false) : (p.meterSample w codes k x).1 = x := by
  unfold Prism.meterSample
  dsimp only
  rw [if_pos h]

/-- No meter registers during FE_FAULT or after a lost save (R194, R208). -/
theorem Prism.registers_eq_false {p : Prism} (x : Meter) (h : p.feFault = true ∨ p.saveLost = true) : p.registers x = false := by
  unfold Prism.registers
  obtain h | h := h <;> rw [h] <;> simp

theorem Prism.meterSample_stopped {p : Prism} (w : List Aligned) (codes : List (BitVec 24)) (k : Nat) (x : Meter)
    (h : p.feFault = true ∨ p.saveLost = true) :
    (p.meterSample w codes k x).1.reg = x.reg ∧ (p.meterSample w codes k x).1.rem = x.rem := by
  unfold Prism.meterSample
  dsimp only
  simp only [Prism.registers_eq_false _ h]
  split <;> exact ⟨rfl, rfl⟩

/-- A sample counts its frame by the frame's check, then releases it or the one before to the chain (R194). -/
theorem Prism.sampleTaken_eq (p : Prism) (codes : List (BitVec 24)) (crc : BitVec 16) : ∃ cs errs bad good,
    p.sampleTaken codes crc =
        { p with sample := (p.sample + 1) % 2 ^ 32, frameErrs := errs, badRun := bad, goodRun := good : Prism }.chainSample cs ∧
      (codes.length = 36 ∧ frameCheck 1 codes = crc → bad = 0 ∧ good = p.goodRun + 1 ∧ errs = p.frameErrs) ∧
      (¬(codes.length = 36 ∧ frameCheck 1 codes = crc) → bad = p.badRun + 1 ∧ good = 0 ∧ errs = p.frameErrs + 1) := by
  refine ⟨_, _, _, _, rfl, fun hgood => ?_, fun hbad => ?_⟩
  · simp [hgood]
  · simp [← Bool.decide_and, hbad]

theorem Prism.chainSample_meter_unused {p : Prism} (codes : List (BitVec 24)) {k : Nat} (hk : k < 16)
    (h : (p.cfg.m k).used = false) : (p.chainSample codes).meter k = p.meter k := by
  obtain ⟨q, w, hcfg, hmeters, -, -, e⟩ := p.chainSample_meters codes
  rw [Prism.meter_of_map e hk, Prism.meterSample_unused _ _ _ (hcfg ▸ h), Prism.meter_congr hmeters]

theorem Prism.chainSample_meter_stopped {p : Prism} (codes : List (BitVec 24)) {k : Nat} (hk : k < 16)
    (h : p.feFault = true ∨ p.saveLost = true) :
    ((p.chainSample codes).meter k).reg = (p.meter k).reg ∧ ((p.chainSample codes).meter k).rem = (p.meter k).rem := by
  obtain ⟨q, w, -, hmeters, hfault, hlost, e⟩ := p.chainSample_meters codes
  rw [Prism.meter_of_map e hk, ← Prism.meter_congr hmeters]
  exact q.meterSample_stopped w codes k (q.meter k) (by rwa [hfault, hlost])

/-! ### Aggregation (R180, R198) -/

/-- What a meter keeps when a set takes effect: its total registers and its sums of the interval (R198). -/
structure Meter.SetKept (x y : Meter) : Prop where
  reg : y.reg = x.reg
  accP : y.accP = x.accP
  accQ : y.accQ = x.accQ

theorem Prism.resetRog_meters (p : Prism) (l : List Nat) : (p.resetRog l).meters = p.meters := rfl

/-- A set taking effect changes the blocks of its meters and ends their runs, then starts their settling (R172, R198, R211). -/
theorem Prism.adopt_meters {p : Prism} {c : PrismCfg} (h : p.adopting = some c) : ∃ q : Prism,
    p.adopt.meters = ((List.range 16).map fun k => { q.meter k with settle := (q.meter k).settle || q.settling k }) ∧
      ∀ k < 16, (p.meter k).SetKept (q.meter k) := by
  unfold Prism.adopt
  rw [h]
  refine ⟨_, rfl, fun k hk => ?_⟩
  rw [Prism.meter_congr (Prism.resetRog_meters ..)]
  unfold Prism.meter
  rw [getD_map_range _ _ hk]
  split <;> exact ⟨rfl, rfl, rfl⟩

theorem Prism.adopt_meter (p : Prism) {k : Nat} (hk : k < 16) : (p.meter k).SetKept (p.adopt.meter k) := by
  cases h : p.adopting with
  | none => unfold Prism.adopt; rw [h]; exact ⟨rfl, rfl, rfl⟩
  | some c =>
    obtain ⟨q, hsettled, hchanged⟩ := Prism.adopt_meters h
    obtain ⟨hreg, haccP, haccQ⟩ := hchanged k hk
    rw [Prism.meter_of_map hsettled hk]
    exact ⟨hreg, haccP, haccQ⟩

/-- The set adopted takes effect, and none waits any more (R198). -/
theorem Prism.adopt_same (p : Prism) : p.adopt.cfg = p.adopting.getD p.cfg ∧ p.adopt.adopting = none ∧
    p.adopt.aggSamples = p.aggSamples ∧ p.adopt.fastMhz = p.fastMhz := by
  unfold Prism.adopt
  split
  next h => rw [h]; exact ⟨rfl, rfl, rfl, rfl⟩
  next c h => rw [h]; exact ⟨rfl, rfl, rfl, rfl⟩

/-- The end of an interval: the quantities formed and the sums at 0 in `q`, then the set adopted meanwhile and W (R178, R180). -/
theorem Prism.aggregate_eq (p : Prism) : ∃ q r : Prism,
    p.aggregate = { q.adopt with windowNext := (p.fast.mhz.map windowFor).getD q.adopt.cfg.w0 } ∧
      q.meters = ((List.range 16).map fun k => r.meterAgg k (r.meter k)) ∧ r.meters = p.meters ∧
        q.aggSamples = 0 ∧ q.fastMhz = p.fast.mhz ∧ q.cfg = p.cfg ∧ q.adopting = p.adopting := by
  unfold Prism.aggregate
  cases p.fast.mhz <;> exact ⟨_, _, rfl, rfl, rfl, rfl, rfl, rfl, rfl⟩

/-- A meter begins the next interval with its sums at 0 and its registers as they were (R180). -/
theorem Prism.aggregate_meter (p : Prism) {k : Nat} (hk : k < 16) : (p.aggregate.meter k).accP = [0, 0, 0] ∧
    (p.aggregate.meter k).accQ = [0, 0, 0] ∧ (p.aggregate.meter k).reg = (p.meter k).reg := by
  obtain ⟨q, r, e, hmeters, hsame, -⟩ := p.aggregate_eq
  have hadopt := q.adopt_meter hk
  rw [Prism.meter_of_map hmeters hk, Prism.meter_congr hsame] at hadopt
  rw [Prism.meter_congr (q := q.adopt) (by rw [e])]
  exact ⟨hadopt.accP, hadopt.accQ, hadopt.reg⟩

theorem Prism.aggregate_same (p : Prism) : p.aggregate.aggSamples = 0 ∧ p.aggregate.fastMhz = p.fast.mhz ∧
    p.aggregate.cfg = p.adopting.getD p.cfg ∧ p.aggregate.adopting = none ∧
      p.aggregate.windowNext = (p.fast.mhz.map windowFor).getD p.aggregate.cfg.w0 := by
  obtain ⟨q, r, e, -, -, hsamples, hfast, hcfg, hadopting⟩ := p.aggregate_eq
  obtain ⟨hset, hnone, hcount, hmhz⟩ := q.adopt_same
  rw [e]
  exact ⟨hcount.trans hsamples, hmhz.trans hfast, by rw [← hcfg, ← hadopting]; exact hset, hnone, rfl⟩

/-! ### Blocks (R209) -/

theorem Prism.meter_lmod_self {p q : Prism} {k : Nat} {f : Meter → Meter} (h : q.meters = lmod p.meters k f) (hk : k < p.meters.length) :
    q.meter k = f (p.meter k) := by
  unfold Prism.meter; rw [h]; exact lmod_getD_self _ _ _ _ hk

theorem Prism.meter_lmod_ne {p q : Prism} {j k : Nat} {f : Meter → Meter} (h : q.meters = lmod p.meters k f) (hj : j ≠ k) :
    q.meter j = p.meter j := by
  unfold Prism.meter; rw [h]; exact lmod_getD_ne _ _ _ (Ne.symm hj)

/-- A block closed begins the next one of its meter at the registers as they are (R209). -/
theorem Prism.closeBlock_meters (p : Prism) (k extra : Nat) (open0 : W64) : ∃ di de,
    (p.closeBlock k extra open0).meters = lmod p.meters k fun (x : Meter) =>
      { x with block := { startCnt := p.startCnt, startSample := p.sample, base := (p.meter k).reg }
               blockSeq := (p.meter k).blockSeq + 1, demImp := di, demExp := de } := ⟨_, _, rfl⟩

/-! ### The events of a running partition -/

section
variable {s : State} (hcalm : s.flt.nest = false) (hup : s.prismUp = true)
include hcalm hup

/-- An event of the running partition, whatever the module's supply. -/
theorem onPrism_prsm {f : State → State} {g : Prism → Prism} (hf : f s.draw = s.draw.onPrism g) :
    Reaches (anyPower f s) fun t => t.prsm = g s.prsm ∧ t.regs = s.regs :=
  prismEvent_prsm hcalm (hf.trans (if_pos hup))

/-- PRISM_SAMPLE (R165, R194): what a good and a failed frame count, and the meters that stand. -/
theorem prismSample_reaches (codes : List (BitVec 24)) (crc : BitVec 16) : Reaches (exec (.prismSample codes crc) s) fun t =>
    let good := codes.length = 36 ∧ frameCheck 1 codes = crc
    t.prsm.sample = (s.prsm.sample + 1) % 2 ^ 32 ∧
      (good → t.prsm.badRun = 0 ∧ t.prsm.goodRun = s.prsm.goodRun + 1 ∧ t.prsm.frameErrs = s.prsm.frameErrs) ∧
      (¬ good → t.prsm.badRun = s.prsm.badRun + 1 ∧ t.prsm.goodRun = 0 ∧ t.prsm.frameErrs = s.prsm.frameErrs + 1) ∧
      (∀ k, k < 16 → (s.prsm.cfg.m k).used = false → t.prsm.meter k = s.prsm.meter k) ∧
      (∀ k, k < 16 → s.prsm.feFault = true ∨ s.prsm.saveLost = true →
        (t.prsm.meter k).reg = (s.prsm.meter k).reg ∧ (t.prsm.meter k).rem = (s.prsm.meter k).rem) ∧
      t.prsm.saves = s.prsm.saves ∧ t.prsm.chain = s.prsm.chain ∧ t.regs = s.regs := by
  refine (onPrism_prsm (f := fun s => prismSample codes crc s) hcalm hup rfl).imp fun t ⟨hprsm, hregs⟩ => ?_
  obtain ⟨cs, errs, bad, good, hsample, hgood, hbad⟩ := s.prsm.sampleTaken_eq codes crc
  dsimp only
  rw [hprsm, hsample]
  have hkept := Prism.chainSample_kept { s.prsm with
    sample := (s.prsm.sample + 1) % 2 ^ 32, frameErrs := errs, badRun := bad, goodRun := good } cs
  rw [hkept.badRun, hkept.goodRun, hkept.frameErrs]
  exact ⟨hkept.sample, hgood, hbad, fun _ hk hunused => Prism.chainSample_meter_unused cs hk hunused,
    fun _ hk hstop => Prism.chainSample_meter_stopped cs hk hstop, hkept.saves, hkept.chain, hregs⟩

/-- FE_FAULT after 16 failed frames in a row (R194). -/
theorem feFault_reaches (h : 16 ≤ s.prsm.badRun) : Reaches (exec .feFault s) fun t => t.prsm = { s.prsm with feFault := true } :=
  (onPrism_prsm (f := fun s => feFaultOn s) hcalm hup rfl).imp fun _ ⟨ht, _⟩ => ht.trans (if_pos h)

/-- Its end after 16,000 good frames in a row (R194). -/
theorem feFaultExit_reaches (h : 16000 ≤ s.prsm.goodRun) :
    Reaches (exec .feFaultExit s) fun t => t.prsm = { s.prsm with feFault := false } :=
  (onPrism_prsm (f := fun s => feFaultOff s) hcalm hup rfl).imp fun _ ⟨ht, _⟩ => ht.trans (if_pos h)

theorem aggregationEnd_prsm : Reaches (exec .aggregationEnd s) fun t =>
    t.prsm = if s.prsm.intervalDone then s.prsm.aggregate else s.prsm :=
  (onPrism_prsm (f := fun s => aggregationEnd s) hcalm hup rfl).imp fun _ ⟨ht, _⟩ => ht

/-- AGGREGATION_END of an interval that is done (R178, R180, R198). -/
theorem aggregationEnd_reaches (h : s.prsm.intervalDone = true) : Reaches (exec .aggregationEnd s) fun t =>
    t.prsm.aggSamples = 0 ∧ t.prsm.fastMhz = s.prsm.fast.mhz ∧
      (∀ k, k < 16 → (t.prsm.meter k).accP = [0, 0, 0] ∧ (t.prsm.meter k).accQ = [0, 0, 0] ∧
        (t.prsm.meter k).reg = (s.prsm.meter k).reg) ∧
      t.prsm.cfg = s.prsm.adopting.getD s.prsm.cfg ∧ t.prsm.adopting = none ∧
      t.prsm.windowNext = (s.prsm.fast.mhz.map windowFor).getD t.prsm.cfg.w0 :=
  (aggregationEnd_prsm hcalm hup).imp fun t ht => by
    obtain ⟨hsamples, hfast, hcfg, hnone, hwindow⟩ := s.prsm.aggregate_same
    rw [ht, if_pos h]
    exact ⟨hsamples, hfast, fun _ => s.prsm.aggregate_meter, hcfg, hnone, hwindow⟩

/-- FREQUENCY_INTERVAL_END of a 10 s interval that is over (R180, R181). -/
theorem frequencyIntervalEnd_reaches (h : s.prsm.tenTick + 160000 ≤ s.prsm.tick) : Reaches (exec .frequencyIntervalEnd s) fun t =>
    t.prsm.classS = (if s.prsm.refLow then none else s.prsm.tenS.mhz) ∧ t.prsm.tenS = {} ∧ t.prsm.refLow = false ∧
      t.prsm.tenTick = s.prsm.tick ∧ t.prsm.meters = s.prsm.meters ∧
      t.prsm.mval = ({ s.prsm with classS := t.prsm.classS } : Prism).classWords :=
  (onPrism_prsm (f := fun s => frequencyIntervalEnd s) hcalm hup rfl).imp fun _ ⟨ht, _⟩ => by
    rw [ht, if_pos h]
    exact ⟨rfl, rfl, rfl, rfl, rfl, rfl⟩

theorem settleEnd_prsm (m : Fin 16) : Reaches (exec (.settleEnd m) s) fun t =>
    t.prsm = if s.prsm.settling m then s.prsm
      else { s.prsm with meters := lmod s.prsm.meters m fun (x : Meter) => { x with settle := false } } :=
  (onPrism_prsm (f := fun s => settleEnd m s) hcalm hup rfl).imp fun _ ⟨ht, _⟩ => ht

/-- SETTLE_END of a meter none of whose integrators settles (R172). -/
theorem settleEnd_reaches (m : Fin 16) (hlen : s.prsm.meters.length = 16) (h : s.prsm.settling m = false) :
    Reaches (exec (.settleEnd m) s) fun t =>
      (t.prsm.meter m).settle = false ∧ ∀ k, k ≠ m.val → t.prsm.meter k = s.prsm.meter k :=
  (settleEnd_prsm hcalm hup m).imp fun t ht => by
    have hmeters := congrArg Prism.meters (ht.trans (if_neg (ne_true_of_eq_false h)))
    have hm : m.val < s.prsm.meters.length := by rw [hlen]; exact m.isLt
    exact ⟨congrArg Meter.settle (Prism.meter_lmod_self hmeters hm), fun _ hk => Prism.meter_lmod_ne hmeters hk⟩

/-- BLOCK_CLOSE of a block of its full length (R209, R210). -/
theorem blockClose_reaches (m : Fin 16) (hlen : s.prsm.meters.length = 16) (hused : (s.prsm.cfg.m m).used = true)
    (h : (s.prsm.meter m).block.target ≤ (s.prsm.meter m).block.length) : Reaches (exec (.blockClose m) s) fun t =>
    (t.prsm.meter m).blockSeq = (s.prsm.meter m).blockSeq + 1 ∧ (t.prsm.meter m).reg = (s.prsm.meter m).reg ∧
      (t.prsm.meter m).block.base = (s.prsm.meter m).reg ∧ (t.prsm.meter m).block.length = 0 ∧
      t.prsm.ringCount = s.prsm.ringCount + 1 ∧ ∀ k, k ≠ m.val → t.prsm.meter k = s.prsm.meter k := by
  have hrun : blockClose m s.draw = s.draw.publish (s.prsm.closeBlock m 0 (s.draw.drawnFor m)) := if_pos ⟨hup, hused, h⟩
  refine (prismEvent_prsm (f := fun s => blockClose m s) hcalm hrun).imp fun t ⟨ht, _⟩ => ?_
  obtain ⟨di, de, hclosed⟩ := s.prsm.closeBlock_meters m 0 (s.draw.drawnFor m)
  have hmeters := (congrArg Prism.meters ht).trans hclosed
  have hm : m.val < s.prsm.meters.length := by rw [hlen]; exact m.isLt
  have hself := Prism.meter_lmod_self hmeters hm
  exact ⟨by rw [hself], by rw [hself], by rw [hself], by rw [hself], congrArg Prism.ringCount ht,
    fun _ hk => Prism.meter_lmod_ne hmeters hk⟩

/-! ### Before these times -/

theorem aggregationEnd_early (h : s.prsm.intervalDone = false) : Reaches (exec .aggregationEnd s) fun t => t.prsm = s.prsm :=
  (aggregationEnd_prsm hcalm hup).imp fun _ ht => ht.trans (if_neg (ne_true_of_eq_false h))

theorem frequencyIntervalEnd_early (h : s.prsm.tick < s.prsm.tenTick + 160000) :
    Reaches (exec .frequencyIntervalEnd s) fun t => t.prsm = s.prsm :=
  (onPrism_prsm (f := fun s => frequencyIntervalEnd s) hcalm hup rfl).imp fun _ ⟨ht, _⟩ => ht.trans (if_neg (Nat.not_le.mpr h))

theorem settleEnd_early (m : Fin 16) (h : s.prsm.settling m = true) :
    Reaches (exec (.settleEnd m) s) fun t => t.prsm.meter m = s.prsm.meter m :=
  (settleEnd_prsm hcalm hup m).imp fun _ ht => congrArg (Prism.meter · m) (ht.trans (if_pos h))

omit hup in
theorem blockClose_early (m : Fin 16) (h : (s.prsm.meter m).block.length < (s.prsm.meter m).block.target) :
    Reaches (exec (.blockClose m) s) fun t => t.prsm = s.prsm := by
  have hrun : blockClose m s.draw = s.draw := if_neg fun ⟨_, _, hfull⟩ => absurd hfull (Nat.not_le.mpr h)
  exact (prismEvent_prsm (f := fun s => blockClose m s) (p := s.prsm) hcalm hrun).imp fun _ ⟨ht, _⟩ => ht

end
end Sys2Proof.Machine

open Sys2Proof.Machine

/-- Settles O39, an event a clause. -/
theorem prismIntervals : Obligations.PrismIntervals :=
  ⟨fun _ codes crc hcalm hup => prismSample_reaches hcalm hup codes crc,
    fun _ hcalm hup => ⟨feFault_reaches hcalm hup, feFaultExit_reaches hcalm hup, aggregationEnd_reaches hcalm hup,
      frequencyIntervalEnd_reaches hcalm hup, fun m hlen => ⟨settleEnd_reaches hcalm hup m hlen, blockClose_reaches hcalm hup m hlen⟩⟩,
    fun _ hcalm hup => ⟨aggregationEnd_early hcalm hup, frequencyIntervalEnd_early hcalm hup,
      fun m => ⟨settleEnd_early hcalm hup m, blockClose_early hcalm m⟩⟩⟩
end

section
/-! SUPPORT. Chapter 07: the saves of the partition and its start from them (O41). -/
namespace Sys2Proof.Machine

/-! ### The end of a command and of an event -/

/-- A command whose effect nests no CRITICAL leaves the units, the registers, the queues and the events shown as its effect left them
(R354, R360, R495). -/
theorem live_shows {f : State → State} {s u : State} (hp : s.sys.powered = true) (hrun : f s.draw = u) (hn : u.flt.nest = false) :
    Reaches (live f s) fun t => UnitsKept u t ∧ Leaves u t ∧ ∀ n, t.q n = u.q n := by
  refine live_reaches f s hp ?_ ?_ <;> rw [hrun]
  · exact hn
  · exact ⟨settle_unitsKept s u s.rev, settle_leaves s u s.rev, fun n => by rw [State.outside_q, settle_q]⟩

/-- An event that changes no start leaves the units as its effect left them, whatever the supply; with supply it is shown (R360). -/
theorem anyPower_shows {f : State → State} {s u : State} (hrun : f s.draw = u) (hn : u.flt.nest = false) (hsys : u.sys = s.sys) :
    Reaches (anyPower f s) fun t => UnitsKept u t ∧ (s.sys.powered = true → ∀ b i, u.sq b i = true → t.sq b i = true) := by
  cases hp : s.sys.powered with
  | true =>
    rw [anyPower_eq_live f hp]
    exact (live_shows hp hrun hn).imp fun t ⟨hkept, hshown, _⟩ => ⟨hkept, fun _ => hshown.sq⟩
  | false =>
    refine ⟨_, rfl, ?_, fun h => Bool.noConfusion h⟩
    rw [hp, hrun, if_neg Bool.false_ne_true, State.asleep, ← hsys]
    exact ⟨_, _, _, _, _, _, _, _, _, rfl⟩

/-! ### Saves (R202 to R206) -/

/-- The record of a snapshot of the partition (R203). -/
def Prism.snapshot (p : Prism) : Save := { seq := p.saveSeq + 1, startCnt := p.startCnt, sample := p.sample, meters := p.meters }

theorem Prism.beginSave_savePend (p : Prism) (slot : Nat) : (p.beginSave slot).savePend = some (slot, p.snapshot) := rfl

/-- The partition with a save held in its slot as the newest (R203, R204). -/
def Prism.holdSave (p : Prism) (slot : Nat) (v : Save) : Prism :=
  { p with
    saves := lmod p.saves slot fun _ => some v
    saveSeq := v.seq, savePend := none
    nextP := if slot < 2 then 1 - slot else p.nextP
    nextF := if slot < 2 then p.nextF else 5 - slot }

section
variable {s : State} (hcalm : s.flt.nest = false) (hup : s.prismUp = true)
include hcalm hup

/-- PERIODIC_SAVE with no save in progress (R204). -/
theorem periodicSave_reaches (hearly : s.prsm.early = false) (hidle : s.prsm.savePend = none) :
    Reaches (exec .periodicSave s) fun t => t.prsm = s.prsm.beginSave s.prsm.nextP :=
  (onPrism_prsm (f := fun s => periodicSave s) hcalm hup rfl).imp fun _ ⟨ht, _⟩ => ht.trans (if_neg (by simp [hearly, hidle]))

/-- RESIDUAL_SAVE at the partition's early warning (R205). -/
theorem residualSave_reaches (hearly : s.prsm.early = false) :
    Reaches (exec .residualSave s) fun t => t.prsm = { s.prsm with early := true }.beginSave s.prsm.nextF :=
  (onPrism_prsm (f := fun s => residualSave s) hcalm hup rfl).imp fun _ ⟨ht, _⟩ => ht.trans (if_neg (ne_true_of_eq_false hearly))

/-- PRISM_SUPPLY_RETURN (R206). -/
theorem prismSupplyReturn_reaches : Reaches (exec .prismSupplyReturn s) fun t => t.prsm = { s.prsm with early := false } :=
  (onPrism_prsm (f := fun s => prismSupplyReturn s) hcalm hup rfl).imp fun _ ⟨ht, _⟩ => ht

/-- PRISM_SAVE_COMPLETE outside early warning (R203). -/
theorem prismSaveComplete_reaches {slot : Nat} {v : Save} (hearly : s.prsm.early = false) (hpend : s.prsm.savePend = some (slot, v)) :
    Reaches (exec .prismSaveComplete s) fun t => t.prsm = s.prsm.holdSave slot v :=
  (onPrism_prsm (f := fun s => prismSaveComplete s) hcalm hup rfl).imp fun _ ⟨ht, _⟩ => by
    rw [ht, hpend]
    exact if_neg (ne_true_of_eq_false hearly)

end

/-! ### The steps of a start (R207) -/

/-- What the steps of a start after the restored save leave: the counts, the set in effect, the saves and the total registers; the ring
only grows. -/
structure Prism.StartKept (p q : Prism) : Prop where
  startCnt : q.startCnt = p.startCnt
  sample : q.sample = p.sample
  running : q.running = p.running
  powered : q.powered = p.powered
  cfg : q.cfg = p.cfg
  saves : q.saves = p.saves
  reg : ∀ k, (q.meter k).reg = (p.meter k).reg
  ringCount : p.ringCount ≤ q.ringCount

namespace Prism.StartKept

theorem refl (p : Prism) : p.StartKept p := ⟨rfl, rfl, rfl, rfl, rfl, rfl, fun _ => rfl, Nat.le_refl _⟩

theorem trans {p q r : Prism} (h : p.StartKept q) (k : q.StartKept r) : p.StartKept r where
  startCnt := k.startCnt.trans h.startCnt
  sample := k.sample.trans h.sample
  running := k.running.trans h.running
  powered := k.powered.trans h.powered
  cfg := k.cfg.trans h.cfg
  saves := k.saves.trans h.saves
  reg m := (k.reg m).trans (h.reg m)
  ringCount := Nat.le_trans h.ringCount k.ringCount

theorem putRing (p : Prism) (ws : List W64) : p.StartKept (p.putRing ws) :=
  ⟨rfl, rfl, rfl, rfl, rfl, rfl, fun _ => rfl, Nat.le_succ _⟩

end Prism.StartKept

/-- A seal entry goes to the chain alone (R217). -/
theorem Prism.appendSeal_same (p : Prism) (kind : Nat) (rest : List Byte) : ∃ c, p.appendSeal kind rest = { p with chain := c } := by
  unfold Prism.appendSeal
  split
  · exact ⟨_, rfl⟩
  · exact ⟨p.chain, rfl⟩

theorem Prism.appendSeal_startKept (p : Prism) (kind : Nat) (rest : List Byte) : p.StartKept (p.appendSeal kind rest) := by
  obtain ⟨_, e⟩ := p.appendSeal_same kind rest
  rw [e]; exact ⟨rfl, rfl, rfl, rfl, rfl, rfl, fun _ => rfl, Nat.le_refl _⟩

theorem Prism.sealEvent_startKept (p : Prism) (kind : Nat) (rest : List Byte) : p.StartKept (p.sealEvent kind rest) := by
  unfold Prism.sealEvent
  dsimp only
  split
  · exact p.appendSeal_startKept kind rest
  · exact (p.appendSeal_startKept kind rest).trans (.putRing _ _)

/-- A break of the seal at a start changes the seal and the ring alone (R219). -/
theorem Prism.sealBreak_startKept (p : Prism) : p.StartKept p.sealBreak :=
  have hcounted : p.StartKept { p with sealBrk := p.sealBrk + 1 } := ⟨rfl, rfl, rfl, rfl, rfl, rfl, fun _ => rfl, Nat.le_refl _⟩
  hcounted.trans (Prism.sealEvent_startKept _ 3 [])

/-- What a function of a place reads is kept by a change of one place that keeps it. -/
theorem lmod_getD_of_keeps {α β : Type} {f : α → α} (g : α → β) (l : List α) (i j : Nat) (d : α)
    (hf : ∀ x, g (f x) = g x := by exact fun _ => rfl) : g ((lmod l i f).getD j d) = g (l.getD j d) := by
  by_cases hij : i = j
  · subst hij
    obtain hlt | hge := Nat.lt_or_ge i l.length
    · rw [lmod_getD_self _ _ _ _ hlt, hf]
    · rw [List.getD_eq_default _ _ hge, List.getD_eq_default _ _ (by rwa [lmod_length])]
  · rw [lmod_getD_ne _ _ _ hij]

theorem mapIdx_getD_of_keeps {α β : Type} {f : Nat → α → α} (g : α → β) (l : List α) (j : Nat) (d : α)
    (hf : ∀ i x, g (f i x) = g x := by exact fun _ _ => rfl) : g ((l.mapIdx f).getD j d) = g (l.getD j d) := by
  rw [List.getD_eq_getElem?_getD, List.getD_eq_getElem?_getD, List.getElem?_mapIdx]
  cases l[j]? with
  | none => rfl
  | some x => exact hf j x

/-- A block closed leaves the registers of its meter (R209). -/
theorem Prism.closeBlock_startKept (p : Prism) (k extra : Nat) (open0 : W64) : p.StartKept (p.closeBlock k extra open0) := by
  obtain ⟨_, _, e⟩ := p.closeBlock_meters k extra open0
  refine ⟨rfl, rfl, rfl, rfl, rfl, rfl, fun j => ?_, Nat.le_succ _⟩
  unfold Prism.meter
  rw [e]
  exact lmod_getD_of_keeps Meter.reg _ _ _ _

/-- The blocks of the restored save closed leave the registers of their meters (R211). -/
theorem Prism.closeRestored_startKept (p : Prism) (old : PrismCfg) (open0 : W64) : p.StartKept (p.closeRestored old open0) := by
  unfold Prism.closeRestored
  dsimp only
  refine Prism.StartKept.trans (List.foldlRecOn (motive := p.StartKept) _ _ (.refl p) fun q hq k _ => hq.trans ?_)
    ⟨rfl, rfl, rfl, rfl, rfl, rfl, fun k => mapIdx_getD_of_keeps Meter.reg _ _ _, Nat.le_refl _⟩
  split
  · exact q.closeBlock_startKept k 3 open0
  · exact ⟨rfl, rfl, rfl, rfl, rfl, rfl, fun j => lmod_getD_of_keeps Meter.reg _ _ _ _, Nat.le_refl _⟩

/-! ### A start from a save (R207) -/

/-- The partition a start works from, its counts begun (R207). -/
def Prism.restarted (p : Prism) (s : State) (metEn : Bool) : Prism :=
  { p.restoreSave s with startCnt := (p.startCnt + 1) % 65536, sample := 0, metEn }

/-- The registers of a restored save stand again (R207). -/
theorem Prism.restarted_reg {p : Prism} {v : Save} (s : State) (metEn : Bool) (hv : p.newestSave = some v) {k : Nat} (hk : k < 16) :
    ((p.restarted s metEn).meter k).reg = (v.meters.getD k {}).reg := by
  have hmeters : ∃ f : Nat → Meter, (p.restarted s metEn).meters = (List.range 16).map f ∧ (f k).reg = (v.meters.getD k {}).reg := by
    unfold Prism.restarted Prism.restoreSave
    rw [hv]
    dsimp only
    refine ⟨_, rfl, ?_⟩
    rfl
  obtain ⟨f, e, hreg⟩ := hmeters
  rw [Prism.meter_of_map e hk, hreg]

/-- A start without metrology access from a complete save: the restored partition, `ws` its power-fail record (R207, R211, R219). -/
theorem prismStart_eq (metEn : Bool) {s : State} {v : Save} (hmr : s.isMr = true) (hoff : s.prsm.powered = false)
    (hv : s.prsm.newestSave = some v) : ∃ (q r : Prism) (ws : List W64),
    prismStart metEn none s = (noteSeal s.prsm.chain.length (s.publish r)).setSQ 7 4 ∧
      (s.prsm.restarted s metEn).StartKept q ∧ (q.putRing ws).StartKept r := by
  unfold prismStart
  rw [if_neg (by simp [hmr, hoff])]
  extract_lets p0 save kb before restored begun blocks word4 published opened broken ended
  have hblocks : blocks = begun.closeRestored p0.cfg (s.drawnFor 200) := if_pos (by rw [show save = some v from hv]; rfl)
  have hmark (p : Prism) (ok : Bool) : p.StartKept { p with sealOk := ok } :=
    ⟨rfl, rfl, rfl, rfl, rfl, rfl, fun _ => rfl, Nat.le_refl _⟩
  have hended : published.StartKept ended := by
    unfold ended
    split
    · exact hmark published true
    · exact published.sealBreak_startKept.trans (hmark ..)
  refine ⟨blocks, ended, _, rfl, ?_, hended⟩
  rw [hblocks]
  exact begun.closeRestored_startKept ..

/-- SEAL_EVENT and an event of the partition leave the units (R360). -/
theorem noteSeal_setSQ_unitsKept (n : Nat) (s : State) (b i : Nat) : UnitsKept s ((noteSeal n s).setSQ b i) := by
  unfold noteSeal
  split <;> exact ⟨_, _, _, _, _, _, _, _, _, rfl⟩

theorem UnitsKept.sys {u t : State} (h : UnitsKept u t) : t.sys = u.sys := by
  obtain ⟨_, _, _, _, _, _, _, _, _, rfl⟩ := h; rfl

theorem UnitsKept.pnt {u t : State} (h : UnitsKept u t) : t.pnt = u.pnt := by
  obtain ⟨_, _, _, _, _, _, _, _, _, rfl⟩ := h; rfl

/-- PRISM_START without metrology access from a complete save (R207): `r` is the partition it leaves, behind a power-fail record. -/
theorem prismStart_reaches (metEn : Bool) {s : State} {v : Save} (hcalm : s.flt.nest = false) (hmr : s.isMr = true)
    (hoff : s.prsm.powered = false) (hv : s.prsm.newestSave = some v) : ∃ (q r : Prism) (ws : List W64),
    (s.prsm.restarted s.draw metEn).StartKept q ∧ (q.putRing ws).StartKept r ∧
      Reaches (exec (.prismStart metEn none) s) fun t => t.prsm = { r with seenLog := r.seenLog || s.sys.powered } ∧
        t.sys = s.sys ∧ t.pnt = s.pnt ∧ (s.sys.powered = true → t.sq 7 4 = true) := by
  obtain ⟨q, r, ws, hrun, hrestored, hended⟩ := prismStart_eq (s := s.draw) metEn hmr hoff hv
  refine ⟨q, r, ws, hrestored, hended, ?_⟩
  have hnoted := noteSeal_setSQ_unitsKept s.prsm.chain.length (s.draw.publish r) 7 4
  refine (anyPower_shows (f := fun s => prismStart metEn none s) hrun ?_ hnoted.sys).imp fun t ⟨hkept, hshown⟩ => ?_
  · exact (congrArg Flt.nest hnoted.flt).trans hcalm
  · have hall := hnoted.trans hkept
    exact ⟨hall.prsm, hall.sys, hall.pnt, fun hp => hshown hp _ _ (State.sq_setSQ_self _ 7 4)⟩

end Sys2Proof.Machine

open Sys2Proof.Machine

/-- Settles O41: each save as the partition it leaves, the start by what each of its steps leaves of the restored save. -/
theorem prismSaves : Obligations.PrismSaves := by
  refine ⟨fun s hcalm hup hlen => ⟨fun hearly hidle => ?_, fun slot v hearly hpend hslot => ?_, fun hearly => ?_, ?_⟩,
    fun s metEn v hcalm hmr hoff hv => ?_⟩
  · exact (periodicSave_reaches hcalm hup hearly hidle).imp fun t ht => by
      rw [ht]; exact ⟨Prism.beginSave_savePend .., rfl⟩
  · refine (prismSaveComplete_reaches hcalm hup hearly hpend).imp fun t ht => ?_
    rw [ht]
    exact ⟨rfl, rfl, lmod_getD_self _ _ _ _ (by rwa [hlen]), fun h => if_pos h, fun k hk => lmod_getD_ne _ _ _ (Ne.symm hk)⟩
  · exact (residualSave_reaches hcalm hup hearly).imp fun t ht => by
      rw [ht]; exact ⟨rfl, Prism.beginSave_savePend ..⟩
  · exact prismSupplyReturn_reaches hcalm hup
  · obtain ⟨q, r, ws, hrestored, hended, hreaches⟩ := prismStart_reaches metEn hcalm hmr hoff hv
    have hkept := (hrestored.trans (.putRing q ws)).trans hended
    refine hreaches.imp fun t ⟨hprsm, hsys, hpnt, hshown⟩ => ?_
    rw [hprsm, hsys]
    exact ⟨hkept.startCnt, hkept.sample, hkept.running, hkept.powered,
      Nat.lt_of_lt_of_le (Nat.lt_succ_of_le hrestored.ringCount) hended.ringCount, hkept.cfg,
      fun k hk => (hkept.reg k).trans (s.prsm.restarted_reg s.draw metEn hv hk), hkept.saves, rfl, hpnt, hshown⟩
end

section
/-! SUPPORT. Chapter 07: the mirror, its proposals and the interval ring (O42). -/
namespace Sys2Proof.Machine

/-! ### The mirror (R222, R223) -/

theorem bitAt_flagAt_self (b : Bool) {i : Nat} (h : i < 32) : bitAt (flagAt b i) i = b := by
  unfold flagAt bitAt
  cases b with
  | false => simp
  | true => simp [getLsbD_place, h]

theorem State.flag_setReg_self (s : State) (off : Nat) (w : W32) (i : Nat) : (s.setReg off w).flag off i = bitAt w i := by
  unfold State.flag; rw [State.reg_setReg_self]

/-- A flag of a register is clear once its field is written with 0. -/
theorem State.flag_setFld_zero (s : State) (off : Nat) {i : Nat} (h : i < 32) : (s.setFld off i i 0).flag off i = false := by
  have hbit := testBit_bits ((s.setFld off i i 0).reg off) i i 0
  rw [show bits _ i i = _ from State.fld_setFld_self s off 0 h] at hbit
  simpa [State.flag, bitAt] using hbit.symm

/-- `t` differs from `u` in the registers from PRSM_MSTAT0 (3840h) on alone. -/
structure MeterRegsOnly (u t : State) : Prop where
  same : ∃ r, t = { u with regs := r }
  reg : ∀ off < 0x3840, t.reg off = u.reg off

theorem MeterRegsOnly.refl (u : State) : MeterRegsOnly u u := ⟨⟨_, rfl⟩, fun _ _ => rfl⟩

theorem MeterRegsOnly.setReg {u t : State} (h : MeterRegsOnly u t) {off : Nat} (w : W32) (hoff : 0x3840 ≤ off) :
    MeterRegsOnly u (t.setReg off w) := by
  obtain ⟨_, e⟩ := h.same
  exact ⟨⟨_, by rw [e]; rfl⟩, fun o ho => (t.reg_setReg_ne w (by omega)).trans (h.reg o ho)⟩

theorem MeterRegsOnly.setPair {u t : State} (h : MeterRegsOnly u t) {off : Nat} (v : Nat) (hoff : 0x3840 ≤ off) :
    MeterRegsOnly u (t.setPair off v) := (h.setReg _ hoff).setReg _ (Nat.le_add_right_of_le hoff)

theorem MeterRegsOnly.energy {u t : State} (h : MeterRegsOnly u t) : MeterRegsOnly u (mirrorEnergy t) :=
  List.foldlRecOn (motive := MeterRegsOnly u) _ _ h fun _ hv _ _ => hv.setPair _ (by omega)

theorem MeterRegsOnly.status {u t : State} (h : MeterRegsOnly u t) (p : Prism) (l : List Nat) :
    MeterRegsOnly u (l.foldl (fun (s : State) k => s.setReg (0x3840 + 4 * k) (p.mstat k)) t) :=
  List.foldlRecOn (motive := MeterRegsOnly u) _ _ h fun _ hv _ _ => hv.setReg _ (by omega)

/-- The registers of the partition as a whole after a refresh: demand, its validity, the newest save and SAMPLE_CNT (R222). -/
def State.refreshTotals (s : State) : State :=
  (((s.setReg 0x3808 (BitVec.ofInt 32 s.prsm.demandW)).setReg 0x380C (flagAt s.prsm.demandOk 31)).setReg 0x3810
    (BitVec.ofNat 32 ((s.prsm.newestSave.map (·.seq)).getD 0))).setReg 0x3814 (BitVec.ofNat 32 s.prsm.sample)

theorem State.refreshTotals_demand (s : State) : s.refreshTotals.reg 0x3808 = BitVec.ofInt 32 s.prsm.demandW := by
  unfold State.refreshTotals
  rw [State.reg_setReg_ne _ _ (by decide), State.reg_setReg_ne _ _ (by decide), State.reg_setReg_ne _ _ (by decide),
    State.reg_setReg_self]

theorem State.refreshTotals_valid (s : State) : s.refreshTotals.reg 0x380C = flagAt s.prsm.demandOk 31 := by
  unfold State.refreshTotals
  rw [State.reg_setReg_ne _ _ (by decide), State.reg_setReg_ne _ _ (by decide), State.reg_setReg_self]

theorem State.refreshTotals_sample (s : State) : s.refreshTotals.reg 0x3814 = BitVec.ofNat 32 s.prsm.sample := State.reg_setReg_self ..

/-- The partition as a module has seen it that gets a refresh of its mirror (R222). -/
def Prism.refreshed (p : Prism) (now : Nat) : Prism :=
  { p with mval := p.pageOne, mirrorOk := true, seen := true, seenLog := true, ageSince := now }

/-- A refresh writes the totals, and the registers of the meters behind them (R222). -/
theorem mirrorRefresh_eq {s : State} (hrun : s.prismUp = true) (hp : s.sys.powered = true) : ∃ u,
    MeterRegsOnly s.refreshTotals u ∧ mirrorRefresh s = u.setPrism (s.prsm.refreshed s.crsl.upNs) := by
  have honly : MeterRegsOnly s.refreshTotals
      (mirrorEnergy ((List.range 16).foldl (fun (t : State) k => t.setReg (0x3840 + 4 * k) (s.prsm.mstat k)) s.refreshTotals)) :=
    ((MeterRegsOnly.refl _).status s.prsm _).energy
  refine ⟨_, honly, ?_⟩
  obtain ⟨_, e⟩ := honly.same
  unfold mirrorRefresh
  rw [if_neg (by simp [hrun, hp])]
  change State.setPrism (mirrorEnergy (List.foldl _ s.refreshTotals _)) _ = _
  rw [e]
  rfl

section
variable {s : State} (hup : s.up = true)
include hup

/-- MIRROR_REFRESH (R222). -/
theorem mirrorRefresh_reaches (hrun : s.prismUp = true) : Reaches (exec .mirrorRefresh s) fun t =>
    t.prsm = s.prsm.refreshed s.crsl.upNs ∧ t.reg 0x3808 = BitVec.ofInt 32 s.prsm.demandW ∧
      t.reg 0x3814 = BitVec.ofNat 32 s.prsm.sample ∧ t.reg 0x380C = flagAt s.prsm.demandOk 31 := by
  obtain ⟨hp, hcalm⟩ := State.up_iff.mp hup
  obtain ⟨u, honly, hrefresh⟩ := mirrorRefresh_eq (s := s.draw) hrun hp
  have hreg {off : Nat} (hoff : off < 0x3840) : (u.setPrism (s.prsm.refreshed s.crsl.upNs)).reg off = s.draw.refreshTotals.reg off :=
    honly.reg off hoff
  refine (live_shows (f := fun s => mirrorRefresh s) hp hrefresh ?_).imp fun t ⟨hkept, hshown, _⟩ => ?_
  · obtain ⟨_, rfl⟩ := honly.same
    exact hcalm
  · refine ⟨hkept.prsm, ?_, ?_, ?_⟩
    · exact (hshown.reg _ (by decide)).trans ((hreg (by decide)).trans s.draw.refreshTotals_demand)
    · exact (hshown.reg _ (by decide)).trans ((hreg (by decide)).trans s.draw.refreshTotals_sample)
    · exact (hshown.reg _ (by decide)).trans ((hreg (by decide)).trans s.draw.refreshTotals_valid)

/-- MIRROR_LOST (R223). -/
theorem mirrorLost_reaches (hmr : s.isMr = true) : Reaches (exec .mirrorLost s) fun t =>
    t.prsm.mirrorOk = false ∧ t.sq 7 5 = true ∧ t.flag 0x380C 31 = false := by
  obtain ⟨hp, hcalm⟩ := State.up_iff.mp hup
  have hlost : mirrorLost s.draw =
      ((s.draw.setFld 0x380C 31 31 0).setPrism { s.prsm with mirrorOk := false }).setSQ 7 5 := if_neg (ne_false_of_eq_true hmr)
  refine (live_shows (f := fun s => mirrorLost s) hp hlost hcalm).imp fun t ⟨hkept, hshown, _⟩ => ⟨?_, ?_, ?_⟩
  · exact congrArg Prism.mirrorOk hkept.prsm
  · exact hshown.sq 7 5 (State.sq_setSQ_self _ 7 5)
  · exact (congrArg (bitAt · 31) (hshown.reg 0x380C (by decide))).trans (s.draw.flag_setFld_zero 0x380C (by decide))

/-! ### Proposals (R210, R215) -/

/-- ALIGNMENT_PROPOSAL with no RESULT pending (R210, R215). -/
theorem alignmentProposal_reaches (hmr : s.isMr = true) (n : W32) (htrust : s.trusted = true)
    (hsync : s.crsl.sync = .locked ∨ s.crsl.sync = .holdover) (hidle : s.prsm.propResult ≠ 0) :
    Reaches (exec (.alignmentProposal n) s) fun t => t.prsm = s.prsm.proposed 1 (.inr n) s.sys.powered := by
  obtain ⟨hp, hcalm⟩ := State.up_iff.mp hup
  have hwrites : alignmentProposal s.draw.trusted n s.draw = s.draw.writeProposal 1 (.inr n) := if_pos ⟨hmr, htrust, hsync, hidle⟩
  exact (live_shows (f := fun s => alignmentProposal s.trusted n s) hp hwrites hcalm).imp fun t ⟨hkept, _⟩ => hkept.prsm

end

/-- A proposal judged leaves the buffer, and its outcome stands (R215). -/
theorem Prism.applyProposal_judged (p : Prism) (result reason : Nat) : (p.applyProposal result reason).proposal = none ∧
    (p.applyProposal result reason).propResult = result ∧ (p.applyProposal result reason).propReason = reason := by
  unfold Prism.applyProposal
  dsimp only
  split
  next raw _ =>
    split
    · unfold Prism.adoptSet
      dsimp only
      split
      · obtain ⟨_, e⟩ := Prism.appendSeal_same _ 2 raw
        rw [e]; exact ⟨rfl, rfl, rfl⟩
      · exact ⟨rfl, rfl, rfl⟩
    · exact ⟨rfl, rfl, rfl⟩
  next n _ => split <;> exact ⟨rfl, rfl, rfl⟩
  next => exact ⟨rfl, rfl, rfl⟩

/-- A proposal refused has no other effect (R215). -/
theorem Prism.applyProposal_refused (p : Prism) {result : Nat} (reason : Nat) (h : result ≠ 1) :
    p.applyProposal result reason = { p with propResult := result, propReason := reason, proposal := none } := by
  unfold Prism.applyProposal
  dsimp only
  split
  · exact if_neg h
  · exact if_neg h
  · rfl

/-- `t` has the units of `u`, and shows every event that `u` shows (R360). -/
structure UnitsShown (u t : State) : Prop where
  units : UnitsKept u t
  sq : ∀ b i, u.sq b i = true → t.sq b i = true

theorem UnitsShown.refl (u : State) : UnitsShown u u := ⟨⟨_, _, _, _, _, _, _, _, _, rfl⟩, fun _ _ h => h⟩

theorem UnitsShown.trans {u t v : State} (h : UnitsShown u t) (k : UnitsShown t v) : UnitsShown u v :=
  ⟨h.units.trans k.units, fun b i e => k.sq b i (h.sq b i e)⟩

/-- A completion leaves the units (R381, R399). -/
theorem State.complete_unitsShown (s : State) (x : Slot) (status detail : Nat) (data : List Byte) :
    UnitsShown s (s.complete x status detail data) := by
  unfold State.complete State.completeAs
  extract_lets box freed
  have hfreed : UnitsShown s freed := ⟨⟨_, _, _, _, _, _, _, _, _, rfl⟩, fun _ _ h => h⟩
  split
  · obtain ⟨_, _, _, e⟩ := freed.countDone_same x.session x.opcode status
    exact hfreed.trans ⟨by rw [e]; exact ⟨_, _, _, _, _, _, _, _, _, rfl⟩, (countDone_leaves ..).sq⟩
  · exact hfreed.trans ⟨respond_unitsKept .., (respond_leaves ..).sq⟩

/-- The commands that waited for a RESULT complete, and the units stay as they are (R391). -/
theorem finishProposals_unitsShown (s : State) : UnitsShown s (finishProposals s) := by
  unfold finishProposals
  refine List.foldlRecOn (motive := UnitsShown s) _ _ (.refl s) fun t ht x _ => ?_
  split
  · exact ht.trans (t.complete_unitsShown ..)
  · exact ht

/-- The state with the proposal in the buffer judged, and its RESULT published (R215). -/
def State.publishJudged (s : State) : State := s.publish (s.prsm.applyProposal s.prsm.judgeProposal.1 s.prsm.judgeProposal.2)

theorem proposalRead_eq {s : State} (hrun : s.prismUp = true) (hprop : s.prsm.proposal.isSome = true) :
    proposalRead s = finishProposals ((noteSeal s.prsm.chain.length s.publishJudged).setSQ 7 2) :=
  if_neg (not_or.mpr ⟨ne_false_of_eq_true hrun, ne_true_of_eq_false (Option.isNone_eq_false_iff.mpr hprop)⟩)

/-- PROPOSAL_READ of a proposal in the buffer (R215). -/
theorem proposalRead_reaches {s : State} (hup : s.up = true) (hrun : s.prismUp = true) (hprop : s.prsm.proposal.isSome = true) :
    Reaches (exec .proposalRead s) fun t => t.sq 7 2 = true ∧
      ∃ seen, t.prsm = { s.prsm.applyProposal s.prsm.judgeProposal.1 s.prsm.judgeProposal.2 with seenLog := seen } := by
  obtain ⟨hp, hcalm⟩ := State.up_iff.mp hup
  have hfinished := finishProposals_unitsShown ((noteSeal s.prsm.chain.length s.draw.publishJudged).setSQ 7 2)
  have hunits := (noteSeal_setSQ_unitsKept s.prsm.chain.length s.draw.publishJudged 7 2).trans hfinished.units
  refine (anyPower_shows (f := fun s => proposalRead s) (proposalRead_eq (s := s.draw) hrun hprop)
    ((congrArg Flt.nest hunits.flt).trans hcalm) hunits.sys).imp fun t ⟨hkept, hshown⟩ => ⟨?_, _, (hunits.trans hkept).prsm⟩
  exact hshown hp 7 2 (hfinished.sq 7 2 (State.sq_setSQ_self _ 7 2))

/-! ### The ring (R213, R214) -/

/-- With no record overwritten unread and room in Q26, the next record goes there with its trailer (R213, R214). -/
theorem ringForward_eq {s : State} (hmr : s.isMr = true) (hseen : s.prsm.seenLog = true) (hrun : s.sys.run ≠ .starting)
    (hnew : s.prsm.ringRead < s.prsm.ringCount) (hkept : s.prsm.ringCount ≤ s.prsm.ringRead + 4096)
    (hlen : (sget [] s.prsm.ring (s.prsm.ringRead % 4096)).length = 13) (hroom : s.qRoom 26 14 = true) :
    ringForward s = (s.setQ 26 ((s.q 26).push (sget [] s.prsm.ring (s.prsm.ringRead % 4096) ++ [s.phaseStamp.setWidth 64]))).setPrism
      { s.prsm with ringRead := s.prsm.ringRead + 1 } := by
  have hgap : s.ringGap = s := if_neg (Nat.not_lt.mpr hkept)
  unfold ringForward
  rw [if_neg (by simp [hmr, hseen, hrun]), hgap]
  dsimp only
  rw [if_pos ⟨hnew, hroom⟩, State.produce_room _ _ _ (by rwa [List.length_append, hlen])]
  rfl

/-- RING_FORWARD of the next record, with room in Q26 (R213, R214). -/
theorem ringForward_reaches {s : State} (hup : s.up = true) (hmr : s.isMr = true) (hseen : s.prsm.seenLog = true)
    (hrun : s.sys.run ≠ .starting) (hnew : s.prsm.ringRead < s.prsm.ringCount) (hkept : s.prsm.ringCount ≤ s.prsm.ringRead + 4096)
    (hlen : (sget [] s.prsm.ring (s.prsm.ringRead % 4096)).length = 13) (hroom : s.qRoom 26 14 = true)
    (hqueues : s.hostp.queues.length = 32) : Reaches (exec .ringForward s) fun t => t.prsm.ringRead = s.prsm.ringRead + 1 ∧
      t.q 26 = (s.q 26).push (sget [] s.prsm.ring (s.prsm.ringRead % 4096) ++ [s.phaseStamp.setWidth 64]) := by
  obtain ⟨hp, hcalm⟩ := State.up_iff.mp hup
  refine (live_shows (f := fun s => ringForward s) hp (ringForward_eq (s := s.draw) hmr hseen hrun hnew hkept hlen hroom) hcalm).imp
    fun t ⟨hunits, _, hq⟩ => ⟨congrArg Prism.ringRead hunits.prsm, (hq 26).trans ?_⟩
  exact s.draw.q_setQ_self _ (show 26 < s.hostp.queues.length by omega)

end Sys2Proof.Machine

open Sys2Proof.Machine

/-- Settles O42, an event a clause. -/
theorem mirrorAndRing : Obligations.MirrorAndRing := by
  intro s hup hmr
  refine ⟨fun hrun => ?_, mirrorLost_reaches hup hmr, fun n htrust hsync hidle => ?_, fun hrun hprop => ?_, ringForward_reaches hup hmr⟩
  · refine (mirrorRefresh_reaches hup hrun).imp fun t ⟨hprsm, hdemand, hsample, hvalid⟩ => ?_
    rw [hprsm]
    exact ⟨rfl, rfl, rfl, hdemand, hsample, (congrArg (bitAt · 31) hvalid).trans (bitAt_flagAt_self _ (by decide))⟩
  · exact (alignmentProposal_reaches hup hmr n htrust hsync hidle).imp fun t ht => by
      rw [ht]; exact ⟨rfl, rfl, rfl, rfl⟩
  · refine (proposalRead_reaches hup hrun hprop).imp fun t ⟨hshown, seen, ht⟩ => ?_
    obtain ⟨hnone, hresult, hreason⟩ := s.prsm.applyProposal_judged s.prsm.judgeProposal.1 s.prsm.judgeProposal.2
    rw [ht]
    refine ⟨hnone, Prod.ext hresult hreason, hshown, fun hrefused => ?_⟩
    rw [Prism.applyProposal_refused _ _ hrefused]
    exact ⟨rfl, rfl⟩
end

section
/-! SUPPORT. Chapter 08: the cost of a move and the tracked load (O37). -/
namespace Sys2Proof.Machine

/-! ### Costs as rational numbers (R229) -/

/-- A rational number rounded away from zero to a whole one (R229). -/
def awayFromZero (x : ℚ) : Int := if 0 ≤ x then ⌈x⌉ else ⌊x⌋

theorem ceil_div_eq_ediv (n : Int) {d : Int} (hd : 0 < d) : ⌈(n : ℚ) / d⌉ = (n + d - 1) / d := by
  have hd' : (0 : ℚ) < d := Int.cast_pos.mpr hd
  refine eq_of_forall_ge_iff fun z => ?_
  calc ⌈(n : ℚ) / d⌉ ≤ z ↔ (n : ℚ) ≤ z * d := by rw [Int.ceil_le, div_le_iff₀ hd']
    _ ↔ n ≤ z * d := by norm_cast
    _ ↔ n + d - 1 < (z + 1) * d := by rw [add_mul, one_mul]; omega
    _ ↔ (n + d - 1) / d ≤ z := by rw [← Int.ediv_lt_iff_lt_mul hd, Int.lt_add_one_iff]

/-- The model's quotient is that of the rational numbers: a quotient below zero is the negated one of `-n`. -/
theorem roundAway_eq (n : Int) {d : Int} (hd : 0 < d) : roundAway n d = awayFromZero ((n : ℚ) / d) := by
  have hd' : (0 : ℚ) < d := Int.cast_pos.mpr hd
  unfold roundAway awayFromZero
  by_cases hn : n < 0
  · have hneg : ⌊(n : ℚ) / d⌋ = -((-n + d - 1) / d) := by
      rw [← ceil_div_eq_ediv (-n) hd, Int.cast_neg, neg_div, Int.ceil_neg, neg_neg]
    rw [if_pos hn, if_neg (not_le.mpr (div_neg_of_neg_of_pos (Int.cast_lt_zero.mpr hn) hd')), hneg]
    rfl
  · rw [if_neg hn, if_pos (div_nonneg (Int.cast_nonneg (not_lt.mp hn)) hd'.le), ceil_div_eq_ediv n hd]
    rfl

/-- The cost between two numbers, over their common denominator (R229). -/
theorem costBetween_eq (coef : W32) {typ : BitVec 4} {v0 v1 : W64} {i0 i1 : Int} {k0 k1 : Nat}
    (h0 : numOf typ v0 = some (i0, k0)) (h1 : numOf typ v1 = some (i1, k1)) : costBetween coef typ v0 v1 =
      some (awayFromZero ((s32 coef : ℚ) / 2 ^ 16 * ((i1 : ℚ) / 2 ^ k1 - (i0 : ℚ) / 2 ^ k0))) := by
  have hquot : ((s32 coef * (i1 * 2 ^ k0 - i0 * 2 ^ k1) : Int) : ℚ) / (2 ^ (16 + k0 + k1) : Int) =
      (s32 coef : ℚ) / 2 ^ 16 * ((i1 : ℚ) / 2 ^ k1 - (i0 : ℚ) / 2 ^ k0) := by
    push_cast
    field_simp
    ring
  unfold costBetween
  rw [h0, h1, ← hquot, ← roundAway_eq _ (by positivity)]

/-- The encoding of 0 in each TYPE is the number 0 (R69). -/
theorem numOf_ofNum_zero (typ : BitVec 4) : ∃ k, numOf typ (ofNum typ 0 0) = some (0, k) := by
  have hzero : ∀ typ : BitVec 4, (numOf typ (ofNum typ 0 0)).map Prod.fst = some 0 := by decide +kernel
  obtain ⟨⟨i, k⟩, hnum, rfl⟩ := Option.map_eq_some_iff.mp (hzero typ)
  exact ⟨k, hnum⟩

section
variable {s : State} {p : Nat} {c : Cost} {i0 : Int} {k0 : Nat}

/-- The cost of a move of a point with a cost entry (R229). -/
theorem State.moveCost_eq {v : W64} {i1 : Int} {k1 : Nat} (hcost : s.costOf p = some c)
    (h0 : numOf (s.point p).typ (s.point p).value = some (i0, k0)) (h1 : numOf (s.point p).typ v = some (i1, k1)) :
    s.moveCost p v = awayFromZero ((s32 c.coef : ℚ) / 2 ^ 16 * ((i1 : ℚ) / 2 ^ k1 - (i0 : ℚ) / 2 ^ k0)) := by
  simp only [State.moveCost, hcost, costBetween_eq c.coef h0 h1, Option.getD_some]

/-- The tracked load is the cost of the move from 0 (R229). -/
theorem State.tracked_eq (hcost : s.costOf p = some c)
    (h0 : numOf (s.point p).typ (s.point p).value = some (i0, k0)) :
    s.tracked p = awayFromZero ((s32 c.coef : ℚ) / 2 ^ 16 * ((i0 : ℚ) / 2 ^ k0)) := by
  obtain ⟨k, hzero⟩ := numOf_ofNum_zero (s.point p).typ
  simp only [State.tracked, hcost, costBetween_eq c.coef hzero h0, Option.getD_some, Int.cast_zero, zero_div, sub_zero]

end

end Sys2Proof.Machine

open Sys2Proof.Machine

/-- Settles O37: the model's quotient of whole numbers is the one of the rational numbers, for the move and for the move from 0. -/
theorem moveCost : Obligations.MoveCost := fun _ _ _ _ _ _ _ _ hcost h0 h1 =>
  ⟨State.moveCost_eq hcost h0 h1, State.tracked_eq hcost h0⟩
end

section
/-! SUPPORT. Chapter 09: the ends of field events, the records of groups and channels, and the bits of a frame (O44, O45). -/
namespace Sys2Proof.Machine

/-! ### The end of a field event -/

/-- The records of the field side, the registers and the posted writes of `t` stand as in `u`, and what `u` shows and counts below the
counter of the interrupt line is shown and counted in `t` (R354, R360). -/
structure FieldShown (u t : State) : Prop where
  fioGrp : t.fioGrp = u.fioGrp
  fioCh : t.fioCh = u.fioCh
  regs : t.regs = u.regs
  posted : t.posted = u.posted
  sq : ∀ b i, u.sq b i = true → t.sq b i = true
  total : ∀ o, o < 0x69FC → t.total o = u.total o

theorem FieldShown.fgrp {u t : State} (h : FieldShown u t) (g : Nat) : t.fgrp g = u.fgrp g := congrArg (·.getD g {}) h.fioGrp

theorem FieldShown.fch {u t : State} (h : FieldShown u t) (k : Nat) : t.fch k = u.fch k := congrArg (·.getD k {}) h.fioCh

/-- A command whose effect nests no CRITICAL shows its effect on the field side (R495). -/
theorem live_fieldShown {f : State → State} {s u : State} (hup : s.up = true) (hrun : f s.draw = u)
    (hn : u.flt.nest = s.flt.nest) : Reaches (live f s) (FieldShown u) := by
  obtain ⟨hp, hcalm⟩ := State.up_iff.mp hup
  refine live_reaches f s hp ?_ ?_ <;> rw [hrun]
  · exact hn.trans hcalm
  · exact ⟨by simp, by simp, by simp, by simp, fun b i h => settle_sq_mono _ _ h, fun o ho => settle_total _ _ (by omega)⟩

/-- The same for an event of IOE-FLD, the engine having passed its BIST (R488). -/
theorem fieldEvent_shown {f : State → State} {s u : State} (he : s.engineUp 1 = true) (hrun : f s.draw = u)
    (hn : u.flt.nest = s.flt.nest) : Reaches (liveIoe 1 f s) (FieldShown u) := by
  obtain ⟨hp, hcalm, hbist⟩ := State.engineUp_iff.mp he
  have hskip : (if s.draw.sys.ioeBad.getLsbD 1 then s.draw else f s.draw) = u := by
    rw [State.draw_sys, hbist, if_neg Bool.false_ne_true, hrun]
  exact live_fieldShown (State.up_iff.mpr ⟨hp, hcalm⟩) hskip hn

/-! ### Records of groups and channels -/

theorem State.fgrp_setGrp_self (s : State) {g : Nat} (x : FioGrp) (h : g < s.fioGrp.length) : (s.setGrp g x).fgrp g = x :=
  lmod_getD_self _ _ _ _ h

@[simp] theorem State.setGrp_length (s : State) (g : Nat) (x : FioGrp) : (s.setGrp g x).fioGrp.length = s.fioGrp.length := lmod_length ..

theorem State.fch_setFch_self (s : State) {k : Nat} (c : FioCh) (h : k < s.fioCh.length) : (s.setFch k c).fch k = c :=
  lmod_getD_self _ _ _ _ h

theorem State.fch_setFch_ne (s : State) {j k : Nat} (c : FioCh) (h : k ≠ j) : (s.setFch k c).fch j = s.fch j :=
  lmod_getD_ne _ _ _ h

/-- Channels rewritten one after another, each from what it held: the channels alone change. -/
theorem foldl_setFch_same (F : Nat → FioCh → FioCh) (b n : Nat) (s : State) : ∃ l, l.length = s.fioCh.length ∧
    (List.range n).foldl (fun (s : State) c => s.setFch (b + c) (F c (s.fch (b + c)))) s = { s with fioCh := l } := by
  induction n with
  | zero => exact ⟨s.fioCh, rfl, rfl⟩
  | succ n ih =>
    obtain ⟨l, hl, h⟩ := ih
    rw [List.range_succ, List.foldl_append, h]
    exact ⟨_, (lmod_length ..).trans hl, rfl⟩

/-- A channel among those rewritten holds its new record, any other its old one. -/
theorem foldl_setFch_fch (F : Nat → FioCh → FioCh) (b n : Nat) (s : State) (hlen : b + n ≤ s.fioCh.length) (c : Nat) :
    ((List.range n).foldl (fun (s : State) c => s.setFch (b + c) (F c (s.fch (b + c)))) s).fch (b + c) =
      if c < n then F c (s.fch (b + c)) else s.fch (b + c) := by
  induction n generalizing c with
  | zero => rfl
  | succ n ih =>
    obtain ⟨l, hl, h⟩ := foldl_setFch_same F b n s
    have hsame := ih (by omega)
    rw [List.range_succ, List.foldl_append, List.foldl_cons, List.foldl_nil]
    generalize (List.range n).foldl _ s = t at h hsame ⊢
    obtain rfl | hne := eq_or_ne c n
    · rw [State.fch_setFch_self _ _ (by rw [h]; dsimp only; omega), hsame, if_neg (by omega), if_pos (by omega)]
    · rw [State.fch_setFch_ne _ _ (by omega), hsame]
      exact if_congr (by omega) rfl rfl

/-! ### Bits of a frame (R264, R265) -/

theorem crc16Bit_lt {poly c : Nat} (b : Bool) (hp : poly < 2 ^ 16) : crc16Bit poly c b < 2 ^ 16 := by
  have hshift : c * 2 % 65536 < 2 ^ 16 := Nat.mod_lt _ (by decide)
  unfold crc16Bit
  dsimp only
  split
  · exact Nat.xor_lt_two_pow hshift hp
  · exact hshift

theorem ropeCrc_lt {g d : Nat} (f : W64) (hg : g < 4) (hd : d < 2) : ropeCrc g d f < 2 ^ 16 := by
  have hinit : Nat.xor 0xFFFF (0x100 * g + d) < 2 ^ 16 := Nat.xor_lt_two_pow (by decide) (by omega)
  exact List.foldlRecOn _ _ (motive := (· < 2 ^ 16)) hinit fun _ _ b _ => crc16Bit_lt b (by decide)

theorem testBit_fbits (f : W64) (hi lo i : Nat) : (fbits f hi lo).testBit i = (decide (i < hi + 1 - lo) && f.getLsbD (lo + i)) := by
  unfold fbits
  rw [Nat.testBit_mod_two_pow, Nat.testBit_div_two_pow, Nat.add_comm i lo, BitVec.testBit_toNat]

/-- The CRC of a frame leaves its upper 48 bits as they were put. -/
theorem fbits_ropeFrame {g d : Nat} (upper : Nat) (hi lo : Nat) (hg : g < 4) (hd : d < 2) (hhi : hi < 48) :
    fbits (ropeFrame g d upper) (16 + hi) (16 + lo) = upper / 2 ^ lo % 2 ^ (hi + 1 - lo) := by
  refine Nat.eq_of_testBit_eq fun i => ?_
  rw [testBit_fbits, Nat.testBit_mod_two_pow, Nat.testBit_div_two_pow, show 16 + hi + 1 - (16 + lo) = hi + 1 - lo by omega]
  by_cases hin : i < hi + 1 - lo
  · have hcrc : (ropeCrc g d (BitVec.ofNat 64 (upper * 65536))).testBit (16 + lo + i) = false :=
      Nat.testBit_lt_two_pow (Nat.lt_of_lt_of_le (ropeCrc_lt _ hg hd) (Nat.pow_le_pow_right (by decide) (by omega)))
    have hput : (upper * 65536).testBit (16 + lo + i) = upper.testBit (i + lo) := by
      rw [show 65536 = 2 ^ 16 from rfl, Nat.testBit_mul_two_pow, show 16 + lo + i - 16 = i + lo by omega]
      simp only [show 16 ≤ 16 + lo + i by omega, decide_true, Bool.true_and]
    unfold ropeFrame
    rw [BitVec.getLsbD_or, BitVec.getLsbD_ofNat, BitVec.getLsbD_ofNat, hcrc, hput]
    simp only [show 16 + lo + i < 64 by omega, decide_true, Bool.true_and, Bool.and_false, Bool.or_false]
  · simp only [hin, decide_false, Bool.false_and]

end Sys2Proof.Machine
end

section
/-! SUPPORT. Chapter 09: outbound frames of the Tightrope links (O44). -/
namespace Sys2Proof.Machine

/-! ### Outbound frames (R263, R266 to R268) -/

/-- The upper 48 bits of the outbound frame that carries a group's next setting (R264, R267). -/
def State.outUpper (s : State) (g : Nat) : Nat :=
  let x := s.fgrp g
  x.outSeq * 2 ^ 46 + x.safeCmd.toNat * 2 ^ 40 + x.out.toNat * 2 ^ 32 + x.slot * 2 ^ 43 + x.half.toNat * 2 ^ 42 +
    (s.setting (8 * g + x.slot) x.half).toNat

/-- The outbound frame that carries a group's next setting. -/
def State.outFrame (s : State) (g : Nat) : W64 := ropeFrame g 0 (s.outUpper g)

/-- A group once that frame has gone out: SEQ and SLOT step on. -/
def FioGrp.sent (x : FioGrp) (f : W64) : FioGrp :=
  { x with outSeq := (x.outSeq + 1) % 4, slot := (x.slot + 1) % 8, half := if x.slot = 7 then !x.half else x.half, lastOut := f }

/-- The module side once that frame has gone out and been counted. -/
def State.outSent (s : State) (g : Nat) : State := (s.setGrp g ((s.fgrp g).sent (s.outFrame g))).count 0x42CC 1

theorem State.outSent_group (s : State) {g : Nat} (hg : g < s.fioGrp.length) : (s.outSent g).fgrp g = (s.fgrp g).sent (s.outFrame g) :=
  s.fgrp_setGrp_self _ hg

theorem State.outSent_length (s : State) (g : Nat) : (s.outSent g).fioGrp.length = s.fioGrp.length := s.setGrp_length ..

theorem State.outSent_total (s : State) (g : Nat) : (s.outSent g).total 0x42CC = s.total 0x42CC + 1 := State.total_count ..

/-- With no bad output record and no setting posted, the frame carries the next setting (R267). -/
theorem State.ropeSend_next {s : State} {g : Nat} (cool : BitVec 8) (arrives : Bool) (hon : s.grpOn g = true)
    (hbad : s.badOutputs g = []) (hpost : sget none s.posted (100 + g) = none) : s.ropeSend g cool arrives =
      if arrives then (s.outSent g).farApply g (s.outFrame g) cool else (s.outSent g).farMissed g := by
  unfold State.ropeSend
  rw [if_neg (by rw [hon]; decide), hbad, hpost]
  rfl

/-- The fields of a frame do not overlap: SLOT at 45:43, SAFE at 40, OUT at 39:32 of the upper 48 bits (R264). -/
theorem State.outUpper_fields (s : State) (g : Nat) :
    s.outUpper g / 2 ^ 43 % 8 = (s.fgrp g).slot % 8 ∧ s.outUpper g / 2 ^ 40 % 2 = (s.fgrp g).safeCmd.toNat ∧
      s.outUpper g / 2 ^ 32 % 2 ^ 8 = (s.fgrp g).out.toNat := by
  have hout := (s.fgrp g).out.isLt
  have hset := (s.setting (8 * g + (s.fgrp g).slot) (s.fgrp g).half).isLt
  have hsafe := (s.fgrp g).safeCmd.toNat_lt
  have hhalf := (s.fgrp g).half.toNat_lt
  unfold State.outUpper
  dsimp only
  generalize BitVec.toNat _ = w at hset ⊢
  omega

section
variable (s : State) {g : Nat} (hg : g < 4)
include hg

theorem State.outFrame_slot : fbits (s.outFrame g) 61 59 = (s.fgrp g).slot % 8 := by
  obtain ⟨hslot, -, -⟩ := s.outUpper_fields g
  exact (fbits_ropeFrame (s.outUpper g) 45 43 hg (by decide) (by decide)).trans hslot

theorem State.outFrame_safe : fbits (s.outFrame g) 56 56 = (s.fgrp g).safeCmd.toNat := by
  obtain ⟨-, hsafe, -⟩ := s.outUpper_fields g
  exact (fbits_ropeFrame (s.outUpper g) 40 40 hg (by decide) (by decide)).trans hsafe

/-- The state a frame commands for a channel is its bit of OUT (R266). -/
theorem State.outFrame_out {c : Nat} (hc : c < 8) : decide (fbits (s.outFrame g) (48 + c) (48 + c) = 1) = (s.fgrp g).out.getLsbD c := by
  have hbit := fbits_ropeFrame (d := 0) (s.outUpper g) (32 + c) (32 + c) hg (by decide) (by omega)
  rw [← Nat.add_assoc, show 32 + c + 1 - (32 + c) = 1 by omega, pow_one] at hbit
  obtain ⟨-, -, hout⟩ := s.outUpper_fields g
  have hfield := congrArg (Nat.testBit · c) hout
  rw [Nat.testBit_mod_two_pow, Nat.testBit_div_two_pow, BitVec.testBit_toNat, Nat.add_comm c 32, decide_eq_true hc, Bool.true_and,
    Nat.testBit_eq_decide_div_mod_eq] at hfield
  exact (congrArg (fun n => decide (n = 1)) hbit).trans hfield

end

theorem State.farMissed_group (s : State) {g : Nat} (h : g < s.fioGrp.length) :
    (s.farMissed g).fgrp g = { s.fgrp g with outBad := (s.fgrp g).outBad + 1 } := s.fgrp_setGrp_self _ h

/-- Channel `i` of a group driven at the end of a good frame `f` (R260, R262, R268). -/
def FioCh.framed (c : FioCh) (f : W64) (cool : BitVec 8) (i : Nat) : FioCh :=
  c.drive (some (decide (fbits f (48 + i) (48 + i) = 1))) (cool.getLsbD i) (decide (fbits f 56 56 = 1))

/-- A good frame ends the run of missed ones; every channel but the one whose setting it carries is driven from what it held (R268). -/
theorem State.farApply_effect (s : State) {g : Nat} (f : W64) (cool : BitVec 8) (hg : g < s.fioGrp.length)
    (hlen : 8 * g + 8 ≤ s.fioCh.length) :
    ((s.farApply g f cool).fgrp g).outBad = 0 ∧ (s.farApply g f cool).flt = s.flt ∧ (s.farApply g f cool).cnt = s.cnt ∧
      ∀ c, c < 8 → c ≠ fbits f 61 59 → (s.farApply g f cool).fch (8 * g + c) = (s.fch (8 * g + c)).framed f cool c := by
  unfold State.farApply
  extract_lets safe k half new w x u v
  have hgrp : (v.fgrp g).outBad = 0 := congrArg FioGrp.outBad (s.fgrp_setGrp_self _ hg)
  have hch : ∀ c, c ≠ fbits f 61 59 → v.fch (8 * g + c) = s.fch (8 * g + c) := fun c hc => u.fch_setFch_ne _ (by omega)
  have hvlen : v.fioCh.length = s.fioCh.length := lmod_length ..
  obtain ⟨l, -, hfold⟩ := foldl_setFch_same (fun c x => x.framed f cool c) (8 * g) 8 v
  have hfch := foldl_setFch_fch (fun c x => x.framed f cool c) (8 * g) 8 v (by omega)
  unfold FioCh.framed at hfold hfch
  rw [hfold] at hfch ⊢
  exact ⟨hgrp, rfl, rfl, fun c hc hne => by rw [hfch, if_pos hc, hch c hne]; rfl⟩

/-- An output without a latched diagnosis takes its commanded state (R260, R262). -/
theorem FioCh.drive_clear {c : FioCh} (b cool : Bool) (hm : c.farMode = 3) (hload : c.overload = false) (htemp : c.overtemp = false) :
    (c.drive (some b) cool false).driven = b := by
  unfold FioCh.farMode at hm
  unfold FioCh.drive FioCh.farMode
  cases b <;> simp [hm, hload, htemp]

section
variable {s : State} {g : Fin 4} (he : s.engineUp 1 = true) (hon : s.grpOn g = true) (hlen : s.fioGrp.length = 4) (cool : BitVec 8)
  (hbad : s.badOutputs g = []) (hpost : sget none s.posted (100 + g.val) = none)
include he hon hlen hbad hpost

/-- The far side misses a frame (R268): SEQ and SLOT have stepped on, and no channel changes. -/
theorem tightropeFrameSend_missed : Reaches (exec (.tightropeFrameSend g cool false) s) fun t =>
    (t.fgrp g).outSeq = ((s.fgrp g).outSeq + 1) % 4 ∧ (t.fgrp g).slot = ((s.fgrp g).slot + 1) % 8 ∧
      (t.fgrp g).outBad = (s.fgrp g).outBad + 1 ∧ t.fioCh = s.fioCh ∧ t.total 0x42CC = s.total 0x42CC + 1 := by
  have hg : g.val < s.draw.fioGrp.length := g.isLt.trans_eq hlen.symm
  have hmissed := (s.draw.outSent g).farMissed_group (hg.trans_eq (s.draw.outSent_length g).symm)
  have hrun : s.draw.ropeSend g cool false = (s.draw.outSent g).farMissed g := s.draw.ropeSend_next cool false hon hbad hpost
  refine (fieldEvent_shown (f := fun s => s.ropeSend g cool false) he hrun rfl).imp fun t h => ?_
  rw [h.fgrp, hmissed, s.draw.outSent_group hg, h.fioCh, h.total _ (by decide)]
  exact ⟨rfl, rfl, rfl, rfl, s.draw.outSent_total g⟩

/-- The far side has a frame (R267, R268): the run of missed ones ends, and an output that nothing latches takes its commanded state. -/
theorem tightropeFrameSend_arrives (hch : s.fioCh.length = 32) : Reaches (exec (.tightropeFrameSend g cool true) s) fun t =>
    t.total 0x42CC = s.total 0x42CC + 1 ∧ (t.fgrp g).outBad = 0 ∧
      ∀ c, c < 8 → c ≠ (s.fgrp g).slot % 8 → (s.fgrp g).safeCmd = false → (s.fch (8 * g + c)).farMode = 3 →
        (s.fch (8 * g + c)).overload = false → (s.fch (8 * g + c)).overtemp = false →
          (t.fch (8 * g + c)).driven = (s.fgrp g).out.getLsbD c := by
  have hg : g.val < s.draw.fioGrp.length := g.isLt.trans_eq hlen.symm
  have hroom : 8 * g.val + 8 ≤ (s.draw.outSent g).fioCh.length := by
    change _ ≤ s.fioCh.length; omega
  have hrun : s.draw.ropeSend g cool true = (s.draw.outSent g).farApply g (s.draw.outFrame g) cool :=
    s.draw.ropeSend_next cool true hon hbad hpost
  obtain ⟨hnone, hflt, hcnt, hdrive⟩ :=
    (s.draw.outSent g).farApply_effect (s.draw.outFrame g) cool (hg.trans_eq (s.draw.outSent_length g).symm) hroom
  refine (fieldEvent_shown (f := fun s => s.ropeSend g cool true) he hrun (congrArg Flt.nest hflt)).imp fun t h => ?_
  rw [h.total _ (by decide), h.fgrp]
  refine ⟨(congrArg (sget 0 · 0x42CC) hcnt).trans (s.draw.outSent_total g), hnone, fun c hc hslot hsafe hmode hload htemp => ?_⟩
  have hcarried : c ≠ fbits (s.draw.outFrame g) 61 59 := by rwa [s.draw.outFrame_slot g.isLt]
  have hunsafe : fbits (s.draw.outFrame g) 56 56 = 0 := (s.draw.outFrame_safe g.isLt).trans (congrArg Bool.toNat hsafe)
  rw [h.fch, hdrive c hc hcarried, FioCh.framed, s.draw.outFrame_out g.isLt hc, hunsafe]
  exact FioCh.drive_clear _ _ hmode hload htemp

end

end Sys2Proof.Machine
end

section
/-! SUPPORT. Chapter 09: inbound frames of the Tightrope links (O44). -/
namespace Sys2Proof.Machine

/-! ### Inbound frames (R257, R265, R267, R269 to R271) -/

theorem State.report_fioGrp (s : State) (cls : EvClass) (blk bit : Nat) (booth : Byte) (data : Nat) :
    (s.report cls blk bit booth data).fioGrp = s.fioGrp := by
  obtain ⟨_, _, _, h⟩ := (report_logOnly s cls blk bit booth data).same; rw [h]

/-- `t` follows `s` without a nested CRITICAL: of group `g` nothing but the wait for an ACK may differ, no SQ field is cleared, and counter
`o` stands. -/
structure GroupKept (g o : Nat) (s t : State) : Prop where
  grp : ∃ b, t.fgrp g = { s.fgrp g with newSent := b }
  length : t.fioGrp.length = s.fioGrp.length
  nest : t.flt.nest = s.flt.nest
  sq : ∀ b i, s.sq b i = true → t.sq b i = true
  total : t.total o = s.total o

section
variable {g o : Nat} {s t u : State}

/-- A step that leaves the groups, the fault unit, the status records and the counters. -/
theorem GroupKept.of_same (hgrp : t.fioGrp = s.fioGrp) (hflt : t.flt = s.flt) (hstat : t.stat = s.stat) (hcnt : t.cnt = s.cnt) :
    GroupKept g o s t where
  grp := ⟨(s.fgrp g).newSent, congrArg (·.getD g {}) hgrp⟩
  length := congrArg List.length hgrp
  nest := congrArg Flt.nest hflt
  sq b i h := by unfold State.sq State.statOf at h ⊢; rwa [hstat]
  total := congrArg (sget 0 · o) hcnt

theorem GroupKept.refl (s : State) : GroupKept g o s s := .of_same rfl rfl rfl rfl

theorem GroupKept.trans (h : GroupKept g o s t) (k : GroupKept g o t u) : GroupKept g o s u where
  grp := by
    obtain ⟨_, ht⟩ := h.grp
    obtain ⟨b, hu⟩ := k.grp
    exact ⟨b, by rw [hu, ht]⟩
  length := k.length.trans h.length
  nest := k.nest.trans h.nest
  sq b i e := k.sq b i (h.sq b i e)
  total := k.total.trans h.total

theorem GroupKept.ite {c : Prop} [Decidable c] (h : c → GroupKept g o s t) (k : ¬c → GroupKept g o s u) :
    GroupKept g o s (if c then t else u) := by
  split
  · exact h ‹_›
  · exact k ‹_›

theorem GroupKept.count (h : GroupKept g o s t) {off : Nat} (n : Nat) (ho : off ≠ o) : GroupKept g o s (t.count off n) :=
  h.trans ⟨⟨_, rfl⟩, rfl, rfl, fun _ _ e => e, State.total_count_ne _ n ho⟩

theorem GroupKept.setSQ (h : GroupKept g o s t) (b i : Nat) : GroupKept g o s (t.setSQ b i) :=
  h.trans ⟨⟨_, rfl⟩, rfl, rfl, fun _ _ e => State.sq_setSQ_mono _ b i e, rfl⟩

theorem GroupKept.warn (h : GroupKept g o s t) (b i : Nat) (booth : Byte) (data : Nat) (ho : o < 0x9840) :
    GroupKept g o s (t.report .warn b i booth data) :=
  have hgrp := t.report_fioGrp .warn b i booth data
  h.trans ⟨⟨_, congrArg (·.getD g {}) hgrp⟩, congrArg List.length hgrp, raise_nest _ _ _ _ _ _ (by decide),
    (report_logOnly ..).sq, t.report_total_low _ _ _ _ _ ho⟩

theorem setFch_groupKept (s : State) (k : Nat) (c : FioCh) : GroupKept g o s (s.setFch k c) := .of_same rfl rfl rfl rfl

end

theorem State.noteWrites_same (s : State) (l : List Shadow) : ∃ x, s.noteWrites l = { s with trap := x } := by
  unfold State.noteWrites State.noteOut
  split
  · exact ⟨_, rfl⟩
  · exact ⟨s.trap, rfl⟩

/-- A confirmed setting reaches its register and channel (R271). -/
theorem takeSetting_groupKept (g o : Nat) (s : State) (off : Nat) (v : W32) : GroupKept g o s (s.takeSetting off v) := by
  obtain ⟨x, hnote⟩ := (s.applyReg off v).noteWrites_same [{ off, mask := 0xFFFFFFFF, val := v, due := 0 }]
  unfold State.takeSetting
  rw [hnote]
  extract_lets k old rm u c
  have hu : GroupKept g o s u := .of_same rfl rfl rfl rfl
  exact .ite (fun _ => hu.trans (setFch_groupKept ..)) fun _ => .ite (fun _ => hu) fun _ => hu.trans (setFch_groupKept ..)

theorem takeDiag_groupKept (g : Nat) {o : Nat} (s : State) (k : Nat) (d : BitVec 4) (ho : o < 0x42D8) :
    GroupKept g o s (s.takeDiag k d) := by
  unfold State.takeDiag
  extract_lets c new s0 s1 s2 s3 s4
  have h0 : GroupKept g o s s0 := setFch_groupKept ..
  have h1 : GroupKept g o s s1 := .ite (fun _ => (h0.warn 8 4 0xFF k (by omega)).count 1 (by omega)) fun _ => h0
  have h2 : GroupKept g o s s2 := .ite (fun _ => (h1.warn 8 4 0xFF k (by omega)).count 1 (by omega)) fun _ => h1
  have h3 : GroupKept g o s s3 := .ite (fun _ => (h2.warn 8 4 0xFF k (by omega)).count 1 (by omega)) fun _ => h2
  have h4 : GroupKept g o s s4 := .ite (fun _ => (h3.setSQ 8 3).count 1 (by omega)) fun _ => h3
  exact .ite (fun _ => h4.count 1 (by omega)) fun _ => h4

theorem takeCount_groupKept (g o : Nat) (s : State) (k : Nat) (x : BitVec 28) (ns : Int) : GroupKept g o s (s.takeCount k x ns) := by
  unfold State.takeCount
  dsimp only
  refine .ite (fun _ => .refl s) fun _ => ?_
  split
  · exact setFch_groupKept ..
  · exact .ite (fun _ => .refl s) fun _ => setFch_groupKept ..

theorem countGap_groupKept (g : Nat) {o : Nat} (s : State) (k : Nat) (ho : 0x42FC ≠ o) : GroupKept g o s (s.countGap k) := by
  unfold State.countGap
  exact .ite (fun _ => ((setFch_groupKept ..).setSQ 8 1).count 1 ho) fun _ => .refl s

/-- The wait for an ACK set in group `g`. -/
theorem setGrp_groupKept {g : Nat} (o : Nat) {s t : State} (h : GroupKept g o s t) (b : Bool) (hg : g < s.fioGrp.length) :
    GroupKept g o s (t.setGrp g { s.fgrp g with newSent := b }) where
  grp := ⟨b, t.fgrp_setGrp_self _ (h.length ▸ hg)⟩
  length := (t.setGrp_length ..).trans h.length
  nest := h.nest
  sq := h.sq
  total := h.total

theorem takeAck_groupKept {g : Nat} (o : Nat) (s : State) (ack : Bool) (hg : g < s.fioGrp.length) : GroupKept g o s (s.takeAck g ack) := by
  unfold State.takeAck
  extract_lets x t
  have ht : GroupKept g o s t := by
    unfold t
    split
    · exact takeSetting_groupKept ..
    · exact .refl s
  refine .ite (fun _ => .refl s) fun _ => .ite (fun _ => ?_) fun _ => setGrp_groupKept o (.refl s) false hg
  exact (setGrp_groupKept o ht false hg).trans (.of_same rfl rfl rfl rfl)

theorem State.takeAck_false_fioCh (s : State) (g : Nat) : (s.takeAck g false).fioCh = s.fioCh := by
  unfold State.takeAck
  dsimp only
  split
  · rfl
  · rw [if_neg (by simp)]; rfl

@[simp] theorem State.draw_farFrame (s : State) (g : Nat) : s.draw.farFrame g = s.farFrame g := rfl

theorem State.farSent_length (s : State) (g : Nat) : (s.farSent g).fioGrp.length = s.fioGrp.length := State.setGrp_length ..

/-- The far side's next frame has gone out: a group's record and nothing else. -/
theorem State.farSent_group (s : State) {g : Nat} (hg : g < s.fioGrp.length) : (s.farSent g).fgrp g =
    { s.fgrp g with farSeq := ((s.fgrp g).farSeq + 1) % 4, farSlot := ((s.fgrp g).farSlot + 1) % 8, farAck := false, farFix := false } :=
  s.fgrp_setGrp_self _ hg

/-- A group with one more bad inbound frame in a row (R269). -/
def FioGrp.missed (x : FioGrp) : FioGrp := { x with badRun := x.badRun + 1, goodRun := 0 }

/-- A missed inbound frame adds to the run of bad ones and ends the run of good ones; no channel changes (R269). -/
theorem State.ropeMissed_effect (s : State) {g : Nat} (hg : g < s.fioGrp.length) (o : Nat) :
    GroupKept g o (s.setGrp g (s.fgrp g).missed) (s.ropeMissed g) ∧ (s.ropeMissed g).fioCh = s.fioCh :=
  ⟨takeAck_groupKept o _ false (by rwa [State.setGrp_length]), State.takeAck_false_fioCh _ g⟩

/-- What a missed frame leaves of its group, the far side having sent it (R269). -/
theorem State.ropeMissed_farSent_group (s : State) {g : Nat} (hg : g < s.fioGrp.length) :
    (((s.farSent g).ropeMissed g).fgrp g).badRun = (s.fgrp g).badRun + 1 ∧ (((s.farSent g).ropeMissed g).fgrp g).goodRun = 0 ∧
      (((s.farSent g).ropeMissed g).fgrp g).latest = (s.fgrp g).latest := by
  obtain ⟨hkept, -⟩ := (s.farSent g).ropeMissed_effect (g := g) (by rwa [State.farSent_length]) 0
  obtain ⟨b, hgrp⟩ := hkept.grp
  rw [hgrp, State.fgrp_setGrp_self _ _ (by rwa [State.farSent_length]), s.farSent_group hg]
  exact ⟨rfl, rfl, rfl⟩

theorem State.ropeReceive_none {s : State} {g : Nat} (start : Int) (vsup : BitVec 9) (temp : Byte) (hon : s.grpOn g = true) :
    s.ropeReceive g none start vsup temp = (s.farSent g).ropeMissed g := if_neg (by rw [hon]; decide)

theorem State.ropeReceive_bad {s : State} {g : Nat} {noise : W64} (start : Int) (vsup : BitVec 9) (temp : Byte) (hon : s.grpOn g = true)
    (hcrc : ropeGood g 1 (s.farFrame g ^^^ noise) = false) : s.ropeReceive g (some noise) start vsup temp =
      (((s.farSent g).ropeMissed g).bumpSat (0x4020 + 4 * g) 31 16).count 0x42C4 1 :=
  (if_neg (by rw [hon]; decide)).trans (if_pos hcrc)

/-- A group once a good inbound frame has been taken in, its wait for an ACK apart (R265, R268, R270). -/
def FioGrp.taken (x : FioGrp) (f : W64) (ts : Stamp) (vsup : BitVec 9) (temp : Byte) : FioGrp :=
  let ws := decide (fbits f 56 56 = 1)
  let enter := ws && !x.wsafe
  { x with badRun := 0, goodRun := x.goodRun + 1, inSeq := some (fbits f 63 62), latest := some (f, ts), vsup := vsup.toNat, temp,
           wsafe := ws, safeCmd := x.safeCmd || enter, safeWanted := x.safeWanted || enter, safeDone := x.safeDone && !enter }

/-- A frame with a correct CRC is latched with its timestamp and counted once; what it brings else leaves that as it is (R265, R270). -/
theorem State.ropeTake_good (s : State) {g : Nat} {f : W64} (start : Int) (vsup : BitVec 9) (temp : Byte) (hg : g < s.fioGrp.length)
    (hcrc : ropeGood g 1 f = true) :
    (∃ b, (s.ropeTake g f start vsup temp).fgrp g = { (s.fgrp g).taken f (s.stampAt (start / 1000)) vsup temp with newSent := b }) ∧
      (s.ropeTake g f start vsup temp).flt.nest = s.flt.nest ∧
      (s.ropeTake g f start vsup temp).total 0x42C0 = s.total 0x42C0 + 1 := by
  unfold State.ropeTake
  rw [if_neg (by rw [hcrc]; decide)]
  extract_lets x seq s0 ws enter s1 s2 s3 s4 s5 k s6
  have h0 : GroupKept g 0x42C0 s s0 := .ite (fun _ => (GroupKept.refl s).count 1 (by decide)) fun _ => .refl s
  have hstamp : s0.stampAt (start / 1000) = s.stampAt (start / 1000) := by unfold s0; split <;> rfl
  have hput : s1.fgrp g = x.taken f (s.stampAt (start / 1000)) vsup temp := by
    rw [← hstamp]; exact s0.fgrp_setGrp_self _ (h0.length ▸ hg)
  have hlen : s1.fioGrp.length = s.fioGrp.length := (s0.setGrp_length ..).trans h0.length
  have h3 : GroupKept g 0x42C0 s2 s3 := .ite (fun _ => ((GroupKept.refl s2).setSQ 8 2).count 1 (by decide)) fun _ => .refl s2
  have h4 : GroupKept g 0x42C0 s2 s4 := .ite (fun _ => (h3.warn 8 7 _ _ (by decide)).count 1 (by decide)) fun _ => h3
  have h5 : GroupKept g 0x42C0 s2 s5 := h4.trans (takeAck_groupKept _ s4 _ (by rw [h4.length]; exact hlen ▸ hg))
  have h6 : GroupKept g 0x42C0 s2 s6 := h5.trans (takeDiag_groupKept g s5 _ _ (by decide))
  have hend : GroupKept g 0x42C0 s2 (if x.link = 1 then s6.takeCount k (BitVec.ofNat 28 (fbits f 43 16)) (s6.crsl.upNs + start) else s6) :=
    .ite (fun _ => h6.trans (takeCount_groupKept ..)) fun _ => h6
  obtain ⟨b, hgrp⟩ := hend.grp
  refine ⟨⟨b, by rw [hgrp, show s2.fgrp g = s1.fgrp g from rfl, hput]⟩, hend.nest.trans h0.nest, hend.total.trans ?_⟩
  exact (s1.total_count _ 1).trans (congrArg (· + 1) h0.total)

theorem State.ropeReceive_some {s : State} {g : Nat} {noise : W64} (start : Int) (vsup : BitVec 9) (temp : Byte) (hon : s.grpOn g = true) :
    s.ropeReceive g (some noise) start vsup temp = (s.farSent g).ropeTake g (s.farFrame g ^^^ noise) start vsup temp :=
  if_neg (by rw [hon]; decide)

section
variable {s : State} {g : Fin 4} (he : s.engineUp 1 = true) (hon : s.grpOn g = true) (hlen : s.fioGrp.length = 4)
include he hon hlen

/-- Nothing arrives (R269). -/
theorem tightropeFrameReceive_none (start : Int) (vsup : BitVec 9) (temp : Byte) :
    Reaches (exec (.tightropeFrameReceive g none start vsup temp) s) fun t => (t.fgrp g).badRun = (s.fgrp g).badRun + 1 ∧
      (t.fgrp g).goodRun = 0 ∧ (t.fgrp g).latest = (s.fgrp g).latest ∧ t.fioCh = s.fioCh := by
  have hg : g.val < s.draw.fioGrp.length := g.isLt.trans_eq hlen.symm
  obtain ⟨hkept, hch⟩ := (s.draw.farSent g).ropeMissed_effect (g := g) (by rwa [State.farSent_length]) 0
  obtain ⟨hbad, hgood, hlatest⟩ := s.draw.ropeMissed_farSent_group hg
  refine (fieldEvent_shown (f := fun s => s.ropeReceive g none start vsup temp) he (s.draw.ropeReceive_none start vsup temp hon)
    hkept.nest).imp fun t h => ?_
  rw [h.fgrp, h.fioCh]
  exact ⟨hbad, hgood, hlatest, hch⟩

/-- A frame with a wrong CRC is discarded and counted (R265, R269). -/
theorem tightropeFrameReceive_bad {noise : W64} (start : Int) (vsup : BitVec 9) (temp : Byte)
    (hcrc : ropeGood g 1 (s.farFrame g ^^^ noise) = false) :
    Reaches (exec (.tightropeFrameReceive g (some noise) start vsup temp) s) fun t => (t.fgrp g).badRun = (s.fgrp g).badRun + 1 ∧
      (t.fgrp g).goodRun = 0 ∧ (t.fgrp g).latest = (s.fgrp g).latest ∧ t.fioCh = s.fioCh ∧ t.total 0x42C4 = s.total 0x42C4 + 1 := by
  have hg : g.val < s.draw.fioGrp.length := g.isLt.trans_eq hlen.symm
  obtain ⟨hkept, hch⟩ := (s.draw.farSent g).ropeMissed_effect (g := g) (by rwa [State.farSent_length]) 0x42C4
  obtain ⟨hbad, hgood, hlatest⟩ := s.draw.ropeMissed_farSent_group hg
  rw [← s.draw_farFrame] at hcrc
  have hrun := s.draw.ropeReceive_bad start vsup temp hon hcrc
  have htotal := hkept.total
  have hnest := hkept.nest
  generalize (s.draw.farSent g).ropeMissed g = v at hrun hnest htotal hch hbad hgood hlatest
  refine (fieldEvent_shown (f := fun s => s.ropeReceive g (some noise) start vsup temp) he hrun hnest).imp fun t h => ?_
  rw [h.fgrp, h.fioCh, h.total _ (by decide), State.total_count]
  exact ⟨hbad, hgood, hlatest, hch, congrArg (· + 1) htotal⟩

/-- A frame with a correct CRC is latched with its timestamp (R265). -/
theorem tightropeFrameReceive_good {noise : W64} (start : Int) (vsup : BitVec 9) (temp : Byte)
    (hcrc : ropeGood g 1 (s.farFrame g ^^^ noise) = true) :
    Reaches (exec (.tightropeFrameReceive g (some noise) start vsup temp) s) fun t =>
      (t.fgrp g).badRun = 0 ∧ (t.fgrp g).goodRun = (s.fgrp g).goodRun + 1 ∧
        (t.fgrp g).latest = some (s.farFrame g ^^^ noise, s.stampAt (start / 1000)) ∧ (t.fgrp g).vsup = vsup.toNat ∧
        (t.fgrp g).farSeq = ((s.fgrp g).farSeq + 1) % 4 ∧ (t.fgrp g).farSlot = ((s.fgrp g).farSlot + 1) % 8 ∧
        t.total 0x42C0 = s.total 0x42C0 + 1 := by
  have hg : g.val < s.draw.fioGrp.length := g.isLt.trans_eq hlen.symm
  have hrun := s.draw.ropeReceive_some (noise := noise) start vsup temp hon
  rw [s.draw_farFrame] at hrun
  obtain ⟨⟨b, hgrp⟩, hnest, htotal⟩ := (s.draw.farSent g).ropeTake_good (g := g) start vsup temp
    (by rwa [State.farSent_length]) hcrc
  refine (fieldEvent_shown (f := fun s => s.ropeReceive g (some noise) start vsup temp) he hrun
    hnest).imp fun t h => ?_
  rw [h.fgrp, h.total _ (by decide), htotal, hgrp, s.draw.farSent_group hg]
  exact ⟨rfl, rfl, rfl, rfl, rfl, rfl, rfl⟩

end

end Sys2Proof.Machine
end

section
/-! SUPPORT. Chapter 09: link events and the far side's watchdog (O44). -/
namespace Sys2Proof.Machine

/-! ### Link events (R268, R269) -/

/-- A group whose link is lost at `ns` (R269). -/
def FioGrp.lost (x : FioGrp) (ns : Nat) : FioGrp := { x with link := 2, lostNs := ns, goodRun := 0 }

/-- The module side of a group whose link is lost, its losses counted in the group's register (R269). -/
def State.linkDropped (s : State) (g : Nat) : State := (s.setGrp g ((s.fgrp g).lost s.crsl.upNs)).bumpSat (0x4020 + 4 * g) 15 8

theorem State.linkDropped_group (s : State) {g : Nat} (hg : g < s.fioGrp.length) :
    (s.linkDropped g).fgrp g = (s.fgrp g).lost s.crsl.upNs := s.fgrp_setGrp_self _ hg

theorem foldl_groupKept {α : Type} {g o : Nat} (f : State → α → State) (hf : ∀ t x, GroupKept g o t (f t x)) (l : List α)
    (s : State) : GroupKept g o s (l.foldl f s) :=
  List.foldlRecOn _ _ (GroupKept.refl s) fun t h x _ => h.trans (hf t x)

/-- A link with its good frames comes up: shown where it had been lost, counted where it was in its first training (R269). -/
theorem State.ropeBack_effect (s : State) {g : Nat} (hg : g < s.fioGrp.length) (hon : s.grpOn g = true) (hdown : (s.fgrp g).link ≠ 1)
    (hgood : 64 ≤ (s.fgrp g).goodRun) :
    ((s.ropeBack g).fgrp g).link = 1 ∧ (s.ropeBack g).flt.nest = s.flt.nest ∧
      ((s.fgrp g).link = 2 → (s.ropeBack g).sq 8 10 = true) ∧
      ((s.fgrp g).link = 0 → (s.ropeBack g).total 0x42D4 = s.total 0x42D4 + 1) := by
  unfold State.ropeBack
  extract_lets x long up shown counted
  rw [if_pos ⟨hon, hdown, hgood⟩]
  have hup : up.fgrp g = { x with link := 1, training := false } := s.fgrp_setGrp_self _ hg
  have hshown : ∀ o, GroupKept g o up shown := fun o => .ite (fun _ => (GroupKept.refl up).setSQ 8 10) fun _ => .refl up
  have hcounted : GroupKept g 0 shown counted := .ite (fun _ => (GroupKept.refl shown).count 1 (by decide)) fun _ => .refl shown
  have hgaps : ∀ o, 0x42FC ≠ o → GroupKept g o counted
      (if long then ((List.range 8).map (8 * g + ·)).foldl (fun (s : State) k => s.countGap k) counted else counted) := fun o ho =>
    .ite (fun _ => foldl_groupKept _ (fun t k => countGap_groupKept g t k ho) _ _) fun _ => .refl counted
  have hend := ((hshown 0).trans hcounted).trans (hgaps 0 (by decide))
  obtain ⟨b, hgrp⟩ := hend.grp
  refine ⟨by rw [hgrp, hup], hend.nest, fun hlost => ?_, fun hfirst => ?_⟩
  · have hset : shown = up.setSQ 8 10 := if_pos hlost
    exact (hcounted.trans (hgaps 0 (by decide))).sq 8 10 (hset ▸ State.sq_setSQ_self up 8 10)
  · have hcount : counted = shown.count 0x42D4 1 := if_pos (.inl hfirst)
    rw [(hgaps 0x42D4 (by decide)).total, hcount, State.total_count, (hshown 0x42D4).total]
    rfl

/-- The far side's watchdog leaves a group whose run of missed frames is shorter than 8 (R268). -/
theorem State.ropeWdog_early {s : State} {g : Nat} (hbist : s.sys.ioeBad.getLsbD 1 = false) (hfew : (s.fgrp g).outBad < 8) :
    s.ropeWdog g = s := if_neg (by rw [hbist]; simp; omega)

/-- An output whose safe value is off is driven off by the far side of its own (R262, R268). -/
theorem FioCh.drive_safe_off {c : FioCh} (hmode : c.farMode = 3) (hsafe : bits c.farCfg 13 12 = 0) :
    (c.drive none false true).driven = false := by
  unfold FioCh.farMode at hmode
  unfold FioCh.drive FioCh.farMode
  simp [hmode, hsafe]

/-- After 8 missed frames the watchdog drives every channel of the group to its safe value (R268). -/
theorem State.ropeWdog_effect (s : State) {g : Nat} (hg : g < s.fioGrp.length) (hlen : 8 * g + 8 ≤ s.fioCh.length)
    (hon : s.grpOn g = true) (hmany : 8 ≤ (s.fgrp g).outBad) :
    ((s.ropeWdog g).fgrp g).farSafe = true ∧ (s.ropeWdog g).flt = s.flt ∧
      ∀ c, c < 8 → (s.ropeWdog g).fch (8 * g + c) = (s.fch (8 * g + c)).drive none false true := by
  unfold State.ropeWdog
  rw [if_pos ⟨hon, .inl hmany⟩]
  extract_lets x u
  have hsafe : (u.fgrp g).farSafe = true := congrArg FioGrp.farSafe (s.fgrp_setGrp_self _ hg)
  rw [List.foldl_map]
  obtain ⟨l, -, hfold⟩ := foldl_setFch_same (fun _ x => x.drive none false true) (8 * g) 8 u
  have hfch := foldl_setFch_fch (fun _ x => x.drive none false true) (8 * g) 8 u hlen
  rw [hfold] at hfch ⊢
  exact ⟨hsafe, rfl, fun c hc => (hfch c).trans (if_pos hc)⟩

section
variable {s : State} {g : Fin 4} (he : s.engineUp 1 = true) (hon : s.grpOn g = true) (hlen : s.fioGrp.length = 4)
include he hon hlen

/-- Four bad frames in a row: the link is lost, reported and counted (R269). -/
theorem linkLost_reaches (hlink : (s.fgrp g).link = 1) (hbad : 4 ≤ (s.fgrp g).badRun) : Reaches (exec (.linkLost g) s) fun t =>
    (t.fgrp g).link = 2 ∧ (t.fgrp g).lostNs = s.crsl.upNs ∧ t.sq 8 6 = true ∧ t.total 0x42D0 = s.total 0x42D0 + 1 := by
  have hrun : s.draw.ropeLost g = ((s.draw.linkDropped g).report .warn 8 6 0xFF g).count 0x42D0 1 := if_pos ⟨hon, hlink, hbad⟩
  have hkept := (GroupKept.refl (g := g) (o := 0x42D0) (s.draw.linkDropped g)).warn 8 6 0xFF g (by decide)
  have hshown := report_sq (s.draw.linkDropped g) .warn 8 6 0xFF g
  obtain ⟨b, hgrp⟩ := hkept.grp
  rw [s.draw.linkDropped_group (g.isLt.trans_eq hlen.symm)] at hgrp
  have htotal := hkept.total
  have hnest := hkept.nest
  generalize (s.draw.linkDropped g).report .warn 8 6 0xFF g = v at hrun hgrp htotal hnest hshown
  refine (fieldEvent_shown (f := fun s => s.ropeLost g) he hrun hnest).imp fun t h => ?_
  rw [h.fgrp, h.total _ (by decide), State.total_count, htotal, show (v.count 0x42D0 1).fgrp g = v.fgrp g from rfl, hgrp]
  exact ⟨rfl, rfl, h.sq 8 6 hshown, rfl⟩

/-- A link that is lost and trained again waits for its good frames anew (R269). -/
theorem linkRetrain_reaches (hlink : (s.fgrp g).link = 2) : Reaches (exec (.linkRetrain g) s) fun t =>
    (t.fgrp g).goodRun = 0 ∧ (t.fgrp g).inSeq = none ∧ (t.fgrp g).training = true ∧ (t.fgrp g).link = 2 := by
  have hrun : s.draw.ropeRetrain g = s.draw.setGrp g { s.fgrp g with inSeq := none, badRun := 0, goodRun := 0, training := true } :=
    if_pos ⟨hon, hlink⟩
  refine (fieldEvent_shown (f := fun s => s.ropeRetrain g) he hrun rfl).imp fun t h => ?_
  rw [h.fgrp, s.draw.fgrp_setGrp_self _ (g.isLt.trans_eq hlen.symm)]
  exact ⟨rfl, rfl, rfl, hlink⟩

theorem linkBack_reaches (hdown : (s.fgrp g).link ≠ 1) (hgood : 64 ≤ (s.fgrp g).goodRun) : Reaches (exec (.linkBack g) s) fun t =>
    (t.fgrp g).link = 1 ∧ ((s.fgrp g).link = 2 → t.sq 8 10 = true) ∧
      ((s.fgrp g).link = 0 → t.total 0x42D4 = s.total 0x42D4 + 1) := by
  obtain ⟨hlink, hnest, hshown, hcounted⟩ := s.draw.ropeBack_effect (g := g) (g.isLt.trans_eq hlen.symm) hon hdown hgood
  refine (fieldEvent_shown (f := fun s => s.ropeBack g) he rfl hnest).imp fun t h => ?_
  rw [h.fgrp, h.total _ (by decide)]
  exact ⟨hlink, fun hlost => h.sq 8 10 (hshown hlost), hcounted⟩

theorem wdogSafe_reaches (hch : s.fioCh.length = 32) (hmany : 8 ≤ (s.fgrp g).outBad) : Reaches (exec (.wdogSafe g) s) fun t =>
    (t.fgrp g).farSafe = true ∧ ∀ c, c < 8 → (s.fch (8 * g + c)).farMode = 3 → bits (s.fch (8 * g + c)).farCfg 13 12 = 0 →
      (t.fch (8 * g + c)).driven = false := by
  obtain ⟨hp, hcalm, -⟩ := State.engineUp_iff.mp he
  obtain ⟨hsafe, hflt, hdriven⟩ := s.draw.ropeWdog_effect (g := g) (g.isLt.trans_eq hlen.symm)
    (by rw [State.draw_fioCh, hch]; omega) hon hmany
  refine (live_fieldShown (f := fun s => s.ropeWdog g) (State.up_iff.mpr ⟨hp, hcalm⟩) rfl (congrArg Flt.nest hflt)).imp fun t h => ?_
  rw [h.fgrp]
  refine ⟨hsafe, fun c hc hmode hoff => ?_⟩
  rw [h.fch, hdriven c hc]
  exact FioCh.drive_safe_off hmode hoff

end

theorem wdogSafe_early {s : State} {g : Fin 4} (he : s.engineUp 1 = true) (hfew : (s.fgrp g).outBad < 8) :
    Reaches (exec (.wdogSafe g) s) fun t => t.fioGrp = s.fioGrp ∧ t.fioCh = s.fioCh := by
  obtain ⟨hp, hcalm, hbist⟩ := State.engineUp_iff.mp he
  exact (live_fieldShown (f := fun s => s.ropeWdog g) (State.up_iff.mpr ⟨hp, hcalm⟩) (s.draw.ropeWdog_early hbist hfew) rfl).imp
    fun t h => ⟨h.fioGrp, h.fioCh⟩

end Sys2Proof.Machine

open Sys2Proof.Machine

/-- Settles O44, an event a clause. -/
theorem tightropeLinks : Obligations.TightropeLinks := by
  intro s g he hon hlen hch
  refine ⟨fun cool hbad hpost => ⟨tightropeFrameSend_missed he hon hlen cool hbad hpost,
      tightropeFrameSend_arrives he hon hlen cool hbad hpost hch⟩,
    tightropeFrameReceive_none he hon hlen, fun _ start vsup temp => tightropeFrameReceive_bad he hon hlen start vsup temp,
    fun _ start vsup temp => tightropeFrameReceive_good he hon hlen start vsup temp, linkLost_reaches he hon hlen,
    fun hlost hgood => ?_, fun hfirst hgood => ?_, linkRetrain_reaches he hon hlen, wdogSafe_early he, wdogSafe_reaches he hon hlen hch⟩
  · exact (linkBack_reaches he hon hlen (by omega) hgood).imp fun t ⟨hlink, hshown, _⟩ => ⟨hlink, hshown hlost⟩
  · exact (linkBack_reaches he hon hlen (by omega) hgood).imp fun t ⟨hlink, _, hcounted⟩ => ⟨hlink, hcounted hfirst⟩
end

section
/-! SUPPORT. Chapter 09: channels of the far side, and their settings (O45). -/
namespace Sys2Proof.Machine

/-! ### Far-side events of a channel (R249, R253, R254, R256, R258, R260) -/

theorem FioCh.farIn_iff {c : FioCh} : c.farIn = true ↔ c.farMode = 1 ∨ c.farMode = 2 := decide_eq_true_iff

/-- A debounced change takes the level, and a counting channel counts the edges its setting names (R253, R256). -/
theorem State.debounce_eq {s : State} {k : Nat} {b : Bool} (hin : (s.fch k).farMode = 1 ∨ (s.fch k).farMode = 2)
    (hlevel : (s.fch k).level ≠ b) (hon : s.grpOn (k / 8) = true) :
    ∃ n, s.debounce k b = s.setFch k { s.fch k with level := b, farCount := n } ∧
      ((s.fch k).farMode = 1 → n = (s.fch k).farCount) ∧
      ((s.fch k).farMode = 2 → bits (s.fch k).farCfg 7 6 = 0 → n = (s.fch k).farCount + (if b then 1 else 0)) ∧
      ((s.fch k).farMode = 2 → bits (s.fch k).farCfg 7 6 = 1 → n = (s.fch k).farCount + (if b then 0 else 1)) ∧
      ((s.fch k).farMode = 2 → bits (s.fch k).farCfg 7 6 = 2 → n = (s.fch k).farCount + 1) := by
  unfold State.debounce
  dsimp only
  rw [if_pos ⟨FioCh.farIn_iff.mpr hin, hlevel, hon⟩]
  refine ⟨_, rfl, fun hmode => ?_, fun hmode hedge => ?_, fun hmode hedge => ?_, fun hmode hedge => ?_⟩
  · exact if_neg (by rw [hmode]; simp)
  · rw [hmode, hedge]; cases b <;> simp
  · rw [hmode, hedge]; cases b <;> simp
  · rw [hmode, hedge]; simp

section
variable {s : State} {k : Fin 32} (he : s.engineUp 1 = true) (hlen : s.fioCh.length = 32)
include he hlen

/-- An event of the far side that replaces the record of its channel. -/
theorem setFch_reaches {f : State → State} {c : FioCh} (hf : f s.draw = s.draw.setFch k c) :
    Reaches (liveIoe 1 f s) fun t => t.fch k = c :=
  (fieldEvent_shown he hf rfl).imp fun _ h => (h.fch k).trans (s.draw.fch_setFch_self c (k.isLt.trans_eq hlen.symm))

theorem debounceChange_reaches (hon : s.grpOn (k.val / 8) = true) (b : Bool) (hin : (s.fch k).farMode = 1 ∨ (s.fch k).farMode = 2)
    (hlevel : (s.fch k).level ≠ b) : Reaches (exec (.debounceChange k b) s) fun t => (t.fch k).level = b ∧
      ((s.fch k).farMode = 1 → (t.fch k).farCount = (s.fch k).farCount) ∧
      ((s.fch k).farMode = 2 → bits (s.fch k).farCfg 7 6 = 0 → (t.fch k).farCount = (s.fch k).farCount + (if b then 1 else 0)) ∧
      ((s.fch k).farMode = 2 → bits (s.fch k).farCfg 7 6 = 1 → (t.fch k).farCount = (s.fch k).farCount + (if b then 0 else 1)) ∧
      ((s.fch k).farMode = 2 → bits (s.fch k).farCfg 7 6 = 2 → (t.fch k).farCount = (s.fch k).farCount + 1) := by
  obtain ⟨n, hf, hcounts⟩ := State.debounce_eq (s := s.draw) hin hlevel hon
  refine (setFch_reaches (f := fun s => s.debounce k b) he hlen hf).imp fun t h => ?_
  rw [h]
  exact ⟨rfl, hcounts⟩

theorem wireBreak_reaches (hon : s.grpOn (k.val / 8) = true) (hin : (s.fch k).farMode = 1 ∨ (s.fch k).farMode = 2)
    (hen : bitAt (s.fch k).farCfg 8 = true) (hlow : (s.fgrp (k.val / 8)).supplyLow = false) :
    Reaches (exec (.wireBreak k) s) fun t => t.fch k = { s.fch k with wireBreak := true } :=
  setFch_reaches (f := fun s => s.wireBreakOn k) he hlen (if_pos ⟨FioCh.farIn_iff.mpr hin, hen, hon, hlow⟩)

theorem wireBreakEnd_reaches : Reaches (exec (.wireBreakEnd k) s) fun t => t.fch k = { s.fch k with wireBreak := false } :=
  setFch_reaches (f := fun s => s.wireBreakOff k) he hlen rfl

theorem overload_reaches (hmode : (s.fch k).farMode = 3) (hdriven : (s.fch k).driven = true) :
    Reaches (exec (.overload k) s) fun t => t.fch k = { s.fch k with overload := true, latched := true, driven := false } :=
  setFch_reaches (f := fun s => s.overloadOn k) he hlen (if_pos ⟨hmode, hdriven⟩)

theorem overtemp_reaches (hmode : (s.fch k).farMode = 3) :
    Reaches (exec (.overtemp k) s) fun t => t.fch k = { s.fch k with overtemp := true, latched := true, driven := false } :=
  setFch_reaches (f := fun s => s.overtempOn k) he hlen (if_pos hmode)

theorem openWire_reaches (hmode : (s.fch k).farMode = 3) (hdriven : (s.fch k).driven = true)
    (hlow : (s.fgrp (k.val / 8)).supplyLow = false) :
    Reaches (exec (.openWire k) s) fun t => t.fch k = { s.fch k with openWire := true } :=
  setFch_reaches (f := fun s => s.openWireOn k) he hlen (if_pos ⟨hmode, hdriven, hlow⟩)

theorem openWireClear_reaches (hdriven : (s.fch k).driven = true) :
    Reaches (exec (.openWireClear k) s) fun t => t.fch k = { s.fch k with openWire := false } :=
  setFch_reaches (f := fun s => s.openWireOff k) he hlen (if_pos hdriven)

theorem rateGateEnd_reaches (hmode : s.fioMode k = 2) (hgate : s.flag (0x4040 + 4 * k.val) 5 = false) :
    Reaches (exec (.rateGateEnd k) s) fun t => (t.fch k).gateBase = (s.fch k).count ∧ (t.fch k).count = (s.fch k).count ∧
      (t.fch k).rate = s.draw.rateWord k
        (roundOpen (((s.fch k).count - (s.fch k).gateBase).toNat * 65536000000000) (maxI 1 (s.gateNs k))) := by
  refine (setFch_reaches (f := fun s => s.gateEnd k) he hlen (if_pos ⟨hmode, hgate⟩)).imp fun t h => ?_
  rw [h]
  exact ⟨rfl, rfl, rfl⟩

end

/-! ### The supply of a group (R249) -/

section
variable {s : State} {g : Fin 4} (he : s.engineUp 1 = true) (hlen : s.fioGrp.length = 4) (hon : s.grpOn g = true) (v : Nat)
include he hlen hon

theorem supplyLow_reaches : Reaches (exec (.supplyLow g v) s) fun t =>
    (t.fgrp g).supplyLow = true ∧ (t.fgrp g).vsup = v % 512 ∧ t.sq 8 0 = true := by
  have hgrp := s.draw.fgrp_setGrp_self { s.fgrp g with supplyLow := true, vsup := v % 512 } (g.isLt.trans_eq hlen.symm)
  refine (fieldEvent_shown (f := fun s => s.fieldLow g v) he (if_pos hon) rfl).imp fun t h => ?_
  have hshown := (h.fgrp g).trans hgrp
  rw [hshown]
  exact ⟨rfl, rfl, h.sq 8 0 (State.sq_setSQ_self ..)⟩

theorem fieldSupplyReturn_reaches : Reaches (exec (.fieldSupplyReturn g v) s) fun t =>
    (t.fgrp g).supplyLow = false ∧ (t.fgrp g).vsup = v % 512 := by
  have hgrp := s.draw.fgrp_setGrp_self { s.fgrp g with supplyLow := false, vsup := v % 512 } (g.isLt.trans_eq hlen.symm)
  refine (fieldEvent_shown (f := fun s => s.fieldBack g v) he (if_pos hon) rfl).imp fun t h => ?_
  have hshown := (h.fgrp g).trans hgrp
  rw [hshown]
  exact ⟨rfl, rfl⟩

end

/-! ### Settings of a channel (R252, R271) -/

/-- The offset of a channel's setting: its times, or its configuration. -/
def fioOff (time : Bool) (k : Nat) : Nat := (if time then 0x40C0 else 0x4040) + 4 * k

theorem fioOff_onMap (time : Bool) (k : Fin 32) : fioOff time k % 4 = 0 ∧ inBlock (fioOff time k) = true ∧
    statusReg (fioOff time k) = false := by
  revert time k; decide

theorem domainOf_fioOff (time : Bool) (k : Fin 32) : domainOf (fioOff time k) = 100 + k.val / 8 := by
  revert time k; decide

theorem writeMid_fioOff (time : Bool) (k : Fin 32) (v : W32) (s : State) :
    writeMid (fioOff time k) v s = s.channelWrite k time v := by
  cases time with
  | false =>
    have hfam : inFam (fioOff false k) 0x4040 4 32 = true := by revert k; decide
    have hk : (fioOff false k - 0x4040) / 4 = k.val := by simp [fioOff]
    unfold writeMid
    rw [if_neg (by simp [fioOff]; omega), hfam, if_pos rfl, hk]
  | true =>
    have hcfg : inFam (fioOff true k) 0x4040 4 32 = false := by revert k; decide
    have hfam : inFam (fioOff true k) 0x40C0 4 32 = true := by revert k; decide
    have hk : (fioOff true k - 0x40C0) / 4 = k.val := by simp [fioOff]
    unfold writeMid
    rw [if_neg (by simp [fioOff]; omega), hcfg, if_neg Bool.false_ne_true, hfam, if_pos rfl, hk]

/-- A word written to a channel's setting while the configuration is not frozen (R355, R474). -/
theorem writeWord_fioOff (p : Path) (time : Bool) (k : Fin 32) (v : W32) {s : State} (hf : s.cfgFrozen = false) :
    writeWord p (fioOff time k) v s = s.channelWrite k time v := by
  have hoff : 0x4040 ≤ fioOff time k ∧ fioOff time k < 0x4140 := by
    unfold fioOff; split <;> omega
  obtain ⟨halign, hblock, hstatus⟩ := fioOff_onMap time k
  rw [writeWord_eq_regWrite p v s (by omega), ← writeMid_fioOff]
  unfold regWrite
  rw [if_neg (by omega), if_neg (not_or.mpr ⟨not_not.mpr halign, ne_false_of_eq_true hblock⟩), hstatus, if_neg Bool.false_ne_true, hf,
    if_neg (by simp only [Bool.false_eq_true, false_and, not_false_eq_true]), if_neg (by omega), if_pos (by omega)]

/-- Without LOCK no field is denied (R356). -/
theorem judge_unlocked_denied (fs : List Fld) (v : W32) : (judge false fs v).denied = false := by
  refine List.foldlRecOn _ _ (motive := fun (j : Judged) => j.denied = false) rfl fun j hj f _ => ?_
  unfold judgeFld
  dsimp only
  rw [Bool.and_false, if_neg Bool.false_ne_true]
  split
  · exact hj
  · split <;> exact hj

/-- The fields of a setting that its ranges accept (R252, R357). -/
def heldBits (time : Bool) (k : Nat) (v : W32) : W32 := (judge false (fieldsOf (fioOff time k)) v).held

/-- The word a setting would hold once its write is confirmed (R271). -/
def State.settingWord (s : State) (time : Bool) (k : Nat) (v : W32) : W32 :=
  mergeBits (s.reg (fioOff time k)) (heldBits time k v) v

/-- A setting posted to its group, to go out with its next frame (R271). -/
def State.settingPosted (s : State) (time : Bool) (k : Nat) (v : W32) : State :=
  { s with posted := sset none s.posted (100 + k / 8) (some { off := fioOff time k, val := s.settingWord time k v }) }.setGrp (k / 8)
    { s.fgrp (k / 8) with newPending := some (fioOff time k), newSent := false }

theorem State.settingPosted_posted (s : State) (time : Bool) (k : Nat) (v : W32) :
    sget none (s.settingPosted time k v).posted (100 + k / 8) = some { off := fioOff time k, val := s.settingWord time k v } := by
  unfold State.settingPosted
  rw [State.setGrp_posted]
  dsimp only
  exact sget_sset_self ..

section
variable {s : State} {time : Bool} {k : Fin 32} {v : W32} (hl : s.locked 8 = false) (hheld : heldBits time k v ≠ 0)
include hl hheld

/-- A write with an accepted field in a block not locked: dropped while BUSY, refused for PULSED with MODE 2h, else posted (R252, R271). -/
theorem State.channelWrite_eq : s.channelWrite k time v =
    if s.busyDom (100 + k.val / 8) then ((s.setSQ 8 8).count 0x42F4 1).count 0x69DC 1
    else if time = false ∧ bitAt (s.settingWord time k v) 10 = true ∧ bits (s.settingWord time k v) 15 14 = 2 then s.setSQ 8 9
    else s.settingPosted time k v := by
  have hoff : (if time then 0x40C0 + 4 * k.val else 0x4040 + 4 * k.val) = fioOff time k := by cases time <;> rfl
  have hdenied := judge_unlocked_denied (fieldsOf (fioOff time k)) v
  unfold heldBits at hheld
  unfold State.channelWrite
  rw [hoff, hl]
  dsimp only
  rw [hdenied, if_neg Bool.false_ne_true, if_neg hheld]
  cases hbusy : s.busyDom (100 + k.val / 8) with
  | true => rfl
  | false =>
    rw [State.post, domainOf_fioOff, hbusy]
    rfl

theorem State.channelWrite_busy (hbusy : s.busyDom (100 + k.val / 8) = true) :
    s.channelWrite k time v = ((s.setSQ 8 8).count 0x42F4 1).count 0x69DC 1 :=
  (State.channelWrite_eq hl hheld).trans (if_pos hbusy)

theorem State.channelWrite_refused (hfree : s.busyDom (100 + k.val / 8) = false)
    (hpulsed : time = false ∧ bitAt (s.settingWord time k v) 10 = true ∧ bits (s.settingWord time k v) 15 14 = 2) :
    s.channelWrite k time v = s.setSQ 8 9 :=
  ((State.channelWrite_eq hl hheld).trans (if_neg (ne_true_of_eq_false hfree))).trans (if_pos hpulsed)

theorem State.channelWrite_posted (hfree : s.busyDom (100 + k.val / 8) = false)
    (hfits : ¬(time = false ∧ bitAt (s.settingWord time k v) 10 = true ∧ bits (s.settingWord time k v) 15 14 = 2)) :
    s.channelWrite k time v = s.settingPosted time k v :=
  ((State.channelWrite_eq hl hheld).trans (if_neg (ne_true_of_eq_false hfree))).trans (if_neg hfits)

end

section
variable {s : State} (p : Path) {time : Bool} {k : Fin 32} {v : W32} (hup : s.up = true) (hf : s.cfgFrozen = false)
include hup hf

/-- A write to a channel's setting shows what it makes of the state (R252, R271). -/
theorem fioChannelWrite_shown {u : State} (hwrite : s.draw.channelWrite k time v = u) (hn : u.flt.nest = s.flt.nest) :
    Reaches (exec (.fioChannelWrite p k time v) s) (FieldShown u) :=
  live_fieldShown (f := writeWord p (fioOff time k) v) hup ((writeWord_fioOff p time k v (s := s.draw) hf).trans hwrite) hn

variable (hl : s.locked 8 = false) (hheld : heldBits time k v ≠ 0)
include hl hheld

theorem fioChannelWrite_busy (hbusy : s.busyDom (100 + k.val / 8) = true) : Reaches (exec (.fioChannelWrite p k time v) s) fun t =>
    t.regs = s.regs ∧ t.posted = s.posted ∧ t.sq 8 8 = true ∧ t.total 0x42F4 = s.total 0x42F4 + 1 := by
  refine (fioChannelWrite_shown p hup hf (State.channelWrite_busy hl hheld hbusy) rfl).imp fun t h => ?_
  rw [h.total _ (by decide), State.total_count_ne _ 1 (by decide), State.total_count]
  exact ⟨h.regs.trans (by simp), h.posted.trans (by simp), h.sq 8 8 (State.sq_setSQ_self s.draw 8 8), rfl⟩

theorem fioChannelWrite_refused (hfree : s.busyDom (100 + k.val / 8) = false)
    (hpulsed : time = false ∧ bitAt (s.settingWord time k v) 10 = true ∧ bits (s.settingWord time k v) 15 14 = 2) :
    Reaches (exec (.fioChannelWrite p k time v) s) fun t => t.regs = s.regs ∧ t.posted = s.posted ∧ t.sq 8 9 = true :=
  (fioChannelWrite_shown p hup hf (State.channelWrite_refused hl hheld hfree hpulsed) rfl).imp fun _ h =>
    ⟨h.regs, h.posted, h.sq 8 9 (State.sq_setSQ_self s.draw 8 9)⟩

theorem fioChannelWrite_posted (hfree : s.busyDom (100 + k.val / 8) = false)
    (hfits : ¬(time = false ∧ bitAt (s.settingWord time k v) 10 = true ∧ bits (s.settingWord time k v) 15 14 = 2)) :
    Reaches (exec (.fioChannelWrite p k time v) s) fun t =>
      t.regs = s.regs ∧ sget none t.posted (100 + k.val / 8) = some { off := fioOff time k, val := s.settingWord time k v } := by
  refine (fioChannelWrite_shown p hup hf (State.channelWrite_posted hl hheld hfree hfits) rfl).imp fun t h => ⟨h.regs, ?_⟩
  rw [h.posted]
  exact s.draw.settingPosted_posted time k v

end

end Sys2Proof.Machine

open Sys2Proof.Machine

/-- Settles O45: an event of a channel or its group a clause, then a channel's setting by the three branches of its write. -/
theorem fieldChannels : Obligations.FieldChannels := by
  refine ⟨fun s k he hon hgrp hch => ⟨debounceChange_reaches he hch hon, wireBreak_reaches he hch hon, wireBreakEnd_reaches he hch,
      fun hmode hdriven => ⟨overload_reaches he hch hmode hdriven, overtemp_reaches he hch hmode,
        openWire_reaches he hch hmode hdriven, openWireClear_reaches he hch hdriven⟩,
      rateGateEnd_reaches he hch, fun g v hon => ⟨supplyLow_reaches he hgrp hon v, fieldSupplyReturn_reaches he hgrp hon v⟩⟩,
    fun s p k time v hup hf hl _ => ?_⟩
  intro off held w hheld
  exact ⟨fioChannelWrite_posted p hup hf hl hheld, fioChannelWrite_refused p hup hf hl hheld,
    fioChannelWrite_busy p hup hf hl hheld⟩
end

section
/-! SUPPORT. Chapter 10: the ends of events of the analogue engine, conversion frames, and the conditions of its channels (O47). -/
namespace Sys2Proof.Machine

/-! ### What an event of the analogue side leaves of it -/

/-- `t` follows `u` without a nested CRITICAL: the channels of the analogue side and the host's silence stand, no SQ field is cleared, and
the counters of the analogue and fan blocks stand (R283, R297). -/
structure AnaKept (u t : State) : Prop where
  ui : t.ui = u.ui
  ao : t.ao = u.ao
  fan : t.fan = u.fan
  fanSilent : t.fanSilent = u.fanSilent
  nest : t.flt.nest = u.flt.nest
  sq : ∀ b i, u.sq b i = true → t.sq b i = true
  total : ∀ o, 0x4A00 ≤ o → o < 0x5800 → t.total o = u.total o

section
variable {u t v : State}

/-- A step that leaves the channels, the fault unit, the status records and the counters. -/
theorem AnaKept.of_same (hui : t.ui = u.ui) (hao : t.ao = u.ao) (hfan : t.fan = u.fan) (hsilent : t.fanSilent = u.fanSilent)
    (hflt : t.flt = u.flt) (hstat : t.stat = u.stat) (hcnt : t.cnt = u.cnt) : AnaKept u t where
  ui := hui
  ao := hao
  fan := hfan
  fanSilent := hsilent
  nest := congrArg Flt.nest hflt
  sq b i h := by unfold State.sq State.statOf at h ⊢; rwa [hstat]
  total o _ _ := congrArg (sget 0 · o) hcnt

theorem AnaKept.refl (s : State) : AnaKept s s := .of_same rfl rfl rfl rfl rfl rfl rfl

theorem AnaKept.of_eq (h : t = u) : AnaKept u t := h ▸ .refl u

theorem AnaKept.trans (h : AnaKept u t) (k : AnaKept t v) : AnaKept u v where
  ui := k.ui.trans h.ui
  ao := k.ao.trans h.ao
  fan := k.fan.trans h.fan
  fanSilent := k.fanSilent.trans h.fanSilent
  nest := k.nest.trans h.nest
  sq b i e := k.sq b i (h.sq b i e)
  total o hlo hhi := (k.total o hlo hhi).trans (h.total o hlo hhi)

theorem AnaKept.ite {c : Prop} [Decidable c] (h : c → AnaKept u t) (k : ¬c → AnaKept u v) : AnaKept u (if c then t else v) := by
  split
  · exact h ‹_›
  · exact k ‹_›

theorem AnaKept.setSQ (h : AnaKept u t) (b i : Nat) : AnaKept u (t.setSQ b i) :=
  h.trans ⟨rfl, rfl, rfl, rfl, rfl, fun _ _ e => State.sq_setSQ_mono t b i e, fun _ _ _ => rfl⟩

/-- A counter of a block below the analogue one. -/
theorem AnaKept.countLow (h : AnaKept u t) {o : Nat} (n : Nat) (ho : o < 0x4A00) : AnaKept u (t.count o n) :=
  h.trans ⟨rfl, rfl, rfl, rfl, rfl, fun _ _ e => e, fun _ hlo _ => State.total_count_ne t n (by omega)⟩

/-- The same count on both sides. -/
theorem AnaKept.counted (h : AnaKept u t) (o n : Nat) : AnaKept (u.count o n) (t.count o n) where
  ui := h.ui
  ao := h.ao
  fan := h.fan
  fanSilent := h.fanSilent
  nest := h.nest
  sq := h.sq
  total p hlo hhi := by
    obtain rfl | hne := eq_or_ne o p
    · rw [State.total_count, State.total_count, h.total o hlo hhi]
    · rw [State.total_count_ne _ n hne, State.total_count_ne _ n hne, h.total p hlo hhi]

/-- What follows an event shown and counted shows it and has its count. -/
theorem AnaKept.reported {b i o : Nat} (h : AnaKept ((u.setSQ b i).count o 1) t) (hlo : 0x4A00 ≤ o) (hhi : o < 0x5800) :
    t.sq b i = true ∧ t.total o = u.total o + 1 :=
  ⟨h.sq b i (State.sq_setSQ_self u b i), (h.total o hlo hhi).trans (State.total_count ..)⟩

end

section
variable (s : State)

/-- An event short of a CRITICAL is logged, and sets its SQ field besides (R492, R498). -/
theorem report_anaKept {cls : EvClass} (b i : Nat) (booth : Byte) (data : Nat) (h : cls ≠ .critical) :
    AnaKept (s.setSQ b i) (s.report cls b i booth data) := by
  have hlog := raise_logOnly (s.setSQ b i) cls b i booth data
  have hnest := raise_nest (s.setSQ b i) cls b i booth data h
  have htotal := fun o => (s.setSQ b i).raise_total_low cls b i booth data (o := o)
  unfold State.report
  obtain ⟨_, _, _, e⟩ := hlog.same
  exact ⟨by rw [e], by rw [e], by rw [e], by rw [e], hnest, hlog.sq, fun o _ hhi => htotal o (by omega)⟩

theorem badRecord_anaKept (p : Nat) : AnaKept s (s.badRecord p) := by
  unfold State.badRecord
  extract_lets r old found
  refine .ite (fun _ => .refl s) fun _ => ?_
  have hstored : AnaKept s (found.storeRec p ({ r with quality := 0x85 } : PRec).sealed) := .of_same rfl rfl rfl rfl rfl rfl rfl
  exact ((hstored.setSQ 3 2).trans (report_anaKept _ 3 2 0xFF p (by decide))).countLow 1 (by decide)

theorem verifyRead_anaKept (p : Nat) : AnaKept s (s.verifyRead p) := by
  unfold State.verifyRead
  exact .ite (fun _ => .refl s) fun _ => .ite (fun _ => badRecord_anaKept s p) fun _ =>
    .ite (fun _ => .refl s) fun _ => .of_same rfl rfl rfl rfl rfl rfl rfl

theorem writeRec_anaKept (p : Nat) (r : PRec) : AnaKept s (s.writeRec p r) := .of_same rfl rfl rfl rfl rfl rfl rfl

theorem setQuality_anaKept (p : Nat) (q : Byte) (ts : Stamp) : AnaKept s (s.setQuality p q ts) := by
  have hread := verifyRead_anaKept s p
  unfold State.setQuality
  extract_lets v r
  exact .ite (fun _ => hread) fun _ => hread.trans (writeRec_anaKept v p _)

theorem qualityNow_anaKept (p : Nat) (q : Byte) : AnaKept s (s.qualityNow p q) := by
  unfold State.qualityNow
  exact .ite (fun _ => setQuality_anaKept s p q _) fun _ => .refl s

theorem refreshOut_anaKept (p : Nat) : AnaKept s (s.refreshOut p) := by
  unfold State.refreshOut
  exact .ite (fun _ => .refl s) fun _ => .ite (fun _ => .ite (fun _ => .refl s) fun _ => setQuality_anaKept s p _ _) fun _ =>
    .ite (fun _ => setQuality_anaKept s p _ _) fun _ => .refl s

theorem frameBad_anaKept (p : Nat) : AnaKept s (s.frameBad p) := by
  unfold State.frameBad
  refine .ite (fun _ => .refl s) fun _ => .ite (fun _ => setQuality_anaKept s p _ _) fun _ => .trans ?_ (setQuality_anaKept _ p _ _)
  exact .of_same rfl rfl rfl rfl rfl rfl rfl

end

/-! ### The end of an event of the analogue engine -/

/-- An event of IOE-ANA, which passed its BIST (R488), leaves the units as its effect left them, and what that shows is shown. -/
theorem analogueEvent_leaves {f : State → State} {s u : State} (he : s.engineUp 0 = true) (hrun : f s.draw = u)
    (hn : u.flt.nest = s.flt.nest) : Reaches (liveIoe 0 f s) fun t => UnitsKept u t ∧ Leaves u t := by
  obtain ⟨hp, hcalm, hbist⟩ := State.engineUp_iff.mp he
  have hskip : (if s.draw.sys.ioeBad.getLsbD 0 then s.draw else f s.draw) = u := by
    rw [State.draw_sys, hbist, if_neg Bool.false_ne_true, hrun]
  exact (live_shows hp hskip (hn.trans hcalm)).imp fun _ ⟨hunits, hshown, _⟩ => ⟨hunits, hshown⟩

theorem AnaKept.of_leaves {u t : State} (hunits : UnitsKept u t) (hshown : Leaves u t) : AnaKept u t := by
  have hsq := hshown.sq
  have htotal := hshown.total
  obtain ⟨_, _, _, _, _, _, _, _, _, rfl⟩ := hunits
  exact ⟨rfl, rfl, rfl, rfl, rfl, hsq, fun o _ hhi => htotal o (by omega)⟩

/-- The same for an effect known up to records and log entries. -/
theorem analogueEvent_keeps {f : State → State} {s u : State} (he : s.engineUp 0 = true) (hkept : AnaKept u (f s.draw))
    (hn : u.flt.nest = s.flt.nest) : Reaches (liveIoe 0 f s) (AnaKept u) :=
  (analogueEvent_leaves he rfl (hkept.nest.trans hn)).imp fun _ ⟨hunits, hshown⟩ => hkept.trans (.of_leaves hunits hshown)

/-! ### Conversion frames (R275, R276) -/

/-- `t` follows `s` in a good frame: the universal inputs, the fan channels and the counters other than ANA_CNT0 may differ. -/
structure CycleTaken (s t : State) : Prop where
  same : ∃ l m c, t = { s with ui := l, fan := m, cnt := c }
  total : t.total 0x4A00 = s.total 0x4A00

theorem CycleTaken.refl (s : State) : CycleTaken s s := ⟨⟨_, _, _, rfl⟩, rfl⟩

theorem CycleTaken.trans {s t u : State} (h : CycleTaken s t) (k : CycleTaken t u) : CycleTaken s u := by
  have htotal := k.total.trans h.total
  obtain ⟨_, _, _, rfl⟩ := h.same
  obtain ⟨_, _, _, rfl⟩ := k.same
  exact ⟨⟨_, _, _, rfl⟩, htotal⟩

theorem foldl_cycleTaken {α : Type} (f : State → α → State) (l : List α) (s : State) (hf : ∀ t x, CycleTaken t (f t x)) :
    CycleTaken s (l.foldl f s) :=
  List.foldlRecOn _ _ (CycleTaken.refl s) fun t h x _ => h.trans (hf t x)

/-- A cycle of an input sets its record, and may count an entry into 41h (R278, R279). -/
theorem uiCycle_cycleTaken (s : State) (k : Nat) (raw : BitVec 24) : CycleTaken s (s.uiCycle k raw) := by
  unfold State.uiCycle
  extract_lets u m c inv held now x filt win full v brk sensor enter shown
  have hset : ∀ y, CycleTaken s (s.setUi k y) := fun _ => ⟨⟨_, _, _, rfl⟩, rfl⟩
  split
  · exact .refl s
  · split
    · exact hset _
    · split
      · exact (hset _).trans ⟨⟨_, _, _, rfl⟩, State.total_count_ne _ 1 (by decide)⟩
      · exact hset _

theorem convFrame_good {s : State} {raw : List (BitVec 24)} (stamp : Stamp) (hlen : raw.length = 32) :
    CycleTaken ({ s with uiBad := 0, uiStamp := stamp }.count 0x4A00 1) (s.convFrame raw (frameCheck 0 raw) stamp) := by
  unfold State.convFrame
  rw [if_neg (by simp [hlen])]
  refine (foldl_cycleTaken _ (List.range 16) _ fun t k => ?_).trans (foldl_cycleTaken _ _ _ fun t c => ⟨⟨_, _, _, rfl⟩, rfl⟩)
  split
  · exact uiCycle_cycleTaken t k _
  · exact .refl t

section
variable {s : State} (he : s.engineUp 0 = true)
include he

theorem conversionFrame_good {raw : List (BitVec 24)} (stamp : Stamp) (hlen : raw.length = 32) :
    Reaches (exec (.conversionFrame raw (frameCheck 0 raw) stamp) s) fun t =>
      t.uiBad = 0 ∧ t.uiStamp = stamp ∧ t.total 0x4A00 = s.total 0x4A00 + 1 ∧ t.pnt.points = s.pnt.points := by
  have htaken := convFrame_good (s := s.draw) stamp hlen
  have htotal := htaken.total.trans (State.total_count ..)
  obtain ⟨l, m, c, e⟩ := htaken.same
  refine (analogueEvent_leaves (f := fun s => s.convFrame raw (frameCheck 0 raw) stamp) he e rfl).imp fun t ⟨hunits, hshown⟩ => ?_
  have hcounted := (hshown.total 0x4A00 (by decide)).trans ((congrArg (State.total · 0x4A00) e).symm.trans htotal)
  obtain ⟨_, _, _, _, _, _, _, _, _, rfl⟩ := hunits
  exact ⟨rfl, rfl, hcounted, rfl⟩

theorem conversionFrame_bad (raw : List (BitVec 24)) {crc : BitVec 16} (stamp : Stamp) (hcrc : crc ≠ frameCheck 0 raw) :
    Reaches (exec (.conversionFrame raw crc stamp) s) fun t =>
      t.uiBad = s.uiBad + 1 ∧ t.ui = s.ui ∧ t.fan = s.fan ∧ t.total 0x4A1C = s.total 0x4A1C + 1 := by
  refine (analogueEvent_leaves (f := fun s => s.convFrame raw crc stamp) he (if_pos (.inr hcrc)) rfl).imp fun t ⟨hunits, hshown⟩ => ?_
  have hcounted := (hshown.total 0x4A1C (by decide)).trans (State.total_count ..)
  obtain ⟨_, _, _, _, _, _, _, _, _, rfl⟩ := hunits
  exact ⟨rfl, rfl, rfl, hcounted⟩

/-- Eight bad frames in a row: the records of the inputs' points change, the inputs do not (R276). -/
theorem frameErr_reaches (hbad : 8 ≤ s.uiBad) : Reaches (exec .frameErr s) fun t => t.sq 9 4 = true ∧ t.ui = s.ui := by
  have hkept : AnaKept (s.draw.setSQ 9 4) s.draw.frameErr := by
    unfold State.frameErr
    rw [if_pos (show 8 ≤ s.draw.uiBad from hbad)]
    exact List.foldlRecOn _ _ (AnaKept.refl _) fun t h p _ => h.trans (frameBad_anaKept t p)
  exact (analogueEvent_keeps (f := fun s => s.frameErr) he hkept rfl).imp fun _ h =>
    ⟨h.sq 9 4 (State.sq_setSQ_self s.draw 9 4), h.ui⟩

end

/-! ### Bad conditions of inputs (R279) -/

theorem State.uch_setUi_self (s : State) {k : Nat} (x : UiCh) (h : k < s.ui.length) : (s.setUi k x).uch k = x :=
  lmod_getD_self _ _ _ _ h

section
variable {s : State} {k : Fin 16} (he : s.engineUp 0 = true) (hlen : s.ui.length = 16)
include he hlen

/-- A bad condition entered: the record of its input, the event reported and its count. -/
theorem uiBadOn_reaches {c : UiBad} {x : UiCh} {i o : Nat} (hlo : 0x4A00 ≤ o) (hhi : o < 0x5800)
    (hf : s.draw.uiBadOn k c = ((s.draw.setUi k x).report .warn 9 i 0xFF k).count o 1) :
    Reaches (exec (.uiBadCondition k c) s) fun t => t.uch k = x ∧ t.sq 9 i = true ∧ t.total o = s.total o + 1 := by
  have hkept := (report_anaKept (s.draw.setUi k x) (cls := .warn) 9 i 0xFF k (by decide)).counted o 1
  rw [← hf] at hkept
  refine (analogueEvent_keeps (f := fun s => s.uiBadOn k c) he hkept rfl).imp fun t h => ⟨?_, h.reported hlo hhi⟩
  exact (congrArg (·.getD k.val {}) h.ui).trans (s.draw.uch_setUi_self x (k.isLt.trans_eq hlen.symm))

variable (hon : s.flag 0x4800 k = true)
include hon

theorem uiBadCondition_wireBreak (hcond : (s.uch k).cond = 1) (hbrk : (s.uch k).brk = false) :
    Reaches (exec (.uiBadCondition k .wireBreak) s) fun t => (t.uch k).brk = true ∧ (t.uch k).sensor = false ∧
      t.sq 9 0 = true ∧ t.total 0x4A04 = s.total 0x4A04 + 1 := by
  refine (uiBadOn_reaches he hlen (x := { s.uch k with brk := true, sensor := false }) (i := 0) (o := 0x4A04) (by decide) (by decide)
    ?_).imp fun t h => ?_
  · exact (if_neg (ne_false_of_eq_true hon)).trans (if_pos ⟨hcond, hbrk⟩)
  · obtain ⟨hrec, hshown⟩ := h
    rw [hrec]
    exact ⟨rfl, rfl, hshown⟩

theorem uiBadCondition_sensor (hcond : (s.uch k).cond = 2) (hsensor : (s.uch k).sensor = false) :
    Reaches (exec (.uiBadCondition k .sensor) s) fun t => (t.uch k).sensor = true ∧ (t.uch k).brk = false ∧
      t.sq 9 1 = true ∧ t.total 0x4A08 = s.total 0x4A08 + 1 := by
  refine (uiBadOn_reaches he hlen (x := { s.uch k with sensor := true, brk := false }) (i := 1) (o := 0x4A08) (by decide) (by decide)
    ?_).imp fun t h => ?_
  · exact (if_neg (ne_false_of_eq_true hon)).trans (if_pos ⟨hcond, hsensor⟩)
  · obtain ⟨hrec, hshown⟩ := h
    rw [hrec]
    exact ⟨rfl, rfl, hshown⟩

end

/-! ### Overloads of outputs (R282) -/

/-- The overload of an output marked or unmarked. -/
def State.setOverload (s : State) (j : Nat) (b : Bool) : State := { s with ao := lmod s.ao j fun x => { x with overload := b } }

theorem State.setOverload_overload (s : State) {j : Nat} (b : Bool) (h : j < s.ao.length) :
    ((s.setOverload j b).ao.getD j {}).overload = b :=
  congrArg AoCh.overload (lmod_getD_self _ _ _ _ h)

section
variable {s : State} {j : Fin 8} (he : s.engineUp 0 = true) (hlen : s.ao.length = 8)
include he hlen

theorem aoOverload_reaches (hon : s.flag 0x4800 (16 + j.val) = true) (hclear : (s.ao.getD j {}).overload = false) :
    Reaches (exec (.aoOverload j) s) fun t =>
      (t.ao.getD j {}).overload = true ∧ t.sq 9 2 = true ∧ t.total 0x4A10 = s.total 0x4A10 + 1 := by
  have hrun : s.draw.aoOver j = (((s.draw.setOverload j true).report .warn 9 2 0xFF j).count 0x4A10 1).refreshOut
      (s.draw.fld (0x4980 + 4 * j) 31 19) := if_pos ⟨hon, hclear⟩
  have hkept := ((report_anaKept (s.draw.setOverload j true) (cls := .warn) 9 2 0xFF j (by decide)).counted 0x4A10 1).trans
    (refreshOut_anaKept _ (s.draw.fld (0x4980 + 4 * j) 31 19))
  rw [← hrun] at hkept
  refine (analogueEvent_keeps (f := fun s => s.aoOver j) he hkept rfl).imp fun t h => ⟨?_, h.reported (by decide) (by decide)⟩
  rw [h.ao]
  exact s.draw.setOverload_overload true (j.isLt.trans_eq hlen.symm)

theorem aoOverloadClear_reaches (hover : (s.ao.getD j {}).overload = true) :
    Reaches (exec (.aoOverloadClear j) s) fun t => (t.ao.getD j {}).overload = false := by
  have hrun : s.draw.aoClear j = (s.draw.setOverload j false).refreshOut (s.draw.fld (0x4980 + 4 * j) 31 19) := if_pos hover
  have hkept := refreshOut_anaKept (s.draw.setOverload j false) (s.draw.fld (0x4980 + 4 * j) 31 19)
  rw [← hrun] at hkept
  refine (analogueEvent_keeps (f := fun s => s.aoClear j) he hkept rfl).imp fun t h => ?_
  rw [h.ao]
  exact s.draw.setOverload_overload false (j.isLt.trans_eq hlen.symm)

end

end Sys2Proof.Machine

open Sys2Proof.Machine

/-- Settles O47, an event a clause. -/
theorem analogueEvents : Obligations.AnalogueEvents := fun _ he hui hao =>
  ⟨fun _ stamp hlen => conversionFrame_good he stamp hlen, fun raw _ stamp hcrc => conversionFrame_bad he raw stamp hcrc,
    frameErr_reaches he, fun _ hon => uiBadCondition_wireBreak he hui hon, fun _ hon => uiBadCondition_sensor he hui hon,
    fun _ => ⟨aoOverload_reaches he hao, aoOverloadClear_reaches he hao⟩⟩
end

section
/-! SUPPORT. Chapter 10: the states of a fan channel, and its duty (O48). -/
namespace Sys2Proof.Machine

/-! ### Records of fan channels -/

theorem lmod_lmod {α : Type} (l : List α) (i : Nat) (f g : α → α) : lmod (lmod l i f) i g = lmod l i fun x => g (f x) := by
  induction l generalizing i with
  | nil => rfl
  | cons x l ih =>
    cases i with
    | zero => rfl
    | succ i => exact congrArg (x :: ·) (ih i)

theorem State.fch8_setFan_self (s : State) {c : Nat} (x : FanCh) (h : c < s.fan.length) : (s.setFan c x).fch8 c = x :=
  lmod_getD_self _ _ _ _ h

/-- Of two records put in one place the later one stays. -/
theorem State.setFan_setFan (s : State) (c : Nat) (x y : FanCh) : (s.setFan c x).setFan c y = s.setFan c y :=
  congrArg s.setFans (lmod_lmod s.fan c (fun _ => x) fun _ => y)

theorem State.fch8_startKick (s : State) {c : Nat} (n : Nat) (h : c < s.fan.length) :
    (s.startKick c n).fch8 c = { s.fch8 c with state := .kick, kicks := n, duty := 10000 } := s.fch8_setFan_self _ h

@[simp] theorem State.startKick_flt (s : State) (c n : Nat) : (s.startKick c n).flt = s.flt := rfl

theorem AnaKept.fch8 {u t : State} (h : AnaKept u t) (c : Nat) : t.fch8 c = u.fch8 c := congrArg (·.getD c {}) h.fan

section
variable {s : State} {c : Fin 8} (he : s.engineUp 0 = true) (hlen : s.fan.length = 8) {f : State → State} {x : FanCh}
include he hlen

/-- An event that replaces the record of its channel. -/
theorem setFan_reaches (hf : AnaKept (s.draw.setFan c x) (f s.draw)) : Reaches (liveIoe 0 f s) fun t => t.fch8 c = x :=
  (analogueEvent_keeps he hf rfl).imp fun _ h => (h.fch8 c).trans (s.draw.fch8_setFan_self x (c.isLt.trans_eq hlen.symm))

variable {o : Nat} (hlo : 0x4A00 ≤ o) (hhi : o < 0x5800)
include hlo hhi

/-- The same with a count. -/
theorem setFan_counted_reaches (hf : AnaKept ((s.draw.setFan c x).count o 1) (f s.draw)) :
    Reaches (liveIoe 0 f s) fun t => t.fch8 c = x ∧ t.total o = s.total o + 1 :=
  (analogueEvent_keeps he hf rfl).imp fun _ h =>
    ⟨(h.fch8 c).trans (s.draw.fch8_setFan_self x (c.isLt.trans_eq hlen.symm)), (h.total o hlo hhi).trans (State.total_count ..)⟩

/-- The same with a report, the quality of the channel's output brought up to date (R289). -/
theorem setFan_reported_reaches {i p : Nat}
    (hf : f s.draw = (((s.draw.setFan c x).report .warn 10 i 0xFF c).count o 1).refreshOut p) :
    Reaches (liveIoe 0 f s) fun t => t.fch8 c = x ∧ t.sq 10 i = true ∧ t.total o = s.total o + 1 := by
  have hkept := ((report_anaKept (s.draw.setFan c x) (cls := .warn) 10 i 0xFF c (by decide)).counted o 1).trans (refreshOut_anaKept _ p)
  rw [← hf] at hkept
  exact (analogueEvent_keeps he hkept rfl).imp fun _ h =>
    ⟨(h.fch8 c).trans (s.draw.fch8_setFan_self x (c.isLt.trans_eq hlen.symm)), h.reported hlo hhi⟩

end

/-! ### The states (R288, R289) -/

theorem toNat_clampInt_le (hi : Nat) (x : Int) : (clampInt 0 hi x).toNat ≤ hi := by
  unfold clampInt
  split
  · exact Nat.zero_le _
  · split <;> omega

section
variable {s : State} {c : Nat}

/-- Entry into RUN, whatever the ramp and the error start from. -/
theorem State.enterRun_eq (hc : c < s.fan.length) : ∃ x, s.enterRun c = s.setFan c x ∧ x.state = .run ∧ x.kicks = 0 := by
  unfold State.enterRun
  extract_lets old u entered
  have hentered : entered = _ := s.fch8_setFan_self _ hc
  have hrec : entered.state = .run ∧ entered.kicks = 0 := by rw [hentered]; exact ⟨rfl, rfl⟩
  split
  · exact ⟨_, s.setFan_setFan .., hrec⟩
  · split
    · exact ⟨_, rfl, rfl, rfl⟩
    · exact ⟨_, s.setFan_setFan .., hrec⟩

variable (hon : s.fanOn c = true)
include hon

theorem State.kickEnd_eq (hkick : (s.fch8 c).state = .kick) : s.kickEnd c =
    if s.fanRunning c then (s.enterRun c).count 0x5184 1
    else if (s.fch8 c).kicks < 4 then
      s.setFan c { s.fch8 c with state := .wait, duty := if (s.fch8 c).safe then (s.fch8 c).duty else 0 }
    else (((s.setFan c { s.fch8 c with state := .stall, kicks := 0, duty := if (s.fch8 c).safe then (s.fch8 c).duty else 0 }).report
      .warn 10 0 0xFF c).count 0x5188 1).refreshOut (s.fanPoint c) :=
  if_neg (not_or.mpr ⟨ne_false_of_eq_true hon, not_not_intro hkick⟩)

theorem State.tachTimeout_eq (hrun : (s.fch8 c).state = .run) : s.tachTimeout c =
    if s.flag (0x5050 + 4 * c) 2 ∧ s.fld (0x5070 + 4 * c) 7 0 * 10 ≤ (s.fch8 c).current then
      (((s.setFan c { s.fch8 c with state := .openLoop }).report .warn 10 1 0xFF c).count 0x518C 1).refreshOut (s.fanPoint c)
    else if (s.fch8 c).safe ∧ (s.fch8 c).full = false then s.setFan c { s.fch8 c with state := .stopped }
    else s.startKick c 1 :=
  if_neg (not_or.mpr ⟨ne_false_of_eq_true hon, not_not_intro hrun⟩)

theorem State.speedLoop_runs (hrun : (s.fch8 c).state = .run) (hsafe : (s.fch8 c).safe = false) (hspeed : s.speedMode c = true) :
    ¬(s.fanOn c = false ∨ (s.fch8 c).state ≠ .run ∨ (s.fch8 c).safe = true ∨ s.speedMode c = false) := by
  simp [hon, hrun, hsafe, hspeed]

/-- In control, the speed loop takes its step from the committed speed (R285). -/
theorem State.speedUpdate_eq (hrun : (s.fch8 c).state = .run) (hsafe : (s.fch8 c).safe = false) (hspeed : s.speedMode c = true)
    (hcommit : (s.fch8 c).committed ≠ 0) : ∃ x, s.speedUpdate c = s.setFan c x ∧ x.duty ≤ 10000 ∧ x.state = .run ∧
      x.committed = (s.fch8 c).committed ∧ (s.fld (0x5050 + 4 * c) 15 4 = 0 → x.target = (s.fch8 c).committed) := by
  have hstep : s.speedUpdate c = _ := (if_neg (State.speedLoop_runs hon hrun hsafe hspeed)).trans (if_neg hcommit)
  exact ⟨_, hstep, toNat_clampInt_le 10000 _, hrun, rfl, fun hramp => if_pos (congrArg Nat.cast hramp)⟩

end

section
variable {s : State} {c : Fin 8} (he : s.engineUp 0 = true) (hlen : s.fan.length = 8) (hon : s.fanOn c = true)
include he hlen hon

theorem kickEnd_runs (hkick : (s.fch8 c).state = .kick) (hrunning : s.fanRunning c = true) :
    Reaches (exec (.kickEnd c) s) fun t => (t.fch8 c).state = .run ∧ (t.fch8 c).kicks = 0 ∧
      t.total 0x5184 = s.total 0x5184 + 1 := by
  obtain ⟨x, hx, hstate, hkicks⟩ := s.draw.enterRun_eq (c := c) (c.isLt.trans_eq hlen.symm)
  have hrun := (State.kickEnd_eq (s := s.draw) hon hkick).trans (if_pos hrunning)
  rw [hx] at hrun
  refine (setFan_counted_reaches (f := fun s => s.kickEnd c) (c := c) (o := 0x5184) he hlen (by decide) (by decide)
    (.of_eq hrun)).imp fun t ⟨hrec, hcounted⟩ => ?_
  rw [hrec]
  exact ⟨hstate, hkicks, hcounted⟩

theorem kickEnd_waits (hkick : (s.fch8 c).state = .kick) (hslow : s.fanRunning c = false) (hfew : (s.fch8 c).kicks < 4) :
    Reaches (exec (.kickEnd c) s) fun t =>
      t.fch8 c = { s.fch8 c with state := .wait, duty := if (s.fch8 c).safe then (s.fch8 c).duty else 0 } := by
  have hrun := ((State.kickEnd_eq (s := s.draw) hon hkick).trans (if_neg (ne_true_of_eq_false hslow))).trans (if_pos hfew)
  exact setFan_reaches (f := fun s => s.kickEnd c) he hlen (.of_eq hrun)

theorem kickEnd_stalls (hkick : (s.fch8 c).state = .kick) (hslow : s.fanRunning c = false) (hmany : 4 ≤ (s.fch8 c).kicks) :
    Reaches (exec (.kickEnd c) s) fun t =>
      t.fch8 c = { s.fch8 c with state := .stall, kicks := 0, duty := if (s.fch8 c).safe then (s.fch8 c).duty else 0 } ∧
        t.sq 10 0 = true ∧ t.total 0x5188 = s.total 0x5188 + 1 :=
  setFan_reported_reaches (f := fun s => s.kickEnd c) he hlen (by decide) (by decide)
    (((State.kickEnd_eq (s := s.draw) hon hkick).trans (if_neg (ne_true_of_eq_false hslow))).trans (if_neg (Nat.not_lt.mpr hmany)))

theorem waitEnd_reaches (hwait : (s.fch8 c).state = .wait) : Reaches (exec (.waitEnd c) s) fun t =>
    t.fch8 c = { s.fch8 c with state := .kick, kicks := (s.fch8 c).kicks + 1, duty := 10000 } ∧
      t.total 0x5180 = s.total 0x5180 + 1 := by
  have hrun : s.draw.waitEnd c = s.draw.startKick c ((s.fch8 c).kicks + 1) := if_pos ⟨hon, hwait⟩
  exact setFan_counted_reaches (f := fun s => s.waitEnd c) he hlen (by decide) (by decide) (.of_eq hrun)

theorem tachTimeout_opens (hrun : (s.fch8 c).state = .run) (hsense : s.flag (0x5050 + 4 * c.val) 2 = true)
    (hflows : s.fld (0x5070 + 4 * c.val) 7 0 * 10 ≤ (s.fch8 c).current) : Reaches (exec (.tachTimeout c) s) fun t =>
      t.fch8 c = { s.fch8 c with state := .openLoop } ∧ t.sq 10 1 = true ∧ t.total 0x518C = s.total 0x518C + 1 :=
  setFan_reported_reaches (f := fun s => s.tachTimeout c) he hlen (by decide) (by decide)
    ((State.tachTimeout_eq (s := s.draw) hon hrun).trans (if_pos ⟨hsense, hflows⟩))

section
variable (hrun : (s.fch8 c).state = .run) (hsense : s.flag (0x5050 + 4 * c.val) 2 = false)
include hrun hsense

theorem tachTimeout_kicks (hfree : (s.fch8 c).safe = false ∨ (s.fch8 c).full = true) : Reaches (exec (.tachTimeout c) s) fun t =>
    t.fch8 c = { s.fch8 c with state := .kick, kicks := 1, duty := 10000 } := by
  have hdriven : ¬((s.fch8 c).safe = true ∧ (s.fch8 c).full = false) := by obtain h | h := hfree <;> simp [h]
  have hkick := ((State.tachTimeout_eq (s := s.draw) hon hrun).trans (if_neg fun h => ne_true_of_eq_false hsense h.1)).trans
    (if_neg hdriven)
  exact (setFan_counted_reaches (f := fun s => s.tachTimeout c) (o := 0x5180) he hlen (by decide) (by decide) (.of_eq hkick)).imp
    fun _ h => h.1

theorem tachTimeout_stops (hsafe : (s.fch8 c).safe = true) (hfull : (s.fch8 c).full = false) :
    Reaches (exec (.tachTimeout c) s) fun t => t.fch8 c = { s.fch8 c with state := .stopped } := by
  have hstop := ((State.tachTimeout_eq (s := s.draw) hon hrun).trans (if_neg fun h => ne_true_of_eq_false hsense h.1)).trans
    (if_pos ⟨hsafe, hfull⟩)
  exact setFan_reaches (f := fun s => s.tachTimeout c) he hlen (.of_eq hstop)

end

theorem tachRecovery_reaches (hopen : (s.fch8 c).state = .openLoop) : Reaches (exec (.tachRecovery c) s) fun t =>
    t.fch8 c = { s.fch8 c with state := .run, duty := if s.speedMode c ∨ (s.fch8 c).safe then (s.fch8 c).duty else s.dutyOf c } ∧
      t.total 0x5190 = s.total 0x5190 + 1 := by
  refine setFan_counted_reaches (f := fun s => s.tachBack c) he hlen (by decide) (by decide) ?_
  have hrun : s.draw.tachBack c = _ := if_pos ⟨hon, hopen⟩
  rw [hrun]
  exact refreshOut_anaKept _ _

section
variable (hrun : (s.fch8 c).state = .run) (hsafe : (s.fch8 c).safe = false) (hspeed : s.speedMode c = true)
include hrun hsafe hspeed

theorem speedControlUpdate_rests (hcommit : (s.fch8 c).committed = 0) : Reaches (exec (.speedControlUpdate c) s) fun t =>
    t.fch8 c = { s.fch8 c with duty := 0, target := 0, oper := 0 } := by
  have hrest : s.draw.speedUpdate c = _ := (if_neg (State.speedLoop_runs hon hrun hsafe hspeed)).trans (if_pos hcommit)
  exact setFan_reaches (f := fun s => s.speedUpdate c) he hlen (.of_eq hrest)

theorem speedControlUpdate_controls (hcommit : (s.fch8 c).committed ≠ 0) : Reaches (exec (.speedControlUpdate c) s) fun t =>
    (t.fch8 c).duty ≤ 10000 ∧ (t.fch8 c).state = .run ∧ (t.fch8 c).committed = (s.fch8 c).committed ∧
      (s.fld (0x5050 + 4 * c.val) 15 4 = 0 → (t.fch8 c).target = (s.fch8 c).committed) := by
  obtain ⟨x, hx, hrec⟩ := State.speedUpdate_eq (s := s.draw) hon hrun hsafe hspeed hcommit
  refine (setFan_reaches (f := fun s => s.speedUpdate c) (c := c) he hlen (.of_eq hx)).imp fun t h => ?_
  rw [h]
  exact hrec

end

end

end Sys2Proof.Machine
end

section
/-! SUPPORT. Chapter 10: the end of a PWM period, ageing, and host silence (O48). -/
namespace Sys2Proof.Machine

/-! ### The end of a PWM period (R46, R290) -/

/-- With no setting shadowed, the end of a period applies none. -/
theorem State.applyFanRegs_none {s : State} (c : Nat) (h : s.shadow = []) :
    ∃ x sh, s.applyFanRegs c = { s with trap := x, shadow := sh }.count 0x089C 0 := by
  unfold State.applyFanRegs
  rw [h]
  obtain ⟨x, hnote⟩ := State.noteWrites_same { s with shadow := [] } []
  exact ⟨x, [], congrArg (·.count 0x089C 0) hnote⟩

theorem State.safeDuty_full {s : State} {c : Nat} (h : (s.fch8 c).full = true) : s.safeDuty c = 10000 := if_pos h

/-- A channel asked for its safe value takes it with the duty SAFE gives; the kick that full speed begins has the same duty. -/
theorem State.pwmEnd_safeReq {s : State} {c : Nat} (hc : c < s.fan.length) (hon : s.fanOn c = true) (hshadow : s.shadow = [])
    (hreq : (s.fch8 c).safeReq = true) : (s.pwmEnd c).flt = s.flt ∧ ((s.pwmEnd c).fch8 c).safe = true ∧
      ((s.pwmEnd c).fch8 c).duty = s.safeDuty c ∧ ((s.pwmEnd c).fch8 c).committed = (s.fch8 c).committed := by
  obtain ⟨x, sh, happlied⟩ := s.applyFanRegs_none c hshadow
  unfold State.pwmEnd
  rw [happlied]
  extract_lets key t f v1 f1 v g abandon state u w
  have hv : v = t := if_pos rfl
  clear_value v
  subst hv
  have hrec : u.fch8 c = _ := t.fch8_setFan_self _ hc
  rw [if_neg (show ¬t.fanOn c = false from ne_false_of_eq_true hon), if_pos (show g.safeReq = true from hreq)]
  split
  next hkick =>
    obtain ⟨hfull, -, -⟩ := hkick
    rw [u.fch8_startKick 1 (c := c) ((lmod_length ..).symm ▸ hc), hrec, State.safeDuty_full (s := s) hfull]
    exact ⟨u.startKick_flt c 1, rfl, rfl, rfl⟩
  · rw [hrec]
    exact ⟨rfl, rfl, rfl, rfl⟩

theorem pwmPeriodEnd_reaches {s : State} {c : Fin 8} (hlen : s.fan.length = 8) (he : s.engineUp 0 = true) (hon : s.fanOn c = true)
    (hshadow : s.shadow = []) (hreq : (s.fch8 c).safeReq = true) : Reaches (exec (.pwmPeriodEnd c) s) fun t =>
      (t.fch8 c).safe = true ∧ (t.fch8 c).duty = s.safeDuty c ∧ (t.fch8 c).committed = (s.fch8 c).committed := by
  obtain ⟨hflt, hrec⟩ := State.pwmEnd_safeReq (s := s.draw) (c.isLt.trans_eq hlen.symm) hon hshadow hreq
  refine (analogueEvent_keeps (f := fun s => s.pwmEnd c) he (.refl _) (congrArg Flt.nest hflt)).imp fun t h => ?_
  rw [h.fch8]
  exact hrec

/-! ### Ageing (R293, R294) -/

section
variable {s : State} {c : Fin 8} (hlen : s.fan.length = 8)
include hlen

section
variable (he : s.engineUp 0 = true)
include he

theorem steadyPeriod_learns (hon : s.fanOn c = true) (hrun : (s.fch8 c).state = .run)
    (hsense : s.flag (0x5050 + 4 * c.val) 2 = true) (hlearn : (s.fch8 c).learning = true) (speed current : Nat) :
    Reaches (exec (.steadyPeriod c speed current) s) fun t =>
      (t.fch8 c).bins = lmod (s.fch8 c).bins (s.binOf c speed) (fun b =>
        { n := b.n + 1, speed := b.speed + speed, current := b.current + current }) ∧ (t.fch8 c).base = (s.fch8 c).base := by
  have hsteady : ¬(s.fanOn c = false ∨ (s.fch8 c).state ≠ .run ∨ s.flag (0x5050 + 4 * c.val) 2 = false) := by
    simp [hon, hrun, hsense]
  have hbins : s.draw.steady c speed current = _ := (if_neg hsteady).trans (if_pos hlearn)
  refine (setFan_reaches (f := fun s => s.steady c speed current) he hlen (.of_eq hbins)).imp fun t h => ?_
  rw [h]
  exact ⟨rfl, rfl⟩

theorem learningWindowClose_reaches (hlearn : (s.fch8 c).learning = true)
    (hdays : (s.fch8 c).learnUntil < s.crsl.upNs + s.periodNs) : Reaches (exec (.learningWindowClose c) s) fun t =>
      (t.fch8 c).learning = false ∧ (t.fch8 c).base = (s.fch8 c).bins ∧ (t.fch8 c).ageing = false := by
  have hclosed : s.draw.learnClose c = _ := if_pos ⟨hlearn, hdays⟩
  refine (setFan_reaches (f := fun s => s.learnClose c) he hlen (.of_eq hclosed)).imp fun t h => ?_
  rw [h]
  exact ⟨rfl, rfl, rfl⟩

theorem ageingStale_reaches (hon : s.fanOn c = true) (hseen : (s.fch8 c).ratioSeen = true)
    (hsrc : (s.point (s.fld (0x5010 + 4 * c.val) 18 6 + 2)).src = 4) :
    Reaches (exec (.ageingStale c) s) fun t => (t.fch8 c).ratioStale = true ∧ (t.fch8 c).ratio = (s.fch8 c).ratio := by
  have hstale : AnaKept (s.draw.setFan c { s.fch8 c with ratioStale := true }) (s.draw.ageStale c) := by
    have hrun : s.draw.ageStale c = _ := if_pos ⟨hon, hseen, congrArg BitVec.toNat hsrc⟩
    rw [hrun]
    exact .ite (fun _ => qualityNow_anaKept ..) fun _ => .refl _
  refine (setFan_reaches (f := fun s => s.ageStale c) he hlen hstale).imp fun t h => ?_
  rw [h]
  exact ⟨rfl, rfl⟩

end

omit hlen in
/-- A window is not closed before its days have passed, whether or not the engine works (R293). -/
theorem learningWindowClose_early (hdays : s.crsl.upNs + s.periodNs ≤ (s.fch8 c).learnUntil) (hup : s.up = true) :
    Reaches (exec (.learningWindowClose c) s) fun t => t.fan = s.fan := by
  obtain ⟨hp, hcalm⟩ := State.up_iff.mp hup
  have hopen : s.draw.learnClose c = s.draw := if_neg fun h => Nat.not_lt.mpr hdays h.2
  have hrun : (if s.draw.sys.ioeBad.getLsbD 0 then s.draw else s.draw.learnClose c) = s.draw := by rw [hopen, ite_self]
  exact (live_shows (f := fun s => if s.sys.ioeBad.getLsbD 0 then s else s.learnClose c) hp hrun hcalm).imp fun t ⟨hunits, _⟩ => by
    obtain ⟨_, _, _, _, _, _, _, _, _, rfl⟩ := hunits
    rfl

end

/-! ### Host silence (R295) -/

theorem AnaKept.setFans {u t : State} (h : AnaKept u t) (l : List FanCh) : AnaKept (u.setFans l) (t.setFans l) :=
  ⟨h.ui, h.ao, rfl, h.fanSilent, h.nest, h.sq, h.total⟩

/-- The fan channels, those that the watchdog drives marked (R295). -/
def State.watchedFans (s : State) : List FanCh :=
  s.fan.mapIdx fun c f => if s.flag 0x5008 (8 + c) && s.fanOn c then { f with watchdog := true } else f

/-- The silence is noted, reported and counted; in 1024-compatible mode channels are marked for full speed, and what their writers last
supplied is kept. -/
theorem State.hostSilent_keeps {s : State} (hen : s.fld 0x5008 7 0 ≠ 0) (hheard : s.fanSilent = false) : ∃ l,
    AnaKept (((({ s with fanSilent := true } : State).setFans l).setSQ 10 3).count 0x5198 1) s.hostSilent ∧
      (s.sys.compat = false → l = s.fan) := by
  unfold State.hostSilent
  rw [if_neg (not_or.mpr ⟨hen, ne_true_of_eq_false hheard⟩)]
  extract_lets told w
  let silent : State := { s with fanSilent := true }
  have hsys : told.sys = s.sys := (reportBare_logOnly silent .note 10 3 0xFF).sysStands.sys
  have htold : AnaKept ((silent.setSQ 10 3).count 0x5198 1) told := (report_anaKept silent 10 3 _ _ (by decide)).counted 0x5198 1
  split
  next hcompat =>
    have hw : AnaKept told w := List.foldlRecOn _ _ (.refl told) fun v h c _ =>
      .ite (fun _ => h.trans (.of_same rfl rfl rfl rfl rfl rfl rfl)) fun _ => h
    exact ⟨w.watchedFans, (htold.trans hw).setFans w.watchedFans, fun h => absurd (hsys ▸ hcompat) (ne_true_of_eq_false h)⟩
  · exact ⟨s.fan, htold, fun _ => rfl⟩

theorem hostSilent_reaches {s : State} (hup : s.up = true) (hen : s.fld 0x5008 7 0 ≠ 0) (hheard : s.fanSilent = false) :
    Reaches (exec .hostSilent s) fun t => t.fanSilent = true ∧ t.sq 10 3 = true ∧ t.total 0x5198 = s.total 0x5198 + 1 ∧
      (s.sys.compat = false → t.fan = s.fan) := by
  obtain ⟨hp, hcalm⟩ := State.up_iff.mp hup
  obtain ⟨l, hkept, hl⟩ := State.hostSilent_keeps (s := s.draw) hen hheard
  refine (live_shows (f := fun s => s.hostSilent) hp rfl (hkept.nest.trans hcalm)).imp fun t ⟨hunits, hshown, _⟩ => ?_
  have hend := hkept.trans (.of_leaves hunits hshown)
  obtain ⟨hsq, htotal⟩ := hend.reported (by decide) (by decide)
  exact ⟨hend.fanSilent, hsq, htotal, fun h => hend.fan.trans (hl h)⟩

end Sys2Proof.Machine

open Sys2Proof.Machine

/-- Settles O48, an event a clause. -/
theorem fans : Obligations.Fans := by
  refine ⟨fun s c he hlen hon => ⟨kickEnd_runs he hlen hon, kickEnd_waits he hlen hon, kickEnd_stalls he hlen hon,
      waitEnd_reaches he hlen hon,
      fun hrun hsense => ⟨tachTimeout_kicks he hlen hon hrun hsense, tachTimeout_stops he hlen hon hrun hsense⟩,
      tachTimeout_opens he hlen hon, tachRecovery_reaches he hlen hon, speedControlUpdate_rests he hlen hon,
      speedControlUpdate_controls he hlen hon⟩,
    fun s c hlen => ⟨pwmPeriodEnd_reaches hlen, steadyPeriod_learns hlen, learningWindowClose_reaches hlen,
      learningWindowClose_early, ageingStale_reaches hlen, hostSilent_reaches⟩⟩
end

section
/-! SUPPORT. Chapter 13: the level of HOST_IRQ_N at the end of every step (O2). -/
namespace Sys2Proof.Machine

/-! ### The interrupt line at the end of a step (R354) -/

/-- What stands outside an effect, and the place in the revolution, leave what the line shows and what is pending. -/
theorem State.lineTrue_outside {t : State} (s : State) (n : Nat) (h : t.hostp.irqLow = t.irqWanted) : (t.outside s n).lineTrue :=
  fun _ => h.trans (irqWanted_congr _ t rfl rfl rfl).symm

theorem settle_lineTrue (s u v : State) (n : Nat) : ((settle s u).outside v n).lineTrue := State.lineTrue_outside v n (settle_irq s u)

theorem State.atPhase_lineTrue {t : State} (s : State) (p : PhasePos) (h : t.lineTrue) : (t.atPhase s p).lineTrue := by
  unfold State.atPhase
  split
  · exact h
  · exact h

theorem State.lineTrue_unpowered {s : State} (h : s.sys.powered = false) : s.lineTrue := fun hp => Bool.noConfusion (h.symm.trans hp)

theorem live_lineTrue {f : State → State} {s t : State} (hs : s.lineTrue) (h : live f s = .next t) : t.lineTrue := by
  unfold live at h
  split at h <;> cases h
  · exact settle_lineTrue _ _ _ _
  · exact hs

theorem liveTurn_lineTrue {f : State → State} {s t : State} (hs : s.lineTrue) (h : liveTurn f s = .next t) : t.lineTrue := by
  unfold liveTurn at h
  split at h <;> cases h
  · exact settle_lineTrue _ _ _ _
  · exact hs

theorem livePhase_lineTrue {p : PhasePos} {f : State → State} {s t : State} (hs : s.lineTrue) (h : livePhase p f s = .next t) :
    t.lineTrue := by
  unfold livePhase at h
  split at h <;> cases h
  · exact State.atPhase_lineTrue s p (settle_lineTrue _ _ _ _)
  · exact hs

/-- An event that needs no supply drives the line of a module with supply, and leaves a module without one so. -/
theorem anyPower_lineTrue {f : State → State} {s t : State} (h : anyPower f s = .next t) : t.lineTrue := by
  unfold anyPower at h
  cases h
  split
  · exact settle_lineTrue _ _ _ _
  next hoff => exact State.lineTrue_unpowered (Bool.eq_false_of_not_eq_true hoff)

theorem powerLoss_unpowered (s : State) : (powerLoss s).sys.powered = false := rfl

theorem execPowerLoss_lineTrue {s t : State} (hs : s.lineTrue) (h : execPowerLoss s = .next t) : t.lineTrue := by
  unfold execPowerLoss whenever at h
  cases h
  split
  · exact State.lineTrue_unpowered (powerLoss_unpowered s)
  · exact hs

/-- Every command keeps HOST_IRQ_N at its level, by the six forms of `exec_form`. -/
theorem exec_lineTrue (c : Instr) {s t : State} (hs : s.lineTrue) (h : exec c s = .next t) : t.lineTrue := by
  obtain ⟨f, e⟩ | ⟨f, e⟩ | ⟨p, f, e⟩ | ⟨-, f, e⟩ | ⟨k, r, -, e⟩ | ⟨-, e⟩ := exec_form c s <;> rw [e] at h
  · exact live_lineTrue hs h
  · exact anyPower_lineTrue h
  · exact livePhase_lineTrue hs h
  · exact liveTurn_lineTrue hs h
  · cases h; exact settle_lineTrue _ _ _ _
  · exact execPowerLoss_lineTrue hs h

end Sys2Proof.Machine

open Sys2Proof.Machine

/-- Settles O2, by the front command of the queue and `exec_lineTrue`. -/
theorem everyStepKeepsInterruptLine : Obligations.EveryStepKeepsInterruptLine := by
  intro s t hs h
  unfold step at h
  split at h
  · cases h; exact hs
  next c rest _ => exact exec_lineTrue (s := { s with pending := rest }) c hs h
end

section
/-! SUPPORT. The end of a command shown whole: what stands of the state its effect left, its counters and status fields one by one, after an
event and after a command of a session answered, waiting or turned down (R354, R378 to R385). -/
namespace Sys2Proof.Machine

/-! ### The end of an event (R34, R354) -/

/-- `t` is `u` at the end of a command: DOMAIN_CHG, the interrupt line with its counter, and what stands outside every effect may differ. -/
structure Ended (u t : State) : Prop where
  same : ∃ st c low p fu n, t = { u with
    stat := st, cnt := c, hostp := { u.hostp with irqLow := low }, pending := p, fuse := fu, rev := n }
  sq : ∀ b i, ¬(0 = b ∧ 16 = i) → t.sq b i = u.sq b i
  statOf : ∀ b, 0 ≠ b → t.statOf b = u.statOf b
  total : ∀ o, 0x69FC ≠ o → t.total o = u.total o

section
variable {u t : State}

theorem Ended.sys (h : Ended u t) : t.sys = u.sys := by obtain ⟨_, _, _, _, _, _, rfl⟩ := h.same; rfl
theorem Ended.ledger (h : Ended u t) : t.ledger = u.ledger := by obtain ⟨_, _, _, _, _, _, rfl⟩ := h.same; rfl
theorem Ended.pnt (h : Ended u t) : t.pnt = u.pnt := by obtain ⟨_, _, _, _, _, _, rfl⟩ := h.same; rfl
theorem Ended.can (h : Ended u t) : t.can = u.can := by obtain ⟨_, _, _, _, _, _, rfl⟩ := h.same; rfl
theorem Ended.net (h : Ended u t) : t.net = u.net := by obtain ⟨_, _, _, _, _, _, rfl⟩ := h.same; rfl
theorem Ended.mbx (h : Ended u t) : t.mbx = u.mbx := by obtain ⟨_, _, _, _, _, _, rfl⟩ := h.same; rfl
theorem Ended.trap (h : Ended u t) : t.trap = u.trap := by obtain ⟨_, _, _, _, _, _, rfl⟩ := h.same; rfl
theorem Ended.rtc (h : Ended u t) : t.rtc = u.rtc := by obtain ⟨_, _, _, _, _, _, rfl⟩ := h.same; rfl
theorem Ended.key (h : Ended u t) : t.key = u.key := by obtain ⟨_, _, _, _, _, _, rfl⟩ := h.same; rfl
theorem Ended.upd (h : Ended u t) : t.upd = u.upd := by obtain ⟨_, _, _, _, _, _, rfl⟩ := h.same; rfl
theorem Ended.flt (h : Ended u t) : t.flt = u.flt := by obtain ⟨_, _, _, _, _, _, rfl⟩ := h.same; rfl
theorem Ended.dbg (h : Ended u t) : t.dbg = u.dbg := by obtain ⟨_, _, _, _, _, _, rfl⟩ := h.same; rfl
theorem Ended.regs (h : Ended u t) : t.regs = u.regs := by obtain ⟨_, _, _, _, _, _, rfl⟩ := h.same; rfl
theorem Ended.shadow (h : Ended u t) : t.shadow = u.shadow := by obtain ⟨_, _, _, _, _, _, rfl⟩ := h.same; rfl
theorem Ended.posted (h : Ended u t) : t.posted = u.posted := by obtain ⟨_, _, _, _, _, _, rfl⟩ := h.same; rfl
theorem Ended.queues (h : Ended u t) : t.hostp.queues = u.hostp.queues := by obtain ⟨_, _, _, _, _, _, rfl⟩ := h.same; rfl
theorem Ended.dout (h : Ended u t) : t.hostp.dout = u.hostp.dout := by obtain ⟨_, _, _, _, _, _, rfl⟩ := h.same; rfl
theorem Ended.paths (h : Ended u t) : t.hostp.paths = u.hostp.paths := by obtain ⟨_, _, _, _, _, _, rfl⟩ := h.same; rfl
theorem Ended.q (h : Ended u t) (n : Nat) : t.q n = u.q n := congrArg (·.getD n {}) h.queues
theorem Ended.reg (h : Ended u t) (off : Nat) : t.reg off = u.reg off := State.reg_of_regs h.regs off

end

theorem settle_ended (s u : State) (n : Nat) : Ended u ((settle s u).outside s n) where
  same := by
    obtain ⟨_, _, _, h⟩ := settle_same s u
    rw [h]
    exact ⟨_, _, _, _, _, _, rfl⟩
  sq _ _ h := by rw [State.outside_sq, settle_sq s u h]
  statOf _ h := by rw [State.outside_statOf, settle_statOf s u h]
  total _ h := by rw [State.outside_total, settle_total s u h]

/-- A command of a module that is up whose effect nests no CRITICAL ends with its effect (R495). -/
theorem live_ends {f : State → State} {s u : State} (hup : s.up = true) (hrun : f s.draw = u) (hn : u.flt.nest = s.flt.nest) :
    Reaches (live f s) (Ended u) := by
  obtain ⟨hp, hcalm⟩ := State.up_iff.mp hup
  refine live_reaches f s hp ?_ ?_ <;> rw [hrun]
  · exact hn.trans hcalm
  · exact settle_ended s u s.rev

/-- The same for a command of an I/O engine that passed its BIST (R488). -/
theorem liveIoe_ends {f : State → State} {s u : State} {k : Nat} (he : s.engineUp k = true) (hrun : f s.draw = u)
    (hn : u.flt.nest = s.flt.nest) : Reaches (liveIoe k f s) (Ended u) := by
  obtain ⟨hp, hcalm, hbist⟩ := State.engineUp_iff.mp he
  have hskip : (if s.draw.sys.ioeBad.getLsbD k then s.draw else f s.draw) = u := by
    rw [State.draw_sys, hbist, if_neg Bool.false_ne_true, hrun]
  exact live_ends (f := fun s => if s.sys.ioeBad.getLsbD k then s else f s) (State.up_iff.mpr ⟨hp, hcalm⟩) hskip hn

/-- The same for an event of the partition or the backup domain (R488). -/
theorem anyPower_ends {f : State → State} {s u : State} (hup : s.up = true) (hrun : f s.draw = u) (hn : u.flt.nest = s.flt.nest) :
    Reaches (anyPower f s) (Ended u) := by
  rw [anyPower_eq_live f (State.up_iff.mp hup).1]
  exact live_ends hup hrun hn

/-! ### The end of a command of a session (R378 to R385) -/

/-- `t` is `u` once its command is answered with OK: the response path, MBX_CNT1, DOMAIN_CHG, the interrupt line with its counter, and what
stands outside every effect may differ. -/
structure Served (u t : State) : Prop where
  same : ∃ b qs low st c p fu n, t = { u with
    mbx := { u.mbx with resp := b }, hostp := { u.hostp with queues := qs, irqLow := low }
    stat := st, cnt := c, pending := p, fuse := fu, rev := n }
  sq : ∀ b i, ¬(0 = b ∧ 16 = i) → t.sq b i = u.sq b i
  total : ∀ o, 0x69FC ≠ o → 0x7064 ≠ o → t.total o = u.total o

section
variable {u t : State}

theorem Served.sys (h : Served u t) : t.sys = u.sys := by obtain ⟨_, _, _, _, _, _, _, _, rfl⟩ := h.same; rfl
theorem Served.pnt (h : Served u t) : t.pnt = u.pnt := by obtain ⟨_, _, _, _, _, _, _, _, rfl⟩ := h.same; rfl
theorem Served.fan (h : Served u t) : t.fan = u.fan := by obtain ⟨_, _, _, _, _, _, _, _, rfl⟩ := h.same; rfl
theorem Served.fioCh (h : Served u t) : t.fioCh = u.fioCh := by obtain ⟨_, _, _, _, _, _, _, _, rfl⟩ := h.same; rfl
theorem Served.can (h : Served u t) : t.can = u.can := by obtain ⟨_, _, _, _, _, _, _, _, rfl⟩ := h.same; rfl
theorem Served.net (h : Served u t) : t.net = u.net := by obtain ⟨_, _, _, _, _, _, _, _, rfl⟩ := h.same; rfl
theorem Served.trap (h : Served u t) : t.trap = u.trap := by obtain ⟨_, _, _, _, _, _, _, _, rfl⟩ := h.same; rfl
theorem Served.rtc (h : Served u t) : t.rtc = u.rtc := by obtain ⟨_, _, _, _, _, _, _, _, rfl⟩ := h.same; rfl
theorem Served.key (h : Served u t) : t.key = u.key := by obtain ⟨_, _, _, _, _, _, _, _, rfl⟩ := h.same; rfl
theorem Served.upd (h : Served u t) : t.upd = u.upd := by obtain ⟨_, _, _, _, _, _, _, _, rfl⟩ := h.same; rfl
theorem Served.flt (h : Served u t) : t.flt = u.flt := by obtain ⟨_, _, _, _, _, _, _, _, rfl⟩ := h.same; rfl
theorem Served.dbg (h : Served u t) : t.dbg = u.dbg := by obtain ⟨_, _, _, _, _, _, _, _, rfl⟩ := h.same; rfl
theorem Served.regs (h : Served u t) : t.regs = u.regs := by obtain ⟨_, _, _, _, _, _, _, _, rfl⟩ := h.same; rfl
theorem Served.sched (h : Served u t) : t.mbx.sched = u.mbx.sched := by obtain ⟨_, _, _, _, _, _, _, _, rfl⟩ := h.same; rfl
theorem Served.reg (h : Served u t) (off : Nat) : t.reg off = u.reg off := State.reg_of_regs h.regs off

end

theorem respond_served (u : State) (n op : Nat) (tag booth : Byte) (sseq : W32) (fl de : Nat) (da : List Byte) {t : State}
    (h : Ended (u.respond n op tag booth sseq fl 0 de da) t) : Served u t := by
  rw [State.respond_ok] at h
  obtain ⟨qs, b, e⟩ := (u.count 0x7064 1).deliver_same n (respPacket op tag booth sseq fl 0 de da)
  rw [e] at h
  obtain ⟨⟨_, _, _, _, _, _, rfl⟩, hsq, -, htotal⟩ := h
  exact ⟨⟨_, _, _, _, _, _, _, _, rfl⟩, hsq, fun o h1 h2 => (htotal o h1).trans (u.total_count_ne 1 h2)⟩

/-- A command answered at once with OK: its response, and its effect as `u` has it (R378). -/
theorem ok_serves {f : State → State} {s : State} {h : Hdr} {c : CmdSpec} {body : State → Res} {fl : Nat} {da : List Byte}
    {P : State → Prop} (hf : f s.draw = runCmd h c body s.draw) (ha : s.admits h c.maxData) (hc : c.Clear s)
    (hd : da.length ≤ c.maxData)
    (hbody : ∀ v, Taken s h v → ∃ u, body v = .now 0 0 da fl u ∧ PathKept s u h ∧
      ∀ t, s.answered t h c.opcode fl da → Served u t → P t) : Reaches (live f s) P := by
  obtain ⟨u, hu, k, hP⟩ := hbody _ (admits_taken c ha)
  have htake := admits_canTake ha
  have hpass := admits_firstFail ha hc
  have hrun := hf.trans (runCmd_now h c body s.draw htake hpass hu)
  have hgiven := hrun.trans (runCmd_now h c (fun _ => .now 0 0 da fl u) s.draw htake hpass rfl).symm
  have hans := ok_reaches (P := fun t => Served u t → P t) hgiven ha hc hd fun _ _ => ⟨u, rfl, k, fun t hans _ => hP t hans⟩
  have hnest := (respond_leaves u h.session.val c.opcode h.tag h.booth h.sseq fl 0 0 da).flt ▸ k.nest
  have hends := live_ends ha.1.1 hrun (hnest.trans (admits_calm ha).symm)
  exact (hans.and hends).imp fun t ⟨hPt, hend⟩ => hPt (respond_served _ _ _ _ _ _ _ _ _ hend)

theorem Taken.crsl {s v : State} {h : Hdr} (hv : Taken s h v) : v.crsl = s.crsl := by
  obtain ⟨_, _, _, _, e⟩ := hv.same; rw [e]; rfl

/-- `t` is `u` once its command waits in its slot: the slots, DOMAIN_CHG, the interrupt line with its counter, and what stands outside
every effect may differ. -/
structure Waiting (u t : State) : Prop where
  same : ∃ l low st c p fu n, t = { u with
    mbx := { u.mbx with slots := l }, hostp := { u.hostp with irqLow := low }, stat := st, cnt := c, pending := p, fuse := fu, rev := n }
  sq : ∀ b i, ¬(0 = b ∧ 16 = i) → t.sq b i = u.sq b i
  total : ∀ o, 0x69FC ≠ o → t.total o = u.total o

section
variable {u t : State}

theorem Waiting.sys (h : Waiting u t) : t.sys = u.sys := by obtain ⟨_, _, _, _, _, _, _, rfl⟩ := h.same; rfl
theorem Waiting.rtc (h : Waiting u t) : t.rtc = u.rtc := by obtain ⟨_, _, _, _, _, _, _, rfl⟩ := h.same; rfl
theorem Waiting.key (h : Waiting u t) : t.key = u.key := by obtain ⟨_, _, _, _, _, _, _, rfl⟩ := h.same; rfl
theorem Waiting.shutDue (h : Waiting u t) : t.hostp.shutDue = u.hostp.shutDue := by obtain ⟨_, _, _, _, _, _, _, rfl⟩ := h.same; rfl

end

/-- A command that waits in its slot: its slot, and what it did before as `u` has it (R383, R385). -/
theorem later_waits {f : State → State} {s : State} {h : Hdr} {c : CmdSpec} {body : State → Res} {w : Wait} {P : State → Prop}
    (hf : f s.draw = runCmd h c body s.draw) (ha : s.admits h c.maxData) (hc : c.Clear s)
    (hbody : ∀ v, Taken s h v → ∃ u, body v = .later w u ∧ PathKept s u h ∧ u.crsl = s.crsl ∧
      ∀ t, s.inFlightFor t h c.opcode c.maxData w → Waiting u t → P t) : Reaches (live f s) P := by
  have hv := admits_taken c ha
  obtain ⟨u, hu, k, hcrsl, hP⟩ := hbody _ hv
  have hrun := hf.trans (runCmd_later h c body s.draw (admits_canTake ha) (admits_firstFail ha hc) hu)
  have hgiven := hrun.trans (runCmd_later h c (fun _ => .later w u) s.draw (admits_canTake ha) (admits_firstFail ha hc) rfl).symm
  have hwait := later_pnt_reaches (P := fun t => Waiting u t → P t) hgiven ha hc fun w hw =>
    ⟨u, rfl, k, hcrsl.trans hw.crsl.symm, fun t hwait _ => hP t hwait⟩
  have hends := live_ends ha.1.1 hrun (k.nest.trans (admits_calm ha).symm)
  refine (hwait.and hends).imp fun t ⟨hPt, hend⟩ => hPt ?_
  obtain ⟨⟨_, _, _, _, _, _, rfl⟩, hsq, -, htotal⟩ := hend
  exact ⟨⟨_, _, _, _, _, _, _, rfl⟩, hsq, htotal⟩

end Sys2Proof.Machine
end

section
/-! SUPPORT. Chapter 13: sequence-clear writes, posted writes of the calendar, plain, read-only and locked registers (O23 to O25). -/
namespace Sys2Proof.Machine

/-! ### Sequence-clear (R361) -/

/-- What clearing fields frees beside them is not among the status records. -/
theorem State.cleared_same (s : State) (blk : Nat) (old : StatRec) :
    ∃ tr r f, s.cleared blk old = { s with trap := tr, regs := r, flt := f } ∧ f.nest = s.flt.nest := by
  unfold State.cleared State.setFld State.setReg
  split
  · exact ⟨_, _, _, rfl, rfl⟩
  · split
    · exact ⟨_, _, _, rfl, rfl⟩
    · split
      · exact ⟨_, _, _, rfl, rfl⟩
      · exact ⟨_, _, _, rfl, rfl⟩

theorem regWrite_status (p : Path) (v : W32) {blk : Nat} (s : State) (h : blk < 22) (h4 : blk ≠ 4) (h20 : blk ≠ 20)
    (h7 : blk = 7 → s.isMr = true) : regWrite p (statusOff blk) v s = s.seqClear p blk v := by
  obtain ⟨hwin, hstatus, hblk, hprsm⟩ := statusOff_place h h4 h20
  have hmap : statusOff blk % 4 = 0 ∧ inBlock (statusOff blk) = true := by clear h7 hprsm hblk hstatus hwin; revert blk; decide
  have hmr : ¬(statusOff blk = 0x3800 ∧ s.isMr = false) := fun ⟨e, hf⟩ => ne_true_of_eq_false hf (h7 (hprsm e))
  unfold regWrite
  rw [if_neg (Nat.not_le.mpr hwin), if_neg (not_or.mpr ⟨not_not.mpr hmap.1, ne_false_of_eq_true hmap.2⟩), if_pos hstatus, if_neg hmr,
    hblk]

theorem statusOff_ne_qcmd {blk : Nat} (h : blk < 22) : statusOff blk ≠ 0x681C := by revert blk; decide

theorem sequenceClearWrite_eq (p : Path) (v : W32) {blk : Nat} (s : State) (h : blk < 22) (h4 : blk ≠ 4) (h20 : blk ≠ 20)
    (h7 : blk = 7 → s.isMr = true) :
    whenever (statusReg (statusOff blk)) (writeWord p (statusOff blk) v) s = s.seqClear p blk v := by
  obtain ⟨-, hstatus, -, -⟩ := statusOff_place h h4 h20
  refine (if_pos hstatus).trans ?_
  rw [writeWord_eq_regWrite p v s (statusOff_ne_qcmd h), regWrite_status p v s h h4 h20 h7]

section
variable {s : State} {p : Path} {v : W32} {blk : Nat} (hup : s.up = true) (h : blk < 22) (h4 : blk ≠ 4) (h20 : blk ≠ 20)
  (h7 : blk = 7 → s.isMr = true)
include hup h h4 h20 h7

/-- A clearing write that changes no domain-health field shows the status record it leaves. -/
theorem sequenceClearWrite_shows {u : State} (hu : s.draw.seqClear p blk v = u) (hn : u.flt.nest = s.flt.nest) (hh : u.health = s.health) :
    Reaches (exec (.sequenceClearWrite p (statusOff blk) v) s) fun t => t.statOf blk = u.statOf blk ∧ ∀ o, 0x69FC ≠ o → t.total o = u.total o := by
  obtain ⟨hp, hcalm⟩ := State.up_iff.mp hup
  have hrun := (sequenceClearWrite_eq p v s.draw h h4 h20 h7).trans hu
  refine live_reaches (fun s => whenever (statusReg (statusOff blk)) (writeWord p (statusOff blk) v) s) s hp ?_ ?_ <;> rw [hrun]
  · exact hn.trans hcalm
  · exact ⟨by rw [State.outside_statOf, settle_statOf_of_health hh], fun o ho => by rw [State.outside_total, settle_total s u ho]⟩

theorem sequenceClearWrite_clears {l : Nat} (hl : sget none (s.pathOf p).seqLatch blk = some l) (hv : l % 256 = bits v 31 24) :
    Reaches (exec (.sequenceClearWrite p (statusOff blk) v) s) fun t =>
      (t.statOf blk).set = (s.statOf blk).set.filter (fun e => l < e.2) ∧ (t.statOf blk).stale = false ∧
        (t.statOf blk).seq = (s.statOf blk).seq := by
  let x : StatRec := { s.statOf blk with stale := false, set := (s.statOf blk).set.filter fun e => l < e.2 }
  let w : State := { s.draw with stat := sset {} s.stat blk x }
  have hclear : s.draw.seqClear p blk v = w.cleared blk (s.statOf blk) := by
    unfold State.seqClear
    rw [show sget none (s.draw.pathOf p).seqLatch blk = some l from hl]
    exact if_pos hv
  obtain ⟨tr, r, f, e, hn⟩ := w.cleared_same blk (s.statOf blk)
  refine (sequenceClearWrite_shows hup h h4 h20 h7 hclear (by rw [e]; exact hn) (by rw [e]; rfl)).imp fun t ⟨hstat, _⟩ => ?_
  have hx : t.statOf blk = x := hstat.trans (by rw [e]; exact sget_sset_self ({} : StatRec) s.stat blk x)
  rw [hx]
  exact ⟨rfl, rfl, rfl⟩

theorem sequenceClearWrite_stale
    (hno : sget none (s.pathOf p).seqLatch blk = none ∨ ∃ l, sget none (s.pathOf p).seqLatch blk = some l ∧ l % 256 ≠ bits v 31 24) :
    Reaches (exec (.sequenceClearWrite p (statusOff blk) v) s) fun t =>
      (t.statOf blk).set = (s.statOf blk).set ∧ (t.statOf blk).stale = true ∧ (t.statOf blk).seq = (s.statOf blk).seq ∧
        t.total 0x69E0 = s.total 0x69E0 + 1 := by
  let x : StatRec := { s.statOf blk with stale := true }
  let w : State := { s.draw with stat := sset {} s.stat blk x }
  have hstale : s.draw.seqClear p blk v = w.count 0x69E0 1 := by
    unfold State.seqClear
    obtain hnone | ⟨l, hl, hv⟩ := hno
    · rw [show sget none (s.draw.pathOf p).seqLatch blk = none from hnone]; rfl
    · rw [show sget none (s.draw.pathOf p).seqLatch blk = some l from hl]; exact if_neg hv
  refine (sequenceClearWrite_shows hup h h4 h20 h7 hstale rfl rfl).imp fun t ⟨hstat, htotal⟩ => ?_
  have hx : t.statOf blk = x := hstat.trans (sget_sset_self ({} : StatRec) s.stat blk x)
  rw [hx]
  exact ⟨rfl, rfl, rfl, (htotal _ (by decide)).trans (w.total_count _ 1)⟩

end

/-! ### Posted writes of the calendar (R362, R428) -/

theorem calendar_onMap (r : Fin 8) : (0x8000 + 4 * r.val) % 4 = 0 ∧ inBlock (0x8000 + 4 * r.val) = true ∧
    statusReg (0x8000 + 4 * r.val) = false ∧ isConfig (0x8000 + 4 * r.val) = false ∧ inFam (0x8000 + 4 * r.val) 0x8000 4 8 = true ∧
    psReg (0x8000 + 4 * r.val) = true ∧ domainOf (0x8000 + 4 * r.val) = 16 ∧ inFam (0x8000 + 4 * r.val) 0x6840 4 32 = false ∧
    highWater (0x8000 + 4 * r.val) = false := by
  revert r; decide

theorem writeWord_calendar (p : Path) (v : W32) (r : Fin 8) {s : State} (hpar : s.parityHeld 16 = false) :
    writeWord p (0x8000 + 4 * r.val) v s = s.rtcCountWrite (0x8000 + 4 * r.val) v := by
  obtain ⟨halign, hblock, hstatus, hconf, hfam, -, -, hqcfg, hwater⟩ := calendar_onMap r
  have := r.isLt
  rw [writeWord_high p v s (by omega) ⟨halign, hblock, hstatus⟩ hconf]
  unfold writeHigh calendarWrite
  rw [if_neg (by omega), if_neg (by omega), if_neg (by omega), if_neg (by omega), if_neg (ne_true_of_eq_false hqcfg),
    if_neg (ne_true_of_eq_false hwater), if_neg (by omega), if_pos hfam, hpar, if_neg Bool.false_ne_true]

theorem State.post_calendar_free {s : State} {r : Fin 8} (v : W32) (hfree : s.busyDom 16 = false) :
    s.post (0x8000 + 4 * r.val) v =
      { s with posted := sset none s.posted 16 (some { off := 0x8000 + 4 * r.val, val := v }) } := by
  obtain ⟨-, -, -, -, -, -, hdom, -⟩ := calendar_onMap r
  unfold State.post
  dsimp only
  rw [hdom, hfree, if_neg Bool.false_ne_true]

theorem State.post_calendar_busy {s : State} {r : Fin 8} (v : W32) (hbusy : s.busyDom 16 = true) :
    s.post (0x8000 + 4 * r.val) v = ((s.setSQ 16 0).count 0x69DC 1).count 0x804C 1 := by
  obtain ⟨-, -, -, -, -, -, hdom, -⟩ := calendar_onMap r
  have hblk : (0x8000 + 4 * r.val) / 0x800 = 16 := by have := r.isLt; omega
  unfold State.post
  dsimp only
  rw [hdom, hbusy, if_pos rfl, hblk]
  rfl

section
variable {s : State} {p : Path} {v : W32} {r : Fin 8} (hup : s.up = true) (hpar : s.parityHeld 16 = false)
include hup hpar

/-- A write of a calendar register, by either of its rows (R362, R428). -/
theorem calendarWrite_ends {u : State} (hu : s.draw.rtcCountWrite (0x8000 + 4 * r.val) v = u) (hn : u.flt.nest = s.flt.nest) :
    Reaches (exec (.rtcCountWrite p r v) s) (Ended u) ∧ Reaches (exec (.postedWrite p (0x8000 + 4 * r.val) v) s) (Ended u) := by
  have hwrite := (writeWord_calendar p v r (s := s.draw) hpar).trans hu
  obtain ⟨-, -, -, -, -, hps, -⟩ := calendar_onMap r
  exact ⟨live_ends (f := writeWord p (0x8000 + 4 * r.val) v) hup hwrite hn,
    live_ends (f := fun s => whenever (psReg (0x8000 + 4 * r.val)) (writeWord p (0x8000 + 4 * r.val) v) s) hup
      ((if_pos hps).trans hwrite) hn⟩

theorem calendarWrite_posted (hfree : s.busyDom 16 = false) (hhalt : s.rtc.halt = true) :
    Reaches (exec (.rtcCountWrite p r v) s) (fun t => sget none t.posted 16 = some { off := 0x8000 + 4 * r.val, val := v } ∧
        t.rtc = s.rtc) ∧
      Reaches (exec (.postedWrite p (0x8000 + 4 * r.val) v) s) fun t =>
        sget none t.posted 16 = some { off := 0x8000 + 4 * r.val, val := v } ∧ t.rtc = s.rtc := by
  have hpost : s.draw.rtcCountWrite (0x8000 + 4 * r.val) v = _ :=
    ((if_neg (ne_true_of_eq_false hfree)).trans (if_neg (ne_false_of_eq_true hhalt))).trans (State.post_calendar_free (s := s.draw) v hfree)
  obtain ⟨hcount, hposted⟩ := calendarWrite_ends (p := p) hup hpar hpost rfl
  have hshow : ∀ t : State, Ended { s.draw with posted := sset none s.posted 16 (some { off := 0x8000 + 4 * r.val, val := v }) } t →
      sget none t.posted 16 = some { off := 0x8000 + 4 * r.val, val := v } ∧ t.rtc = s.rtc := fun t hend => by
    exact ⟨(congrArg (sget none · 16) hend.posted).trans
        (sget_sset_self none s.posted 16 (some { off := 0x8000 + 4 * r.val, val := v })), hend.rtc⟩
  exact ⟨hcount.imp hshow, hposted.imp hshow⟩

theorem rtcCountWrite_refused (hfree : s.busyDom 16 = false) (hhalt : s.rtc.halt = false) :
    Reaches (exec (.rtcCountWrite p r v) s) fun t =>
      t.posted = s.posted ∧ t.sq 16 1 = true ∧ t.total 0x8050 = s.total 0x8050 + 1 := by
  have hrefuse : s.draw.rtcCountWrite (0x8000 + 4 * r.val) v = (s.draw.setSQ 16 1).count 0x8050 1 :=
    (if_neg (ne_true_of_eq_false hfree)).trans (if_pos hhalt)
  refine (calendarWrite_ends (p := p) hup hpar hrefuse rfl).1.imp fun t hend => ?_
  exact ⟨hend.posted, (hend.sq 16 1 (by decide)).trans (State.sq_setSQ_self _ 16 1),
    (hend.total 0x8050 (by decide)).trans (State.total_count _ _ 1)⟩

theorem postedWrite_lost (hbusy : s.busyDom 16 = true) : Reaches (exec (.postedWrite p (0x8000 + 4 * r.val) v) s) fun t =>
    t.posted = s.posted ∧ t.sq 16 0 = true ∧ t.total 0x69DC = s.total 0x69DC + 1 := by
  have hlost : s.draw.rtcCountWrite (0x8000 + 4 * r.val) v = _ := (if_pos hbusy).trans (State.post_calendar_busy (s := s.draw) v hbusy)
  refine (calendarWrite_ends (p := p) hup hpar hlost rfl).2.imp fun t hend => ?_
  exact ⟨hend.posted.trans (by simp), (hend.sq 16 0 (by decide)).trans (State.sq_setSQ_self _ 16 0),
    (hend.total 0x69DC (by decide)).trans ((State.total_count_ne _ 1 (by decide)).trans (State.total_count _ _ 1))⟩

end

/-- The confirmation of a calendar write gives the register its value and ends BUSY (R362, R429). -/
theorem postedWriteComplete_calendar {s : State} {v : W32} {r : Fin 8} (hup : s.up = true)
    (hpost : sget none s.posted 16 = some { off := 0x8000 + 4 * r.val, val := v }) (hr : r.val < s.rtc.cal.length) :
    Reaches (exec (.postedWriteComplete 16) s) fun t => t.busyDom 16 = false ∧ t.rtc.cal.getD r.val 0 = BitVec.ofNat 8 (bits v 7 0) := by
  obtain ⟨-, -, -, -, hfam, -⟩ := calendar_onMap r
  let w : State := { s.draw with posted := sset none s.posted 16 none }
  have hreg : (0x8000 + 4 * r.val - 0x8000) / 4 = r.val := by omega
  have hdone : postedComplete 16 s.draw = w.setRtc { s.rtc with cal := calSet s.rtc.cal r.val (BitVec.ofNat 8 (bits v 7 0)) } := by
    unfold postedComplete
    rw [if_neg (by decide), show sget none s.draw.posted 16 = _ from hpost]
    dsimp only
    unfold State.rtcPosted
    rw [if_pos rfl, if_pos hfam, hreg]
    rfl
  refine (live_ends (f := postedComplete 16) hup hdone rfl).imp fun t hend => ?_
  rw [State.busyDom, hend.posted, hend.rtc]
  exact ⟨congrArg Option.isSome (sget_sset_self none s.posted 16 none), lmod_getD_self _ _ _ _ hr⟩

/-! ### Plain, read-only and locked registers (R355, R356) -/

theorem State.judged_now_plain {s : State} {off : Nat} (v : W32) (hf : fieldsOf off = [rw 31 0]) : s.judged off v = { now := 0xFFFFFFFF } := by
  unfold State.judged judge
  rw [hf, List.foldl_cons, List.foldl_nil]
  cases s.locked (off / 0x800) with
  | false => exact (judgeFld_unlocked v {} 31 0 false).1
  | true => exact (judgeFld_unlocked v {} 31 0 false).1

/-- A whole word without a lock is written at once (R355). -/
theorem plainWrite_now_reg {s : State} {off : Nat} (v : W32) (hf : fieldsOf off = [rw 31 0]) :
    (plainWrite off v s).reg off = v ∧ (plainWrite off v s).flt = s.flt := by
  have hput : plainWrite off v s = s.putFields off { now := 0xFFFFFFFF } v := by
    unfold plainWrite
    rw [State.judged_now_plain v hf, hf]
    rfl
  rw [hput]
  exact ⟨by rw [State.putFields_reg_self s off v (by decide), mergeBits_whole], State.putFields_flt ..⟩

/-- A whole word of a locked block is denied, and nothing else happens (R356). -/
theorem plainWrite_locked {s : State} {off : Nat} (v : W32) (hf : fieldsOf off = [rwLk 31 0]) (hl : s.locked (off / 0x800) = true) :
    plainWrite off v s = s.lkDeny := by
  have hjudge : s.judged off v = { denied := true } := by
    unfold State.judged judge
    rw [hf, hl]
    rfl
  unfold plainWrite
  rw [hjudge, hf]
  rfl

section
variable {s : State} (p : Path) (v : W32) (hup : s.up = true)
include hup

theorem registerWrite_irqQen : Reaches (exec (.registerWrite p 0x6810 v) s) fun t => t.reg 0x6810 = v := by
  have hwrite : writeWord p 0x6810 v s.draw = plainWrite 0x6810 v s.draw := writeWord_high p v s.draw (by decide) (by decide) (by decide)
  obtain ⟨hreg, hflt⟩ := plainWrite_now_reg (s := s.draw) (off := 0x6810) v rfl
  refine (live_ends (f := writeWord p 0x6810 v) hup hwrite (congrArg Flt.nest hflt)).imp fun t hend => ?_
  rw [hend.reg]; exact hreg

theorem registerWrite_readOnly : Reaches (exec (.registerWrite p 0x6818 v) s) fun t =>
    t.regs = s.regs ∧ t.sq 13 8 = true ∧ t.total 0x69D4 = s.total 0x69D4 + 1 := by
  have hwrite : writeWord p 0x6818 v s.draw = s.draw.wrRo := writeWord_high p v s.draw (by decide) (by decide) (by decide)
  refine (live_ends (f := writeWord p 0x6818 v) hup hwrite rfl).imp fun t hend => ?_
  exact ⟨hend.regs, (hend.sq 13 8 (by decide)).trans (State.sq_setSQ_self _ 13 8), (hend.total 0x69D4 (by decide)).trans (State.total_count _ _ 1)⟩

theorem registerWrite_locked (hf : s.cfgFrozen = false) (hl : s.locked 2 = true) : Reaches (exec (.registerWrite p 0x1010 v) s) fun t =>
    t.regs = s.regs ∧ t.shadow = s.shadow ∧ t.sq 13 9 = true ∧ t.total 0x69D8 = s.total 0x69D8 + 1 := by
  have hwrite : writeWord p 0x1010 v s.draw = s.draw.lkDeny :=
    (writeWord_low p v (s := s.draw) (by decide) (by decide) hf).trans (plainWrite_locked (s := s.draw) (off := 0x1010) v rfl hl)
  refine (live_ends (f := writeWord p 0x1010 v) hup hwrite rfl).imp fun t hend => ?_
  exact ⟨hend.regs, hend.shadow, (hend.sq 13 9 (by decide)).trans (State.sq_setSQ_self _ 13 9),
    (hend.total 0x69D8 (by decide)).trans (State.total_count _ _ 1)⟩

end

/-! ### The pool of queue words (R366) -/

theorem qcfg_onMap (n : Fin 32) : (0x6840 + 4 * n.val) % 4 = 0 ∧ inBlock (0x6840 + 4 * n.val) = true ∧
    statusReg (0x6840 + 4 * n.val) = false ∧ inFam (0x6840 + 4 * n.val) 0x6840 4 32 = true ∧
    fieldsOf (0x6840 + 4 * n.val) = [rwLkSh 31 31, rwLk 27 24, rwSh 12 0] ∧ (0x6840 + 4 * n.val) / 0x800 = 13 := by
  revert n; decide

theorem writeWord_qcfg (p : Path) (v : W32) (n : Fin 32) {s : State} (hf : s.cfgFrozen = false) :
    writeWord p (0x6840 + 4 * n.val) v s = qcfgWrite n.val v s := by
  obtain ⟨halign, hblock, hstatus, hfam, -⟩ := qcfg_onMap n
  have := n.isLt
  rw [writeWord_eq_regWrite p v s (by omega)]
  unfold regWrite
  rw [if_neg (by omega), if_neg (not_or.mpr ⟨not_not.mpr halign, ne_false_of_eq_true hblock⟩), hstatus, if_neg Bool.false_ne_true, hf,
    if_neg (by simp only [Bool.false_eq_true, false_and, not_false_eq_true]), if_neg (by omega), if_neg (by omega)]
  unfold writeHigh
  rw [if_neg (by omega), if_neg (by omega), if_neg (by omega), if_neg (by omega), if_pos hfam,
    show (0x6840 + 4 * n.val - 0x6840) / 4 = n.val by omega]

/-- DEPTH_NEXT is the field of HOST_QCFG written at once (R366). -/
theorem State.judged_qcfg {s : State} (n : Fin 32) (v : W32) (hl : s.locked 13 = false) :
    (s.judged (0x6840 + 4 * n.val) v).now = fieldMask 27 24 := by
  obtain ⟨-, -, -, -, hfields, hblk⟩ := qcfg_onMap n
  unfold State.judged judge
  rw [hfields, hblk, hl, List.foldl_cons, List.foldl_cons, List.foldl_cons, List.foldl_nil, judgeFld_now_of_sh rfl]
  refine (congrArg Judged.now (judgeFld_unlocked v _ 27 24 true).1).trans ?_
  dsimp only
  rw [judgeFld_now_of_sh rfl]
  rfl

section
variable {s : State} {n : Fin 32} {v : W32} (hl : s.locked 13 = false)
include hl

theorem qcfgWrite_taken (htop : bits v 27 24 ≤ 12) (hleast : leastDepth n.val ≤ 2 ^ bits v 27 24)
    (hsum : s.depthSum n.val (bits v 27 24) ≤ 16384) :
    (qcfgWrite n.val v s).fld (0x6840 + 4 * n.val) 27 24 = bits v 27 24 ∧ (qcfgWrite n.val v s).flt = s.flt := by
  have hfits : (decide (12 < bits v 27 24) || decide (2 ^ bits v 27 24 < leastDepth n.val) ||
      decide (16384 < s.depthSum n.val (bits v 27 24))) = false := by
    simp only [Bool.or_eq_false_iff, decide_eq_false_iff_not]; omega
  have hput : qcfgWrite n.val v s = s.putFields (0x6840 + 4 * n.val) (s.judged (0x6840 + 4 * n.val) v) v := by
    unfold qcfgWrite
    dsimp only
    rw [hfits, Bool.and_false]
    rfl
  have hnow := State.judged_qcfg n v hl
  rw [hput]
  refine ⟨?_, State.putFields_flt ..⟩
  unfold State.fld
  rw [State.putFields_reg_self s _ v (by rw [hnow]; decide), hnow]
  exact bits_mergeBits_self _ v 24 (by decide)

theorem qcfgWrite_refused (htop : 12 < bits v 27 24) :
    (qcfgWrite n.val v s).fld (0x6840 + 4 * n.val) 27 24 = s.fld (0x6840 + 4 * n.val) 27 24 ∧ (qcfgWrite n.val v s).sq 13 2 = true ∧
      (qcfgWrite n.val v s).flt = s.flt := by
  have hnow := State.judged_qcfg n v hl
  have hbad : (decide ((s.judged (0x6840 + 4 * n.val) v).now ≠ 0) && (decide (12 < bits v 27 24) ||
      decide (2 ^ bits v 27 24 < leastDepth n.val) || decide (16384 < s.depthSum n.val (bits v 27 24)))) = true := by
    rw [hnow, decide_eq_true htop]; rfl
  have hput : qcfgWrite n.val v s =
      (s.putFields (0x6840 + 4 * n.val) { s.judged (0x6840 + 4 * n.val) v with now := 0 } v).setSQ 13 2 := by
    unfold qcfgWrite
    dsimp only
    rw [hbad]
    rfl
  rw [hput]
  refine ⟨?_, State.sq_setSQ_self _ 13 2, State.putFields_flt ..⟩
  exact congrArg (bits · 27 24) (State.reg_of_regs (State.putFields_regs_of_now_zero s _ v rfl) _)

end

theorem hostQcfgWrite_taken {s : State} (p : Path) (v : W32) (hup : s.up = true) (hf : s.cfgFrozen = false) (n : Fin 32)
    (hl : s.locked 13 = false) (htop : bits v 27 24 ≤ 12) (hleast : leastDepth n.val ≤ 2 ^ bits v 27 24)
    (hsum : s.depthSum n.val (bits v 27 24) ≤ 16384) :
    Reaches (exec (.hostQcfgWrite p n v) s) fun t => t.fld (0x6840 + 4 * n.val) 27 24 = bits v 27 24 := by
  obtain ⟨hfld, hflt⟩ := qcfgWrite_taken (s := s.draw) (n := n) hl htop hleast hsum
  refine (live_ends (f := writeWord p (0x6840 + 4 * n.val) v) hup (writeWord_qcfg p v n (s := s.draw) hf)
    (congrArg Flt.nest hflt)).imp fun t hend => ?_
  rw [State.fld, hend.reg]; exact hfld

theorem hostQcfgWrite_refused {s : State} (p : Path) (v : W32) (hup : s.up = true) (hf : s.cfgFrozen = false) (n : Fin 32)
    (hl : s.locked 13 = false) (htop : 12 < bits v 27 24) : Reaches (exec (.hostQcfgWrite p n v) s) fun t =>
      t.fld (0x6840 + 4 * n.val) 27 24 = s.fld (0x6840 + 4 * n.val) 27 24 ∧ t.sq 13 2 = true := by
  obtain ⟨hfld, hsq, hflt⟩ := qcfgWrite_refused (s := s.draw) (n := n) hl htop
  refine (live_ends (f := writeWord p (0x6840 + 4 * n.val) v) hup (writeWord_qcfg p v n (s := s.draw) hf)
    (congrArg Flt.nest hflt)).imp fun t hend => ?_
  rw [State.fld, hend.reg]
  exact ⟨hfld, (hend.sq 13 2 (by decide)).trans hsq⟩

end Sys2Proof.Machine

open Sys2Proof.Machine

/-- Settles O23, by whether the sequence written is the one the path latched. -/
theorem sequenceClear : Obligations.SequenceClear := fun _ _ _ _ hup h h4 h20 h7 =>
  ⟨fun _ hl hv => sequenceClearWrite_clears hup h h4 h20 h7 hl hv, sequenceClearWrite_stale hup h h4 h20 h7⟩

/-- Settles O24, a write a clause. -/
theorem postedWrites : Obligations.PostedWrites := fun _ _ _ _ hup _ hpar =>
  ⟨calendarWrite_posted hup hpar, rtcCountWrite_refused hup hpar, postedWrite_lost hup hpar, postedWriteComplete_calendar hup⟩

/-- Settles O25, a register a clause. -/
theorem plainRegisters : Obligations.PlainRegisters := fun _ p v hup hf =>
  ⟨registerWrite_irqQen p v hup, registerWrite_readOnly p v hup, registerWrite_locked p v hup hf, hostQcfgWrite_taken p v hup hf,
    hostQcfgWrite_refused p v hup hf⟩
end

section
/-! SUPPORT. Chapter 13: queue operations, and the transactions of the host port (O26, O27). -/
namespace Sys2Proof.Machine

/-! ### The command service at rest (R383) -/

/-- A queue that takes no commands leaves the count of the packets that wait. -/
theorem State.waitingCmds_setQ (s : State) {n : Nat} (q : Queue) (h : ∀ k < 8, cmdQueue k ≠ n) : (s.setQ n q).waitingCmds = s.waitingCmds := by
  unfold State.waitingCmds
  congr 1
  refine List.map_congr_left fun k hk => ?_
  rw [State.q_setQ_ne s q (h k (List.mem_range.mp hk)).symm]

theorem cmdQueue_ne_of_hostRead {n : Nat} (h : hostRead n = true) : ∀ k < 8, cmdQueue k ≠ n := by
  unfold hostRead at h
  rw [decide_eq_true_iff] at h
  intro k hk
  unfold cmdQueue
  split <;> omega

theorem cmdQueue_ne_of_late {n : Nat} (h : n = 24 ∨ n = 31) : ∀ k < 8, cmdQueue k ≠ n := by
  intro k hk
  unfold cmdQueue
  split <;> omega

theorem State.waitingCmds_of_queues {s t : State} (h : t.hostp.queues = s.hostp.queues) : t.waitingCmds = s.waitingCmds := by
  unfold State.waitingCmds State.q; rw [h]

theorem serve_stopped {s : State} (h : s.sys.cmdOk = false) : serve s = s := if_neg (ne_true_of_eq_false h)

/-! ### Queue operations (R370) -/

section
variable {s : State} {n : Fin 32} (hup : s.up = true)
include hup

/-- A queue operation that replaces its queue leaves it so. -/
theorem setQ_reaches {f : State → State} {q : Queue} (hn : n.val < s.hostp.queues.length) (hf : f s.draw = s.draw.setQ n.val q) :
    Reaches (live f s) fun t => t.q n.val = q :=
  (live_ends hup hf rfl).imp fun _ hend => (hend.q _).trans (State.q_setQ_self _ q hn)

theorem mark_reaches (hn : n.val < s.hostp.queues.length) (hread : hostRead n.val = true) :
    Reaches (exec (.mark n) s) fun t => t.q n.val = { s.q n.val with mark := (s.q n.val).cur, marked := true } :=
  setQ_reaches (f := fun s => qMark n.val s) hup hn (if_pos hread)

theorem mark_refused (hread : hostRead n.val = false) :
    Reaches (exec (.mark n) s) fun t => t.hostp.queues = s.hostp.queues ∧ t.sq 13 1 = true :=
  (live_ends (f := fun s => qMark n.val s) (u := s.draw.qcmdRej) hup (if_neg (ne_true_of_eq_false hread)) rfl).imp fun _ hend =>
    ⟨hend.queues, (hend.sq 13 1 (by decide)).trans (State.sq_setSQ_self _ 13 1)⟩

theorem rewind_reaches (hn : n.val < s.hostp.queues.length) (hread : hostRead n.val = true) :
    Reaches (exec (.rewind n) s) fun t => t.q n.val =
      { s.q n.val with cur := if (s.q n.val).marked then (s.q n.val).mark else (s.q n.val).rl } :=
  setQ_reaches (f := fun s => qRewind n.val s) hup hn (if_pos hread)

theorem release_reaches (hn : n.val < s.hostp.queues.length) (hidle : s.noCommands = true) (hread : hostRead n.val = true) :
    Reaches (exec (.release n) s) fun t => t.q n.val = (s.q n.val).release := by
  obtain ⟨k, hrelease⟩ : ∃ k, qRelease n.val s.draw = (s.draw.setQ n.val (s.q n.val).release).count 0x69F8 k := ⟨_, if_pos hread⟩
  have hserve : serve (qRelease n.val s.draw) = qRelease n.val s.draw := by
    refine serve_idle _ ?_
    rw [hrelease]
    exact (State.waitingCmds_setQ s _ (cmdQueue_ne_of_hostRead hread)).trans (of_decide_eq_true hidle)
  exact (live_ends (f := fun s => serve (qRelease n.val s)) hup (hserve.trans hrelease) rfl).imp fun _ hend =>
    (hend.q _).trans (State.q_setQ_self s.draw (s.q n.val).release hn)

theorem reset_reaches (hn : n.val < s.hostp.queues.length) (hidle : s.noCommands = true) (hread : hostRead n.val = true) :
    Reaches (exec (.reset n) s) fun t => t.q n.val = (s.q n.val).clear := by
  have hreset : qReset n.val s.draw = s.draw.setQ n.val (s.q n.val).clear := if_pos hread
  refine setQ_reaches (f := fun s => serve (qReset n.val s)) hup hn ((serve_idle _ ?_).trans hreset)
  rw [hreset]
  exact (State.waitingCmds_setQ s _ (cmdQueue_ne_of_hostRead hread)).trans (of_decide_eq_true hidle)

theorem abort_reaches (hn : n.val < s.hostp.queues.length) (hwritten : hostWritten n.val = true) :
    Reaches (exec (.abort n) s) fun t => t.q n.val = { s.q n.val with
      words := (s.q n.val).words.take ((s.q n.val).ps - (s.q n.val).rl), wr := (s.q n.val).ps, overrun := false, discarding := false } :=
  setQ_reaches (f := fun s => qAbort n.val s) hup hn (if_pos hwritten)

end

/-! ### The end of a transaction (R295, R374) -/

/-- Feeding the host-silence watchdog touches the fan channels and what waits for Commit alone (R295). -/
theorem State.hostHeard_same (s : State) : ∃ b fs p, s.hostHeard = { s with fanSilent := b, fan := fs, pnt := p } := by
  unfold State.hostHeard
  split
  · exact ⟨_, _, _, rfl⟩
  · exact ⟨_, _, _, rfl⟩

/-- `t` is `u` once its transaction has been served whole: counted, the watchdog fed. -/
structure Transacted (u t : State) : Prop where
  hostp : t.hostp = u.hostp
  regs : t.regs = u.regs
  sys : t.sys = u.sys
  flt : t.flt = u.flt
  counted : t.total 0x69C0 = u.total 0x69C0 + 1
  total : ∀ o, 0x69C0 ≠ o → t.total o = u.total o

theorem endTransaction_transacted (u : State) : Transacted u (endTransaction false u) := by
  obtain ⟨b, fs, p, e⟩ := (u.count 0x69C0 1).hostHeard_same
  have hend : endTransaction false u = { u.count 0x69C0 1 with fanSilent := b, fan := fs, pnt := p } := e
  rw [hend]
  exact ⟨rfl, rfl, rfl, rfl, u.total_count _ 1, fun _ h => u.total_count_ne 1 h⟩

theorem Transacted.q {u t : State} (h : Transacted u t) (n : Nat) : t.q n = u.q n := by unfold State.q; rw [h.hostp]

theorem Transacted.nest {u t : State} (h : Transacted u t) : t.flt.nest = u.flt.nest := by rw [h.flt]

theorem badInstr_reaches {f : State → State} {s : State} (hup : s.up = true) (hf : f s.draw = s.draw.badInstr) :
    Reaches (live f s) fun t => t.regs = s.regs ∧ t.hostp.dout = [] ∧ t.sq 13 5 = true :=
  (live_ends hup hf rfl).imp fun _ hend =>
    ⟨hend.regs, hend.dout, (hend.sq 13 5 (by decide)).trans (State.sq_setSQ_self _ 13 5)⟩

/-! ### Queue transactions (R368, R371, R372) -/

section
variable {s : State} {n : Fin 32}

theorem queueAddr_toNat (n : Fin 32) : (BitVec.ofNat 16 n.val).toNat = n.val := by
  rw [BitVec.toNat_ofNat]; exact Nat.mod_eq_of_lt (by omega)

/-- The queue after k words of a packet have been read, and the words driven (R371). -/
theorem qspiQRd_reads (hread : hostRead n.val = true) {k : Nat} (hk : k ≤ (s.q n.val).len) :
    qspiQRd (BitVec.ofNat 16 n.val).toNat k false s = endTransaction false
      (((s.setQ n.val { s.q n.val with cur := (s.q n.val).cur + k }).setDout
        (s.qptr n.val :: ((s.q n.val).ahead.take k).flatMap fun e => [lo32 e.1.toNat, hi32 e.1.toNat])).count 0x69D0 k) := by
  have hmin : Nat.min k (s.q n.val).len = k := Nat.min_eq_left hk
  unfold qspiQRd
  rw [queueAddr_toNat, if_neg (by omega), hread, if_neg (Bool.true_eq_false.symm ▸ not_false)]
  dsimp only
  rw [hmin, Nat.sub_self, Nat.mul_zero, List.replicate_zero, List.append_nil]

theorem qRd_reaches (hup : s.up = true) (hn : n.val < s.hostp.queues.length) (hread : hostRead n.val = true) {k : Nat}
    (hk : k ≤ (s.q n.val).len) : Reaches (exec (.qRd (BitVec.ofNat 16 n.val) k false) s) fun t =>
      (t.q n.val).cur = (s.q n.val).cur + k ∧ (t.q n.val).words = (s.q n.val).words ∧
        t.hostp.dout = s.draw.qptr n.val :: ((s.q n.val).ahead.take k).flatMap fun e => [lo32 e.1.toNat, hi32 e.1.toNat] := by
  have hdone := endTransaction_transacted (((s.draw.setQ n.val { s.q n.val with cur := (s.q n.val).cur + k }).setDout
        (s.draw.qptr n.val :: ((s.q n.val).ahead.take k).flatMap fun e => [lo32 e.1.toNat, hi32 e.1.toNat])).count 0x69D0 k)
  refine (live_ends (f := fun s => qspiQRd (BitVec.ofNat 16 n.val).toNat k false s) hup (qspiQRd_reads (s := s.draw) hread hk)
    hdone.nest).imp fun t hend => ?_
  have hq : t.q n.val = { s.q n.val with cur := (s.q n.val).cur + k } :=
    (hend.q _).trans ((hdone.q _).trans (State.q_setQ_self s.draw _ hn))
  rw [hq]
  exact ⟨rfl, rfl, hend.dout.trans (congrArg HostPort.dout hdone.hostp)⟩

/-- A word the host writes to a queue in use with room stands behind the others (R368). -/
theorem Queue.writeWord_room {q : Queue} (w : W64) (last : Bool) (hd : q.discarding = false) (hf : 0 < q.free) :
    (q.writeWord w last).1.words = q.words ++ [(w, last)] ∧ (q.writeWord w last).1.wr = q.wr + 1 ∧
      (q.writeWord w last).1.ps = (if last then q.wr + 1 else q.ps) ∧ (q.writeWord w last).2 = false := by
  unfold Queue.writeWord
  rw [hd, if_neg Bool.false_ne_true, if_neg (by omega)]
  cases last <;> exact ⟨rfl, rfl, rfl, rfl⟩

section
variable (hwritten : hostWritten n.val = true) (hpar : s.parityHeld 13 = false) (hen : s.qEn n.val = true)
  (hd : (s.q n.val).discarding = false) (hfree : 0 < (s.q n.val).free) (w : W64)
include hwritten hpar hen hd hfree

theorem qspiWrite_word : qspiWrite (BitVec.ofNat 16 n.val).toNat [w] false false s =
    endTransaction false ((s.setQ n.val ((s.q n.val).writeWord w false).1).count 0x69CC 1) := by
  obtain ⟨-, hwr, -, hover⟩ := Queue.writeWord_room w false hd hfree
  have hwords : hostWords n.val [w] s = (s.setQ n.val ((s.q n.val).writeWord w false).1).count 0x69CC 1 := by
    unfold hostWords
    dsimp only
    rw [hover, if_neg Bool.false_ne_true, decide_eq_true hwr, if_pos rfl]
    rfl
  unfold qspiWrite
  rw [queueAddr_toNat, if_neg (by omega), if_neg (ne_false_of_eq_true hwritten), hpar, if_neg Bool.false_ne_true,
    if_neg (ne_false_of_eq_true hen), if_neg Bool.false_ne_true, hwords]

theorem qspiWrite_lastWord : qspiWrite (BitVec.ofNat 16 n.val).toNat [w] true false s =
    serve (endTransaction false ((s.setQ n.val ((s.q n.val).writeWord w true).1).count 0x69CC 1)) := by
  obtain ⟨-, hwr, -, hover⟩ := Queue.writeWord_room w true hd hfree
  have hends : hostEnd n.val [w].getLast? (hostWords n.val [w].dropLast s) =
      (s.setQ n.val ((s.q n.val).writeWord w true).1).count 0x69CC 1 := by
    unfold hostEnd
    rw [show [w].getLast? = some w from rfl, show hostWords n.val [w].dropLast s = s from rfl]
    dsimp only
    rw [hover, if_neg Bool.false_ne_true, decide_eq_true hwr, if_pos rfl]
  unfold qspiWrite
  rw [queueAddr_toNat, if_neg (by omega), if_neg (ne_false_of_eq_true hwritten), hpar, if_neg Bool.false_ne_true,
    if_neg (ne_false_of_eq_true hen), if_pos rfl, hends]

end

section
variable (hup : s.up = true) (hn : n.val < s.hostp.queues.length) (hwritten : hostWritten n.val = true)
  (hpar : s.parityHeld 13 = false) (hen : s.qEn n.val = true) (hd : (s.q n.val).discarding = false) (hfree : 0 < (s.q n.val).free)
  (w : W64)
include hup hn hwritten hpar hen hd hfree

theorem qWr_reaches : Reaches (exec (.qWr (BitVec.ofNat 16 n.val) [w] false) s) fun t =>
    (t.q n.val).words = (s.q n.val).words ++ [(w, false)] ∧ (t.q n.val).wr = (s.q n.val).wr + 1 ∧ (t.q n.val).ps = (s.q n.val).ps := by
  obtain ⟨hwords, hwr, hps, -⟩ := Queue.writeWord_room w false hd hfree
  have hdone := endTransaction_transacted ((s.draw.setQ n.val ((s.q n.val).writeWord w false).1).count 0x69CC 1)
  refine (live_ends (f := fun s => qspiWrite (BitVec.ofNat 16 n.val).toNat [w] false false s) hup
    (qspiWrite_word (s := s.draw) hwritten hpar hen hd hfree w) hdone.nest).imp fun t hend => ?_
  have hq : t.q n.val = ((s.q n.val).writeWord w false).1 := (hend.q _).trans ((hdone.q _).trans (State.q_setQ_self s.draw _ hn))
  rw [hq]
  exact ⟨hwords, hwr, hps⟩

theorem qWrEnd_reaches (hrest : n.val = 24 ∨ n.val = 31 ∨ s.sys.cmdOk = false) (hidle : s.noCommands = true) :
    Reaches (exec (.qWrEnd (BitVec.ofNat 16 n.val) [w] false) s) fun t =>
      (t.q n.val).words = (s.q n.val).words ++ [(w, true)] ∧ (t.q n.val).ps = (s.q n.val).wr + 1 := by
  obtain ⟨hwords, -, hps, -⟩ := Queue.writeWord_room w true hd hfree
  have hdone := endTransaction_transacted ((s.draw.setQ n.val ((s.q n.val).writeWord w true).1).count 0x69CC 1)
  have hserve : ∀ u, Transacted ((s.draw.setQ n.val ((s.q n.val).writeWord w true).1).count 0x69CC 1) u → serve u = u := fun u hu => by
    obtain h24 | h31 | hstop := hrest
    · refine serve_idle u ((State.waitingCmds_of_queues (congrArg HostPort.queues hu.hostp)).trans ?_)
      exact (State.waitingCmds_setQ s _ (cmdQueue_ne_of_late (.inl h24))).trans (of_decide_eq_true hidle)
    · refine serve_idle u ((State.waitingCmds_of_queues (congrArg HostPort.queues hu.hostp)).trans ?_)
      exact (State.waitingCmds_setQ s _ (cmdQueue_ne_of_late (.inr h31))).trans (of_decide_eq_true hidle)
    · exact serve_stopped (by rw [hu.sys]; exact hstop)
  refine (live_ends (f := fun s => qspiWrite (BitVec.ofNat 16 n.val).toNat [w] true false s) hup
    ((qspiWrite_lastWord (s := s.draw) hwritten hpar hen hd hfree w).trans (hserve _ hdone)) hdone.nest).imp fun t hend => ?_
  have hq : t.q n.val = ((s.q n.val).writeWord w true).1 := (hend.q _).trans ((hdone.q _).trans (State.q_setQ_self s.draw _ hn))
  rw [hq]
  exact ⟨hwords, hps⟩

end

end

/-! ### Register and summary transactions (R349, R351, R354) -/

/-- A read of one word nests no CRITICAL and lets no counter fall. -/
structure ReadQuietly (s t : State) : Prop where
  nest : t.flt.nest = s.flt.nest
  total : ∀ o, s.total o ≤ t.total o

theorem ReadQuietly.refl (s : State) : ReadQuietly s s := ⟨rfl, fun _ => Nat.le_refl _⟩

theorem ReadQuietly.trans {s t u : State} (h : ReadQuietly s t) (k : ReadQuietly t u) : ReadQuietly s u :=
  ⟨k.nest.trans h.nest, fun o => Nat.le_trans (h.total o) (k.total o)⟩

theorem ReadQuietly.of_cnt {s t : State} (hflt : t.flt = s.flt) (hcnt : t.cnt = s.cnt) : ReadQuietly s t :=
  ⟨congrArg Flt.nest hflt, fun o => Nat.le_of_eq (congrArg (sget 0 · o) hcnt).symm⟩

theorem count_readQuietly (s : State) (o n : Nat) : ReadQuietly s (s.count o n) := ⟨rfl, s.total_count_le o n⟩

theorem State.setReg_readQuietly (s : State) (off : Nat) (w : W32) : ReadQuietly s (s.setReg off w) := .of_cnt rfl rfl

theorem State.setSQ_readQuietly (s : State) (b i : Nat) : ReadQuietly s (s.setSQ b i) := .of_cnt rfl rfl

theorem State.ctxDeny_readQuietly (s : State) : ReadQuietly s s.ctxDeny :=
  (s.setSQ_readQuietly 5 0).trans (count_readQuietly (s.setSQ 5 0) 0x28B4 1)

theorem badRecord_total_le (s : State) (p o : Nat) : s.total o ≤ (s.badRecord p).total o := by
  unfold State.badRecord
  dsimp only
  split
  · exact Nat.le_refl _
  · let u : State := { s with pnt := { s.pnt with crcFound := s.pnt.crcFound.filter fun q => q != p } }
    exact ((report_logOnly (u.storeRec p (s.point p).marked) .warn 3 2 0xFF p).count 0x18B0 1).total o

theorem verifyRead_readQuietly (s : State) (p : Nat) : ReadQuietly s (s.verifyRead p) := by
  refine ⟨(verifyRead_verified s p).nest, fun o => ?_⟩
  unfold State.verifyRead
  split
  · exact Nat.le_refl _
  · split
    · exact badRecord_total_le s p o
    · split <;> exact Nat.le_refl _

theorem noteDenial_readQuietly (s : State) (b : Nat) (k : Kind) (p : Nat) (v : Verdict) : ReadQuietly s (s.noteDenial b k p v) := by
  cases v with
  | allow => exact .refl s
  | deny => exact (count_readQuietly s (0x1880 + 4 * k.num) 1).trans (((s.count (0x1880 + 4 * k.num) 1).setReg_readQuietly _ _).trans
      (State.setSQ_readQuietly _ 3 7))
  | denySource => exact (count_readQuietly s 0x1890 1).trans (((s.count 0x1890 1).setReg_readQuietly _ _).trans
      (State.setSQ_readQuietly _ 3 7))

theorem readPoint_readQuietly (s : State) (b p : Nat) : ReadQuietly s (s.readPoint b p).1 := by
  unfold State.readPoint
  split
  · exact verifyRead_readQuietly s p
  · exact noteDenial_readQuietly s b .read p _

theorem windowRead_readQuietly (p : Path) (off : Nat) (s : State) : ReadQuietly s (windowRead p off s).1 := by
  unfold windowRead
  extract_lets pt i t use
  have ht : ReadQuietly s t := by
    show ReadQuietly s (if s.winBooth.isNone then s.count 0x1894 1 else s)
    split
    · exact count_readQuietly s _ 1
    · exact .refl s
  clear_value t use
  cases use with
  | some l =>
    dsimp only
    split
    · exact ht.trans (.of_cnt rfl rfl)
    · exact ht
  | none =>
    have hrec : ReadQuietly t (t.winRecord pt).1 := by
      unfold State.winRecord
      split
      · exact readPoint_readQuietly t _ pt
      · exact .refl t
    exact (ht.trans hrec).trans (.of_cnt rfl rfl)

theorem highRead_readQuietly (off : Nat) (s : State) : ReadQuietly s (highRead off s).1 := by
  unfold highRead; split <;> exact .of_cnt rfl rfl

theorem prsmHigh_readQuietly (off : Nat) (s : State) : ReadQuietly s (prsmHigh off s).1 := by
  unfold prsmHigh
  split
  · split <;> exact .of_cnt rfl rfl
  · exact .refl s

theorem ringDataRead_readQuietly (p : Path) (s : State) : ReadQuietly s (ringDataRead p s).1 := by
  unfold ringDataRead; split <;> exact .of_cnt rfl rfl

theorem calendarRead_readQuietly (p : Path) (off : Nat) (s : State) : ReadQuietly s (calendarRead p off s).1 := by
  unfold calendarRead
  extract_lets r
  clear_value r
  split
  · exact .of_cnt rfl rfl
  · split
    · split <;> exact .of_cnt rfl rfl
    · exact .refl s

theorem ctxRead_readQuietly (off : Nat) (s : State) :
    ReadQuietly s (if s.ctxOpen then (s, s.view off) else (s.ctxDeny, 0) : State × W32).1 := by
  split
  · exact .refl s
  · exact s.ctxDeny_readQuietly

theorem regRead_readQuietly (p : Path) (off : Nat) (s : State) : ReadQuietly s (regRead p off s).1 := by
  unfold regRead
  split
  · split
    · exact windowRead_readQuietly p off s
    · exact .refl s
  split
  · split <;> exact .of_cnt rfl rfl
  split
  · exact .of_cnt rfl rfl
  split
  · exact highRead_readQuietly off s
  split
  · exact .of_cnt rfl rfl
  split
  · exact prsmHigh_readQuietly off s
  split
  · exact ringDataRead_readQuietly p s
  split
  · exact calendarRead_readQuietly p off s
  split
  · exact ctxRead_readQuietly off s
  · exact .refl s

section
variable {s : State} {a : BitVec 16} (hup : s.up = true)
include hup

theorem regRd_reaches (ha : a.toNat % 4 = 0) : Reaches (exec (.regRd a 1 false) s) fun t =>
    t.hostp.dout = [(regRead .host a.toNat s.draw).2] ∧ s.total 0x69C0 < t.total 0x69C0 := by
  have hon : a.toNat ≤ 0xFFFC := by have := a.isLt; omega
  let u := ((regRead .host a.toNat s.draw).1.setDout [(regRead .host a.toNat s.draw).2]).count 0x69C4 (burstLen a.toNat 1)
  have hread : qspiRegRd a.toNat 1 false s.draw = endTransaction false u := by
    unfold qspiRegRd
    rw [if_neg (not_not.mpr ha)]
    unfold readBurst readBurst
    rw [if_pos hon]
  have hquiet := regRead_readQuietly .host a.toNat s.draw
  have hdone := endTransaction_transacted u
  refine (live_ends (f := fun s => qspiRegRd a.toNat 1 false s) hup hread (hdone.nest.trans hquiet.nest)).imp fun t hend => ?_
  rw [hend.dout, hdone.hostp, hend.total _ (by decide), hdone.counted]
  have hcount : u.total 0x69C0 = (regRead .host a.toNat s.draw).1.total 0x69C0 := State.total_count_ne _ _ (by decide)
  exact ⟨rfl, Nat.lt_succ_of_le (hcount ▸ hquiet.total 0x69C0)⟩

theorem regRd_misaligned (n : Nat) (c : Bool) (ha : a.toNat % 4 ≠ 0) : Reaches (exec (.regRd a n c) s) fun t =>
    t.regs = s.regs ∧ t.hostp.dout = [] ∧ t.sq 13 5 = true :=
  badInstr_reaches (f := fun s => qspiRegRd a.toNat n c s) hup (if_pos ha)

theorem regWr_irqQen (v : W32) : Reaches (exec (.regWr 0x6810 [v] false) s) fun t =>
    t.reg 0x6810 = v ∧ s.total 0x69C0 < t.total 0x69C0 ∧ s.total 0x69C8 < t.total 0x69C8 := by
  have hword : regWrite .host 0x6810 v s.draw = plainWrite 0x6810 v s.draw :=
    (writeWord_eq_regWrite .host v s.draw (by decide)).symm.trans (writeWord_high .host v s.draw (by decide) (by decide) (by decide))
  have hplain : plainWrite 0x6810 v s.draw = s.draw.putFields 0x6810 { now := 0xFFFFFFFF } v := by
    unfold plainWrite
    rw [State.judged_now_plain v rfl]
    rfl
  obtain ⟨hreg, hflt⟩ := plainWrite_now_reg (s := s.draw) (off := 0x6810) v rfl
  have hcnt : (plainWrite 0x6810 v s.draw).cnt = s.cnt := by rw [hplain]; rfl
  have hdone := endTransaction_transacted ((plainWrite 0x6810 v s.draw).count 0x69C8 1)
  have hwrite : qspiRegWr 0x6810 [v] false s.draw = _ :=
    congrArg (fun u : State => endTransaction false (u.count 0x69C8 1)) hword
  refine (live_ends (f := fun s => qspiRegWr 0x6810 [v] false s) hup hwrite (hdone.nest.trans (congrArg Flt.nest hflt))).imp
    fun t hend => ?_
  have htotal : ∀ o, (plainWrite 0x6810 v s.draw).total o = s.total o := fun o => congrArg (sget 0 · o) hcnt
  rw [hend.reg, State.reg_of_regs hdone.regs, hend.total _ (by decide), hdone.counted, hend.total _ (by decide),
    hdone.total _ (by decide), State.total_count, State.total_count_ne _ _ (by decide), htotal, htotal]
  exact ⟨hreg, Nat.lt_succ_self _, Nat.lt_succ_self _⟩

theorem irqRd_reaches : Reaches (exec (.irqRd 0 2 false) s) fun t =>
    t.hostp.dout = [s.draw.view 0x6814, s.draw.view 0x6818] ∧ s.total 0x69C0 < t.total 0x69C0 := by
  have hdone := endTransaction_transacted (s.draw.setDout [s.draw.view 0x6814, s.draw.view 0x6818])
  have hread : qspiIrqRd 0 2 false s.draw = endTransaction false (s.draw.setDout [s.draw.view 0x6814, s.draw.view 0x6818]) := rfl
  refine (live_ends (f := fun s => qspiIrqRd 0 2 false s) hup hread hdone.nest).imp fun t hend => ?_
  rw [hend.dout, hdone.hostp, hend.total _ (by decide), hdone.counted]
  exact ⟨rfl, Nat.lt_succ_self _⟩

end

end Sys2Proof.Machine

open Sys2Proof.Machine

/-- Settles O26, an operation or a transaction a clause. -/
theorem queuesServed : Obligations.QueuesServed :=
  ⟨fun _ _ hup hidle hn =>
      ⟨fun hread => ⟨mark_reaches hup hn hread, rewind_reaches hup hn hread, release_reaches hup hn hidle hread,
          (reset_reaches hup hn hidle hread).imp fun t h => by rw [h]; exact ⟨rfl, rfl, rfl, rfl⟩⟩,
        fun hwritten => (abort_reaches hup hn hwritten).imp fun t h => by rw [h]; exact ⟨rfl, rfl, rfl⟩, mark_refused hup⟩,
    fun _ _ w hup hn => ⟨fun hread _ hk => qRd_reaches hup hn hread hk, fun hwritten hpar hen hd hfree =>
      ⟨qWr_reaches hup hn hwritten hpar hen hd hfree w, qWrEnd_reaches hup hn hwritten hpar hen hd hfree w⟩⟩⟩

/-- Settles O27, a transaction a clause. -/
theorem registerTransactions : Obligations.RegisterTransactions := fun _ _ hup =>
  ⟨regRd_reaches hup, regRd_misaligned hup, fun v ha => ha ▸ regWr_irqQen hup v, irqRd_reaches hup⟩
end

section
/-! SUPPORT. Chapter 14: sessions, the commands on the module and its registers, and the checks of a command (O28 to O30). -/
namespace Sys2Proof.Machine

/-! ### A response on its path, whatever the session's state (R379, R383) -/

/-- The path of a session stands as it was: its queue in use or not, what is on it, and what is reserved of it. -/
structure PathSame (s u : State) : Prop where
  queues : u.hostp.queues = s.hostp.queues
  resp : u.mbx.resp = s.mbx.resp
  slots : u.mbx.slots = s.mbx.slots
  qEn : ∀ k < 32, u.qEn k = s.qEn k

theorem PathSame.countDone {s u : State} (k : PathSame s u) (n op status : Nat) : PathSame s (u.countDone n op status) := by
  have hleft := countDone_leaves u n op status
  obtain ⟨_, _, _, hsame⟩ := u.countDone_same n op status
  refine ⟨?_, ?_, hleft.slots.trans k.slots, fun j hj => ?_⟩
  · rw [hsame]; exact k.queues
  · rw [hsame]; exact k.resp
  · exact (congrArg (bitAt · 31) (hleft.reg (0x6840 + 4 * j) (by omega))).trans (k.qEn j hj)

theorem PathSame.of_same {s u t : State} (k : PathSame s u) (hq : t.hostp = u.hostp) (hm : t.mbx = u.mbx) (hr : t.regs = u.regs) :
    PathSame s t where
  queues := hq ▸ k.queues
  resp := hm ▸ k.resp
  slots := hm ▸ k.slots
  qEn n hn := (congrArg (bitAt · 31) (State.reg_of_regs hr _)).trans (k.qEn n hn)

theorem PathSame.setSess {s u : State} (k : PathSame s u) (n : Nat) (x : Session) : PathSame s (u.setSess n x) :=
  ⟨k.queues, k.resp, k.slots, k.qEn⟩

theorem PathSame.pathFree {s u : State} (k : PathSame s u) (n : Nat) : u.pathFree n = s.pathFree n := by
  unfold State.pathFree State.q
  rw [k.queues, k.resp, k.slots]

/-- A response that fits the room of its path stands behind what was there (R379). -/
theorem PathSame.respond_wrote {s u : State} (k : PathSame s u) {n m : Nat} (op : Nat) (tag booth : Byte) (sseq : W32) (fl st de : Nat)
    {da : List Byte} (hlen : s.hostp.queues.length = 32) (hen : n < 4 → s.qEn (4 + n) = true) (hfree : respWords m ≤ s.pathFree n)
    (hd : da.length ≤ m) :
    s.wrote (u.respond n op tag booth sseq fl st de da) n (respPacket op tag booth sseq fl st de da) := by
  have hdone := k.countDone n op st
  unfold State.wrote State.respond
  split
  next hn =>
    rw [State.deliver_host _ _ hn (hdone.queues ▸ hlen)
      (State.qRoom_resp _ _ _ _ _ _ _ _ _ hn ((hdone.qEn _ (by omega)).trans (hen hn)) (hdone.pathFree _ ▸ hfree) hd)]
    unfold State.q
    rw [hdone.queues]
  next hn => rw [State.deliver_tunnel _ _ hn, hdone.resp]

/-- A response on its path stays there through the end of the command (R379). -/
theorem State.wrote_settle {s u : State} {n : Nat} {ws : List W64} (h : s.wrote u n ws) (rev : Nat) :
    s.wrote ((settle s u).outside s rev) n ws := by
  unfold State.wrote at h ⊢
  rwa [State.outside_q, settle_q, State.outside_mbx, settle_mbx]

/-! ### A command of a session that is not open (R380, R384) -/

section
variable {s : State} {h : Hdr}

theorem takes_canTake {c : CmdSpec} (ht : s.takes h c.maxData) : s.draw.canTake h c = true := by
  obtain ⟨-, hcmd, -, -, -, hroom, hfree, -⟩ := ht
  exact State.canTake_room s.draw h c hcmd hroom hfree

/-- A command allowed before the open, its session not open, passes the checks before its proof (R384). -/
theorem firstFail_before {c : CmdSpec} (ht : s.takes h c.maxData) (heff : h.eff = none) (hshut : (s.sess h.session.val).state ≠ .opened)
    (hpre : c.preOpen = true) (hclear : { c with authFail := false, bad := none, changes := false, refuse := none }.Clear s) :
    s.draw.firstFail h c =
      if c.authFail then some (0x12, 0, 0, []) else if (c.safeBlk.map s.draw.parityHeld).getD false then some (0x14, c.safeBlk.getD 0, 0, [])
      else if c.bad.isSome then some (8, c.bad.getD 0, 0, [])
      else if c.changes ∧ s.trap.role.refuses then some (0x0E, 1, 0, [])
      else if c.refuse.isSome then some (0x0E, c.refuse.getD 0, 0, []) else none := by
  obtain ⟨-, -, hhdr, hpay, htag, -, hfree, -, -, -, hpar, hrun⟩ := ht
  obtain ⟨hundef, habsent, hdenied, -, hlock, -, -, hbusy, -⟩ := hclear
  dsimp only at hundef habsent hdenied hlock hbusy
  have hbad : headerBad h c = false := by unfold headerBad; rw [hhdr, heff]; rfl
  have hnone : (s.mbx.slots.any fun x => x.session == h.session.val && x.tag == h.tag && !x.discard) = false := by
    rw [List.any_eq_false] at htag ⊢
    exact fun x hx e => htag x hx (Bool.and_eq_true_iff.mp e).1
  have hheld : ∀ o : Option Nat, (o.map s.draw.parityHeld).getD false = false := fun o => by
    cases o <;> simp [State.parityHeld, hpar]
  have hlong : ¬s.draw.pathWords h.session.val < respWords c.maxData := Nat.not_lt.mpr (Nat.le_trans hfree (s.pathFree_le _))
  have hsess : s.draw.sess h.session.val = s.sess h.session.val := rfl
  unfold State.firstFail
  dsimp only
  simp [hbad, hsess, hshut, hpre, hnone, hpay, hundef, habsent, hdenied, hlock, hheld, hbusy, hlong, hrun]

/-- The state `v` that its effect starts from: counted, an identifier taken, the sessions as they were (R383). -/
def TakenBefore (s v : State) : Prop := ∃ st ct m, v = { s.draw with
  stat := st, cnt := ct, mbx := { s.mbx with slotsMax := m, nextIdent := s.mbx.nextIdent + 1 } }

theorem accept_takenBefore (c : CmdSpec) (hshut : (s.sess h.session.val).state ≠ .opened) :
    TakenBefore s (s.draw.advanceSseq h c).accept := by
  have hstay : s.draw.advanceSseq h c = s.draw := if_neg fun e => hshut e.1
  obtain ⟨st, haccept⟩ := State.accept_same s.draw
  rw [hstay, haccept]
  exact ⟨_, _, _, rfl⟩

theorem TakenBefore.path {v : State} (hv : TakenBefore s v) : PathSame s v := by
  obtain ⟨_, _, _, rfl⟩ := hv; exact ⟨rfl, rfl, rfl, fun _ _ => rfl⟩

theorem TakenBefore.sessions {v : State} (hv : TakenBefore s v) : v.mbx.sessions = s.mbx.sessions := by
  obtain ⟨_, _, _, rfl⟩ := hv; rfl

theorem TakenBefore.flt {v : State} (hv : TakenBefore s v) : v.flt = s.flt := by
  obtain ⟨_, _, _, rfl⟩ := hv; rfl

theorem TakenBefore.free {v : State} (hv : TakenBefore s v) : v.free = s.draw.free := by
  obtain ⟨_, _, _, rfl⟩ := hv; rfl

theorem TakenBefore.crsl {v : State} (hv : TakenBefore s v) : v.crsl = s.crsl := by
  obtain ⟨_, _, _, rfl⟩ := hv; rfl

/-- It is answered with OK, and what its effect left in `u` shows (R378, R384). -/
theorem before_reaches {P : State → Prop} {f : State → State} {c : CmdSpec} {body : State → Res} {da : List Byte}
    (hf : f s.draw = runCmd h c body s.draw) (ht : s.takes h c.maxData) (hshut : (s.sess h.session.val).state ≠ .opened)
    (hpass : s.draw.firstFail h c = none) (hd : da.length ≤ c.maxData)
    (hbody : ∀ v, TakenBefore s v → ∃ u, body v = .now 0 0 da 0 u ∧ PathSame s u ∧ u.flt = s.flt ∧ ∀ t,
      s.wrote t h.session.val (respPacket c.opcode h.tag h.booth h.sseq 0 0 0 da) → t.mbx.sessions = u.mbx.sessions → P t) :
    Reaches (live f s) P := by
  obtain ⟨u, hu, k, hflt, hP⟩ := hbody _ (accept_takenBefore c hshut)
  have hrun := hf.trans (runCmd_now h c body s.draw (takes_canTake ht) hpass hu)
  obtain ⟨hup, -, -, -, -, -, hfree, hqen, hqlen, -⟩ := ht
  have hwrote := k.respond_wrote c.opcode h.tag h.booth h.sseq 0 0 0 hqlen hqen hfree hd
  have hleft := respond_leaves u h.session.val c.opcode h.tag h.booth h.sseq 0 0 0 da
  refine live_reaches f s (State.up_iff.mp hup).1 ?_ ?_ <;> rw [hrun]
  · rw [hleft.flt, hflt]; exact (State.up_iff.mp hup).2
  · exact hP _ (State.wrote_settle hwrote s.rev) (hleft.trans (settle_leaves s _ s.rev)).sessions

end

/-! ### Sessions (R380, R381) -/

theorem State.sess_of_sessions {u t : State} (h : t.mbx.sessions = u.mbx.sessions) (n : Nat) : t.sess n = u.sess n := by
  unfold State.sess; rw [h]

theorem State.sess_setSess_self (s : State) {n : Nat} (x : Session) (hn : n < s.mbx.sessions.length) : (s.setSess n x).sess n = x :=
  lmod_getD_self _ _ _ _ hn

theorem State.sessEnabled_of {s : State} {n : Nat} (hen : 4 ≤ n ∨ s.flag 0x7000 n = true) : s.sessEnabled n = true := by
  unfold State.sessEnabled
  obtain hn | hflag := hen
  · rw [decide_eq_true hn, Bool.true_or]
  · rw [hflag, Bool.or_true]

theorem sessionsTaken {s : State} {h : Hdr} {n : Nat} (ht : s.takes h n) : h.session.val < s.mbx.sessions.length := by
  obtain ⟨-, -, -, -, -, -, -, -, -, hslen, -⟩ := ht
  have := h.session.isLt
  omega

/-- What R384 judges of SESSION_CHALLENGE. -/
def State.challengeSpec (s : State) (h : Hdr) : CmdSpec :=
  { opcode := 0x0101, maxData := 32, preOpen := true
    refuse := s.openDetail (decide ((s.sess h.session.val).state = .opened) || !s.sessEnabled h.session.val) }

/-- A session with a nonce to prove (R380). -/
def State.challenged (s : State) (n : Nat) : State :=
  s.setSess n { s.sess n with state := .challenged, nonce := some (Config.drbg s.free 32, s.crsl.upNs) }

theorem cmdSessionChallenge_eq (h : Hdr) (s : State) : cmdSessionChallenge h s =
    runCmd h (s.challengeSpec h) (fun s => okRes (Config.drbg s.free 32) (s.challenged h.session.val)) s := rfl

/-- What a SESSION_OPEN that passes its checks does (R380). -/
def State.openSession (s : State) (h : Hdr) (proof : List Byte) : State :=
  let u := s.setSess h.session.val { s.sess h.session.val with
    state := .opened, booth := h.booth, expected := 1, nonce := none, keySlot := (s.sessionProof h proof).getD 0 }
  (u.setSQ 14 6).count 0x7078 1

theorem State.openSession_sessions (s : State) (h : Hdr) (proof : List Byte) :
    (s.openSession h proof).mbx.sessions = (s.setSess h.session.val { s.sess h.session.val with
      state := .opened, booth := h.booth, expected := 1, nonce := none, keySlot := (s.sessionProof h proof).getD 0 }).mbx.sessions := rfl

theorem cmdSessionOpen_of_pass {h : Hdr} {proof : List Byte} {s : State} (hpass : s.firstFail h (s.openSpec h proof) = none) :
    cmdSessionOpen h proof s = runCmd h (s.openSpec h proof)
      (fun s => okRes [BitVec.ofNat 8 h.session.val, 0, 0, 0] (s.openSession h proof)) s :=
  if_neg (by rw [hpass]; exact fun e => Bool.noConfusion e.2.2)

theorem cmdSessionOpen_of_fail {h : Hdr} {proof : List Byte} {s : State} {st de fl : Nat} {da : List Byte}
    (htake : s.canTake h (s.openSpec h proof) = true) (hshut : (s.sess h.session.val).state ≠ .opened)
    (hfail : s.firstFail h (s.openSpec h proof) = some (st, de, fl, da)) (hjudged : proofJudged st = true) :
    ∃ body, cmdSessionOpen h proof s = (fun t : State => t.setSess h.session.val { t.sess h.session.val with nonce := none, state := .closed })
      (runCmd h (s.openSpec h proof) body s) := ⟨_, if_pos ⟨htake, hshut, by rw [hfail]; exact hjudged⟩⟩

section
variable {s : State} {h : Hdr} (heff : h.eff = none) (hen : 4 ≤ h.session.val ∨ s.flag 0x7000 h.session.val = true)
  (hshut : (s.sess h.session.val).state ≠ .opened)
include heff hen hshut

theorem sessionChallenge_reaches (ht : s.takes h 32) : Reaches (exec (.sessionChallenge h) s) fun t =>
    (t.sess h.session.val).state = .challenged ∧
      ∃ nonce : List Byte, nonce.length = 32 ∧ (t.sess h.session.val).nonce = some (nonce, s.crsl.upNs) ∧
        s.wrote t h.session.val (respPacket 0x0101 h.tag h.booth h.sseq 0 0 0 nonce) := by
  have hrefuse : (s.draw.challengeSpec h).refuse = none := by
    show s.draw.openDetail (decide ((s.sess h.session.val).state = .opened) || !s.sessEnabled h.session.val) = none
    rw [decide_eq_false hshut, State.sessEnabled_of hen]; rfl
  have hpass : s.draw.firstFail h (s.draw.challengeSpec h) = none := by
    rw [firstFail_before (c := s.draw.challengeSpec h) ht heff hshut rfl
      { denied := rfl, bad := rfl, changes := fun e => Bool.noConfusion e }, hrefuse]
    rfl
  refine before_reaches (f := fun s => cmdSessionChallenge h s) (da := Config.drbg s.draw.free 32) (cmdSessionChallenge_eq h s.draw) ht hshut hpass (drbg_length ..).le
    fun v hv => ?_
  refine ⟨v.challenged h.session.val, by rw [hv.free.symm]; rfl, hv.path.setSess .., hv.flt, fun t hwrote hsess => ?_⟩
  rw [State.sess_of_sessions hsess]
  unfold State.challenged
  rw [State.sess_setSess_self _ _ (hv.sessions ▸ sessionsTaken ht), hv.free, hv.crsl]
  exact ⟨rfl, _, drbg_length .., rfl, hwrote⟩

section
variable (ht : s.takes h 4) {proof : List Byte} (hlength : proof.length = (if h.session.val < 4 then 64 else 0))
  (hbooth : h.session.val < 4 ∨ h.booth ≠ 0xFF)
include ht hlength hbooth

/-- SESSION_OPEN of a session that is not open fails at its proof or not at all (R380, R384). -/
theorem openSpec_firstFail : s.draw.firstFail h (s.draw.openSpec h proof) =
    if (s.sessionProof h proof).isNone then some (0x12, 0, 0, []) else none := by
  have hrun : s.sys.run ≠ .rescue := by obtain ⟨-, -, -, -, -, -, -, -, -, -, -, hrun⟩ := ht; exact hrun
  have hrefuse : (s.draw.openSpec h proof).refuse = none := by
    show s.draw.openDetail (decide ((s.sess h.session.val).state = .opened) || !s.sessEnabled h.session.val ||
      (decide (s.sys.run = .rescue) && decide (h.booth ≠ 0 ∧ h.booth ≠ 0xFF))) = none
    rw [decide_eq_false hshut, State.sessEnabled_of hen, decide_eq_false hrun]; rfl
  have hdenied : (s.draw.openSpec h proof).denied = false := by
    show (decide (4 ≤ h.session.val) && decide (h.booth = 0xFF)) = false
    obtain hlow | hne := hbooth
    · rw [decide_eq_false (by omega), Bool.false_and]
    · rw [decide_eq_false hne, Bool.and_false]
  have hauth : (s.draw.openSpec h proof).authFail = (s.sessionProof h proof).isNone := by
    show (decide ((s.sess h.session.val).state ≠ .opened) && (s.draw.sessionProof h proof).isNone) = _
    rw [decide_eq_true hshut, Bool.true_and]; rfl
  have hbad : (s.draw.openSpec h proof).bad = none := if_pos hlength
  rw [firstFail_before (c := s.draw.openSpec h proof) ht heff hshut rfl
    { denied := hdenied, bad := rfl, changes := fun e => Bool.noConfusion e }, hrefuse, hauth, hbad]
  rfl

/-- With a proof that holds the session is open for its booth, SSEQ 1 expected (R380). -/
theorem sessionOpen_reaches {k : Nat} (hproof : s.sessionProof h proof = some k) : Reaches (exec (.sessionOpen h proof) s) fun t =>
    (t.sess h.session.val).state = .opened ∧ (t.sess h.session.val).booth = h.booth ∧
      (t.sess h.session.val).expected = 1 ∧ (t.sess h.session.val).nonce = none ∧
      s.wrote t h.session.val (respPacket 0x0102 h.tag h.booth h.sseq 0 0 0 [BitVec.ofNat 8 h.session.val, 0, 0, 0]) := by
  have hpass := openSpec_firstFail heff hen hshut ht hlength hbooth
  rw [hproof] at hpass
  refine before_reaches (f := fun s => cmdSessionOpen h proof s) (da := [BitVec.ofNat 8 h.session.val, 0, 0, 0])
    (cmdSessionOpen_of_pass hpass) ht hshut hpass (Nat.le_refl 4) fun v hv => ?_
  refine ⟨v.openSession h proof, rfl, (hv.path.setSess _ _).of_same rfl rfl rfl, hv.flt, fun t hwrote hsess => ?_⟩
  rw [State.sess_of_sessions (hsess.trans (v.openSession_sessions h proof)),
    State.sess_setSess_self _ _ (hv.sessions ▸ sessionsTaken ht)]
  exact ⟨rfl, rfl, rfl, rfl, hwrote⟩

/-- With a proof that fails it is refused and the nonce consumed (R380). -/
theorem sessionOpen_refused (hproof : s.sessionProof h proof = none) : Reaches (exec (.sessionOpen h proof) s) fun t =>
    (t.sess h.session.val).state = .closed ∧ (t.sess h.session.val).nonce = none ∧ s.turnedDown t h 0x0102 0 0x12 0 [] := by
  have hfail := openSpec_firstFail heff hen hshut ht hlength hbooth
  rw [hproof] at hfail
  have htake : s.draw.canTake h (s.draw.openSpec h proof) = true := takes_canTake ht
  obtain ⟨body, hopen⟩ := cmdSessionOpen_of_fail htake hshut hfail (by decide)
  have hv : TakenBefore s (s.draw.advanceSseq h (s.draw.openSpec h proof)).accept := accept_takenBefore _ hshut
  have hrun := hopen.trans (congrArg (fun t : State => t.setSess h.session.val { t.sess h.session.val with nonce := none, state := .closed })
    (runCmd_fails h _ body s.draw htake hfail))
  have hslen := sessionsTaken ht
  obtain ⟨hup, -, -, -, -, -, hfree, hqen, hqlen, -⟩ := ht
  have hwrote := hv.path.respond_wrote (da := []) (s.draw.openSpec h proof).opcode h.tag h.booth h.sseq 0 0x12 0 hqlen hqen
    hfree (Nat.zero_le 4)
  have hleft := respond_leaves (s.draw.advanceSseq h (s.draw.openSpec h proof)).accept h.session.val (s.draw.openSpec h proof).opcode
    h.tag h.booth h.sseq 0 0x12 0 []
  generalize (s.draw.advanceSseq h (s.draw.openSpec h proof)).accept.respond h.session.val (s.draw.openSpec h proof).opcode h.tag h.booth
    h.sseq 0 0x12 0 [] = u at hrun hwrote hleft
  let w : State := u.setSess h.session.val { u.sess h.session.val with nonce := none, state := .closed }
  refine live_reaches (fun s => cmdSessionOpen h proof s) s (State.up_iff.mp hup).1 ?_ ?_ <;> rw [hrun]
  · exact (congrArg Flt.nest (hleft.flt.trans hv.flt)).trans (State.up_iff.mp hup).2
  · have hend := settle_leaves s w s.rev
    rw [State.sess_of_sessions hend.sessions,
      show w.sess h.session.val = _ from u.sess_setSess_self _ (by rw [hleft.sessions, hv.sessions]; exact hslen)]
    exact ⟨rfl, rfl, State.wrote_settle (u := w) hwrote s.rev, (hend.slots.trans hleft.slots).trans hv.path.slots⟩

end

end

/-! ### The closing of a session (R381) -/

/-- A session that is not closed is closed, with its latches, its command queue and the window alone. -/
theorem State.closeSession_same {s : State} {n : Nat} (hopen : (s.sess n).state ≠ .closed) : ∃ x pw ps sl st,
    s.closeSession n = { s with
      pnt := pw, stat := st
      hostp := { s.hostp with queues := lmod s.hostp.queues (if n < 4 then n else 8 + n) fun _ => (s.q (if n < 4 then n else 8 + n)).clear
                              paths := ps }
      mbx := { s.mbx with sessions := lmod s.mbx.sessions n fun _ => x, slots := sl } } ∧
      x.state = .closed ∧ (s.mbx.slots = [] → sl = []) ∧ (s.closeSession n).sq 14 6 = true := by
  unfold State.closeSession
  rw [if_neg hopen]
  refine ⟨_, _, _, _, _, rfl, ?_, ?_, State.sq_setSQ_self _ 14 6⟩
  · split <;> rfl
  · intro hslots
    show s.mbx.slots.map _ = []
    rw [hslots]; rfl

/-- The response of a session is not on its command queue: it stays through the closing (R379, R381). -/
theorem State.closeSession_closed {s : State} {n : Nat} (hopen : (s.sess n).state ≠ .closed) (hn : n < s.mbx.sessions.length) :
    ((s.closeSession n).sess n).state = .closed := by
  obtain ⟨x, _, _, _, _, hsame, hclosed, -⟩ := s.closeSession_same hopen
  rw [hsame]
  exact (congrArg Session.state (lmod_getD_self s.mbx.sessions n (fun _ => x) {} hn)).trans hclosed

theorem State.wrote_closeSession {s u : State} {n : Nat} {ws : List W64} (hw : s.wrote u n ws) (hopen : (u.sess n).state ≠ .closed) :
    s.wrote (u.closeSession n) n ws := by
  obtain ⟨_, _, _, _, _, hsame, -⟩ := u.closeSession_same hopen
  unfold State.wrote at hw ⊢
  rw [hsame]
  split
  next hn =>
    rw [if_pos hn] at hw
    exact Eq.trans (lmod_getD_ne _ _ _ (by omega)) hw
  next hn =>
    rw [if_neg hn] at hw
    exact hw

/-- The close of a session whose earlier commands are done completes, and closes it (R381). -/
theorem finishCloses_alone {s : State} {x : Slot} (hslots : s.mbx.slots = [x]) (hwait : x.wait = .close) (hkept : x.discard = false) :
    s.finishCloses = (s.complete x 0 0 []).closeSession x.session := by
  unfold State.finishCloses
  have hcount : s.inFlight x.session = 1 := by unfold State.inFlight; rw [hslots]; simp
  rw [hslots, List.foldl_cons, List.foldl_nil, if_neg (by rw [hkept]; exact fun e => Bool.noConfusion e.2), if_pos ⟨hwait, hcount⟩]

theorem complete_alone {s : State} {x : Slot} (hslots : s.mbx.slots = [x]) (hkept : x.discard = false) :
    s.complete x 0 0 [] = ({ s with mbx := { s.mbx with slots := [] } } : State).respond x.session x.opcode x.tag x.booth x.sseq 0 0 0 [] := by
  unfold State.complete State.completeAs
  rw [hslots, hkept, if_neg Bool.false_ne_true]
  simp

theorem finishCloses_closes {s w : State} {x : Slot} {m : Nat} (hslots : w.mbx.slots = [x]) (hwait : x.wait = .close)
    (hkept : x.discard = false) (hopen : (w.sess x.session).state ≠ .closed) (hn : x.session < w.mbx.sessions.length)
    (k : PathSame s { w with mbx := { w.mbx with slots := [] } }) (hlen : s.hostp.queues.length = 32)
    (hen : x.session < 4 → s.qEn (4 + x.session) = true) (hfree : respWords m ≤ s.pathFree x.session) :
    (w.finishCloses.sess x.session).state = .closed ∧ w.finishCloses.mbx.slots = [] ∧ w.finishCloses.sq 14 6 = true ∧
      s.wrote w.finishCloses x.session (respPacket x.opcode x.tag x.booth x.sseq 0 0 0 []) ∧ w.finishCloses.flt = w.flt := by
  have hwrote := k.respond_wrote (da := []) x.opcode x.tag x.booth x.sseq 0 0 0 hlen hen hfree (Nat.zero_le m)
  have hleft := respond_leaves { w with mbx := { w.mbx with slots := [] } } x.session x.opcode x.tag x.booth x.sseq 0 0 0 []
  rw [finishCloses_alone hslots hwait hkept, complete_alone hslots hkept]
  generalize ({ w with mbx := { w.mbx with slots := [] } } : State).respond x.session x.opcode x.tag x.booth x.sseq 0 0 0 [] = u at hwrote hleft
  have hstill : (u.sess x.session).state ≠ .closed := (State.sess_of_sessions hleft.sessions _).symm ▸ hopen
  have hclosed := State.closeSession_closed hstill (hleft.sessions.symm ▸ hn)
  have hthere := State.wrote_closeSession hwrote hstill
  obtain ⟨_, _, _, _, _, hsame, -, hnone, hsq⟩ := u.closeSession_same hstill
  refine ⟨hclosed, ?_, hsq, hthere, ?_⟩
  · rw [hsame]; exact hnone hleft.slots
  · rw [hsame]; exact hleft.flt

/-- Taking a command leaves the number of sessions (R383). -/
theorem accept_sessions_length (s : State) (h : Hdr) (c : CmdSpec) :
    (s.draw.advanceSseq h c).accept.mbx.sessions.length = s.mbx.sessions.length := by
  obtain ⟨_, haccept⟩ := State.accept_same (s.draw.advanceSseq h c)
  rw [haccept]
  show (s.draw.advanceSseq h c).mbx.sessions.length = _
  unfold State.advanceSseq
  dsimp only
  split
  · exact lmod_length ..
  · rfl

theorem sessionClose_reaches {s : State} {h : Hdr} (ha : s.admits h 0) (hslots : s.mbx.slots = []) :
    Reaches (exec (.sessionClose h) s) fun t =>
      (t.sess h.session.val).state = .closed ∧ t.mbx.slots = [] ∧ t.sq 14 6 = true ∧
        s.wrote t h.session.val (respPacket 0x0103 h.tag h.booth h.sseq 0 0 0 []) := by
  let c : CmdSpec := { opcode := 0x0103 }
  have hv := admits_taken c ha
  have hrun : cmdSessionClose h s.draw = _ := congrArg State.finishCloses (runCmd_later h c _ s.draw (admits_canTake ha)
    (admits_firstFail ha { denied := rfl, bad := rfl, changes := fun e => Bool.noConfusion e }) rfl)
  have hslen := accept_sessions_length s h c
  generalize (s.draw.advanceSseq h c).accept = v at hv hrun hslen
  obtain ⟨⟨hup, -, -, -, -, -, hfree, hqen, hqlen, h8, -⟩, -⟩ := ha
  have hn : h.session.val < v.mbx.sessions.length := by have := h.session.isLt; omega
  have hclosing : ((v.setSess h.session.val { v.sess h.session.val with state := .closing }).sess h.session.val).state ≠ .closed := by
    rw [State.sess_setSess_self _ _ hn]; exact fun e => nomatch e
  have hlist := hv.path.slots.trans hslots
  let x : Slot := { ident := v.mbx.nextIdent, session := h.session.val, tag := h.tag, opcode := 0x0103, booth := h.booth, sseq := h.sseq
                    accepted := v.crsl.upNs, room := respWords 0, wait := .close }
  let u := v.setSess h.session.val { v.sess h.session.val with state := .closing }
  let w : State := { u with mbx := { u.mbx with slots := u.mbx.slots ++ [x] } }
  obtain ⟨hclosed, hnone, hsq, hthere, hflt⟩ := finishCloses_closes (m := 0) (s := s) (x := x) (w := w)
    (congrArg (· ++ [x]) hlist) rfl rfl hclosing
    (lt_of_lt_of_eq hn (lmod_length ..).symm) ⟨hv.path.queues, hv.path.resp, hslots.symm, hv.path.qEn⟩ hqlen hqen hfree
  rw [show w.finishCloses = cmdSessionClose h s.draw from hrun.symm] at hclosed hnone hsq hthere hflt
  have hend := settle_leaves s (cmdSessionClose h s.draw) s.rev
  refine live_reaches (fun s => cmdSessionClose h s) s (State.up_iff.mp hup).1 ?_ ?_
  · rw [hflt]; exact hv.path.nest
  · rw [State.sess_of_sessions hend.sessions, hend.slots]
    exact ⟨hclosed, hnone, hend.sq 14 6 hsq, State.wrote_settle hthere s.rev⟩

/-! ### Commands on the module and its registers (R363, R386) -/

/-- A register without behaviour of its own is read as it shows (R355). -/
theorem regRead_plain (p : Path) {off : Nat} (s : State)
    (hoff : ¬0xC000 ≤ off ∧ statusReg off = false ∧ revLow off = false ∧ ¬(4 ≤ off ∧ revLow (off - 4) = true) ∧ prsmLow off = false ∧
      ¬(4 ≤ off ∧ prsmLow (off - 4) = true) ∧ off ≠ 0x38C8 ∧ inFam off 0x8000 4 8 = false ∧ inFam off 0x2940 4 32 = false) :
    regRead p off s = (s, s.view off) := by
  obtain ⟨hwin, hstatus, hlow, hhigh, hplow, hphigh, hring, hcal, hctx⟩ := hoff
  unfold regRead
  rw [if_neg hwin, hstatus, if_neg Bool.false_ne_true, hlow, if_neg Bool.false_ne_true, if_neg hhigh, hplow, if_neg Bool.false_ne_true,
    if_neg hphigh, if_neg hring, hcal, if_neg Bool.false_ne_true, hctx, if_neg Bool.false_ne_true]

/-- A register of the map that is no status register and no counter (R355). -/
theorem State.view_of_map (s : State) {off : Nat} (hmap : ¬(inBlock off = false ∨ off % 4 ≠ 0) ∧ statusReg off = false ∧ isCounter off = false) :
    s.view off =
    let w :=
      if off < 0x1000 then s.viewCrsl off
      else if off < 0x3800 then s.viewLoop off
      else if off < 0x4000 then s.viewPrsm off
      else if off < 0x5800 then s.viewField off
      else if off < 0x6800 then s.viewNet off
      else if off < 0x8000 then s.viewHost off
      else if off < 0x9000 then s.viewKey off
      else if 0xA000 ≤ off ∧ off < 0xA800 then s.viewKey off
      else s.viewUpd off
    if pendingAt off then w ||| flagAt (s.applyPending (off / 0x800)) 31 else w := by
  obtain ⟨hblock, hstatus, hcounter⟩ := hmap
  unfold State.view
  rw [if_neg hblock, hstatus, if_neg Bool.false_ne_true, hcounter, if_neg Bool.false_ne_true]

theorem State.view_identity (s : State) : s.view 0 = (place 0x2000 16 ||| place (if s.isMr then 1 else 2) 8 ||| place 0x10 0) := by
  rw [State.view_of_map s (by decide)]
  simp [State.viewCrsl, pendingAt]

theorem State.view_crslConfig (s : State) : s.view 0x800 = s.reg 0x800 ||| flagAt (s.applyPending 1) 31 := by
  rw [State.view_of_map s (by decide)]
  simp [State.viewCrsl, pendingAt]

theorem State.view_pntConfig (s : State) : s.view 0x1800 = s.reg 0x1800 ||| flagAt (s.applyPending 3) 31 := by
  rw [State.view_of_map s (by decide)]
  simp [State.viewLoop, pendingAt, inFam, windowed]

theorem State.view_lock (s : State) : s.view 0x6808 = s.reg 0x6808 := by
  rw [State.view_of_map s (by decide)]
  simp [State.viewHost, pendingAt, inFam]

theorem State.view_fltConfig (s : State) : s.view 0x9800 = s.reg 0x9800 ||| flagAt (s.applyPending 19) 31 := by
  rw [State.view_of_map s (by decide)]
  simp [State.viewUpd, pendingAt]

section
variable {s : State} {h : Hdr}

theorem Taken.regs {v : State} (hv : Taken s h v) : v.regs = s.regs := by
  obtain ⟨_, _, _, _, e⟩ := hv.same; rw [e]; rfl

theorem Taken.applyPending {v : State} (hv : Taken s h v) (blk : Nat) : v.applyPending blk = s.draw.applyPending blk := by
  obtain ⟨_, _, _, _, e⟩ := hv.same; rw [e]; rfl

theorem Taken.identity {v : State} (hv : Taken s h v) :
    leBytes 4 (v.view 0).toNat ++ leBytes 4 v.upd.verActive ++ leBytes 8 v.rev =
      leBytes 4 (s.view 0).toNat ++ leBytes 4 s.upd.verActive ++ leBytes 8 s.rev := by
  rw [State.view_identity, State.view_identity]
  obtain ⟨_, _, _, _, e⟩ := hv.same; rw [e]; rfl

theorem identify_reaches (ha : s.admits h 16) : Reaches (exec (.identify h) s) fun t => s.answered t h 0x0104 0
    (leBytes 4 (s.view 0).toNat ++ leBytes 4 s.upd.verActive ++ leBytes 8 s.rev) := by
  refine ok_reaches (f := fun s => cmdIdentify h s) (da := leBytes 4 (s.view 0).toNat ++ leBytes 4 s.upd.verActive ++ leBytes 8 s.rev)
    rfl ha { denied := rfl, bad := rfl, changes := fun e => Bool.noConfusion e } ?_ fun v hv =>
    ⟨v, by rw [← hv.identity]; rfl, hv.path, fun t hans _ => hans⟩
  rw [List.length_append, List.length_append, leBytes_length, leBytes_length, leBytes_length]

theorem echo_reaches (bytes : List Byte) (ha : s.admits h bytes.length) :
    Reaches (exec (.echo h bytes) s) fun t => s.answered t h 0x0108 0 bytes :=
  ok_reaches (f := fun s => cmdEcho h bytes s) rfl ha { denied := rfl, bad := rfl, changes := fun e => Bool.noConfusion e } (Nat.le_refl _)
    fun v hv => ⟨v, rfl, hv.path, fun t hans _ => hans⟩

/-- The registers of the list show what neither the command service nor the counters have a part in. -/
theorem Taken.view {v : State} (hv : Taken s h v) {off : Nat} (hoff : off ∈ [0x0000, 0x0800, 0x1800, 0x6808, 0x9800]) :
    v.view off = s.draw.view off := by
  have hreg : ∀ o, v.reg o = s.draw.reg o := State.reg_of_regs hv.regs
  simp only [List.mem_cons, List.not_mem_nil, or_false] at hoff
  obtain rfl | rfl | rfl | rfl | rfl := hoff
  · rw [State.view_identity, State.view_identity]
    obtain ⟨_, _, _, _, e⟩ := hv.same; rw [e]; rfl
  · rw [State.view_crslConfig, State.view_crslConfig, hreg, hv.applyPending]
  · rw [State.view_pntConfig, State.view_pntConfig, hreg, hv.applyPending]
  · rw [State.view_lock, State.view_lock, hreg]
  · rw [State.view_fltConfig, State.view_fltConfig, hreg, hv.applyPending]

theorem regRead_reaches {off : Nat} (hoff : off ∈ [0x0000, 0x0800, 0x1800, 0x6808, 0x9800]) (ha : s.admits h 4)
    (hland : s.landlord h = true) :
    Reaches (exec (.regRead h off 1) s) fun t => s.answered t h 0x0105 0 (leBytes 4 (s.draw.view off).toNat) ∧ t.regs = s.regs := by
  have hplain : ¬0xC000 ≤ off ∧ statusReg off = false ∧ revLow off = false ∧ ¬(4 ≤ off ∧ revLow (off - 4) = true) ∧ prsmLow off = false ∧
      ¬(4 ≤ off ∧ prsmLow (off - 4) = true) ∧ off ≠ 0x38C8 ∧ inFam off 0x8000 4 8 = false ∧ inFam off 0x2940 4 32 = false := by
    revert off; decide
  have hfield : ¬(off % 4 ≠ 0 ∨ 0xFFFC < off) := by revert off; decide
  refine ok_serves (f := fun s => cmdRegRead h off 1 s) (da := leBytes 4 (s.draw.view off).toNat) rfl ha
    { denied := congrArg (!·) hland, bad := if_neg hfield, changes := fun e => Bool.noConfusion e } (leBytes_length ..).le fun v hv =>
    ⟨v, ?_, hv.path, fun t hans hserved => ⟨hans, hserved.regs.trans hv.regs⟩⟩
  have hburst : readBurst (.session h.session) 1 off v = (v, [v.view off]) := by
    unfold readBurst readBurst
    rw [if_pos (by omega), regRead_plain _ v hplain]
  rw [hburst, ← hv.view hoff]
  rfl

/-- A write of one word to HOST_IRQ_QEN, a plain register, leaves the path of a response (R355). -/
theorem PathKept.writeIrqQen {u : State} (k : PathKept s u h) (p : Path) (v : W32) :
    PathKept s (regWrite p 0x6810 v u) h ∧ (regWrite p 0x6810 v u).reg 0x6810 = v := by
  have hword : regWrite p 0x6810 v u = plainWrite 0x6810 v u :=
    (writeWord_eq_regWrite p v u (by decide)).symm.trans (writeWord_high p v u (by decide) (by decide) (by decide))
  obtain ⟨hreg, -⟩ := plainWrite_now_reg (s := u) (off := 0x6810) v rfl
  have hplain : plainWrite 0x6810 v u = u.putFields 0x6810 { now := 0xFFFFFFFF } v := by
    unfold plainWrite
    rw [State.judged_now_plain v rfl]
    rfl
  rw [hword]
  refine ⟨?_, hreg⟩
  rw [hplain]
  exact (k.setReg (off := 0x6810) (mergeBits (u.reg 0x6810) 0xFFFFFFFF v) (by decide)).of_same rfl rfl rfl rfl

theorem regWrite_reaches (v : W32) (ha : s.admits h 0) (hland : s.landlord h = true) (hthaw : s.cfgFrozen = false)
    (hlock : s.locked 13 = false) :
    Reaches (exec (.regWrite h 0x6810 [v]) s) fun t => s.answered t h 0x0106 0 [] ∧ t.reg 0x6810 = v := by
  have hbreak : s.draw.breaksLock 0x6810 v = false := by
    unfold State.breaksLock
    rw [show s.draw.locked (0x6810 / 0x800) = false from hlock, Bool.false_and]
  have hnone : (s.draw.regWriteSpec h 0x6810 [v]).lockBlk = none := by
    show (([(0x6810, v)] : List (Nat × W32)).find? fun e => s.draw.breaksLock e.1 e.2).map (fun e => e.1 / 0x800) = none
    rw [List.find?_cons_of_neg (by rw [hbreak]; exact Bool.false_ne_true)]
    rfl
  have hfree : (s.draw.regWriteSpec h 0x6810 [v]).refuse = none := if_neg (by rw [show s.draw.cfgFrozen = false from hthaw]; exact fun e => Bool.noConfusion e.1)
  refine ok_serves (f := fun s => cmdRegWrite h 0x6810 [v] s) (da := []) (fl := 0) (c := s.draw.regWriteSpec h 0x6810 [v]) rfl ha
    { denied := congrArg (!·) hland, lockBlk := hnone, bad := rfl, changes := fun e => Bool.noConfusion e, refuse := hfree } (Nat.zero_le _)
    fun u hu => ?_
  obtain ⟨hpath, hreg⟩ := hu.path.writeIrqQen (.session h.session) v
  exact ⟨_, rfl, hpath, fun t hans hserved => ⟨hans, (hserved.reg 0x6810).trans hreg⟩⟩

/-- The blocks of a command that waits for the snapshot are added to the set (R363). -/
theorem State.shutPending_snoc {s t : State} {x : Slot} {b : BitVec 22} (hmask : t.hostp.shutMask = s.hostp.shutMask)
    (hslots : t.mbx.slots = s.mbx.slots ++ [x]) (hwait : x.wait = .shutter b) : t.shutPending = s.shutPending ||| b := by
  unfold State.shutPending
  rw [hslots, List.foldl_append, hmask, List.foldl_cons, List.foldl_nil, hwait]

theorem shutter_reaches (mask : W32) (ha : s.admits h 8) (hland : s.landlord h = true) (hmask : mask &&& fieldMask 21 0 ≠ 0)
    (hidle : s.shutPending = 0) :
    Reaches (exec (.shutter h mask) s) fun t => s.inFlightFor t h 0x0107 8 (.shutter (mask.setWidth 22)) ∧
      t.shutPending = mask.setWidth 22 ∧ t.hostp.shutDue = s.dueNow := by
  refine later_waits (f := fun s => cmdShutter h mask s) (w := .shutter (mask.setWidth 22)) rfl ha
    { denied := congrArg (!·) hland, bad := if_neg hmask, changes := fun e => Bool.noConfusion e } fun v hv => ?_
  have hpending : v.shutPending = 0 := by
    refine Eq.trans ?_ hidle
    obtain ⟨_, _, _, _, e⟩ := hv.same; rw [e]; rfl
  have hdue : v.dueShutter = { v with hostp := { v.hostp with shutDue := v.dueNow } } := if_pos hpending
  refine ⟨v.dueShutter, rfl, ?_, ?_, fun t hwait hw => ⟨hwait, ?_, ?_⟩⟩
  · rw [hdue]; exact ⟨hv.path.queues, hv.path.resp, hv.path.slots, hv.path.qEn, hv.path.expected, hv.path.nest⟩
  · rw [hdue]; exact hv.crsl
  · obtain ⟨hslots, -⟩ := hwait
    have hsame : t.hostp.shutMask = s.hostp.shutMask := by
      obtain ⟨_, _, _, _, e⟩ := hv.same
      obtain ⟨_, _, _, _, _, _, _, rfl⟩ := hw.same
      rw [hdue, e]; rfl
    rw [State.shutPending_snoc hsame hslots rfl, hidle]
    exact BitVec.zero_or
  · rw [hw.shutDue, hdue]; exact hv.dueNow

end

/-! ### A tag in use by a discarded response (R381, R384) -/

/-- Session 4 open, and a slot of its earlier time, closed since, whose response will be discarded. -/
def discardedTag : State :=
  { State.reset with
    sys := { State.reset.sys with run := .running, cmdOk := true }
    mbx := { State.reset.mbx with
      sessions := lmod State.reset.mbx.sessions 4 fun _ => { state := .opened, expected := 1 }
      slots := [{ ident := 1, session := 4, tag := 7, opcode := 0x0107, booth := 0, sseq := 1, accepted := 0, room := 5, discard := true
                  wait := .shutter 1 }] } }

/-- A header with the tag of that slot, over a payload that fails its CRC. -/
def reusedTag : Hdr := { session := 4, tag := 7, booth := 0, sseq := 1, eff := none, badHeader := false, badPayload := true }

/-- Taking a command leaves the paths of responses (R383). -/
theorem accept_pathSame (s : State) (h : Hdr) (c : CmdSpec) : PathSame s (s.draw.advanceSseq h c).accept := by
  obtain ⟨_, haccept⟩ := State.accept_same (s.draw.advanceSseq h c)
  rw [haccept]
  unfold State.advanceSseq
  dsimp only
  split <;> exact ⟨rfl, rfl, rfl, fun _ _ => rfl⟩

theorem accept_flt (s : State) (h : Hdr) (c : CmdSpec) : (s.draw.advanceSseq h c).accept.flt = s.flt := by
  obtain ⟨_, haccept⟩ := State.accept_same (s.draw.advanceSseq h c)
  rw [haccept]
  unfold State.advanceSseq
  dsimp only
  split <;> rfl

/-- A command taken whose check fails is turned down with that check (R384). -/
theorem fails_reaches {f : State → State} {s : State} {h : Hdr} {c : CmdSpec} {body : State → Res} {st de fl : Nat} {da : List Byte}
    (hf : f s.draw = runCmd h c body s.draw) (hup : s.up = true) (htake : s.draw.canTake h c = true)
    (hfail : s.draw.firstFail h c = some (st, de, fl, da)) (hlen : s.hostp.queues.length = 32)
    (hen : h.session.val < 4 → s.qEn (4 + h.session.val) = true) (hfree : respWords c.maxData ≤ s.pathFree h.session.val)
    (hd : da.length ≤ c.maxData) : Reaches (live f s) fun t => s.turnedDown t h c.opcode fl st de da := by
  have hrun := hf.trans (runCmd_fails h c body s.draw htake hfail)
  have hpath := accept_pathSame s h c
  have hwrote := hpath.respond_wrote c.opcode h.tag h.booth h.sseq fl st de hlen hen hfree hd
  have hleft := respond_leaves (s.draw.advanceSseq h c).accept h.session.val c.opcode h.tag h.booth h.sseq fl st de da
  obtain ⟨hp, hcalm⟩ := State.up_iff.mp hup
  refine live_reaches f s hp ?_ ?_ <;> rw [hrun]
  · rw [hleft.flt, accept_flt]; exact hcalm
  · exact ⟨State.wrote_settle hwrote s.rev, ((settle_leaves s _ s.rev).slots.trans hleft.slots).trans hpath.slots⟩

/-- A session of a tunnelled connection has one response written to it by a step (R379). -/
theorem State.wrote_tunnel_unique {s t : State} {n : Nat} {ws vs : List W64} (hn : ¬n < 4) (h : s.wrote t n ws) (k : s.wrote t n vs) :
    ws = vs := by
  unfold State.wrote at h k
  rw [if_neg hn] at h k
  exact List.head_eq_of_cons_eq (List.append_cancel_left (h.symm.trans k))

/-- The tag of a discarded response is free: the first check that fails is the payload's. -/
theorem discardedTag_firstFail :
    discardedTag.draw.firstFail reusedTag { opcode := 0x0105, maxData := 4 * 1, denied := !discardedTag.draw.landlord reusedTag } =
      some (6, 0, 0, []) := by decide +kernel

theorem discardedTag_badPayload :
    Reaches (exec (.regRead reusedTag 0 1) discardedTag) fun t => discardedTag.turnedDown t reusedTag 0x0105 0 6 0 [] :=
  fails_reaches (f := fun s => cmdRegRead reusedTag 0 1 s) rfl (by decide +kernel) (by decide +kernel) discardedTag_firstFail
    (by decide +kernel) (by decide +kernel) (by decide +kernel) (Nat.zero_le _)

end Sys2Proof.Machine

open Sys2Proof.Machine

/-- Settles O29, a command a clause. -/
theorem moduleCommands : Obligations.ModuleCommands := fun _ _ =>
  ⟨identify_reaches, echo_reaches, fun _ ha hland hoff => regRead_reaches hoff ha hland,
    fun v ha hland hthaw hlock => regWrite_reaches v ha hland hthaw hlock,
    fun mask ha hland hmask hidle => shutter_reaches mask ha hland hmask hidle⟩

/-- Refutes O30: the statement takes a TAG as in use while any slot of the session has it, but the check passes over the slot of a command
whose response will be discarded, its session closed since and open again (R381, R384). On `discardedTag` a REG_READ with that TAG and a
payload that fails its CRC is answered with BAD_PAYLOAD. -/
theorem not_commandChecks : ¬ Obligations.CommandChecks := by
  intro h
  obtain ⟨-, -, -, -, hdup, -⟩ := h.1 discardedTag reusedTag 0 1 (by decide +kernel) (by decide +kernel) (by decide +kernel)
    (by decide +kernel) (Nat.le_refl 1) (by decide +kernel) (by decide +kernel)
  obtain ⟨t, ht, hdup, -⟩ := hdup (by decide +kernel) (by decide +kernel)
  obtain ⟨u, hu, hpayload, -⟩ := discardedTag_badPayload
  cases ht.symm.trans hu
  exact absurd (congrArg List.head? (State.wrote_tunnel_unique (by decide) hdup hpayload)) (by decide +kernel)

/-- Settles O28, a command a clause. -/
theorem sessionsOpenAndClose : Obligations.SessionsOpenAndClose := fun _ _ heff hen =>
  ⟨fun ht hshut => sessionChallenge_reaches heff hen hshut ht,
    fun ht hshut _ hlength hbooth => ⟨fun _ hproof => sessionOpen_reaches heff hen hshut ht hlength hbooth hproof,
      fun hproof => sessionOpen_refused heff hen hshut ht hlength hbooth hproof⟩,
    fun ha hslots => sessionClose_reaches ha hslots⟩
end

section
/-! SUPPORT. Commands that only read: what the command service changes on its own (O14). -/
namespace Sys2Proof.Machine

/-- `t` is `s` but for the command service, the host port, MBX_LAST_ERR, the counters, the status records and the free values. -/
def OnlyServed (s t : State) : Prop :=
  (∃ m hp r ct st fr, t = { s with mbx := m, hostp := hp, regs := r, cnt := ct, stat := st, free := fr }) ∧
    ∀ off, off ≠ 0x700C → t.reg off = s.reg off

theorem OnlyServed.trans {s t u : State} (h : OnlyServed s t) (k : OnlyServed t u) : OnlyServed s u := by
  obtain ⟨⟨_, _, _, _, _, _, rfl⟩, hreg⟩ := h
  obtain ⟨⟨_, _, _, _, _, _, rfl⟩, kreg⟩ := k
  exact ⟨⟨_, _, _, _, _, _, rfl⟩, fun off hoff => (kreg off hoff).trans (hreg off hoff)⟩

theorem draw_onlyServed (s : State) : OnlyServed s s.draw := ⟨⟨_, _, _, _, _, _, rfl⟩, fun _ _ => rfl⟩

theorem advanceSseq_onlyServed (s : State) (h : Hdr) (c : CmdSpec) : OnlyServed s (s.advanceSseq h c) := by
  unfold State.advanceSseq
  dsimp only
  split <;> exact ⟨⟨_, _, _, _, _, _, rfl⟩, fun _ _ => rfl⟩

theorem accept_onlyServed (s : State) : OnlyServed s s.accept := by
  obtain ⟨_, haccept⟩ := State.accept_same s
  rw [haccept]
  exact ⟨⟨_, _, _, _, _, _, rfl⟩, fun _ _ => rfl⟩

theorem respond_onlyServed (s : State) (n op : Nat) (tag booth : Byte) (sseq : W32) (fl st de : Nat) (da : List Byte) :
    OnlyServed s (s.respond n op tag booth sseq fl st de da) := by
  have hleft := respond_leaves s n op tag booth sseq fl st de da
  obtain ⟨_, _, _, _, _, e⟩ := s.respond_same n op tag booth sseq fl st de da
  rw [e] at hleft ⊢
  exact ⟨⟨_, _, _, _, _, _, rfl⟩, hleft.reg⟩

/-- A command without an effect is not taken, turned down or answered (R383, R384). -/
theorem runCmd_onlyServed (h : Hdr) (c : CmdSpec) {body : State → Res} (s : State) (hbody : ∀ v, ∃ da, body v = okRes da v) :
    OnlyServed s (runCmd h c body s) := by
  have htaken : OnlyServed s (s.advanceSseq h c).accept := (advanceSseq_onlyServed s h c).trans (accept_onlyServed _)
  cases htake : s.canTake h c with
  | false => rw [runCmd_waits h c body s htake]; exact ⟨⟨_, _, _, _, _, _, rfl⟩, fun _ _ => rfl⟩
  | true =>
    cases hcheck : s.firstFail h c with
    | some e => rw [runCmd_fails h c body s htake hcheck]; exact htaken.trans (respond_onlyServed ..)
    | none =>
      obtain ⟨da, hda⟩ := hbody (s.advanceSseq h c).accept
      rw [runCmd_now h c body s htake hcheck hda]
      exact htaken.trans (respond_onlyServed ..)

/-- Such a command changes nothing the module works with, and no fault, whatever its header and its session. -/
theorem onlyServed_reaches {f : State → State} {s : State} (hup : s.up = true) (hf : OnlyServed s.draw (f s.draw)) :
    Reaches (live f s) fun t => s.works t ∧ t.flt = s.flt ∧ ∀ off, off ≠ 0x700C → t.reg off = s.reg off := by
  obtain ⟨hp, hcalm⟩ := State.up_iff.mp hup
  obtain ⟨⟨_, _, _, _, _, _, hsame⟩, hreg⟩ := (draw_onlyServed s).trans hf
  refine live_reaches f s hp ?_ ?_
  · rw [hsame]; exact hcalm
  · obtain ⟨_, _, _, hsettle⟩ := settle_same s (f s.draw)
    have hkept := (settle_leaves s (f s.draw) s.rev).reg
    refine ⟨?_, ?_, fun off hoff => (hkept off hoff).trans (hreg off hoff)⟩
    · rw [hsettle, hsame]; unfold State.works; exact ⟨rfl, rfl, rfl, rfl, rfl, rfl, rfl, rfl, rfl, rfl, rfl, rfl, rfl, rfl, rfl, rfl, rfl,
        rfl, rfl, rfl, rfl, rfl, rfl, rfl, rfl, rfl⟩
    · rw [hsettle, hsame]; rfl

/-- A command that answers and does nothing more (R386, R391, R393, R420, R437, R480, R504). -/
theorem reading_reaches {f : State → State} {s : State} {h : Hdr} {c : CmdSpec} {body : State → Res} (hup : s.up = true)
    (hf : f s.draw = runCmd h c body s.draw) (hbody : ∀ v, ∃ da, body v = okRes da v) :
    Reaches (live f s) fun t => s.works t ∧ t.flt = s.flt ∧ ∀ off, off ≠ 0x700C → t.reg off = s.reg off :=
  onlyServed_reaches hup (hf ▸ runCmd_onlyServed h c s.draw hbody)

end Sys2Proof.Machine

open Sys2Proof.Machine

/-- Settles O14, a command a case. -/
theorem readingCommandsChangeNothing : Obligations.ReadingCommandsChangeNothing := by
  intro s h hup c hc
  obtain rfl | ⟨bytes, rfl⟩ | ⟨m, rfl⟩ | ⟨i, rfl⟩ | ⟨p, rfl⟩ | rfl | rfl | rfl | rfl | ⟨first, n, rfl⟩ | rfl | ⟨first, n, rfl⟩ := hc
  · exact reading_reaches (f := fun s => cmdIdentify h s) hup rfl fun _ => ⟨_, rfl⟩
  · exact reading_reaches (f := fun s => cmdEcho h bytes s) hup rfl fun _ => ⟨_, rfl⟩
  · exact reading_reaches (f := fun s => cmdPrismRead h m s) hup rfl fun _ => ⟨_, rfl⟩
  · exact reading_reaches (f := fun s => cmdIfRead h i s) hup rfl fun _ => ⟨_, rfl⟩
  · exact reading_reaches (f := fun s => cmdNeighbourRead h p s) hup rfl fun _ => ⟨_, rfl⟩
  · exact reading_reaches (f := fun s => cmdSessionList h s) hup rfl fun _ => ⟨_, rfl⟩
  · exact reading_reaches (f := fun s => cmdPairStatus h s) hup rfl fun _ => ⟨_, rfl⟩
  · exact reading_reaches (f := fun s => cmdWitnessRead h s) hup rfl fun _ => ⟨_, rfl⟩
  · exact reading_reaches (f := fun s => cmdTimeRead h s) hup rfl fun _ => ⟨_, rfl⟩
  · exact reading_reaches (f := fun s => cmdUpdStatus h first n s) hup rfl fun _ => ⟨_, rfl⟩
  · exact reading_reaches (f := fun s => cmdFaultRead h s) hup rfl fun _ => ⟨_, rfl⟩
  · exact reading_reaches (f := fun s => cmdLogRead h first n s) hup rfl fun _ => ⟨_, rfl⟩
end

section
/-! SUPPORT. Chapters 09, 10 and 14: the 0700h group (O46). -/
namespace Sys2Proof.Machine

/-! ### The path of a response through the effect of a command on a channel -/

section
variable {s u : State} {h : Hdr} (k : PathKept s u h)
include k

theorem PathKept.setQuality (p : Nat) (q : Byte) (ts : Stamp) : PathKept s (u.setQuality p q ts) h := by
  unfold State.setQuality
  extract_lets v r
  have hread : PathKept s v h := k.verifyRead p
  clear_value v
  split
  · exact hread
  · exact hread.of_same rfl rfl rfl rfl

theorem PathKept.refreshOut (p : Nat) : PathKept s (u.refreshOut p) h := by
  unfold State.refreshOut
  extract_lets r q
  split
  · exact k
  · split
    · split
      · exact k
      · exact k.setQuality p q _
    · split
      · exact k.setQuality p _ _
      · exact k

end

/-! ### FAN_RETRY (R288) -/

/-- A channel in STOPPED. -/
def FanCh.stopped (f : FanCh) : FanCh := { f with state := .stopped, kicks := 0, duty := 0 }

/-- A channel in its first kick. -/
def FanCh.kicking (f : FanCh) : FanCh := { f with state := .kick, kicks := 1, duty := 10000 }

/-- A channel once a STALL is retried: a value still committed kicks at once (R288). -/
def FanCh.retried (f : FanCh) : FanCh := if f.safe ∨ f.safeReq then f.stopped else if f.committed = 0 then f.stopped else f.kicking

theorem FanCh.retried_state (f : FanCh) : f.retried.state ≠ .stall := by
  unfold FanCh.retried
  split
  · exact fun e => nomatch e
  · split <;> exact fun e => nomatch e

theorem FanCh.retried_stopped {f : FanCh} (h : f.committed = 0) : f.retried.state = .stopped ∧ f.retried.duty = 0 := by
  unfold FanCh.retried
  rw [if_pos h, ite_self]
  exact ⟨rfl, rfl⟩

/-- A retry but for the quality of its output: the channel's record alone, and at most a kick counted. -/
def State.restartFan (s : State) (c : Nat) : State :=
  let u := s.setFan c (s.fch8 c).stopped
  if (u.fch8 c).safe ∨ (u.fch8 c).safeReq then u else u.fromStopped c

section
variable {s : State} {c : Nat} (hc : c < s.fan.length)
include hc

theorem State.fromStopped_eq : s.fromStopped c =
    if (s.fch8 c).committed = 0 then s.setFan c (s.fch8 c).stopped else (s.setFan c (s.fch8 c).kicking).count 0x5180 1 := by
  have hself := s.fch8_setFan_self (s.fch8 c).stopped hc
  have hkick : (s.setFan c (s.fch8 c).stopped).startKick c 1 = (s.setFan c (s.fch8 c).kicking).count 0x5180 1 := by
    unfold State.startKick
    rw [hself, State.setFan_setFan]
    rfl
  have hstop : s.fromStopped c = if ((s.setFan c (s.fch8 c).stopped).fch8 c).committed = 0 then s.setFan c (s.fch8 c).stopped
    else (s.setFan c (s.fch8 c).stopped).startKick c 1 := rfl
  rw [hstop, hself, hkick]
  rfl

theorem State.restartFan_eq : s.restartFan c = s.setFan c (s.fch8 c).retried ∨
    s.restartFan c = (s.setFan c (s.fch8 c).retried).count 0x5180 1 := by
  have hself := s.fch8_setFan_self (s.fch8 c).stopped hc
  unfold State.restartFan FanCh.retried
  extract_lets u
  have hlen : c < u.fan.length := lt_of_lt_of_eq hc (lmod_length ..).symm
  rw [State.fromStopped_eq hlen, show u.fch8 c = (s.fch8 c).stopped from hself,
    show u = s.setFan c (s.fch8 c).stopped from rfl, State.setFan_setFan, State.setFan_setFan]
  by_cases hsafe : (s.fch8 c).safe = true ∨ (s.fch8 c).safeReq = true
  · exact .inl ((if_pos hsafe).trans (congrArg (s.setFan c) (if_pos hsafe).symm))
  · rw [if_neg hsafe]
    by_cases hzero : (s.fch8 c).committed = 0
    · exact .inl ((if_neg hsafe).trans ((if_pos hzero).trans (congrArg (s.setFan c) (if_pos hzero).symm)))
    · exact .inr ((if_neg hsafe).trans ((if_neg hzero).trans (congrArg (fun x => (s.setFan c x).count 0x5180 1) (if_neg hzero).symm)))

theorem State.restartFan_fch8 : (s.restartFan c).fch8 c = (s.fch8 c).retried := by
  have hself := s.fch8_setFan_self (s.fch8 c).retried hc
  obtain e | e := State.restartFan_eq hc <;> rw [e] <;> exact hself

theorem PathKept.restartFan {s₀ : State} {h : Hdr} (k : PathKept s₀ s h) : PathKept s₀ (s.restartFan c) h := by
  obtain e | e := State.restartFan_eq hc <;> rw [e] <;> exact k.of_same rfl rfl rfl rfl

end

/-! ### The commands (R392) -/

section
variable {s v : State} {h : Hdr} (hv : Taken s h v)
include hv

theorem Taken.fan : v.fan = s.fan := by obtain ⟨_, _, _, _, e⟩ := hv.same; rw [e]; rfl
theorem Taken.fioCh : v.fioCh = s.fioCh := by obtain ⟨_, _, _, _, e⟩ := hv.same; rw [e]; rfl
theorem Taken.fch8 (c : Nat) : v.fch8 c = s.fch8 c := congrArg (·.getD c {}) hv.fan

end

section
variable {s : State} {h : Hdr}

theorem Served.fch {u t : State} (h : Served u t) (k : Nat) : t.fch k = u.fch k := congrArg (·.getD k {}) h.fioCh
theorem Served.fch8 {u t : State} (h : Served u t) (c : Nat) : t.fch8 c = u.fch8 c := congrArg (·.getD c {}) h.fan

theorem fioRetry_reaches {k : Nat} (cool : Bool) (hlen : s.fioCh.length = 32) (hk : k < 32) (ha : s.admits h 0)
    (hbooth : s.boothIs h (s.point (s.fioPoint k)).owner.toNat = true) :
    Reaches (exec (.fioRetry h k cool) s) fun t => s.answered t h 0x0701 0 [] ∧ (t.fch k).overload = false ∧
      (cool = true → (t.fch k).overtemp = false ∧ (t.fch k).latched = false) := by
  have hdenied : (decide (k < 32) && !s.draw.boothIs h (s.draw.point (s.draw.fioPoint k)).owner.toNat) = false := by
    rw [show s.draw.boothIs h (s.draw.point (s.draw.fioPoint k)).owner.toNat = true from hbooth, Bool.not_true, Bool.and_false]
  refine ok_serves (f := fun s => cmdFioRetry h k cool s) (fl := 0) rfl ha
    { denied := hdenied, bad := if_neg (by omega), changes := fun e => Bool.noConfusion e } (Nat.zero_le _) fun v hv =>
    ⟨_, rfl, hv.path.of_same rfl rfl rfl rfl, fun t hans hserved => ?_⟩
  have hself := (hserved.fch k).trans (State.fch_setFch_self v _ (by rw [hv.fioCh]; omega))
  rw [hself]
  refine ⟨hans, rfl, fun hcool => ?_⟩
  rw [hcool]
  simp

theorem fanRetry_reaches {k : Nat} (hlen : s.fan.length = 8) (hk : k < 8) (ha : s.admits h 0)
    (hbooth : s.boothIs h (s.point (s.fanPoint k)).owner.toNat = true) (hstall : (s.fch8 k).state = .stall) :
    Reaches (exec (.fanRetry h k) s) fun t => s.answered t h 0x0702 0 [] ∧ (t.fch8 k).state ≠ .stall ∧
      ((s.fch8 k).committed = 0 → (t.fch8 k).state = .stopped ∧ (t.fch8 k).duty = 0) := by
  have hdenied : (decide (k < 8) && !s.draw.boothIs h (s.draw.point (s.draw.fanPoint k)).owner.toNat) = false := by
    rw [show s.draw.boothIs h (s.draw.point (s.draw.fanPoint k)).owner.toNat = true from hbooth, Bool.not_true, Bool.and_false]
  refine ok_serves (f := fun s => cmdFanRetry h k s) (fl := 0) (da := []) rfl ha
    { denied := hdenied, bad := if_neg (by omega), changes := fun e => Bool.noConfusion e } (Nat.zero_le _) fun v hv => ?_
  have hkv : k < v.fan.length := by rw [hv.fan]; omega
  refine ⟨(v.restartFan k).refreshOut ((v.restartFan k).fanPoint k), if_pos ((congrArg FanCh.state (hv.fch8 k)).trans hstall),
    (PathKept.restartFan hkv hv.path).refreshOut _, fun t hans hserved => ?_⟩
  rw [hserved.fch8, (refreshOut_anaKept ..).fch8, State.restartFan_fch8 hkv, hv.fch8]
  exact ⟨hans, FanCh.retried_state _, FanCh.retried_stopped⟩

theorem fanLearn_reaches {k days : Nat} (hlen : s.fan.length = 8) (hk : k < 8) (hmin : 1 ≤ days) (hmax : days ≤ 7) (ha : s.admits h 0)
    (hland : s.landlord h = true) (hcur : s.flag (0x5050 + 4 * k) 2 = true) :
    Reaches (exec (.fanLearn h k days) s) fun t => s.answered t h 0x0703 0 [] ∧ (t.fch8 k).learning = true ∧
      (t.fch8 k).learnUntil = s.crsl.upNs + days * 86400000000000 ∧ (t.fch8 k).base = (s.fch8 k).base := by
  have hbad : (if 8 ≤ k then some 0 else if days = 0 ∨ 7 < days then some 1 else none) = none :=
    (if_neg (by omega)).trans (if_neg (by omega))
  refine ok_serves (f := fun s => cmdFanLearn h k days s) (fl := 0) rfl ha
    { denied := congrArg (!·) hland, bad := hbad, changes := fun e => Bool.noConfusion e, refuse := if_pos hcur } (Nat.zero_le _) fun v hv =>
    ⟨_, rfl, hv.path.of_same rfl rfl rfl rfl, fun t hans hserved => ?_⟩
  have hbase : (v.fch8 k).base = (s.fch8 k).base := congrArg FanCh.base (hv.fch8 k)
  rw [hserved.fch8, State.fch8_setFan_self v _ (by rw [hv.fan]; omega), hv.crsl]
  exact ⟨hans, rfl, rfl, hbase⟩

/-- A channel that is there has its kind and number in range. -/
theorem State.ioChannel_kind {s : State} {kind ch : Nat} {e : W32 × Nat} (he : s.ioChannel kind ch = some e) : kind ≤ 3 := by
  unfold State.ioChannel at he
  by_contra hkind
  rw [if_neg (by omega), if_neg (by omega), if_neg (by omega), if_neg (by omega)] at he
  exact nomatch he

theorem ioStatus_reaches {kind ch : Nat} {e : W32 × Nat} (he : s.draw.ioChannel kind ch = some e) (ha : s.admits h 8)
    (hbooth : s.boothIs h (s.point e.2).owner.toNat = true) (hcheck : s.check (s.boothOf h) .read e.2 false false = .allow)
    (hsound : s.sound e.2) :
    Reaches (exec (.ioStatus h kind ch) s) fun t =>
      s.answered t h 0x0704 0 (leBytes 4 e.1.toNat ++ leBytes 4 (s.readRec e.2).value.toNat) ∧ t.pnt = s.pnt := by
  have hdenied : (((s.draw.ioChannel kind ch).map fun e => !s.draw.boothIs h (s.draw.point e.2).owner.toNat).getD false) = false := by
    rw [he]; exact congrArg (!·) hbooth
  have hbad : (if 3 < kind then some 0 else if (s.draw.ioChannel kind ch).isNone then some 1 else none) = none := by
    rw [if_neg (Nat.not_lt.mpr (State.ioChannel_kind he)), he]; rfl
  let x := s.draw.ioChannel kind ch
  have hcmd : cmdIoStatus h kind ch s.draw = runCmd h
      { opcode := 0x0704, maxData := 8, denied := (x.map fun e => !s.draw.boothIs h (s.draw.point e.2).owner.toNat).getD false
        bad := if 3 < kind then some 0 else if x.isNone then some 1 else none }
      (fun v => okRes (leBytes 4 (x.getD (0, 0)).1.toNat ++ leBytes 4 (v.readPoint (v.boothOf h) (x.getD (0, 0)).2).2.value.toNat)
        (v.readPoint (v.boothOf h) (x.getD (0, 0)).2).1) s.draw := rfl
  refine ok_serves (f := fun s => cmdIoStatus h kind ch s) (fl := 0) (da := leBytes 4 e.1.toNat ++ leBytes 4 (s.readRec e.2).value.toNat) hcmd ha
    { denied := hdenied, bad := hbad, changes := fun e => Bool.noConfusion e } ?_ fun v hv => ?_
  · rw [List.length_append, leBytes_length, leBytes_length]
  have hread : v.readPoint (v.boothOf h) e.2 = (v, s.readRec e.2) := by
    have hstay : v.verifyRead e.2 = v := State.verifyRead_of_sound (by unfold State.sound State.point; rw [hv.pnt]; exact hsound)
    rw [hv.boothOf, State.readPoint_allowed ((hv.check ..).trans hcheck), hstay, hv.readRec]
  refine ⟨v, ?_, hv.path, fun t hans hserved => ⟨hans, hserved.pnt.trans hv.pnt⟩⟩
  rw [show x.getD (0, 0) = e from congrArg (·.getD (0, 0)) he, hread]
  rfl

end

end Sys2Proof.Machine

open Sys2Proof.Machine

/-- Settles O46, a command a clause. -/
theorem ioCommands : Obligations.IoCommands := fun _ _ hfio hfan =>
  ⟨fun _ cool hk ha hbooth => fioRetry_reaches cool hfio hk ha hbooth, fun _ hk ha hbooth hstall => fanRetry_reaches hfan hk ha hbooth hstall,
    fun _ _ hk hmin hmax ha hland hcur => fanLearn_reaches hfan hk hmin hmax ha hland hcur,
    fun _ _ _ he ha hbooth hcheck hsound => ioStatus_reaches he ha hbooth hcheck hsound⟩
end

section
/-! SUPPORT. Chapter 11: what an event of a room bus leaves, and the states of a bus (O50). -/
namespace Sys2Proof.Machine

/-! ### What follows an event of a bus -/

/-- `t` follows `u` without a nested CRITICAL: the buses and their settings stand, no SQ field is cleared, and the counters of the CAN
block stand (R319). -/
structure BusKept (u t : State) : Prop where
  bus : t.can.bus = u.can.bus
  regs : ∀ off, off ≠ 0x700C → t.reg off = u.reg off
  nest : t.flt.nest = u.flt.nest
  sq : ∀ b i, u.sq b i = true → t.sq b i = true
  total : ∀ o, 0x5A00 ≤ o → o < 0x6000 → t.total o = u.total o

section
variable {u t v : State}

theorem BusKept.of_same (hcan : t.can.bus = u.can.bus) (hregs : t.regs = u.regs) (hflt : t.flt = u.flt) (hstat : t.stat = u.stat)
    (hcnt : t.cnt = u.cnt) : BusKept u t where
  bus := hcan
  regs off _ := State.reg_of_regs hregs off
  nest := congrArg Flt.nest hflt
  sq b i h := by unfold State.sq State.statOf at h ⊢; rwa [hstat]
  total o _ _ := congrArg (sget 0 · o) hcnt

theorem BusKept.refl (s : State) : BusKept s s := .of_same rfl rfl rfl rfl rfl

theorem BusKept.trans (h : BusKept u t) (k : BusKept t v) : BusKept u v where
  bus := k.bus.trans h.bus
  regs off hoff := (k.regs off hoff).trans (h.regs off hoff)
  nest := k.nest.trans h.nest
  sq b i e := k.sq b i (h.sq b i e)
  total o hlo hhi := (k.total o hlo hhi).trans (h.total o hlo hhi)

theorem BusKept.ite {c : Prop} [Decidable c] (h : c → BusKept u t) (k : ¬c → BusKept u v) : BusKept u (if c then t else v) := by
  split
  · exact h ‹_›
  · exact k ‹_›

theorem BusKept.foldl {α : Type} {f : State → α → State} (h : ∀ s x, BusKept s (f s x)) (l : List α) (s : State) :
    BusKept s (l.foldl f s) := by
  induction l generalizing s with
  | nil => exact .refl s
  | cons x l ih => exact (h s x).trans (ih _)

theorem BusKept.setSQ (h : BusKept u t) (b i : Nat) : BusKept u (t.setSQ b i) :=
  h.trans ⟨rfl, fun _ _ => rfl, rfl, fun _ _ e => State.sq_setSQ_mono t b i e, fun _ _ _ => rfl⟩

/-- A counter of another block. -/
theorem BusKept.countElse (h : BusKept u t) {o : Nat} (n : Nat) (ho : o < 0x5A00 ∨ 0x6000 ≤ o) : BusKept u (t.count o n) :=
  h.trans ⟨rfl, fun _ _ => rfl, rfl, fun _ _ e => e, fun _ hlo hhi => State.total_count_ne t n (by omega)⟩

/-- The same count on both sides. -/
theorem BusKept.counted (h : BusKept u t) (o n : Nat) : BusKept (u.count o n) (t.count o n) where
  bus := h.bus
  regs := h.regs
  nest := h.nest
  sq := h.sq
  total p hlo hhi := by
    obtain rfl | hne := eq_or_ne o p
    · rw [State.total_count, State.total_count, h.total o hlo hhi]
    · rw [State.total_count_ne _ n hne, State.total_count_ne _ n hne, h.total p hlo hhi]

theorem BusKept.cbus (h : BusKept u t) (b : Nat) : t.cbus b = u.cbus b := congrArg (·.getD b {}) h.bus

end

section
variable (s : State)

/-- An event short of a CRITICAL is logged, and sets its SQ field besides (R492, R498). -/
theorem report_busKept {cls : EvClass} (b i : Nat) (booth : Byte) (data : Nat) (h : cls ≠ .critical) :
    BusKept (s.setSQ b i) (s.report cls b i booth data) := by
  have hlog := raise_logOnly (s.setSQ b i) cls b i booth data
  have hnest := raise_nest (s.setSQ b i) cls b i booth data h
  have htotal := fun o => (s.setSQ b i).raise_total_low cls b i booth data (o := o)
  unfold State.report
  obtain ⟨_, _, _, e⟩ := hlog.same
  exact ⟨by rw [e], fun _ _ => by rw [e]; rfl, hnest, hlog.sq, fun o _ hhi => htotal o (by omega)⟩

theorem badRecord_busKept (p : Nat) : BusKept s (s.badRecord p) := by
  unfold State.badRecord
  extract_lets r old found
  refine .ite (fun _ => .refl s) fun _ => ?_
  have hstored : BusKept s (found.storeRec p ({ r with quality := 0x85 } : PRec).sealed) := .of_same rfl rfl rfl rfl rfl
  exact ((hstored.setSQ 3 2).trans (report_busKept _ 3 2 0xFF p (by decide))).countElse 1 (.inl (by decide))

theorem verifyRead_busKept (p : Nat) : BusKept s (s.verifyRead p) := by
  unfold State.verifyRead
  exact .ite (fun _ => .refl s) fun _ => .ite (fun _ => badRecord_busKept s p) fun _ =>
    .ite (fun _ => .refl s) fun _ => .of_same rfl rfl rfl rfl rfl

theorem writeRec_busKept (p : Nat) (r : PRec) : BusKept s (s.writeRec p r) := .of_same rfl rfl rfl rfl rfl

theorem setQuality_busKept (p : Nat) (q : Byte) (ts : Stamp) : BusKept s (s.setQuality p q ts) := by
  have hread := verifyRead_busKept s p
  unfold State.setQuality
  extract_lets v r
  exact .ite (fun _ => hread) fun _ => hread.trans (writeRec_busKept v p _)

theorem qualityNow_busKept (p : Nat) (q : Byte) : BusKept s (s.qualityNow p q) := by
  unfold State.qualityNow
  exact .ite (fun _ => setQuality_busKept s p q _) fun _ => .refl s

theorem refreshOut_busKept (p : Nat) : BusKept s (s.refreshOut p) := by
  unfold State.refreshOut
  exact .ite (fun _ => .refl s) fun _ => .ite (fun _ => .ite (fun _ => .refl s) fun _ => setQuality_busKept s p _ _) fun _ =>
    .ite (fun _ => setQuality_busKept s p _ _) fun _ => .refl s

/-- The points of a bus follow its state and leave it (R308, R309). -/
theorem busPoints_busKept (b : Nat) : BusKept s (s.busPoints b) := by
  unfold State.busPoints
  extract_lets v
  have hinputs : BusKept s v := .ite (fun _ => .foldl (fun t p => qualityNow_busKept t p _) _ s) fun _ => .refl s
  exact hinputs.trans (.foldl (fun t p => refreshOut_busKept t p) _ v)

/-- An entry notes how its last frame fared, and its points with it (R306). -/
theorem markEntry_busKept (e : Option Nat) (bad : Bool) : BusKept s (s.markEntry e bad) := by
  cases e with
  | none => exact .refl s
  | some i =>
    unfold State.markEntry
    refine .trans ?_ (.foldl (fun t p => refreshOut_busKept t p) _ _)
    exact .of_same rfl rfl rfl rfl rfl

theorem noteSent_busKept (e : Option Nat) : BusKept s (s.noteSent e) := by
  cases e with
  | none => exact .refl s
  | some i => exact .of_same rfl rfl rfl rfl rfl

/-- The completion of a command leaves the buses (R378). -/
theorem countDone_busKept (n op status : Nat) : BusKept s (s.countDone n op status) := by
  have hleft := countDone_leaves s n op status
  obtain ⟨_, _, _, e⟩ := s.countDone_same n op status
  exact ⟨by rw [e], hleft.reg, congrArg Flt.nest hleft.flt, hleft.sq, fun o _ hhi => hleft.total o (by omega)⟩

theorem respond_busKept (n op : Nat) (tag booth : Byte) (sseq : W32) (fl st de : Nat) (da : List Byte) :
    BusKept s (s.respond n op tag booth sseq fl st de da) := by
  have hleft := respond_leaves s n op tag booth sseq fl st de da
  obtain ⟨_, _, _, _, _, e⟩ := s.respond_same n op tag booth sseq fl st de da
  exact ⟨by rw [e], hleft.reg, congrArg Flt.nest hleft.flt, hleft.sq, fun o _ hhi => hleft.total o (by omega)⟩

theorem complete_busKept (x : Slot) (st de : Nat) (da : List Byte) : BusKept s (s.complete x st de da) := by
  unfold State.complete State.completeAs
  extract_lets old v
  have hv : BusKept s v := .of_same rfl rfl rfl rfl rfl
  exact .ite (fun _ => hv.trans (countDone_busKept v ..)) fun _ => hv.trans (respond_busKept v ..)

theorem cancelDone_busKept (b tag outcome : Nat) : BusKept s (s.cancelDone b tag outcome) :=
  .foldl (fun t x => .ite (fun _ => complete_busKept t x ..) fun _ => .refl t) _ s

end

/-! ### The record of a bus -/

section
variable {s : State} {b : Nat}

theorem State.cbus_setBus_self (x : CanBus) (hb : b < s.can.bus.length) : (s.setBus b x).cbus b = x := lmod_getD_self _ _ _ _ hb

theorem State.setBus_bus_length (s : State) (b : Nat) (x : CanBus) : (s.setBus b x).can.bus.length = s.can.bus.length := lmod_length ..

theorem State.cbus_setTxQueue_self (gone : Nat) (l : List CanTx) (hb : b < s.can.bus.length) :
    (s.setTxQueue b gone l).cbus b = { s.cbus b with queue := l } := State.cbus_setBus_self _ hb

theorem State.setTxQueue_bus_length (s : State) (b gone : Nat) (l : List CanTx) :
    (s.setTxQueue b gone l).can.bus.length = s.can.bus.length := lmod_length ..

end

section
variable {s : State} {b : Nat} (r : Nat)

theorem State.takeActive_queueHead (h : (s.cbus b).active = some .queueHead) : ∃ gone, s.takeActive b r =
    (s.setTxQueue b gone ((s.cbus b).queue.drop 1)).setBus b
      { (s.setTxQueue b gone ((s.cbus b).queue.drop 1)).cbus b with active := none, sent := none } := by
  unfold State.takeActive
  dsimp only
  rw [h]
  exact ⟨_, rfl⟩

theorem State.takeActive_express {e : Fin 4} (h : (s.cbus b).active = some (.express e)) : s.takeActive b r =
    s.setBus b { s.cbus b with
      active := none, sent := none, express := lmod (s.cbus b).express e.val fun y => { y with active := none, result := r } } := by
  unfold State.takeActive
  dsimp only
  rw [h]

theorem State.takeActive_timeRef (h : (s.cbus b).active = some .timeRef) :
    s.takeActive b r = s.setBus b { s.cbus b with active := none, sent := none } := by
  unfold State.takeActive
  dsimp only
  rw [h]

end

/-- A bus record whose frame is out of transmission, its state and its error counters as they were. -/
structure CanBus.Idle (u v : CanBus) : Prop where
  active : v.active = none
  state : v.state = u.state
  tecCnt : v.tecCnt = u.tecCnt
  recCnt : v.recCnt = u.recCnt
  lec : v.lec = u.lec

/-- `t` is `s` with the frame of bus `b` out of transmission: its cancel is counted, and nothing else of the block. -/
structure Frees (b : Nat) (s t : State) : Prop where
  idle : (s.cbus b).Idle (t.cbus b)
  length : t.can.bus.length = s.can.bus.length
  nest : t.flt.nest = s.flt.nest
  sq : ∀ k i, s.sq k i = true → t.sq k i = true
  total : ∀ o, 0x5A00 ≤ o → o < 0x6000 → 0x5A18 + 0x20 * b ≠ o → t.total o = s.total o

section
variable {s : State} {b : Nat} (hb : b < s.can.bus.length)
include hb

theorem setBus_frees {x : CanBus} (h : (s.cbus b).Idle x) : Frees b s (s.setBus b x) where
  idle := (State.cbus_setBus_self x hb).symm ▸ h
  length := s.setBus_bus_length b x
  nest := rfl
  sq _ _ e := e
  total _ _ _ _ := rfl

/-- A frame taken out leaves its bus without one (R306). -/
theorem takeActive_frees (r : Nat) (hactive : (s.cbus b).active ≠ none) : Frees b s (s.takeActive b r) := by
  cases hc : (s.cbus b).active with
  | none => exact absurd hc hactive
  | some c =>
    cases c with
    | queueHead =>
      obtain ⟨gone, htake⟩ := State.takeActive_queueHead r hc
      have hself := State.cbus_setTxQueue_self (s := s) gone ((s.cbus b).queue.drop 1) hb
      have hlen := s.setTxQueue_bus_length b gone ((s.cbus b).queue.drop 1)
      rw [htake]
      refine ⟨?_, (State.setBus_bus_length ..).trans hlen, rfl, fun _ _ e => e, fun _ _ _ _ => rfl⟩
      rw [State.cbus_setBus_self _ (hlen ▸ hb), hself]
      exact ⟨rfl, rfl, rfl, rfl, rfl⟩
    | express e => rw [State.takeActive_express r hc]; exact setBus_frees hb ⟨rfl, rfl, rfl, rfl, rfl⟩
    | timeRef => rw [State.takeActive_timeRef r hc]; exact setBus_frees hb ⟨rfl, rfl, rfl, rfl, rfl⟩

theorem putBack_frees (x : CanTx) : Frees b s (s.putBack b x) := by
  unfold State.putBack
  refine setBus_frees hb ?_
  split <;> exact ⟨rfl, rfl, rfl, rfl, rfl⟩

/-- A bus that stops sending has no frame in transmission (R307). -/
theorem stopSending_frees : Frees b s (s.stopSending b) := by
  unfold State.stopSending
  split
  next x hx =>
    split
    · have hactive : (s.cbus b).active ≠ none := fun hnone => by
        unfold State.activeTx at hx
        dsimp only at hx
        rw [hnone] at hx
        exact nomatch hx
      have hfree := takeActive_frees hb 3 hactive
      have hdone := cancelDone_busKept ((s.takeActive b 3).count (0x5A18 + 0x20 * b) 1) b x.tag 0
      exact ⟨hdone.cbus b ▸ hfree.idle, (congrArg List.length hdone.bus).trans hfree.length, hdone.nest.trans hfree.nest,
        fun k i e => hdone.sq k i (hfree.sq k i e),
        fun o hlo hhi hne => (hdone.total o hlo hhi).trans ((State.total_count_ne _ 1 hne).trans (hfree.total o hlo hhi hne))⟩
    · exact putBack_frees hb x
  · exact setBus_frees hb ⟨rfl, rfl, rfl, rfl, rfl⟩

end

/-! ### The states of a bus (R298, R308, R309) -/

/-- The end of an event shows what follows its effect (R34, R354). -/
theorem Ended.busKept {u t : State} (h : Ended u t) (hsq : ∀ b i, u.sq b i = true → t.sq b i = true) : BusKept u t where
  bus := congrArg Can.bus h.can
  regs off _ := h.reg off
  nest := congrArg Flt.nest h.flt
  sq := hsq
  total o _ hhi := h.total o (by omega)

/-- An event of IOE-CAN, which passed its BIST (R488), leaves the buses as its effect left them, and what that shows is shown. -/
theorem busEvent_keeps {f : State → State} {s u : State} (he : s.engineUp 2 = true) (hf : BusKept u (f s.draw))
    (hn : u.flt.nest = s.flt.nest) : Reaches (liveIoe 2 f s) (BusKept u) := by
  obtain ⟨hp, hcalm, hbist⟩ := State.engineUp_iff.mp he
  refine liveIoe_reaches 2 f s hp hbist ((hf.nest.trans hn).trans hcalm) ?_
  exact hf.trans ((settle_ended s (f s.draw) s.rev).busKept fun b i e => by rw [State.outside_sq]; exact settle_sq_mono s _ e)

section
variable {s : State} {b : Nat} (hb : b < s.can.bus.length)
include hb

/-- A bus that goes off has no frame in transmission, and its state is shown and counted (R308). -/
theorem busOffOn_keeps (hup : s.busUp b = true) : ∃ v, Frees b s v ∧
    BusKept (((v.setBus b { v.cbus b with state := .busOff, recov := 0 }).setSQ 11 6).count (0x5A1C + 0x20 * b) 1) (s.busOffOn b) := by
  have hoff : s.busOffOn b = _ := if_pos hup
  rw [hoff]
  refine ⟨s.stopSending b, stopSending_frees hb, ?_⟩
  have hreport := report_busKept ((s.stopSending b).setBus b { (s.stopSending b).cbus b with state := .busOff, recov := 0 }) (cls := .warn)
    11 6 0xFF b (by decide)
  exact (hreport.counted (0x5A1C + 0x20 * b) 1).trans (busPoints_busKept _ b)

end

section
variable {s : State} {b : Fin 4} (he : s.engineUp 2 = true) (hlen : s.can.bus.length = 4)
include he hlen

theorem busOff_reaches (hup : s.busUp b = true) : Reaches (exec (.busOff b) s) fun t =>
    (t.cbus b).state = .busOff ∧ (t.cbus b).active = none ∧ t.sq 11 6 = true ∧
      t.total (0x5A1C + 0x20 * b.val) = s.total (0x5A1C + 0x20 * b.val) + 1 := by
  have hb : b.val < s.draw.can.bus.length := lt_of_lt_of_eq b.isLt hlen.symm
  obtain ⟨v, hfree, hkept⟩ := busOffOn_keeps hb hup
  refine (busEvent_keeps (f := fun s => s.busOffOn b) he hkept hfree.nest).imp fun t ht => ?_
  have hself := State.cbus_setBus_self (s := v) { v.cbus b with state := .busOff, recov := 0 } (hfree.length.symm ▸ hb)
  rw [ht.cbus, ht.total _ (by omega) (by omega), State.total_count]
  refine ⟨congrArg CanBus.state hself, (congrArg CanBus.active hself).trans hfree.idle.active,
    ht.sq 11 6 (State.sq_setSQ_self _ 11 6), congrArg (· + 1) (hfree.total _ (by omega) (by omega) (by omega))⟩

/-- An event that replaces the record of its bus and brings its points up to date. -/
theorem setBus_points_reaches {f : State → State} {x : CanBus} (hf : f s.draw = (s.draw.setBus b x).busPoints b) :
    Reaches (liveIoe 2 f s) fun t => t.cbus b = x := by
  refine (busEvent_keeps (u := s.draw.setBus b x) he (hf ▸ busPoints_busKept _ b) rfl).imp fun t ht => ?_
  exact (ht.cbus b).trans (State.cbus_setBus_self x (lt_of_lt_of_eq b.isLt hlen.symm))

theorem busOffRecovery_reaches (hoff : (s.cbus b).state = .busOff) : Reaches (exec (.busOffRecovery b) s) fun t =>
    (t.cbus b).state = .active ∧ (t.cbus b).recov = 128 ∧ (t.cbus b).tecCnt = 0 ∧ (t.cbus b).recCnt = 0 :=
  (setBus_points_reaches (f := fun s => s.busOffEnd b) he hlen (if_pos hoff)).imp fun t ht => by
    rw [ht]; exact ⟨rfl, rfl, rfl, rfl⟩

theorem busStuckRecovery_reaches (hstuck : (s.cbus b).state = .stuck) : Reaches (exec (.busStuckRecovery b) s) fun t =>
    (t.cbus b).txOff = false ∧ (t.cbus b).state =
      if (s.cbus b).wasOff then .busOff else if 128 ≤ (s.cbus b).tecCnt ∨ 128 ≤ (s.cbus b).recCnt then .passive else .active :=
  (setBus_points_reaches (f := fun s => s.busStuckEnd b) he hlen (if_pos hstuck)).imp fun t ht => by
    rw [ht]; exact ⟨rfl, rfl⟩

theorem busStuck_reaches (hen : s.flag 0x5800 (8 + b.val) = true) (hfree : (s.cbus b).state ≠ .stuck) :
    Reaches (exec (.busStuck b) s) fun t => (t.cbus b).state = .stuck ∧ (t.cbus b).txOff = true ∧ t.sq 11 7 = true := by
  have hb : b.val < s.draw.can.bus.length := lt_of_lt_of_eq b.isLt hlen.symm
  have hstop := stopSending_frees hb
  have hstuck : s.draw.busStuckOn b = (((s.draw.stopSending b).setBus b { (s.draw.stopSending b).cbus b with
      state := .stuck, txOff := true, wasOff := decide (((s.draw.stopSending b).cbus b).state = .busOff) }).report .fault 11 7 0xFF b).busPoints b :=
    if_pos ⟨hen, hfree⟩
  generalize s.draw.stopSending b = v at hstop hstuck
  let x : CanBus := { v.cbus b with state := .stuck, txOff := true, wasOff := decide ((v.cbus b).state = .busOff) }
  have hreport := report_busKept (v.setBus b x) (cls := .fault) 11 7 0xFF b (by decide)
  refine (busEvent_keeps (f := fun s => s.busStuckOn b) (u := (v.setBus b x).setSQ 11 7) he (hstuck ▸ hreport.trans (busPoints_busKept _ b)) hstop.nest).imp fun t ht => ?_
  have hself := State.cbus_setBus_self (s := v) x (hstop.length.symm ▸ hb)
  rw [ht.cbus]
  exact ⟨congrArg CanBus.state hself, congrArg CanBus.txOff hself, ht.sq 11 7 (State.sq_setSQ_self _ 11 7)⟩

end

/-! ### Error frames (R298, R308) -/

/-- The record of a bus after an error frame, short of bus-off. -/
def CanBus.erred (u : CanBus) (tec rec lec : Nat) : CanBus :=
  let tx := u.tecCnt + 8 * tec
  let rx := Nat.min 255 (u.recCnt + rec % 2 + 8 * (rec / 2))
  { u with tecCnt := Nat.min 255 tx, recCnt := rx, lec, state := if 128 ≤ tx ∨ 128 ≤ rx then .passive else .active }

theorem CanBus.erred_state (u : CanBus) (tec rec lec : Nat) :
    (u.erred tec rec lec).state = .passive ∨ (u.erred tec rec lec).state = .active := by
  unfold CanBus.erred
  dsimp only
  split
  · exact .inl rfl
  · exact .inr rfl

/-- The error frame of a bus that takes part, short of bus-off. -/
def State.errorCounted (s : State) (b tec rec lec : Nat) : State :=
  let x := (s.cbus b).erred tec rec lec
  let t := (s.setBus b x).count (0x5A08 + 0x20 * b) 1
  if x.state = .passive ∧ (s.cbus b).state = .active then t.setSQ 11 5 else t

theorem satNat_min (x : Nat) : satNat 255 x = Nat.min 255 x := by
  unfold satNat
  split
  · exact (Nat.min_eq_left (by omega)).symm
  · exact (Nat.min_eq_right (by omega)).symm

section
variable {s : State} {b : Nat} (tec rec lec : Nat) (hup : s.busUp b = true)
include hup

theorem State.errorFrame_eq : s.errorFrame b tec rec lec =
    if 255 < (s.cbus b).tecCnt + 8 * tec then (s.errorCounted b tec rec lec).busOffOn b else s.errorCounted b tec rec lec := by
  obtain ⟨hen, hlive⟩ := Bool.and_eq_true_iff.mp hup
  have hdead : s.busDead b = false := Bool.not_eq_true' _ ▸ hlive
  unfold State.errorFrame State.errorCounted CanBus.erred
  rw [if_neg (ne_false_of_eq_true hen)]
  simp only [hdead, Bool.false_eq_true, if_false, satNat_min, decide_eq_true_eq]

/-- The error frame steps the record of the bus and its counter, and shows a bus that has become error-passive (R298). -/
theorem State.errorCounted_steps (hb : b < s.can.bus.length) : (s.errorCounted b tec rec lec).cbus b = (s.cbus b).erred tec rec lec ∧
    (s.errorCounted b tec rec lec).can.bus.length = s.can.bus.length ∧ (s.errorCounted b tec rec lec).flt = s.flt ∧
    (s.errorCounted b tec rec lec).busUp b = true ∧
    (s.errorCounted b tec rec lec).total (0x5A08 + 0x20 * b) = s.total (0x5A08 + 0x20 * b) + 1 ∧
    (((s.cbus b).erred tec rec lec).state = .passive ∧ (s.cbus b).state = .active → (s.errorCounted b tec rec lec).sq 11 5 = true) := by
  have hself := State.cbus_setBus_self ((s.cbus b).erred tec rec lec) hb
  have hlen := s.setBus_bus_length b ((s.cbus b).erred tec rec lec)
  obtain ⟨hen, hlive⟩ := Bool.and_eq_true_iff.mp hup
  have hparity : s.parityHeld 11 = false := by
    unfold State.busDead at hlive
    simp only [Bool.not_or, Bool.and_eq_true, Bool.not_eq_true'] at hlive
    exact hlive.2
  have hup' : ((s.setBus b ((s.cbus b).erred tec rec lec)).busUp b) = true := by
    unfold State.busUp State.busDead
    rw [hself, show (s.setBus b ((s.cbus b).erred tec rec lec)).parityHeld 11 = false from hparity,
      show (s.setBus b ((s.cbus b).erred tec rec lec)).flag 0x5800 (8 + b) = true from hen]
    obtain e | e := (s.cbus b).erred_state tec rec lec <;> rw [e] <;> rfl
  have htotal := (s.setBus b ((s.cbus b).erred tec rec lec)).total_count (0x5A08 + 0x20 * b) 1
  unfold State.errorCounted
  extract_lets x v
  split
  · exact ⟨hself, hlen, rfl, hup', htotal, fun _ => State.sq_setSQ_self _ 11 5⟩
  next hno => exact ⟨hself, hlen, rfl, hup', htotal, fun hyes => absurd hyes hno⟩

end

theorem errorFrame_reaches {s : State} {b : Fin 4} (he : s.engineUp 2 = true) (hlen : s.can.bus.length = 4) (tec rec : Nat) (lec : Fin 8)
    (hup : s.busUp b = true) : Reaches (exec (.errorFrame b tec rec lec) s) fun t =>
      let tx := (s.cbus b).tecCnt + 8 * tec
      let rx := Nat.min 255 ((s.cbus b).recCnt + rec % 2 + 8 * (rec / 2))
      (t.cbus b).tecCnt = Nat.min 255 tx ∧ (t.cbus b).recCnt = rx ∧ (t.cbus b).lec = lec.val ∧
        (t.cbus b).state = (if 255 < tx then .busOff else if 128 ≤ tx ∨ 128 ≤ rx then .passive else .active) ∧
        ((s.cbus b).state = .active → 128 ≤ tx ∨ 128 ≤ rx → t.sq 11 5 = true) ∧ (255 < tx → t.sq 11 6 = true) ∧
        t.total (0x5A08 + 0x20 * b.val) = s.total (0x5A08 + 0x20 * b.val) + 1 := by
  have hb : b.val < s.draw.can.bus.length := lt_of_lt_of_eq b.isLt hlen.symm
  obtain ⟨hrec, hlength, hflt, hstill, htotal, hpassive⟩ := State.errorCounted_steps (s := s.draw) tec rec lec hup hb
  have hframe := State.errorFrame_eq (s := s.draw) tec rec lec hup
  generalize s.draw.errorCounted b tec rec lec = w at hrec hlength hflt hstill htotal hpassive hframe
  have hshown : (s.cbus b).state = .active → 128 ≤ (s.cbus b).tecCnt + 8 * tec ∨
      128 ≤ Nat.min 255 ((s.cbus b).recCnt + rec % 2 + 8 * (rec / 2)) → w.sq 11 5 = true :=
    fun hactive hmany => hpassive ⟨if_pos hmany, hactive⟩
  by_cases hoff : 255 < (s.cbus b).tecCnt + 8 * tec
  · obtain ⟨v, hfree, hkept⟩ := busOffOn_keeps (s := w) (hlength.symm ▸ hb) hstill
    have hrun : s.draw.errorFrame b tec rec lec = w.busOffOn b := hframe.trans (if_pos hoff)
    have hself := State.cbus_setBus_self (s := v) { v.cbus b with state := .busOff, recov := 0 } ((hfree.length.trans hlength).symm ▸ hb)
    rw [← hrun] at hkept
    refine (busEvent_keeps (f := fun s => s.errorFrame b tec rec lec) he hkept (hfree.nest.trans (congrArg Flt.nest hflt))).imp
      fun t ht => ?_
    have hcount : t.total (0x5A08 + 0x20 * b.val) = v.total (0x5A08 + 0x20 * b.val) :=
      (ht.total _ (by omega) (by omega)).trans (State.total_count_ne _ 1 (by omega))
    have hidle := hfree.idle
    rw [hrec] at hidle
    dsimp only
    rw [if_pos hoff, ht.cbus, hcount, hfree.total _ (by omega) (by omega) (by omega)]
    exact ⟨(congrArg CanBus.tecCnt hself).trans hidle.tecCnt, (congrArg CanBus.recCnt hself).trans hidle.recCnt,
      (congrArg CanBus.lec hself).trans hidle.lec, congrArg CanBus.state hself,
      fun hactive hmany => ht.sq 11 5 (State.sq_setSQ_mono _ 11 6 (hfree.sq 11 5 (hshown hactive hmany))),
      fun _ => ht.sq 11 6 (State.sq_setSQ_self _ 11 6), htotal⟩
  · have hrun : s.draw.errorFrame b tec rec lec = w := hframe.trans (if_neg hoff)
    refine (busEvent_keeps (f := fun s => s.errorFrame b tec rec lec) (u := w) he (hrun ▸ .refl w) (congrArg Flt.nest hflt)).imp
      fun t ht => ?_
    dsimp only
    rw [if_neg hoff, ht.cbus, ht.total _ (by omega) (by omega), hrec]
    exact ⟨rfl, rfl, rfl, rfl, fun hactive hmany => ht.sq 11 5 (hshown hactive hmany), fun h => absurd h hoff, htotal⟩

end Sys2Proof.Machine

open Sys2Proof.Machine

/-- Settles O50, an event a clause. -/
theorem canStates : Obligations.CanStates := fun _ _ he hlen =>
  ⟨busOff_reaches he hlen, busOffRecovery_reaches he hlen, busStuck_reaches he hlen, busStuckRecovery_reaches he hlen,
    fun tec rec lec hup => errorFrame_reaches he hlen tec rec lec hup⟩
end

section
/-! SUPPORT. Chapter 11: frames received, offered, sent and failed on a room bus (O49). -/
namespace Sys2Proof.Machine

/-! ### Frames of the queue in transmission (R306) -/

/-- The queue of bus `b` replaced and its frame out of transmission. -/
def State.idleWith (s : State) (b : Nat) (l : List CanTx) : State := s.setBus b { s.cbus b with queue := l, active := none, sent := none }

section
variable {s : State} {b : Nat} {x : CanTx} {rest : List CanTx} (hactive : (s.cbus b).active = some .queueHead)
include hactive

theorem putBack_queueHead (y : CanTx) : s.putBack b y = s.idleWith b (lmod (s.cbus b).queue 0 fun _ => y) := by
  unfold State.putBack State.idleWith
  dsimp only
  rw [hactive]

/-- A frame of the queue in transmission that is taken out leaves the frames behind it. -/
theorem takeActive_queueHead (hb : b < s.can.bus.length) (r : Nat) :
    ((s.takeActive b r).cbus b).active = none ∧ ((s.takeActive b r).cbus b).queue = (s.cbus b).queue.drop 1 ∧
      (s.takeActive b r).cnt = s.cnt ∧ (s.takeActive b r).flt = s.flt := by
  obtain ⟨gone, htake⟩ := State.takeActive_queueHead r hactive
  have hself := State.cbus_setTxQueue_self (s := s) gone ((s.cbus b).queue.drop 1) hb
  have hlen := s.setTxQueue_bus_length b gone ((s.cbus b).queue.drop 1)
  rw [htake, State.cbus_setBus_self _ (hlen ▸ hb), hself]
  exact ⟨rfl, rfl, rfl, rfl⟩

variable (hqueue : (s.cbus b).queue = x :: rest)
include hqueue

theorem activeTx_queueHead : s.activeTx b = some x := by
  unfold State.activeTx
  dsimp only
  rw [hactive, hqueue]
  rfl

theorem txDone_queueHead (stamp : Stamp) (hup : s.busUp b = true) (hb : b < s.can.bus.length) : ∃ v : State,
    v = (s.setBus b ((s.cbus b).calm ((s.cbus b).tecCnt - 1) (s.cbus b).recCnt)).count (0x5A04 + 0x20 * b) 1 ∧
      s.txDone b stamp = (((v.takeActive b 1).markEntry x.entry false).noteSent x.entry).cancelDone b x.tag 1 := by
  have hself := State.cbus_setBus_self ((s.cbus b).calm ((s.cbus b).tecCnt - 1) (s.cbus b).recCnt) hb
  refine ⟨_, rfl, ?_⟩
  have hsent : ((s.setBus b ((s.cbus b).calm ((s.cbus b).tecCnt - 1) (s.cbus b).recCnt)).count (0x5A04 + 0x20 * b) 1).activeTx b = some x := by
    unfold State.activeTx
    rw [show ((s.setBus b ((s.cbus b).calm ((s.cbus b).tecCnt - 1) (s.cbus b).recCnt)).count (0x5A04 + 0x20 * b) 1).cbus b = _ from hself]
    dsimp only [CanBus.calm]
    rw [hactive, hqueue]
    rfl
  unfold State.txDone
  extract_lets u v
  rw [if_neg (by rw [show u.active = _ from hactive, hup]; simp), show v.activeTx b = some x from hsent]

theorem txError_again (hkeep : x.cancelled = false) (hfew : x.errors < s.retry b) :
    s.txError b = s.idleWith b ({ x with errors := x.errors + 1 } :: rest) := by
  have hback := putBack_queueHead hactive { x with errors := x.errors + 1 }
  rw [hqueue] at hback
  unfold State.txError
  dsimp only
  rw [if_neg (by rw [hactive]; exact fun e => nomatch e), activeTx_queueHead hactive hqueue]
  exact (if_neg (ne_true_of_eq_false hkeep)).trans ((if_pos hfew).trans hback)

theorem txError_reported (hkeep : x.cancelled = false) (hmany : s.retry b ≤ x.errors) :
    s.txError b = (((s.takeActive b 2).setSQ 11 3).count (0x5A10 + 0x20 * b) 1).markEntry x.entry true := by
  unfold State.txError
  dsimp only
  rw [if_neg (by rw [hactive]; exact fun e => nomatch e), activeTx_queueHead hactive hqueue]
  exact (if_neg (ne_true_of_eq_false hkeep)).trans (if_neg (Nat.not_lt.mpr hmany))

theorem arbLoss_again (hkeep : x.cancelled = false) (hyoung : s.tooOld b x = false) :
    s.arbLoss b = (s.count (0x5A0C + 0x20 * b) 1).idleWith b (x :: rest) := by
  have hback := putBack_queueHead (s := s.count (0x5A0C + 0x20 * b) 1) hactive x
  rw [show (s.count (0x5A0C + 0x20 * b) 1).cbus b = s.cbus b from rfl, hqueue] at hback
  unfold State.arbLoss
  extract_lets u v
  rw [if_neg (by rw [show u.active = _ from hactive]; exact fun e => nomatch e),
    show v.activeTx b = some x from activeTx_queueHead (s := s.count (0x5A0C + 0x20 * b) 1) hactive hqueue]
  exact (if_neg (ne_true_of_eq_false hkeep)).trans ((if_neg (ne_true_of_eq_false hyoung)).trans hback)

end

theorem expire_queueHead {s : State} {b : Nat} {x : CanTx} {rest : List CanTx} (hidle : (s.cbus b).active = none)
    (hqueue : (s.cbus b).queue = x :: rest) (hold : s.tooOld b x = true) : ∃ gone, s.expire b .queueHead =
      (((s.setTxQueue b gone rest).setSQ 11 2).count (0x5A14 + 0x20 * b) 1).markEntry x.entry true := by
  have hfirst : (s.cbus b).firstWaiting = 0 := if_neg (by rw [hidle]; exact fun e => nomatch e)
  have hwaits : s.waitingTx b .queueHead = some x := by
    unfold State.waitingTx
    dsimp only
    rw [hfirst, hqueue]
    rfl
  have hdrop : s.dropWaiting b .queueHead = s.setTxQueue b (((s.cbus b).queue.head?.map fun x => x.packet.length).getD 0) rest := by
    unfold State.dropWaiting
    dsimp only
    rw [hfirst, hqueue]
    rfl
  unfold State.expire
  rw [hwaits]
  exact ⟨_, (if_pos hold).trans (by rw [hdrop]; rfl)⟩

/-! ### The events (R306, R315) -/

/-- The end of an event of IOE-CAN whose effect is followed from `u` on. -/
theorem busEvent_follows {f : State → State} {s w : State} (u : State) (he : s.engineUp 2 = true) (hrun : f s.draw = w) (hk : BusKept u w)
    (hn : u.flt.nest = s.flt.nest) : Reaches (liveIoe 2 f s) (BusKept u) := busEvent_keeps he (hrun ▸ hk) hn

section
variable {s : State} {b : Fin 4} (he : s.engineUp 2 = true) (hlen : s.can.bus.length = 4)
include he hlen

/-- An event that frees the bus, the queue as it gives it. -/
theorem idleWith_reaches {f : State → State} {w : State} {l : List CanTx} (hrun : f s.draw = w.idleWith b l) (hw : w.can = s.can)
    (hflt : w.flt = s.flt) : Reaches (liveIoe 2 f s) fun t => (t.cbus b).active = none ∧ (t.cbus b).queue = l ∧
      ∀ o, 0x5A00 ≤ o → o < 0x6000 → t.total o = w.total o := by
  refine (busEvent_follows (w.idleWith b l) he hrun (.refl _) (congrArg Flt.nest hflt)).imp fun t ht => ?_
  have hself := State.cbus_setBus_self (s := w) { w.cbus b with queue := l, active := none, sent := none } (b := b.val)
    (by rw [hw, hlen]; exact b.isLt)
  rw [ht.cbus]
  exact ⟨congrArg CanBus.active hself, congrArg CanBus.queue hself, ht.total⟩

section
variable {x : CanTx} {rest : List CanTx} (hactive : (s.cbus b).active = some .queueHead) (hqueue : (s.cbus b).queue = x :: rest)
include hactive hqueue

theorem canTxComplete_reaches (stamp : Stamp) (hup : s.busUp b = true) : Reaches (exec (.canTxComplete b stamp) s) fun t =>
    (t.cbus b).active = none ∧ (t.cbus b).queue = rest ∧ t.total (0x5A04 + 0x20 * b.val) = s.total (0x5A04 + 0x20 * b.val) + 1 := by
  have hb : b.val < s.draw.can.bus.length := lt_of_lt_of_eq b.isLt hlen.symm
  obtain ⟨v, hv, hdone⟩ := txDone_queueHead (s := s.draw) hactive hqueue stamp hup hb
  have hself : v.cbus b = (s.cbus b).calm ((s.cbus b).tecCnt - 1) (s.cbus b).recCnt := by rw [hv]; exact State.cbus_setBus_self _ hb
  have hvb : b.val < v.can.bus.length := by rw [hv]; exact lt_of_lt_of_eq hb (State.setBus_bus_length ..).symm
  have htotal : v.total (0x5A04 + 0x20 * b.val) = s.total (0x5A04 + 0x20 * b.val) + 1 := by rw [hv]; exact State.total_count ..
  have hcalm : v.flt = s.flt := by rw [hv]; rfl
  obtain ⟨hidle, hrest, hcnt, hflt⟩ := takeActive_queueHead (s := v) (b := b.val) (by rw [hself]; exact hactive) hvb 1
  refine (busEvent_follows (f := fun s => s.txDone b stamp) (v.takeActive b 1) he hdone (((markEntry_busKept _ x.entry false).trans
    (noteSent_busKept _ x.entry)).trans (cancelDone_busKept _ b x.tag 1)) (congrArg Flt.nest (hflt.trans hcalm))).imp fun t ht => ?_
  rw [ht.cbus, ht.total _ (by omega) (by omega), hidle, hrest, hself]
  exact ⟨rfl, congrArg (List.drop 1) hqueue, (congrArg (sget 0 · _) hcnt).trans htotal⟩

theorem txFail_again (hkeep : x.cancelled = false) (hfew : x.errors < s.retry b) : Reaches (exec (.txFail b) s) fun t =>
    (t.cbus b).active = none ∧ (t.cbus b).queue = { x with errors := x.errors + 1 } :: rest :=
  (idleWith_reaches (f := fun s => s.txError b) he hlen (txError_again (s := s.draw) hactive hqueue hkeep hfew) rfl rfl).imp
    fun _ ⟨hidle, hback, _⟩ => ⟨hidle, hback⟩

theorem txFail_reported (hkeep : x.cancelled = false) (hmany : s.retry b ≤ x.errors) : Reaches (exec (.txFail b) s) fun t =>
    (t.cbus b).active = none ∧ (t.cbus b).queue = rest ∧ t.sq 11 3 = true := by
  have hb : b.val < s.draw.can.bus.length := lt_of_lt_of_eq b.isLt hlen.symm
  obtain ⟨hidle, hrest, -, hflt⟩ := takeActive_queueHead (s := s.draw) hactive hb 2
  refine (busEvent_follows (f := fun s => s.txError b) (((s.draw.takeActive b 2).setSQ 11 3).count (0x5A10 + 0x20 * b) 1) he
    (txError_reported (s := s.draw) hactive hqueue hkeep hmany) (markEntry_busKept _ x.entry true) (congrArg Flt.nest hflt)).imp
    fun t ht => ?_
  rw [ht.cbus]
  exact ⟨hidle, hrest.trans (congrArg (List.drop 1) hqueue), ht.sq 11 3 (State.sq_setSQ_self _ 11 3)⟩

theorem arbitrationLoss_reaches (hkeep : x.cancelled = false) (hyoung : s.tooOld b x = false) : Reaches (exec (.arbitrationLoss b) s) fun t =>
    (t.cbus b).active = none ∧ (t.cbus b).queue = x :: rest ∧
      t.total (0x5A0C + 0x20 * b.val) = s.total (0x5A0C + 0x20 * b.val) + 1 :=
  (idleWith_reaches (f := fun s => s.arbLoss b) he hlen (arbLoss_again (s := s.draw) hactive hqueue hkeep hyoung) rfl rfl).imp
    fun _ ⟨hidle, hback, htotal⟩ => ⟨hidle, hback, (htotal _ (by omega) (by omega)).trans (State.total_count ..)⟩

end

theorem expired_reaches {x : CanTx} {rest : List CanTx} (hidle : (s.cbus b).active = none) (hqueue : (s.cbus b).queue = x :: rest)
    (hold : s.tooOld b x = true) : Reaches (exec (.expired b .queueHead) s) fun t =>
      (t.cbus b).queue = rest ∧ t.sq 11 2 = true ∧ t.total (0x5A14 + 0x20 * b.val) = s.total (0x5A14 + 0x20 * b.val) + 1 := by
  obtain ⟨gone, hexpire⟩ := expire_queueHead (s := s.draw) hidle hqueue hold
  have hself := State.cbus_setTxQueue_self (s := s.draw) (b := b.val) gone rest (lt_of_lt_of_eq b.isLt hlen.symm)
  refine (busEvent_follows (f := fun s => s.expire b .queueHead) (((s.draw.setTxQueue b gone rest).setSQ 11 2).count (0x5A14 + 0x20 * b) 1) he
    hexpire (markEntry_busKept _ x.entry true) rfl).imp fun t ht => ?_
  rw [ht.cbus, ht.total _ (by omega) (by omega)]
  exact ⟨congrArg CanBus.queue hself, ht.sq 11 2 (State.sq_setSQ_self _ 11 2), State.total_count ..⟩

theorem trefFail_reaches (hsync : (s.cbus b).tref.kind = 1) (hfree : (s.cbus b).active ≠ some .timeRef) :
    Reaches (exec (.trefFail b) s) fun t => (t.cbus b).tref = { (s.cbus b).tref with kind := 0, after := none } ∧ t.sq 11 0 = true := by
  refine (busEvent_follows (f := fun s => s.trefExpire b)
    ((s.draw.setBus b { s.cbus b with tref := { (s.cbus b).tref with kind := 0, after := none } }).setSQ 11 0) he
    (if_pos ⟨hsync, hfree⟩) (.refl _) rfl).imp fun t ht => ?_
  rw [ht.cbus]
  exact ⟨congrArg CanBus.tref (State.cbus_setBus_self (s := s.draw) _ (lt_of_lt_of_eq b.isLt hlen.symm)),
    ht.sq 11 0 (State.sq_setSQ_self _ 11 0)⟩

end

theorem Ended.cbus {u t : State} (h : Ended u t) (b : Nat) : t.cbus b = u.cbus b := congrArg (·.bus.getD b {}) h.can

/-! ### Receptions (R298, R311, R314) -/

/-- A completed reception counted, with the counters of its bus and the reserved range noted (R298, R302, R311). -/
def State.heard (s : State) (b : Nat) (f : CanFrame) (rec : Nat) : State :=
  let u := s.cbus b
  let rx := if u.recCnt ≤ 127 then u.recCnt - 1 else 119 + rec % 9
  let v := (s.setBus b (u.calm u.tecCnt rx)).count (0x5A00 + 0x20 * b) 1
  let pair := decide (f.ide = false ∧ (f.ident.toNat = 0x14 ∨ f.ident.toNat = 0x15))
  if reservedId f.ide f.ident.toNat ∧ v.listenOnly b = false ∧ pair = false then v.setSQ 11 8 else v

/-- `w` is `s` with a reception of bus `b` counted. -/
structure Heard (s : State) (b : Nat) (w : State) : Prop where
  store : (w.cbus b).store = (s.cbus b).store
  length : w.can.bus.length = s.can.bus.length
  entries : w.can.entries = s.can.entries
  pnt : w.pnt = s.pnt
  flt : w.flt = s.flt
  regs : w.regs = s.regs
  hostp : w.hostp = s.hostp
  total : w.total (0x5A00 + 0x20 * b) = s.total (0x5A00 + 0x20 * b) + 1

theorem State.heard_heard (s : State) {b : Nat} (f : CanFrame) (rec : Nat) (hb : b < s.can.bus.length) : Heard s b (s.heard b f rec) := by
  unfold State.heard
  extract_lets u rx v pair
  have hv : Heard s b v := ⟨(congrArg CanBus.store (State.cbus_setBus_self (u.calm u.tecCnt rx) hb) :), State.setBus_bus_length .., rfl, rfl, rfl,
    rfl, rfl, State.total_count ..⟩
  clear_value v
  split
  · exact ⟨hv.store, hv.length, hv.entries, hv.pnt, hv.flt, hv.regs, hv.hostp, hv.total⟩
  · exact hv

/-- The bus record with one more reception in its store. -/
def State.stored (s : State) (b : Nat) (x : CanRx) : State := s.setBus b { s.cbus b with store := (s.cbus b).store ++ [x] }

theorem State.canReceive_eq {s : State} {b : Nat} {f : CanFrame} (stamp : Stamp) (rec : Nat) (hup : s.busUp b = true)
    (hother : s.ownFrame b f = false) (hdata : f.remote = false) (hfd : f.fdf = true → s.flag (0x5848 + 0x40 * b) 9 = true) :
    s.canReceive b f stamp rec =
      if ((s.heard b f rec).matchEntry b f).isNone then (s.heard b f rec).rawPacket b { frame := f, stamp }
      else if ((s.heard b f rec).cbus b).store.length < 64 then (s.heard b f rec).stored b { frame := f, stamp }
      else (s.heard b f rec).rxLost b := by
  unfold State.canReceive
  rw [if_neg (by simp [hup, hother, hdata]), if_neg (by intro ⟨h, k⟩; simp [hfd h] at k)]
  rfl

theorem heard_draw {s : State} {b : Fin 4} {f : CanFrame} {c : Fin 9} (hlen : s.can.bus.length = 4) : Heard s b (s.draw.heard b f c) := by
  obtain ⟨h1, h2, h3, h4, h5, h6, h7, h8⟩ := State.heard_heard s.draw f c.val (b := b.val) (lt_of_lt_of_eq b.isLt hlen.symm)
  exact ⟨h1, h2, h3, h4, h5, h6, h7, h8⟩

section
variable {s : State} {b : Fin 4} {f : CanFrame} {stamp : Stamp} {c : Fin 9}

theorem Heard.matchEntry {w : State} (h : Heard s b w) : w.matchEntry b f = s.matchEntry b f := by
  unfold State.matchEntry; rw [h.entries]

/-- The packet of a reception for the receive queue (R314). -/
def State.rawWords (s : State) (b : Nat) (x : CanRx) : List W64 :=
  framePacket x.frame ((s.segmentBooth b (nodeOf x.frame)).getD 255) (x.stamp.setWidth 64)

theorem Heard.rawPacket {w : State} (h : Heard s b w) (x : CanRx) (hraw : s.flag 0x5800 (4 + b.val) = true) :
    w.rawPacket b x = if s.qRoom (20 + b) (s.rawWords b x).length then w.setQ (20 + b) ((s.q (20 + b)).push (s.rawWords b x))
      else w.rxLost b := by
  have hws : w.rawWords b x = s.rawWords b x := by unfold State.rawWords State.segmentBooth; rw [h.pnt]
  have hroom : ∀ n l, w.qRoom n l = s.qRoom n l := fun n l => by
    unfold State.qRoom State.qEn State.flag State.q; rw [h.hostp, State.reg_of_regs h.regs]
  have hq : w.q (20 + b) = s.q (20 + b) := congrArg (fun p => p.queues.getD (20 + b) {}) h.hostp
  have hflag : w.flag 0x5800 (4 + b.val) = true := (congrArg (bitAt · _) (State.reg_of_regs h.regs _)).trans hraw
  refine (if_pos hflag).trans ?_
  change (if w.qRoom (20 + b) (w.rawWords b x).length then w.produce (20 + b) (w.rawWords b x) else w.rxLost b) = _
  rw [hws, hroom]
  refine ite_congr rfl (fun hyes => ?_) fun _ => rfl
  rw [State.produce_room _ _ _ ((hroom ..).trans hyes), hq]

variable (he : s.engineUp 2 = true) (hlen : s.can.bus.length = 4) (hup : s.busUp b = true) (hdata : f.remote = false)
  (hfd : f.fdf = true → s.flag (0x5848 + 0x40 * b.val) 9 = true)

section
include he
/-- The end of a reception whose effect is `u` (R34). -/
theorem canReception_ends {u : State} (hrun : s.draw.canReceive b f stamp c = u) (hflt : u.flt = s.flt) :
    Reaches (exec (.canReception b f stamp c) s) (Ended u) :=
  liveIoe_ends (f := fun s => s.canReceive b f stamp c) he hrun (congrArg Flt.nest hflt)

/-- The module's own frame is no reception (R305, R412). -/
theorem canReception_own (hown : s.ownFrame b f = true) : Reaches (exec (.canReception b f stamp c) s) fun t =>
    t.can = s.can ∧ t.pnt = s.pnt :=
  (canReception_ends he (u := s.draw) (if_pos (.inr (.inl hown))) rfl).imp fun _ ht => ⟨ht.can, ht.pnt⟩
end

include hlen

section
include he
/-- A reception lost for want of room (R311, R314). -/
theorem canReception_lost {w : State} (hw : Heard s b w) (hrun : s.draw.canReceive b f stamp c = w.rxLost b) :
    Reaches (exec (.canReception b f stamp c) s) fun t =>
      t.hostp.queues = s.hostp.queues ∧ (t.cbus b).store = (s.cbus b).store ∧ t.pnt = s.pnt ∧ t.sq 11 4 = true := by
  refine (canReception_ends he hrun hw.flt).imp fun t ht => ?_
  have hself := State.cbus_setBus_self (s := w) { w.cbus b with rxLost := satNat 65535 ((w.cbus b).rxLost + 1) } (b := b.val)
    (by rw [hw.length, hlen]; exact b.isLt)
  rw [ht.cbus]
  exact ⟨ht.queues.trans (congrArg (·.queues) hw.hostp), (congrArg CanBus.store hself).trans hw.store, ht.pnt.trans hw.pnt,
    (ht.sq 11 4 (by simp)).trans (State.sq_setSQ_self _ 11 4)⟩

end

variable (hother : s.ownFrame b f = false)
include hup hdata hfd hother

theorem canReceive_heard : s.draw.canReceive b f stamp c =
    if (s.matchEntry b f).isNone then (s.draw.heard b f c).rawPacket b { frame := f, stamp }
    else if (s.cbus b).store.length < 64 then (s.draw.heard b f c).stored b { frame := f, stamp }
    else (s.draw.heard b f c).rxLost b := by
  have hw := heard_draw (b := b) (f := f) (c := c) hlen
  have hrun := State.canReceive_eq (s := s.draw) stamp c.val hup hother hdata hfd
  rwa [hw.matchEntry, hw.store] at hrun

include he

theorem canReception_stored (hmatch : s.matchEntry b f ≠ none) (hroom : (s.cbus b).store.length < 64) :
    Reaches (exec (.canReception b f stamp c) s) fun t =>
      (t.cbus b).store = (s.cbus b).store ++ [{ frame := f, stamp }] ∧ t.pnt = s.pnt ∧
        t.total (0x5A00 + 0x20 * b.val) = s.total (0x5A00 + 0x20 * b.val) + 1 := by
  have hw := heard_draw (b := b) (f := f) (c := c) hlen
  have hrun := canReceive_heard (stamp := stamp) (c := c) hlen hup hdata hfd hother
  rw [if_neg (by simpa using hmatch), if_pos hroom] at hrun
  refine (canReception_ends he hrun hw.flt).imp fun t ht => ?_
  have hself := State.cbus_setBus_self (s := s.draw.heard b f c)
    { (s.draw.heard b f c).cbus b with store := ((s.draw.heard b f c).cbus b).store ++ [{ frame := f, stamp }] } (b := b.val)
    (by rw [hw.length, hlen]; exact b.isLt)
  rw [ht.cbus]
  exact ⟨(congrArg CanBus.store hself).trans (congrArg (· ++ _) hw.store), ht.pnt.trans hw.pnt, (ht.total _ (by omega)).trans hw.total⟩

theorem canReception_full (hmatch : s.matchEntry b f ≠ none) (hfull : 64 ≤ (s.cbus b).store.length) :
    Reaches (exec (.canReception b f stamp c) s) fun t => (t.cbus b).store = (s.cbus b).store ∧ t.pnt = s.pnt ∧ t.sq 11 4 = true := by
  have hrun := canReceive_heard (stamp := stamp) (c := c) hlen hup hdata hfd hother
  rw [if_neg (by simpa using hmatch), if_neg (Nat.not_lt.mpr hfull)] at hrun
  exact (canReception_lost he hlen (heard_draw hlen) hrun).imp fun _ ⟨_, h⟩ => h

variable (hmatch : s.matchEntry b f = none) (hraw : s.flag 0x5800 (4 + b.val) = true)
include hmatch hraw

theorem canReception_queued (hqs : s.hostp.queues.length = 32) (hroom : s.qRoom (20 + b) (s.rawWords b { frame := f, stamp }).length = true) :
    Reaches (exec (.canReception b f stamp c) s) fun t =>
      t.q (20 + b) = (s.q (20 + b)).push (s.rawWords b { frame := f, stamp }) ∧ (t.cbus b).store = (s.cbus b).store ∧ t.pnt = s.pnt ∧
        t.total (0x5A00 + 0x20 * b.val) = s.total (0x5A00 + 0x20 * b.val) + 1 := by
  have hw := heard_draw (b := b) (f := f) (c := c) hlen
  have hrun := canReceive_heard (stamp := stamp) (c := c) hlen hup hdata hfd hother
  rw [if_pos (by rw [hmatch]; rfl), hw.rawPacket _ hraw, if_pos hroom] at hrun
  refine (canReception_ends he hrun hw.flt).imp fun t ht => ⟨(ht.q _).trans (State.q_setQ_self _ _ (by rw [hw.hostp]; omega)), ?_,
    ht.pnt.trans hw.pnt, (ht.total _ (by omega)).trans hw.total⟩
  rw [ht.cbus]
  exact hw.store

theorem canReception_dropped (hfull : s.qRoom (20 + b) (s.rawWords b { frame := f, stamp }).length = false) :
    Reaches (exec (.canReception b f stamp c) s) fun t =>
      t.hostp.queues = s.hostp.queues ∧ (t.cbus b).store = (s.cbus b).store ∧ t.pnt = s.pnt ∧ t.sq 11 4 = true := by
  have hw := heard_draw (b := b) (f := f) (c := c) hlen
  have hrun := canReceive_heard (stamp := stamp) (c := c) hlen hup hdata hfd hother
  rw [if_pos (by rw [hmatch]; rfl), hw.rawPacket _ hraw, if_neg (ne_true_of_eq_false hfull)] at hrun
  exact canReception_lost he hlen hw hrun

end

/-- An FD frame where FD is off is no reception: it steps the receive error counter (R298). -/
theorem canReception_refused {s : State} {b : Fin 4} {f : CanFrame} (stamp : Stamp) (c : Fin 9) (he : s.engineUp 2 = true)
    (hlen : s.can.bus.length = 4) (hup : s.busUp b = true) (hdata : f.remote = false) (hfdf : f.fdf = true)
    (hoff : s.flag (0x5848 + 0x40 * b.val) 9 = false) (hother : s.ownFrame b f = false) (hdrives : s.listenOnly b = false)
    (htec : (s.cbus b).tecCnt ≤ 255) : Reaches (exec (.canReception b f stamp c) s) fun t =>
      (t.cbus b).recCnt = Nat.min 255 ((s.cbus b).recCnt + 1) ∧ (t.cbus b).tecCnt = (s.cbus b).tecCnt ∧
        (t.cbus b).store = (s.cbus b).store ∧ t.pnt = s.pnt := by
  have hrun : s.draw.canReceive b f stamp c = s.draw.errorFrame b 0 1 (1 + (s.draw.drawnFor (1190 + b)).toNat % 6) := by
    unfold State.canReceive
    rw [if_neg (by simp [show s.draw.busUp b = true from hup, show s.draw.ownFrame b f = false from hother, hdata]),
      if_pos ⟨hfdf, hoff⟩]
    exact if_neg (ne_true_of_eq_false hdrives)
  generalize 1 + (s.draw.drawnFor (1190 + b)).toNat % 6 = lec at hrun
  rw [State.errorFrame_eq (s := s.draw) 0 1 lec hup,
    if_neg (show ¬255 < (s.draw.cbus b).tecCnt + 8 * 0 from Nat.not_lt.mpr htec)] at hrun
  obtain ⟨hrec, -, hflt, -⟩ := State.errorCounted_steps (s := s.draw) 0 1 lec hup (b := b.val) (lt_of_lt_of_eq b.isLt hlen.symm)
  refine (canReception_ends he hrun hflt).imp fun t ht => ?_
  rw [ht.cbus, hrec]
  have hpnt : (s.draw.errorCounted b 0 1 lec).pnt = s.pnt := by
    unfold State.errorCounted
    dsimp only
    split <;> rfl
  exact ⟨rfl, Nat.min_eq_right htec, rfl, ht.pnt.trans hpnt⟩

/-! ### The offer (R305, R306) -/

section
variable {s : State} {b : Nat}

theorem expire_young {c : CanCand} (h : ∀ x, s.waitingTx b c = some x → s.tooOld b x = false) : s.expire b c = s := by
  unfold State.expire
  split
  next x hx => exact if_neg (ne_true_of_eq_false (h x hx))
  · rfl

theorem foldl_fixes {α β : Type} {f : β → α → β} {x : β} (l : List α) (h : ∀ a ∈ l, f x a = x) : l.foldl f x = x := by
  induction l with
  | nil => rfl
  | cons a l ih =>
    rw [List.foldl_cons, h a List.mem_cons_self]
    exact ih fun a' ha => h a' (List.mem_cons_of_mem a ha)

/-- Where no frame is too old none expires. -/
theorem expireWaiting_young (hq : ∀ x ∈ (s.cbus b).queue, s.tooOld b x = false)
    (he : ∀ (e : Fin 4) (x : CanTx), (s.cbus b).expressWaits e = some x → s.tooOld b x = false) : s.expireWaiting b = s := by
  have hexpress : ∀ e : Fin 4, s.expire b (.express e) = s := fun e => expire_young fun x hx => he e x hx
  have hhead : s.expire b .queueHead = s := expire_young fun x hx => hq x (List.mem_of_getElem? hx)
  unfold State.expireWaiting
  rw [foldl_fixes (x := s) (List.finRange 4) fun e _ => by rw [hexpress, hexpress]]
  exact foldl_fixes _ fun _ _ => hhead

/-- A free bus offers a frame that no other would beat. -/
theorem offer_best (hup : s.busUp b = true) (hdrives : s.listenOnly b = false) (hfree : (s.cbus b).active = none)
    (hsome : s.mayOffer b ≠ []) (hyoung : s.expireWaiting b = s) : ∃ (c : CanCand) (f : CanFrame) (u : CanBus), (c, f) ∈ s.mayOffer b ∧
      (∀ e ∈ s.mayOffer b, arbKey f ≤ arbKey e.2) ∧ s.offer b = s.setBus b { u with active := some c, sent := some f } := by
  have hgo : ¬(s.busUp b = false ∨ s.listenOnly b = true) := by simp [hup, hdrives]
  unfold State.offer
  rw [if_neg hgo, hyoung]
  extract_lets v u cs
  cases hmin : (cs.map fun c => arbKey c.2).min? with
  | none => exact absurd (List.map_eq_nil_iff.mp (List.min?_eq_none_iff.mp hmin)) hsome
  | some k =>
    obtain ⟨hmem, hleast⟩ := List.min?_eq_some_iff.mp hmin
    rw [show u.active = none from hfree]
    dsimp only
    rw [if_neg hgo]
    generalize hbests : (cs.filter fun c => arbKey c.2 == k) = best
    obtain ⟨e, he, hk⟩ := List.mem_map.mp hmem
    have hbest : 0 < best.length := List.length_pos_of_mem (hbests ▸ List.mem_filter.mpr ⟨he, by simp [hk]⟩)
    rw [List.getElem?_eq_getElem (Nat.mod_lt _ hbest)]
    generalize hcf : best[s.drawn.toNat % best.length]'(Nat.mod_lt _ hbest) = cf
    obtain ⟨hoffered, hkey⟩ := List.mem_filter.mp (hbests ▸ hcf ▸ List.getElem_mem (Nat.mod_lt _ hbest) : cf ∈ cs.filter fun c => arbKey c.2 == k)
    refine ⟨cf.1, cf.2, _, hoffered, fun e he => ?_, rfl⟩
    rw [show arbKey cf.2 = k by simpa using hkey]
    exact hleast _ (List.mem_map.mpr ⟨e, he, rfl⟩)

end

theorem canArbitrationOffer_reaches {s : State} {b : Fin 4} (he : s.engineUp 2 = true) (hlen : s.can.bus.length = 4)
    (hup : s.busUp b = true) (hfree : (s.cbus b).active = none) (hdrives : s.listenOnly b = false) (hsome : s.mayOffer b ≠ [])
    (hq : ∀ x ∈ (s.cbus b).queue, s.tooOld b x = false)
    (hx : ∀ (e : Fin 4) (x : CanTx), (s.cbus b).expressWaits e = some x → s.tooOld b x = false) :
    Reaches (exec (.canArbitrationOffer b) s) fun t => ∃ c f, (c, f) ∈ s.mayOffer b ∧ (t.cbus b).active = some c ∧
      (t.cbus b).sent = some f ∧ ∀ e ∈ s.mayOffer b, arbKey f ≤ arbKey e.2 := by
  obtain ⟨c, f, u, hmem, hleast, hrun⟩ := offer_best (s := s.draw) hup hdrives hfree hsome (expireWaiting_young hq hx)
  refine (liveIoe_ends (f := fun s => s.offer b) he hrun rfl).imp fun t ht => ⟨c, f, hmem, ?_, ?_, hleast⟩ <;>
  rw [ht.cbus, State.cbus_setBus_self _ (show b.val < s.draw.can.bus.length from lt_of_lt_of_eq b.isLt hlen.symm)]

/-! ### Commands that move a queue other than the responses' (R383, R394) -/

/-- The path of the response stands as it was when the command was taken: the other queues may have moved (R379, R383). -/
structure PathHeld (s u : State) (h : Hdr) : Prop where
  q : ∀ n < 4, u.q (4 + n) = s.q (4 + n)
  length : u.hostp.queues.length = s.hostp.queues.length
  resp : u.mbx.resp = s.mbx.resp
  slots : u.mbx.slots = s.mbx.slots
  qEn : ∀ k < 32, u.qEn k = s.qEn k
  expected : (u.sess h.session.val).expected = (s.sess h.session.val).expected + 1
  nest : u.flt.nest = false

section
variable {s u : State} {h : Hdr}

theorem PathKept.held (k : PathKept s u h) : PathHeld s u h where
  q n _ := congrArg (·.getD (4 + n) {}) k.queues
  length := congrArg List.length k.queues
  resp := k.resp
  slots := k.slots
  qEn := k.qEn
  expected := k.expected
  nest := k.nest

theorem PathHeld.of_same {t : State} (k : PathHeld s u h) (hq : t.hostp.queues = u.hostp.queues) (hm : t.mbx = u.mbx)
    (hr : t.regs = u.regs) (hf : t.flt = u.flt) : PathHeld s t h where
  q n hn := (congrArg (·.getD (4 + n) {}) hq).trans (k.q n hn)
  length := (congrArg List.length hq).trans k.length
  resp := hm ▸ k.resp
  slots := hm ▸ k.slots
  qEn n hn := (congrArg (bitAt · 31) (State.reg_of_regs hr _)).trans (k.qEn n hn)
  expected := by rw [← k.expected]; unfold State.sess; rw [hm]
  nest := hf ▸ k.nest

/-- A queue that carries no responses. -/
theorem PathHeld.setQ (k : PathHeld s u h) {n : Nat} (q : Queue) (hn : 8 ≤ n) : PathHeld s (u.setQ n q) h where
  q m hm := (State.q_setQ_ne u q (by omega)).trans (k.q m hm)
  length := (lmod_length ..).trans k.length
  resp := k.resp
  slots := k.slots
  qEn := k.qEn
  expected := k.expected
  nest := k.nest

theorem PathHeld.respond_wrote {n : Nat} (k : PathHeld s u h) (ha : s.admits h n) (op fl st de : Nat) {da : List Byte} (hd : da.length ≤ n) :
    s.wrote (u.respond h.session.val op h.tag h.booth h.sseq fl st de da) h.session.val
      (respPacket op h.tag h.booth h.sseq fl st de da) := by
  obtain ⟨⟨-, -, -, -, -, -, hfree, hen, hlen, -⟩, -⟩ := ha
  have hpath : PathSame { s with hostp := { s.hostp with queues := u.hostp.queues } } u := ⟨rfl, k.resp, k.slots, k.qEn⟩
  have hroom : State.pathFree { s with hostp := { s.hostp with queues := u.hostp.queues } } h.session.val = s.pathFree h.session.val := by
    unfold State.pathFree
    refine congrArg (· - _) (ite_congr rfl (fun hn => congrArg Queue.free (k.q _ hn)) fun _ => rfl)
  have hwrote := hpath.respond_wrote (n := h.session.val) op h.tag h.booth h.sseq fl st de (k.length.trans hlen) hen (hroom ▸ hfree) hd
  unfold State.wrote at hwrote ⊢
  split at hwrote
  next hn => rw [if_pos hn, hwrote]; exact congrArg (Queue.push · _) (k.q _ hn)
  next hn => rwa [if_neg hn]

end

/-- A command answered at once with OK that may move other queues (R378). -/
theorem ok_holds {f : State → State} {s : State} {h : Hdr} {c : CmdSpec} {body : State → Res} {fl : Nat} {da : List Byte}
    {P : State → Prop} (hf : f s.draw = runCmd h c body s.draw) (ha : s.admits h c.maxData) (hc : c.Clear s) (hd : da.length ≤ c.maxData)
    (hbody : ∀ v, Taken s h v → ∃ u, body v = .now 0 0 da fl u ∧ PathHeld s u h ∧
      ∀ t, s.answered t h c.opcode fl da → Served u t → P t) : Reaches (live f s) P := by
  obtain ⟨u, hu, k, hP⟩ := hbody _ (admits_taken c ha)
  have hrun := hf.trans (runCmd_now h c body s.draw (admits_canTake ha) (admits_firstFail ha hc) hu)
  have hleft := respond_leaves u h.session.val c.opcode h.tag h.booth h.sseq fl 0 0 da
  have hwrote := k.respond_wrote ha c.opcode fl 0 0 hd
  refine (live_ends ha.1.1 hrun (hleft.flt ▸ k.nest.trans (admits_calm ha).symm)).imp fun t ht => hP t ⟨?_, ?_, ?_⟩ (respond_served _ _ _ _ _ _ _ _ _ ht)
  · unfold State.wrote at hwrote ⊢
    rwa [ht.q, ht.mbx]
  · rw [ht.mbx]; exact hleft.slots.trans k.slots
  · rw [← k.expected]; unfold State.sess; rw [ht.mbx, hleft.sessions]

/-! ### CAN_SEND and CAN_CANCEL (R303, R307, R394) -/

/-- CAN_SEND of the frame `x`. -/
def sendSpec (s : State) (h : Hdr) (b : Nat) (x : CanTx) : CmdSpec :=
  { opcode := 0x0901, maxData := 2, denied := !s.landlord h, safeBlk := some 11, bad := if 4 ≤ b then some 0 else none, changes := true,
    busy := if s.qRoom (16 + b) x.packet.length then none else some (s.drawn.toNat % 65536) }

/-- The frame `x` takes its tag and joins its queue. -/
def State.sends (s : State) (b : Nat) (x : CanTx) : State :=
  State.pushTx { s with can := { s.can with nextTag := (s.can.nextTag + 1) % 65536 } } b x

theorem cmdCanSend_eq (h : Hdr) (b : Nat) (f : CanFrame) (s : State) {x : CanTx} (hx : x = { tag := s.can.nextTag, entry := none, owner := BitVec.ofNat 8 (s.boothOf h), frame := sendFrame f, entered := s.rev }) :
    cmdCanSend h b f s = runCmd h (sendSpec s h b x) (fun v => okRes (leBytes 2 x.tag) (v.sends b x)) s := by
  rw [hx]; rfl

theorem State.sends_queue {s : State} {b : Nat} {x : CanTx} (hb : b < s.can.bus.length) (hroom : s.qRoom (16 + b) x.packet.length = true) :
    ((s.sends b x).cbus b).queue = (s.cbus b).queue ++ [x] ∧ (s.sends b x).can.nextTag = (s.can.nextTag + 1) % 65536 := by
  have hpush : s.sends b x = State.setTxQueue { s with can := { s.can with nextTag := (s.can.nextTag + 1) % 65536 } } b 0 ((s.cbus b).queue ++ [x]) :=
    if_pos hroom
  have hself := State.cbus_setTxQueue_self (s := { s with can := { s.can with nextTag := (s.can.nextTag + 1) % 65536 } }) 0
    ((s.cbus b).queue ++ [x]) hb
  rw [hpush, hself]
  exact ⟨rfl, rfl⟩

/-- The frames of a transmit queue stand apart from the path of the responses. -/
theorem PathHeld.setTxQueue {s u : State} {h : Hdr} (k : PathHeld s u h) (b gone : Nat) (l : List CanTx) :
    PathHeld s (u.setTxQueue b gone l) h := by
  unfold State.setTxQueue
  extract_lets q ws rl v
  exact (k.setQ _ (by omega) : PathHeld s v h).of_same rfl rfl rfl rfl

theorem PathHeld.sends {s u : State} {h : Hdr} (k : PathHeld s u h) (b : Nat) (x : CanTx) : PathHeld s (u.sends b x) h := by
  unfold State.sends State.pushTx
  have hk : PathHeld s { u with can := { u.can with nextTag := (u.can.nextTag + 1) % 65536 } } h := k.of_same rfl rfl rfl rfl
  split
  · exact hk.setTxQueue b 0 _
  · exact hk

theorem Taken.can {s v : State} {h : Hdr} (hv : Taken s h v) : v.can = s.can := by
  obtain ⟨_, _, _, _, e⟩ := hv.same; rw [e]; rfl

theorem Taken.qRoom {s v : State} {h : Hdr} (hv : Taken s h v) (n m : Nat) : v.qRoom n m = s.qRoom n m := by
  obtain ⟨_, _, _, _, e⟩ := hv.same; rw [e]; rfl

section
variable {s : State} {h : Hdr} {b : Nat} (hlen : s.can.bus.length = 4) (hb : b < 4) (hlord : s.landlord h = true)
  (hrole : s.trap.role.refuses = false)
include hlen hb hlord hrole

theorem canSend_reaches (f : CanFrame) {x : CanTx}
    (hx : x = { tag := s.can.nextTag, entry := none, owner := h.booth, frame := sendFrame f, entered := s.rev }) (ha : s.admits h 2)
    (hroom : s.qRoom (16 + b) x.packet.length = true) : Reaches (exec (.canSend h b f) s) fun t =>
      s.answered t h 0x0901 0 (leBytes 2 s.can.nextTag) ∧ (t.cbus b).queue = (s.cbus b).queue ++ [x] ∧
        t.can.nextTag = (s.can.nextTag + 1) % 65536 := by
  have hbooth : BitVec.ofNat 8 (s.boothOf h) = h.booth := by
    obtain ⟨-, -, -, -, hb⟩ := ha
    rw [hb]; exact (BitVec.ofNat_toNat ..).trans (BitVec.setWidth_eq _)
  have htag : x.tag = s.can.nextTag := congrArg CanTx.tag hx
  refine ok_holds (f := fun s => cmdCanSend h b f s) (fl := 0) (da := leBytes 2 x.tag) (cmdCanSend_eq h b f s.draw (hbooth ▸ hx)) ha
    { denied := congrArg (!·) hlord, bad := if_neg (Nat.not_le.mpr hb), changes := fun _ => hrole, busy := if_pos hroom } (by simp [sendSpec])
    fun v hv => ⟨v.sends b x, rfl, hv.path.held.sends b x, fun t hans ht => ?_⟩
  have hcan := hv.can
  obtain ⟨hqueue, hnext⟩ := State.sends_queue (s := v) (b := b) (x := x) (by rw [hcan, hlen]; exact hb) ((hv.qRoom ..).trans hroom)
  refine ⟨htag ▸ hans, ?_, ?_⟩
  · rw [show t.cbus b = (v.sends b x).cbus b from congrArg (·.bus.getD b {}) ht.can, hqueue,
      show v.cbus b = s.cbus b from congrArg (·.bus.getD b {}) hcan]
  · rw [ht.can, hnext, hcan]

theorem canCancel_reaches {tag : Nat} (ha : s.admits h 1) (hidle : (s.cbus b).active = none)
    (hempty : ∀ e ∈ (s.cbus b).express, e.pend = none ∧ e.active = none) : Reaches (exec (.canCancel h b false tag) s) fun t =>
      s.answered t h 0x0902 0 [if (s.cbus b).queue.any (fun x => x.tag == tag) then 0 else 2] ∧
        (t.cbus b).queue = (s.cbus b).queue.filter fun x => !(x.tag == tag) := by
  have hmay : s.mayCancel h b false tag = true := by unfold State.mayCancel; rw [hlord]; rfl
  refine ok_holds (f := fun s => cmdCanCancel h b false tag s) (fl := 0)
    (da := [if (s.cbus b).queue.any (fun x => x.tag == tag) then 0 else 2]) rfl ha
    { denied := congrArg (!·) hmay, bad := ?_, changes := fun _ => hrole } (by simp) fun v hv => ?_
  · exact (if_neg (Nat.not_le.mpr hb)).trans (if_neg (by simp))
  · have hbus : v.cbus b = s.cbus b := congrArg (·.bus.getD b {}) hv.can
    extract_lets u act head tail held gone w drop x y z last marked
    have hfree : u.active = none := (congrArg CanBus.active hbus).trans hidle
    have hact : act = none := by
      have hactive : v.activeTx b = none := by unfold State.activeTx; dsimp only; rw [hfree]
      exact congrArg (Option.filter fun x => x.named false tag) hactive
    have hhead : head = [] := if_neg (by rw [hfree]; exact nofun)
    have htail : tail = (s.cbus b).queue := (if_neg (by rw [hfree]; exact nofun)).trans (congrArg CanBus.queue hbus)
    have hgone : gone = ((s.cbus b).queue.filter fun x => x.tag == tag).length := by
      have hpend : u.express.filter (fun e => (e.pend.map fun x => x.named false tag).getD false) = [] :=
        List.filter_eq_nil_iff.mpr fun e he => by rw [(hempty e (hbus ▸ he)).1]; exact nofun
      have hheld : (u.express.zipIdx.filter fun e => held e.2 e.1) = [] := List.filter_eq_nil_iff.mpr fun e he => by
        rw [show held e.2 e.1 = (!u.onBus e.2 && (e.1.active.map fun x => x.named false tag).getD false) from rfl,
          (hempty e.1 (hbus ▸ List.fst_mem_of_mem_zipIdx he)).2]
        simp
      simp only [gone, hpend, hheld, htail]; rfl
    have hany : gone = 0 ↔ ¬(s.cbus b).queue.any (fun x => x.tag == tag) = true := by
      rw [hgone, List.length_eq_zero_iff, List.filter_eq_nil_iff]; simp
    have hkept : PathHeld s z h := (hv.path.held.setTxQueue b 0 _ : PathHeld s w h).of_same rfl rfl rfl rfl
    have hvb : b < v.can.bus.length := by rw [hv.can, hlen]; exact hb
    have hqueue : (z.cbus b).queue = head ++ tail.filter fun x => !x.named false tag :=
      (congrArg CanBus.queue (State.cbus_setBus_self (s := w) _ ((v.setTxQueue_bus_length ..).symm ▸ hvb))).trans
        (congrArg CanBus.queue (State.cbus_setTxQueue_self (s := v) 0 _ hvb))
    refine ⟨z, ?_, hkept, fun t hans ht => ⟨hans, ?_⟩⟩
    · rw [hact]
      refine congrArg (fun n => okRes [n] z) ?_
      by_cases hsome : (s.cbus b).queue.any (fun x => x.tag == tag) = true
      · rw [if_pos hsome, if_neg (mt hany.mp (not_not.mpr hsome))]
      · rw [if_neg hsome, if_pos (hany.mpr hsome)]
    · rw [show t.cbus b = z.cbus b from congrArg (·.bus.getD b {}) ht.can, hqueue, hhead, htail]
      rfl

end

end Sys2Proof.Machine

open Sys2Proof.Machine

/-- Settles O49, a clause of an event or a command at a time. -/
theorem canFrames : Obligations.CanFrames := by
  refine ⟨fun s b he hlen hup => ⟨fun f stamp c hdata hfd => ?_, fun f stamp c hdata hfdf hoff hother hdrives htec =>
    canReception_refused stamp c he hlen hup hdata hfdf hoff hother hdrives htec, canArbitrationOffer_reaches he hlen hup,
    fun x rest hactive hqueue => ?_, fun x rest => expired_reaches he hlen, trefFail_reaches he hlen⟩,
    fun s h b hlen hb hlord hrole => ⟨fun f x hx => canSend_reaches hlen hb hlord hrole f hx,
      fun tag => canCancel_reaches hlen hb hlord hrole⟩⟩
  · exact ⟨canReception_stored he hlen hup hdata hfd, canReception_full he hlen hup hdata hfd,
      fun hother hmatch hraw hqs => ⟨canReception_queued he hlen hup hdata hfd hother hmatch hraw hqs,
        canReception_dropped he hlen hup hdata hfd hother hmatch hraw⟩, canReception_own he⟩
  · exact ⟨fun stamp => canTxComplete_reaches he hlen hactive hqueue stamp hup, txFail_again he hlen hactive hqueue,
      txFail_reported he hlen hactive hqueue, arbitrationLoss_reaches he hlen hactive hqueue⟩
end

section
/-! SUPPORT. Chapter 12: frames received, flow control and the links of a port (O51). -/
namespace Sys2Proof.Machine

/-! ### Ports -/

theorem Ended.port {u t : State} (h : Ended u t) (p : Nat) : t.port p = u.port p := congrArg (·.ports.getD p {}) h.net

section
variable {s : State} {p : Nat}

theorem State.port_setPort_self (x : NetPort) (hp : p < s.net.ports.length) : (s.setPort p x).port p = x := lmod_getD_self _ _ _ _ hp

theorem State.setPort_length (x : NetPort) : (s.setPort p x).net.ports.length = s.net.ports.length := lmod_length ..

/-- A port that may start a frame sends it and wakes (R322, R330). -/
theorem send_free (l : List Byte) (hup : s.portUp p = true) (hfree : (s.port p).held = false) :
    s.send p l = (s.setPort p { s.port p with sent := [l], lpiTx := false }).portCount p 1 1 := by
  unfold State.send
  dsimp only
  rw [if_neg (ne_false_of_eq_true hup), if_neg (ne_true_of_eq_false hfree)]

/-- A frame given to a port leaves the address table, and of the counters all but the frames sent and dropped there (R347). -/
theorem send_books (s : State) (p : Nat) (l : List Byte) : ∃ n c, s.send p l = { s with net := n, cnt := c } ∧ n.table = s.net.table ∧
    ∀ o, portCounter p 7 ≠ o → portCounter p 1 ≠ o → sget 0 c o = s.total o := by
  unfold State.send
  extract_lets x
  split
  · exact ⟨s.net, s.cnt, rfl, rfl, fun _ _ _ => rfl⟩
  split
  · split
    · exact ⟨s.net, _, rfl, rfl, fun o h _ => s.total_count_ne 1 h⟩
    · exact ⟨_, s.cnt, rfl, rfl, fun _ _ _ => rfl⟩
  · exact ⟨_, _, rfl, rfl, fun o _ h => (s.setPort p { x with sent := [l], lpiTx := false }).total_count_ne 1 h⟩

end

/-! ### Frames received (R321, R324, R347) -/

section
variable {s : State} {p : Fin 3} {f : EthFrame} (he : s.engineUp 3 = true) (hidle : s.noCommands = true) (hup : s.portUp p = true)
include he hidle hup

/-- A frame that is dropped is counted by its reason, and nothing else. -/
theorem ethFrameReceive_dropped {k : Nat} (hk : k ≤ 7) (hdrop : s.ethDrop p f = some k) : Reaches (exec (.ethFrameReceive p f) s) fun t =>
    t.total (portCounter p k) = s.total (portCounter p k) + 1 ∧ t.net = s.net ∧ t.hostp.queues = s.hostp.queues := by
  have hreceive : s.draw.ethReceive p f = s.draw.portCount p k 1 := by
    unfold State.ethReceive
    rw [if_neg (ne_false_of_eq_true (show s.draw.portUp p = true from hup)), show s.draw.ethDrop p f = some k from hdrop]
  have htake : s.draw.ethTake p f = s.draw.portCount p k 1 := by
    unfold State.ethTake
    dsimp only
    rw [show s.draw.ethDrop p f = some k from hdrop, if_neg (by simp)]
    exact hreceive
  have hserve : serve (s.draw.ethTake p f) = s.draw.portCount p k 1 := by
    rw [htake]
    exact serve_idle _ ((State.waitingCmds_of_queues rfl).trans (of_decide_eq_true hidle))
  refine (liveIoe_ends (f := fun s => serve (s.ethTake p f)) he hserve rfl).imp fun t ht => ⟨?_, ht.net, ht.queues⟩
  exact (ht.total _ (by unfold portCounter; omega)).trans (State.total_count ..)

end

/-- A frame that a port accepts, counted with its bytes and its source learnt (R321, R347). -/
def State.ethBooked (s : State) (p : Nat) (f : EthFrame) : State :=
  (((s.portCount p 0 1).portCount p 2 (ethLen f)).setPort p { s.port p with rxFill := f.fill }).learn p (ethSource f)

/-- A frame for another station: not the module's, not the host's, not of a group (R321). -/
structure ForOther (s : State) (p : Nat) (f : EthFrame) : Prop where
  control : s.macControl p f = false
  broadcast : ethBroadcast f = false
  group : ethGroup f = false
  own : ethDest f ≠ s.ownMac p
  host : ethDest f ≠ s.hostMac

section
variable {s : State} {p : Nat} {f : EthFrame}

theorem ForOther.serves (h : ForOther s p f) : s.serveFrame p f = s := by
  unfold State.serveFrame
  rw [if_neg (ne_true_of_eq_false h.control), if_neg (ne_true_of_eq_false h.broadcast), if_neg h.own, if_neg h.host,
    if_neg (by rw [h.group]; simp)]

theorem learn_same (s : State) (p : Nat) (a : BitVec 48) : ∃ l, s.learn p a = { s with net := { s.net with table := l } } ∧
    (s.ringOn = true → p < 2 → s.net.table.length < 1024 → (a, p) ∈ l) := by
  unfold State.learn
  split
  next h => exact ⟨s.net.table, rfl, fun hring hp => absurd h (by simp [hring, Nat.not_le.mpr hp])⟩
  dsimp only
  split
  · exact ⟨_, rfl, fun _ _ _ => by simp⟩
  next h => exact ⟨s.net.table, rfl, fun _ _ hroom => absurd (Nat.lt_of_le_of_lt (List.length_filter_le ..) hroom) h⟩

theorem portCount_books (s : State) (p i n : Nat) : ∃ c, s.portCount p i n = { s with cnt := c } ∧
    sget 0 c (portCounter p i) = s.total (portCounter p i) + n ∧ ∀ o, portCounter p i ≠ o → sget 0 c o = s.total o :=
  ⟨_, rfl, s.total_count (portCounter p i) n, fun _ h => s.total_count_ne n h⟩

/-- What a frame booked leaves: the ports but for the fill of its buffer, the counters but for its own, the rest of the state. -/
theorem ethBooked_books (s : State) (p : Nat) (f : EthFrame) : ∃ n c, s.ethBooked p f = { s with net := n, cnt := c } ∧
    sget 0 c (portCounter p 0) = s.total (portCounter p 0) + 1 ∧ sget 0 c (portCounter p 2) = s.total (portCounter p 2) + ethLen f ∧
    (∀ o, portCounter p 0 ≠ o → portCounter p 2 ≠ o → sget 0 c o = s.total o) ∧ n.ports = lmod s.net.ports p (fun _ => { s.port p with rxFill := f.fill }) ∧
    (s.ringOn = true → p < 2 → s.net.table.length < 1024 → (ethSource f, p) ∈ n.table) := by
  have hne : portCounter p 0 ≠ portCounter p 2 := by unfold portCounter; omega
  unfold State.ethBooked
  obtain ⟨c, hframes, hself, hother⟩ := portCount_books s p 0 1
  rw [hframes]
  obtain ⟨d, hbytes, hself', hother'⟩ := portCount_books { s with cnt := c } p 2 (ethLen f)
  rw [hbytes]
  obtain ⟨l, hlearn, hin⟩ := learn_same (State.setPort { s with cnt := d } p { s.port p with rxFill := f.fill }) p (ethSource f)
  exact ⟨_, d, hlearn, (hother' _ hne.symm).trans hself, hself'.trans (congrArg (· + ethLen f) (hother _ hne)),
    fun o h0 h2 => (hother' o h2).trans (hother o h0), rfl, hin⟩

theorem ForOther.of_same {u : State} (h : ForOther s p f) (hr : u.regs = s.regs) (hf : u.fuse = s.fuse) : ForOther u p f := by
  have hown : u.ownMac p = s.ownMac p := by unfold State.ownMac; rw [hf]
  have hhost : u.hostMac = s.hostMac := by
    unfold State.hostMac State.fld; rw [State.reg_of_regs hr, State.reg_of_regs hr]
  exact ⟨by unfold State.macControl; rw [hown]; exact h.control, h.broadcast, h.group, fun e => h.own (e.trans hown), fun e => h.host (e.trans hhost)⟩

theorem pauseSend_calm (fill : Nat) (h : s.flag (0x6010 + 4 * p) 27 = false) :
    s.pauseSend p fill = s.setPort p { s.port p with rxFill := fill } := if_pos h

theorem ethAccept_other (h : ForOther s p f) (hfill : s.flag (0x6010 + 4 * p) 27 = false) : s.ethAccept p f =
    if s.forwards p f then ((s.ethBooked p f).send (1 - p) ((s.ethBooked p f).transparent f.data)).count 0x6160
      ((s.ethBooked p f).accepts (1 - p)).toNat else s.ethBooked p f := by
  have hends : ∀ u, ForOther u p f → (if ethTrapeze f then u else u.serveFrame p f) = u := fun u hu => by
    rw [hu.serves, ite_self]
  obtain ⟨n, c, hbooked, -⟩ := ethBooked_books s p f
  obtain ⟨m, d, hsent, -⟩ := send_books (s.ethBooked p f) (1 - p) ((s.ethBooked p f).transparent f.data)
  have haccept : s.ethAccept p f = if ethTrapeze f then (if s.forwards p f then ((s.ethBooked p f).send (1 - p)
      ((s.ethBooked p f).transparent f.data)).count 0x6160 ((s.ethBooked p f).accepts (1 - p)).toNat else s.ethBooked p f)
      else State.serveFrame (if s.forwards p f then ((s.ethBooked p f).send (1 - p)
      ((s.ethBooked p f).transparent f.data)).count 0x6160 ((s.ethBooked p f).accepts (1 - p)).toNat else s.ethBooked p f) p f := by
    obtain ⟨c, hframes, -⟩ := portCount_books s p 0 1
    obtain ⟨d, hbytes, -⟩ := portCount_books { s with cnt := c } p 2 (ethLen f)
    unfold State.ethAccept State.ethBooked
    rw [hframes, hbytes, pauseSend_calm (s := { s with cnt := d }) f.fill hfill]
    rfl
  rw [haccept]
  refine hends _ (h.of_same ?_ ?_) <;> split
  · rw [hsent, hbooked]; rfl
  · rw [hbooked]
  · rw [hsent, hbooked]; rfl
  · rw [hbooked]

/-- A frame that goes on, where the other port may start it (R321, R347). -/
theorem ethForward_free {u : State} {k : Nat} (l : List Byte) (hk : k < u.net.ports.length) (hup : u.portUp k = true)
    (hfree : (u.port k).held = false) : (((u.send k l).count 0x6160 (u.accepts k).toNat).port k).sent = [l] ∧
      ((u.send k l).count 0x6160 (u.accepts k).toNat).total 0x6160 = u.total 0x6160 + 1 := by
  have htakes : u.accepts k = true := by unfold State.accepts; rw [hup, hfree]; rfl
  obtain ⟨c, hcount, -, hother⟩ := portCount_books (u.setPort k { u.port k with sent := [l], lpiTx := false }) k 1 1
  rw [htakes, send_free l hup hfree, hcount, State.total_count]
  refine ⟨congrArg NetPort.sent (State.port_setPort_self (s := u) _ hk), congrArg (· + 1) (hother 0x6160 ?_)⟩
  unfold portCounter
  omega

end

section
variable {s : State} {p : Nat} {f : EthFrame} (hlo : 64 ≤ ethLen f) (hhi : ethLen f ≤ 1518)
include hlo hhi

theorem ethDrop_whole : s.ethDrop p f = if f.fcsOk = false then some 3 else if 100 < f.fill then some 7
    else if p = 2 ∧ ethTrapeze f = false ∧ s.macControl p f = false then some 7
    else if ethDoubleTagged f ∧ (ethDest f = s.ownMac p ∨ ethDest f = s.hostMac) then some 7 else none := by
  have htop : ¬(if ethTagged f then 1522 else 1518) < ethLen f := by split <;> omega
  exact (if_neg (by omega)).trans (if_neg htop)

theorem ethDrop_damaged (hfcs : f.fcsOk = false) : s.ethDrop p f = some 3 := (ethDrop_whole hlo hhi).trans (if_pos hfcs)

theorem ethDrop_notPair (hfcs : f.fcsOk = true) (hp : p = 2) (hpair : ethTrapeze f = false) (hctl : s.macControl p f = false) :
    s.ethDrop p f = some 7 := by
  rw [ethDrop_whole hlo hhi, if_neg (by simp [hfcs]), if_pos (c := p = 2 ∧ _) ⟨hp, hpair, hctl⟩, ite_self]

theorem ethDrop_good (hfcs : f.fcsOk = true) (hfill : f.fill ≤ 100) (hp : p < 2) (hown : ethDest f ≠ s.ownMac p)
    (hhost : ethDest f ≠ s.hostMac) : s.ethDrop p f = none := by
  rw [ethDrop_whole hlo hhi, if_neg (by simp [hfcs]), if_neg (by omega), if_neg (fun h => by omega), if_neg (fun h => h.2.elim hown hhost)]

end

/-- What a good frame for another station leaves (R321, R347). -/
structure Passed (s : State) (p : Nat) (f : EthFrame) (u : State) : Prop where
  same : ∃ n c, u = { s with net := n, cnt := c }
  frames : u.total (portCounter p 0) = s.total (portCounter p 0) + 1
  bytes : u.total (portCounter p 2) = s.total (portCounter p 2) + ethLen f
  learnt : s.ringOn = true → s.net.table.length < 1024 → (ethSource f, p) ∈ u.net.table
  goesOn : s.forwards p f = true → s.net.ports.length = 3 → s.portUp (1 - p) = true → (s.port (1 - p)).held = false →
    (u.port (1 - p)).sent = [s.transparent f.data] ∧ u.total 0x6160 = s.total 0x6160 + 1
  stays : s.forwards p f = false → (u.port (1 - p)).sent = (s.port (1 - p)).sent

theorem ethAccept_passed {s : State} {p : Nat} {f : EthFrame} (h : ForOther s p f) (hfill : s.flag (0x6010 + 4 * p) 27 = false) (hp : p < 2) :
    Passed s p f (s.ethAccept p f) := by
  obtain ⟨n, c, hbooked, hframes, hbytes, hcnt, hports, hlearnt⟩ := ethBooked_books s p f
  have hport : n.ports.getD (1 - p) {} = s.port (1 - p) := by rw [hports]; exact lmod_getD_ne _ _ _ (by omega)
  rw [ethAccept_other h hfill, hbooked]
  cases hon : s.forwards p f with
  | false => exact ⟨⟨n, c, if_neg (by simp)⟩, hframes, hbytes, fun hring => hlearnt hring hp, fun e => by simp [hon] at e, fun _ => congrArg NetPort.sent hport⟩
  | true =>
    rw [if_pos rfl]
    obtain ⟨m, d, hsent, htable, hbooks⟩ := send_books { s with net := n, cnt := c } (1 - p) (s.transparent f.data)
    have hup' : s.portUp (1 - p) = true → State.portUp { s with net := n, cnt := c } (1 - p) = true := fun hup => by
      unfold State.portUp; rw [show State.port { s with net := n, cnt := c } (1 - p) = s.port (1 - p) from hport]; exact hup
    have hgoes := fun hlen hup hfree => ethForward_free (u := { s with net := n, cnt := c }) (k := 1 - p) (s.transparent f.data) hlen
      (hup' hup) hfree
    have h6160 : sget 0 c 0x6160 = s.total 0x6160 := hcnt _ (by unfold portCounter; omega) (by unfold portCounter; omega)
    rw [show State.transparent { s with net := n, cnt := c } f.data = s.transparent f.data from rfl]
    generalize (State.accepts { s with net := n, cnt := c } (1 - p)).toNat = k at hgoes ⊢
    rw [hsent] at hgoes ⊢
    have hother : ∀ o, portCounter p 0 = o ∨ portCounter p 2 = o → State.total (State.count { s with net := m, cnt := d } 0x6160 k) o = sget 0 c o :=
      fun o ho => (State.total_count_ne { s with net := m, cnt := d } k (by unfold portCounter at ho; omega)).trans
        (hbooks o (by unfold portCounter at ho ⊢; omega) (by unfold portCounter at ho ⊢; omega))
    refine ⟨⟨m, _, rfl⟩, (hother _ (.inl rfl)).trans hframes, (hother _ (.inr rfl)).trans hbytes,
      fun hring hroom => htable ▸ hlearnt hring hp hroom, fun _ hlen hup hfree => ?_, fun e => by simp [hon] at e⟩
    obtain ⟨hframe, htotal⟩ := hgoes (by rw [hports]; exact lt_of_lt_of_eq (by omega) ((lmod_length ..).trans hlen).symm) hup
      ((congrArg NetPort.held hport).trans hfree)
    exact ⟨hframe, htotal.trans (congrArg (· + 1) h6160)⟩

section
variable {s : State} {p : Fin 3} {f : EthFrame} (he : s.engineUp 3 = true) (hidle : s.noCommands = true) (hup : s.portUp p = true)
include he hidle hup

/-- A good frame for another station (R321, R347). -/
theorem ethFrameReceive_other (hdrop : s.ethDrop p f = none) (hother : ForOther s p f) (hends : f.ends = none) (hp : p.val < 2)
    (hring : s.ringOn = true) (hfill : s.flag (0x6010 + 4 * p.val) 27 = false) (htable : s.net.table.length < 1024)
    (hports : s.net.ports.length = 3) : Reaches (exec (.ethFrameReceive p f) s) fun t =>
      t.total (portCounter p 0) = s.total (portCounter p 0) + 1 ∧ t.total (portCounter p 2) = s.total (portCounter p 2) + ethLen f ∧
        (ethSource f, p.val) ∈ t.net.table ∧ t.pnt = s.pnt ∧
        (s.forwards p f = true → s.portUp (1 - p.val) = true → (s.port (1 - p.val)).held = false →
          (t.port (1 - p.val)).sent = [s.draw.transparent f.data] ∧ t.total 0x6160 = s.total 0x6160 + 1) ∧
        (s.forwards p f = false → (t.port (1 - p.val)).sent = (s.port (1 - p.val)).sent) := by
  have hpass := ethAccept_passed (s := s.draw) (p := p) (f := f)
    ⟨hother.control, hother.broadcast, hother.group, hother.own, hother.host⟩ hfill hp
  have hrun : s.draw.ethTake p f = s.draw.ethAccept p f := by
    unfold State.ethTake State.ethReceive State.tunnelEnds
    dsimp only
    rw [if_neg (ne_false_of_eq_true (show s.draw.portUp p = true from hup)), show s.draw.ethDrop p f = none from hdrop, hends]
    exact ite_self _
  generalize s.draw.ethAccept p f = u at hpass hrun
  obtain ⟨⟨n, c, hsame⟩, hframes, hbytes, hlearnt, hgoes, hstays⟩ := hpass
  have hserve : serve (s.draw.ethTake p f) = u := by
    rw [hrun]
    exact serve_idle u ((State.waitingCmds_of_queues (by rw [hsame]; rfl)).trans (of_decide_eq_true hidle))
  refine (liveIoe_ends (f := fun s => serve (s.ethTake p f)) he hserve (by rw [hsame]; rfl)).imp fun t ht => ?_
  rw [ht.total _ (by unfold portCounter; omega), ht.total _ (by unfold portCounter; omega), ht.total 0x6160 (by decide), ht.net, ht.pnt,
    ht.port]
  exact ⟨hframes, hbytes, hlearnt hring htable, by rw [hsame]; rfl, fun hon hup hfree => hgoes hon hports hup hfree, hstays⟩

end

/-! ### Flow control (R326 to R328) -/

/-- A PAUSE frame that a port with flow control takes (R326, R327). -/
theorem pauseFrameIn_takes {s : State} {p : Nat} (time : BitVec 16) (busy : Bool) (hup : s.portUp p = true)
    (hflow : s.flag (0x6010 + 4 * p) 28 = true) : ∃ c, s.pauseFrameIn p time busy =
      if busy ∧ (s.port p).paused = false then
        State.setPort { s with cnt := c } p { s.port p with pausePend := if time = 0 then none else some time.toNat }
      else State.startPause { s with cnt := c } p time.toNat := by
  obtain ⟨c, hframes, -⟩ := portCount_books s p 0 1
  obtain ⟨d, hbytes, -⟩ := portCount_books { s with cnt := c } p 2 64
  obtain ⟨e, hpauses, -⟩ := portCount_books { s with cnt := d } p 6 1
  refine ⟨e, ?_⟩
  unfold State.pauseFrameIn State.pauseIn
  rw [if_neg (ne_false_of_eq_true hup), hframes, hbytes, hpauses]
  exact (if_neg (ne_false_of_eq_true hup)).trans (if_neg (ne_false_of_eq_true hflow))

theorem startPause_zero {s : State} {p : Nat} (h : (s.port p).paused = true) :
    s.startPause p 0 = (s.setPort p { s.port p with paused := false, pauseRem := 0, pausedRev := none }).flushEgress p := if_pos h

/-- The frames that waited leave (R322, R325). -/
theorem flushEgress_empties {s : State} {p : Nat} (hp : p < s.net.ports.length) : (s.flushEgress p).flt = s.flt ∧
    ∃ l b, (s.flushEgress p).port p = { s.port p with egress := [], sent := l, lpiTx := b } := by
  unfold State.flushEgress
  extract_lets x good out
  split
  next h =>
    refine ⟨rfl, x.sent, x.lpiTx, ?_⟩
    rw [← List.isEmpty_iff.mp h]
  · exact ⟨rfl, out, false, State.port_setPort_self (s := s) _ hp⟩

section
variable {s : State} {p : Fin 3} (he : s.engineUp 3 = true)
include he

/-- The end of an event of IOE-NET that leaves the fault handling. -/
theorem netEvent_ends {f : State → State} {u : State} (hrun : f s.draw = u) (hflt : u.flt = s.flt) : Reaches (liveIoe 3 f s) (Ended u) :=
  liveIoe_ends he hrun (congrArg Flt.nest hflt)

section
variable (hports : s.net.ports.length = 3)
include hports

/-- An event that replaces the record of its port, behind counters that moved. -/
theorem setPort_reaches {f : State → State} {u : State} {x : NetPort} (hrun : f s.draw = u.setPort p x) (hnet : u.net = s.net)
    (hflt : u.flt = s.flt) : Reaches (liveIoe 3 f s) fun t => t.port p = x :=
  (netEvent_ends he hrun hflt).imp fun t ht =>
    (ht.port p).trans (State.port_setPort_self x (by rw [hnet, hports]; exact p.isLt))

section
variable {time : BitVec 16} (htime : time ≠ 0) (hup : s.portUp p = true) (hflow : s.flag (0x6010 + 4 * p.val) 28 = true)
include htime hup hflow

theorem pause_reaches : Reaches (exec (.pause p time false) s) fun t => (t.port p).paused = true ∧ (t.port p).pauseRem = time.toNat := by
  obtain ⟨c, hrun⟩ := pauseFrameIn_takes (s := s.draw) time false hup hflow
  have hpos : time.toNat ≠ 0 := fun e => htime (BitVec.eq_of_toNat_eq e)
  rw [if_neg (by simp), State.startPause, if_neg hpos] at hrun
  exact (setPort_reaches (f := fun s => s.pauseFrameIn p time false) he hports hrun rfl rfl).imp fun t ht => by rw [ht]; exact ⟨rfl, rfl⟩

theorem pause_pends (hfree : (s.port p).paused = false) : Reaches (exec (.pause p time true) s) fun t =>
    (t.port p).paused = false ∧ (t.port p).pausePend = some time.toNat := by
  obtain ⟨c, hrun⟩ := pauseFrameIn_takes (s := s.draw) time true hup hflow
  rw [if_pos ⟨rfl, hfree⟩, if_neg htime] at hrun
  exact (setPort_reaches (f := fun s => s.pauseFrameIn p time true) he hports hrun rfl rfl).imp fun t ht => by rw [ht]; exact ⟨hfree, rfl⟩

end

theorem pauseExpiry_reaches (hpaused : (s.port p).paused = true) : Reaches (exec (.pauseExpiry p) s) fun t =>
    (t.port p).paused = false ∧ (t.port p).egress = [] := by
  have hp : p.val < s.draw.net.ports.length := lt_of_lt_of_eq p.isLt hports.symm
  have hrun : s.draw.pauseEnd p = (s.draw.setPort p { s.port p with paused := false, pauseRem := 0, pausedRev := none }).flushEgress p :=
    (if_pos hpaused).trans (startPause_zero (s := s.draw) hpaused)
  have hself := State.port_setPort_self { s.port p with paused := false, pauseRem := 0, pausedRev := none } hp
  generalize hv : s.draw.setPort p { s.port p with paused := false, pauseRem := 0, pausedRev := none } = v at hrun hself
  obtain ⟨hflt, l, b, hport⟩ := flushEgress_empties (s := v) (p := p) (by rw [← hv]; exact (State.setPort_length _).symm ▸ hp)
  refine (netEvent_ends (f := fun s => s.pauseEnd p) he hrun (hflt.trans (by rw [← hv]; rfl))).imp fun t ht => ?_
  rw [ht.port, hport, hself]
  exact ⟨rfl, rfl⟩

end

theorem pauseLong_reaches {r : Nat} (hpaused : (s.port p).paused = true) (hrev : (s.port p).pausedRev = some r) (hlong : r < s.rev) :
    Reaches (exec (.pauseLong p) s) fun t => t.sq 12 5 = true := by
  have hrun : s.draw.pauseLong p = s.draw.report .warn 12 5 0xFF p :=
    if_pos ⟨hpaused, by rw [show (s.draw.port p).pausedRev = some r from hrev]; exact decide_eq_true hlong⟩
  have hreport := report_busKept s.draw (cls := .warn) 12 5 0xFF p (by decide)
  refine (liveIoe_ends (f := fun s => s.pauseLong p) he hrun hreport.nest).imp fun t ht =>
    (ht.sq 12 5 (by simp)).trans (hreport.sq 12 5 (State.sq_setSQ_self _ 12 5))

end

/-! ### Links, ageing and low-power idle (R320 to R322, R330, R331) -/

theorem chooseSlave_same (s : State) : ∃ o st, s.chooseSlave = { s with net := { s.net with slavePort := o }, stat := st } := by
  unfold State.chooseSlave
  dsimp only
  split
  · exact ⟨s.net.slavePort, s.stat, rfl⟩
  · exact ⟨_, _, rfl⟩

/-- A link gained or lost shows on its port, and flushes the table of a ring port (R322). -/
theorem linkTo_links {s : State} {p : Nat} (link : Nat) (hp : p < s.net.ports.length) : (s.linkTo p link).flt = s.flt ∧
    ((s.linkTo p link).port p).link = link ∧ ((s.linkTo p link).port p).lpiTx = false ∧ (s.linkTo p link).sq 12 7 = true ∧
      (p < 2 → (s.linkTo p link).net.table = []) := by
  unfold State.linkTo
  extract_lets old v w net x
  have hself : (v.port p).link = link ∧ (v.port p).lpiTx = false := by
    rw [show v.port p = _ from State.port_setPort_self _ hp]; exact ⟨rfl, rfl⟩
  have hw : w.flt = s.flt ∧ w.net.ports = v.net.ports := by
    obtain ⟨_, _, hslave⟩ := chooseSlave_same v
    unfold w
    split
    · rw [hslave]; exact ⟨rfl, rfl⟩
    · exact ⟨rfl, rfl⟩
  have hx : x.flt = w.flt ∧ x.net.ports = w.net.ports ∧ (p < 2 → x.net.table = []) := by
    unfold x
    split
    · exact ⟨rfl, rfl, fun _ => rfl⟩
    next h => exact ⟨rfl, rfl, fun hp => absurd hp h⟩
  obtain ⟨hxflt, hxports, htable⟩ := hx
  have hport : x.port p = v.port p := congrArg (·.getD p {}) (hxports.trans hw.2)
  rw [← hport] at hself
  exact ⟨hxflt.trans hw.1, hself.1, hself.2, State.sq_setSQ_self _ 12 7, htable⟩

/-- A port whose frame in progress has ended: the wake time that waited applies, no PAUSE waits, and low-power idle as `b` says. -/
def NetPort.frameOver (x : NetPort) (b : Bool) : NetPort :=
  { x with twTx := x.twPend.getD x.twTx, twPend := none, pausePend := none, lpiTx := b }

/-- The end of a frame with no register and no PAUSE pending (R46, R327, R331). -/
theorem frameEnd_calm {s : State} {p : Nat} (hshadow : s.shadow = []) (hpend : (s.port p).pausePend = none)
    (hen : s.flag (0x6010 + 4 * p) 31 = true) : ∃ (u : State) (b : Bool), u.net = s.net ∧ u.flt = s.flt ∧ s.frameEnd p =
      if (s.port p).paused then u.setPort p ((s.port p).frameOver b) else (u.setPort p ((s.port p).frameOver b)).flushEgress p := by
  unfold State.frameEnd
  extract_lets mine v u x w y
  have hmine : mine = [] := by unfold mine; rw [hshadow]; rfl
  have hu : u.net = s.net ∧ u.flt = s.flt ∧ u.regs = s.regs := by
    obtain ⟨tr, hnote⟩ := v.noteOut_same fun (c : SyncChange) => { c with writes := c.writes ++ mine.filter fun e => !ownBlock e.off }
    have hwrites : v.noteWrites mine = { v with trap := tr } := hnote
    unfold u
    rw [hwrites, hmine]
    exact ⟨rfl, rfl, rfl⟩
  have hport : x = s.port p := congrArg (·.ports.getD p {}) hu.1
  have hflag : w.flag (0x6010 + 4 * p) 31 = true := (congrArg (bitAt · 31) (State.reg_of_regs hu.2.2 _)).trans hen
  have hy : y = w := if_neg (by rw [hflag]; exact fun h => Bool.noConfusion h.2)
  refine ⟨u, x.lpiTx && u.flag (0x6010 + 4 * p) 26, hu.1, hu.2.1, ?_⟩
  rw [hy, show x.pausePend = none by rw [hport]; exact hpend, ← hport]
  rfl

section
variable {s : State} {p : Fin 3} (he : s.engineUp 3 = true)
include he

theorem negFail_reaches (hen : s.flag (0x6010 + 4 * p.val) 31 = true) (hlink : (s.port p).link = 0) :
    Reaches (exec (.negFail p) s) fun t => t.sq 12 6 = true :=
  (netEvent_ends (f := fun s => s.negFail p) he (u := s.draw.setSQ 12 6) (if_pos ⟨hen, hlink⟩) rfl).imp fun t ht =>
    (ht.sq 12 6 (by simp)).trans (State.sq_setSQ_self _ 12 6)

theorem addressAgeing_reaches (a : BitVec 48) : Reaches (exec (.addressAgeing a) s) fun t =>
    t.net.table = s.net.table.filter fun e => e.1 != a :=
  (netEvent_ends (f := fun s => s.ageAddress a) he (u := s.draw.ageAddress a) rfl rfl).imp fun _ ht => congrArg Net.table ht.net

variable (hports : s.net.ports.length = 3)
include hports

theorem linkChg_reaches {l : Fin 3} (hen : s.flag (0x6010 + 4 * p.val) 31 = true) (hnew : (s.port p).link ≠ l.val)
    (hcan : s.canLink p l = true) : Reaches (exec (.linkChg p l) s) fun t =>
      (t.port p).link = l.val ∧ (t.port p).lpiTx = false ∧ t.sq 12 7 = true ∧ (p.val < 2 → t.net.table = []) := by
  obtain ⟨hflt, hlink, hlpi, hsq, htable⟩ := linkTo_links (s := s.draw) (p := p.val) l.val (lt_of_lt_of_eq p.isLt hports.symm)
  have hrun : s.draw.linkChange p l = s.draw.linkTo p l := if_neg (by
    rw [show s.draw.flag (0x6010 + 4 * p.val) 31 = true from hen, show s.draw.canLink p l = true from hcan]
    exact fun h => h.elim nofun (fun h => h.elim hnew nofun))
  refine (netEvent_ends (f := fun s => s.linkChange p l) he hrun hflt).imp fun t ht => ?_
  rw [ht.port, ht.net]
  exact ⟨hlink, hlpi, (ht.sq 12 7 (by simp)).trans hsq, htable⟩

theorem lpiEntry_reaches (hp : p.val < 2) (hup : s.portUp p = true) (heee : s.flag (0x6010 + 4 * p.val) 26 = true)
    (hreq : (s.port p).twReq = none) (hidle : (s.port p).egress = []) : Reaches (exec (.lpiEntry p) s) fun t => (t.port p).lpiTx = true :=
  (setPort_reaches (f := fun s => s.lpiEnter p) (u := s.draw) (x := { s.port p with lpiTx := true }) he hports
    (if_pos ⟨hp, hup, heee, by rw [show (s.draw.port p).twReq = none from hreq]; decide, by
      rw [show (s.draw.port p).egress = [] from hidle]; rfl⟩) rfl rfl).imp fun t ht => by rw [ht]

theorem endOfFrameInProgress_reaches (hshadow : s.shadow = []) (hpend : (s.port p).pausePend = none)
    (hen : s.flag (0x6010 + 4 * p.val) 31 = true) : Reaches (exec (.endOfFrameInProgress p) s) fun t =>
      (t.port p).twTx = (s.port p).twPend.getD (s.port p).twTx ∧ (t.port p).twPend = none ∧ (t.port p).link = (s.port p).link := by
  obtain ⟨u, b, hnet, hflt, hrun⟩ := frameEnd_calm (s := s.draw) hshadow hpend hen
  have hp : p.val < u.net.ports.length := by rw [hnet]; exact lt_of_lt_of_eq p.isLt hports.symm
  have hself := State.port_setPort_self ((s.draw.port p).frameOver b) hp
  obtain ⟨hempty, l, c, hport⟩ := flushEgress_empties (s := u.setPort p ((s.draw.port p).frameOver b)) (p := p)
    ((State.setPort_length _).symm ▸ hp)
  split at hrun
  · exact (netEvent_ends (f := fun s => s.frameEnd p) he hrun hflt).imp fun t ht => by rw [ht.port, hself]; exact ⟨rfl, rfl, rfl⟩
  · exact (netEvent_ends (f := fun s => s.frameEnd p) he hrun (hempty.trans hflt)).imp fun t ht => by
      rw [ht.port, hport, hself]; exact ⟨rfl, rfl, rfl⟩

end

/-! ### LLDP (R331) -/

theorem lldpReceive_heard {s : State} {p : Nat} (frame : List Byte) (hup : s.portUp p = true) (hlldp : s.flag 0x6000 1 = true) :
    ∃ x : NetPort, x.lldp = frame ∧ x.twReq = (lldpTw frame).map (·.2) ∧ s.lldpReceive p frame true =
      if (s.port p).lldp = frame then (s.count 0x6164 1).setPort p x else ((s.count 0x6164 1).setPort p x).setSQ 12 1 :=
  ⟨_, rfl, rfl, if_neg (by simp [hup, hlldp])⟩

section
variable {s : State} {p : Fin 2} (he : s.engineUp 3 = true)
include he

theorem lldpduReceive_damaged (frame : List Byte) : Reaches (exec (.lldpduReceive p frame false) s) fun t => t.net = s.net :=
  (netEvent_ends (f := fun s => s.lldpReceive p frame false) he (u := s.draw) (if_pos (.inl rfl)) rfl).imp fun _ ht => ht.net

variable (hports : s.net.ports.length = 3) (hup : s.portUp p = true) (hlldp : s.flag 0x6000 1 = true)
include hports hup hlldp

theorem lldpSend_reaches (hfree : (s.port p).held = false) : Reaches (exec (.lldpSend p) s) fun t => (t.port p).lpiTx = false ∧
    (t.port p).sent = [padFrame (s.lldpFrame p)] ∧ t.total (portCounter p 1) = s.total (portCounter p 1) + 1 := by
  have hrun : s.draw.lldpSend p = s.draw.send p (padFrame (s.lldpFrame p)) := if_neg (ne_false_of_eq_true hlldp)
  have hself := State.port_setPort_self (s := s.draw) (p := p.val) { s.port p with sent := [padFrame (s.lldpFrame p)], lpiTx := false }
    (by rw [show s.draw.net = s.net from rfl, hports]; omega)
  rw [send_free (s := s.draw) _ hup hfree] at hrun
  refine (netEvent_ends (f := fun s => s.lldpSend p) he hrun rfl).imp fun t ht => ?_
  rw [ht.port, ht.total _ (by unfold portCounter; omega)]
  exact ⟨(congrArg NetPort.lpiTx hself :), (congrArg NetPort.sent hself :), State.total_count ..⟩

theorem lldpduReceive_reaches (frame : List Byte) : Reaches (exec (.lldpduReceive p frame true) s) fun t => (t.port p).lldp = frame ∧
    (t.port p).twReq = (lldpTw frame).map (·.2) ∧ t.total 0x6164 = s.total 0x6164 + 1 ∧
      ((s.port p).lldp ≠ frame → t.sq 12 1 = true) := by
  obtain ⟨x, hframe, hreq, hrun⟩ := lldpReceive_heard (s := s.draw) frame hup hlldp
  have hself := State.port_setPort_self (s := s.draw) (p := p.val) x (by rw [show s.draw.net = s.net from rfl, hports]; omega)
  have hend : ∃ u : State, s.draw.lldpReceive p frame true = u ∧ u.flt = s.flt ∧ u.port p = x ∧ u.total 0x6164 = s.total 0x6164 + 1 ∧
      ((s.port p).lldp ≠ frame → u.sq 12 1 = true) := by
    split at hrun
    next hold => exact ⟨_, hrun, rfl, hself, (s.draw.total_count 0x6164 1 :), fun h => absurd hold h⟩
    · exact ⟨_, hrun, rfl, hself, (s.draw.total_count 0x6164 1 :), fun _ => State.sq_setSQ_self _ 12 1⟩
  obtain ⟨u, hrun, hflt, hport, htotal, hsq⟩ := hend
  refine (netEvent_ends (f := fun s => s.lldpReceive p frame true) he hrun hflt).imp fun t ht => ?_
  rw [ht.port, ht.total _ (by decide), hport]
  exact ⟨hframe, hreq, htotal, fun h => (ht.sq 12 1 (by simp)).trans (hsq h)⟩

end

end Sys2Proof.Machine

open Sys2Proof.Machine

/-- Settles O51, by the reasons for which a frame is dropped and what an accepted one leaves, and then an event a clause. -/
theorem ethernetPorts : Obligations.EthernetPorts := by
  refine ⟨fun s p f he hidle hup => ⟨fun hshort => ?_, fun hlo htop => ?_, fun hlo hhi hfcs => ?_, fun hlo hhi hfcs hp hpair hctl => ?_,
    fun hlo hhi hfcs hp hring hctl hgroup hbroad hown hhost hfill htable hports hroom hends => ?_⟩, fun s p he hports => ?_⟩
  · exact ethFrameReceive_dropped he hidle hup (by decide) (if_pos hshort)
  · exact ethFrameReceive_dropped he hidle hup (by decide) ((if_neg (by omega)).trans (if_pos htop))
  · exact ethFrameReceive_dropped he hidle hup (by decide) (ethDrop_damaged hlo hhi hfcs)
  · exact ethFrameReceive_dropped he hidle hup (by decide) (ethDrop_notPair hlo hhi hfcs hp hpair hctl)
  · exact ethFrameReceive_other he hidle hup (ethDrop_good hlo hhi hfcs hroom hp hown hhost) ⟨hctl, hbroad, hgroup, hown, hhost⟩ hends hp hring
      hfill htable hports
  · exact ⟨fun time htime hup hflow => ⟨pause_reaches he hports htime hup hflow, pause_pends he hports htime hup hflow⟩,
      pauseExpiry_reaches he hports, fun r => pauseLong_reaches he, fun l => linkChg_reaches he hports, negFail_reaches he,
      addressAgeing_reaches he, lpiEntry_reaches he hports, endOfFrameInProgress_reaches he hports,
      fun q hup hlldp => ⟨lldpSend_reaches he hports hup hlldp, fun frame =>
        ⟨lldpduReceive_reaches he hports hup hlldp frame, lldpduReceive_damaged he frame⟩⟩⟩
end

section
/-! SUPPORT. Chapter 12: BACnet, tunnelled connections and host frames (O52). -/
namespace Sys2Proof.Machine

/-! ### BACnet requests (R83, R85, R339, R340) -/

/-- A read of a record counts nothing but a mismatch found (R92). -/
theorem verifyRead_total (s : State) (p : Nat) {o : Nat} (ho : o < 0x9840) (hne : 0x18B0 ≠ o) : (s.verifyRead p).total o = s.total o := by
  unfold State.verifyRead
  split
  · rfl
  split
  · unfold State.badRecord
    extract_lets r v
    split
    · rfl
    · exact (State.total_count_ne _ 1 hne).trans (State.report_total_low _ _ _ _ _ _ ho)
  split <;> rfl

theorem bacnetAnswer_value (s : State) (o : BacObject) (v : W64) (x y : Bool) : (s.bacnetAnswer (.value o v x y)).net.answer = .value o v x y ∧
    (s.bacnetAnswer (.value o v x y)).total 0x616C = s.total 0x616C + 1 ∧ (s.bacnetAnswer (.value o v x y)).pnt = s.pnt ∧
      (s.bacnetAnswer (.value o v x y)).flt = s.flt :=
  ⟨rfl, State.total_count { s with net := { s.net with answer := .value o v x y } } 0x616C 1, rfl, rfl⟩

theorem bacnetAnswer_unknown (s : State) : (s.bacnetAnswer .errorUnknown).net.answer = .errorUnknown ∧
    (s.bacnetAnswer .errorUnknown).total 0x6170 = s.total 0x6170 + 1 ∧ (s.bacnetAnswer .errorUnknown).pnt = s.pnt ∧
      (s.bacnetAnswer .errorUnknown).flt = s.flt ∧ (s.bacnetAnswer .errorUnknown).stat = s.stat :=
  ⟨rfl, State.total_count { s with net := { s.net with answer := .errorUnknown } } 0x6170 1, rfl, rfl, rfl⟩

/-- A denied read is counted in its own counter (R80). -/
theorem State.noteDenial_total (s : State) (b p : Nat) : (s.noteDenial b .read p .deny).total 0x6170 = s.total 0x6170 := by
  have hshown : ∀ (u : State) (w : W32) (o : Nat), ((u.setReg 0x1824 w).setSQ 3 7).total o = u.total o := fun _ _ _ => rfl
  unfold State.noteDenial
  dsimp only
  rw [hshown]
  exact s.total_count_ne 1 (by decide)

section
variable {s : State} {b p : Nat} (hp : p < 8192)
include hp

theorem bacRead_allowed (h : s.check b .read p false false = .allow) : s.bacRead b p = (s.verifyRead p,
    some (bacObject (s.readRec p), (s.verifyRead p).bacValue (s.readRec p), decide ((s.readRec p).quality.toNat / 64 = 2), (s.readRec p).forced)) := by
  unfold State.bacRead
  rw [if_neg (Nat.not_le.mpr hp), h]
  dsimp only
  rw [show s.readPoint b p = (s.verifyRead p, s.readRec p) by unfold State.readPoint; rw [h]]

theorem bacRead_denied (h : s.check b .read p false false = .deny) : s.bacRead b p = (s.noteDenial b .read p .deny, none) := by
  unfold State.bacRead
  rw [if_neg (Nat.not_le.mpr hp), h]

end

section
variable {s : State} {vid dev b d : Nat} {e : List W32} (hsvc : s.servicesUp = true) (hvlan : s.vlanBooth vid = some b)
  (hif : s.ifOf vid = some e) (hdev : s.deviceBooth dev = some d) (hip : bitAt (ew e 0) 30 = true)
include hsvc hvlan hif hdev hip

theorem bacnet_reaches_device (op : BacnetOp) : s.bacnet vid dev op =
    if b ≠ d then s.count 0x18A4 1 else State.bacnetServe { s with net := { s.net with answerVid := vid } } b op := by
  unfold State.bacnet
  rw [if_neg (ne_false_of_eq_true hsvc), hvlan, hif, hdev]
  exact if_neg (ne_false_of_eq_true hip)

end

section
variable {s : State} (he : s.engineUp 3 = true)
include he

section
variable {vid dev b d p : Nat} {e : List W32} (hsvc : s.servicesUp = true) (hvlan : s.vlanBooth vid = some b)
  (hif : s.ifOf vid = some e) (hdev : s.deviceBooth dev = some d) (hip : bitAt (ew e 0) 30 = true)
include hsvc hvlan hif hdev hip

/-- A request on the VID of another booth is denied and counted (R85). -/
theorem bacnetRequest_foreign (op : BacnetOp) (hne : b ≠ d) : Reaches (exec (.bacnetRequest vid dev op) s) fun t =>
    t.total 0x18A4 = s.total 0x18A4 + 1 ∧ t.pnt = s.pnt ∧ t.net = s.net :=
  (netEvent_ends (f := fun s => s.bacnet vid dev op) he
    ((bacnet_reaches_device (s := s.draw) hsvc hvlan hif hdev hip op).trans (if_pos hne)) rfl).imp fun t ht =>
    ⟨(ht.total _ (by decide)).trans (State.total_count ..), ht.pnt, ht.net⟩

variable (hsame : b = d) (hp : p < 8192)
include hsame hp

theorem bacnetRequest_read (hmay : s.check b .read p false false = .allow) : Reaches (exec (.bacnetRequest vid dev (.read p)) s) fun t =>
    t.total 0x616C = s.total 0x616C + 1 ∧ (s.sound p → t.pnt.points = s.pnt.points) ∧
      t.net.answer = .value (bacObject (s.readRec p)) (s.draw.bacValue (s.readRec p))
        (decide ((s.readRec p).quality.toNat / 64 = 2)) (s.readRec p).forced := by
  let v : State := { s.draw with net := { s.net with answerVid := vid } }
  have hread := bacRead_allowed (s := v) hp hmay
  have htotal := verifyRead_total v p (o := 0x616C) (by decide) (by decide)
  have hsound : s.sound p → (v.verifyRead p).pnt.points = s.pnt.points := fun h => by rw [State.verifyRead_of_sound (s := v) h]; rfl
  have hver := verifyRead_verified v p
  have hnest := hver.nest
  obtain ⟨pts, found, fl, c, st, hw⟩ := hver.same
  have hvalue : (v.verifyRead p).bacValue (s.readRec p) = s.draw.bacValue (s.readRec p) := by rw [hw]; rfl
  have hrun := (bacnet_reaches_device (s := s.draw) hsvc hvlan hif hdev hip (.read p)).trans (if_neg (not_not.mpr hsame))
  generalize hW : v.verifyRead p = w at hread htotal hsound hnest hvalue
  have hans : s.draw.bacnet vid dev (.read p) = w.bacnetAnswer (.value (bacObject (s.readRec p)) (w.bacValue (s.readRec p))
      (decide ((s.readRec p).quality.toNat / 64 = 2)) (s.readRec p).forced) := by
    rw [hrun]
    unfold State.bacnetServe
    dsimp only
    rw [show State.bacRead { s.draw with net := { s.draw.net with answerVid := vid } } b p = _ from hread]
    rfl
  rw [hvalue] at hans
  obtain ⟨hanswer, hserved, hkept, hstill⟩ := bacnetAnswer_value w (bacObject (s.readRec p)) (s.draw.bacValue (s.readRec p))
    (decide ((s.readRec p).quality.toNat / 64 = 2)) (s.readRec p).forced
  refine (liveIoe_ends (f := fun s => s.bacnet vid dev (.read p)) he hans ((congrArg Flt.nest hstill).trans hnest)).imp fun t ht =>
    ⟨((ht.total _ (by decide)).trans hserved).trans (congrArg (· + 1) htotal), fun h => ?_, ?_⟩
  · rw [ht.pnt, hkept]; exact hsound h
  · rw [ht.net]; exact hanswer

theorem bacnetRequest_denied (hmay : s.check b .read p false false = .deny) : Reaches (exec (.bacnetRequest vid dev (.read p)) s) fun t =>
    t.total 0x6170 = s.total 0x6170 + 1 ∧ t.sq 3 7 = true ∧ t.pnt = s.pnt ∧ t.net.answer = .errorUnknown := by
  let v : State := { s.draw with net := { s.net with answerVid := vid } }
  have hread := bacRead_denied (s := v) hp hmay
  have hrun := (bacnet_reaches_device (s := s.draw) hsvc hvlan hif hdev hip (.read p)).trans (if_neg (not_not.mpr hsame))
  have hpnt := v.noteDenial_pnt b .read p
  have hsq := v.noteDenial_sq b .read p
  have htotal : (v.noteDenial b .read p .deny).total 0x6170 = s.total 0x6170 := v.noteDenial_total b p
  have hflt : (v.noteDenial b .read p .deny).flt = s.flt := by obtain ⟨_, _, _, h⟩ := v.noteDenial_deny b .read p; rw [h]; rfl
  generalize v.noteDenial b .read p .deny = w at hread hpnt hsq htotal hflt
  have hans : s.draw.bacnet vid dev (.read p) = w.bacnetAnswer .errorUnknown := by
    rw [hrun]
    unfold State.bacnetServe
    dsimp only
    rw [show State.bacRead { s.draw with net := { s.draw.net with answerVid := vid } } b p = _ from hread]
  obtain ⟨hanswer, herror, hkept, hstill, hstat⟩ := bacnetAnswer_unknown w
  refine (netEvent_ends (f := fun s => s.bacnet vid dev (.read p)) he hans (hstill.trans hflt)).imp fun t ht =>
    ⟨((ht.total _ (by decide)).trans herror).trans (congrArg (· + 1) htotal), (ht.sq 3 7 (by simp)).trans (by unfold State.sq State.statOf at hsq ⊢; rw [hstat]; exact hsq),
      (ht.pnt.trans hkept).trans hpnt, ?_⟩
  rw [ht.net]
  exact hanswer

end

end

/-! ### Notifications (R79, R340) -/

theorem lmod_getElem?_self {α : Type} (l : List α) (i : Nat) (f : α → α) : (lmod l i f)[i]? = l[i]?.map f := by
  induction l generalizing i with
  | nil => rfl
  | cons x l ih => cases i with
    | zero => rfl
    | succ i => exact ih i

section
variable {s : State} (he : s.engineUp 3 = true) {i : Nat} {x : CovSub} {e : List W32} (hsub : s.net.subs[i]? = some x) (hnew : (s.point x.point).chg ≠ x.chg)
  (hhome : s.homeIf x.booth = some e) (hsvc : s.servicesUp = true) (hrun : s.running = true)
include he hsub hnew hhome hsvc hrun

theorem covNotification_reaches : Reaches (exec (.covNotification i) s) fun t =>
    t.net.subs[i]? = some { x with chg := (s.point x.point).chg } ∧
      (s.check x.booth .read x.point false false = .allow → t.net.notified = [(x.booth, x.point, ifVid e)]) ∧
      (s.check x.booth .read x.point false false = .deny → t.net.notified = s.net.notified ∧ t.sq 3 7 = true) := by
  let v : State := { s.draw with net := { s.net with subs := lmod s.net.subs i fun y => { y with chg := (s.point x.point).chg } } }
  have hgo : ¬((s.draw.point x.point).chg = x.chg ∨ s.draw.servicesUp = false ∨ s.draw.running = false) := by
    rw [show s.draw.servicesUp = true from hsvc, show s.draw.running = true from hrun]
    exact fun h => h.elim hnew (by simp)
  have hcov : s.draw.cov i = match s.check x.booth .read x.point false false with
      | .allow => { v with net := { v.net with notified := [(x.booth, x.point, ifVid e)] } }
      | k => v.noteDenial x.booth .read x.point k := by
    unfold State.cov
    rw [show s.draw.net.subs[i]? = some x from hsub]
    dsimp only
    rw [show s.draw.homeIf x.booth = some e from hhome]
    exact (if_neg hgo).trans rfl
  have hsubs : v.net.subs[i]? = some { x with chg := (s.point x.point).chg } := by
    rw [show v.net.subs = lmod s.net.subs i _ from rfl, lmod_getElem?_self, hsub]; rfl
  cases hmay : s.check x.booth .read x.point false false with
  | allow =>
    rw [hmay] at hcov
    refine (netEvent_ends (f := fun s => s.cov i) he hcov rfl).imp fun t ht => ?_
    rw [ht.net]
    exact ⟨hsubs, fun _ => rfl, nofun⟩
  | deny =>
    rw [hmay] at hcov
    refine (netEvent_ends (f := fun s => s.cov i) he hcov rfl).imp fun t ht => ?_
    rw [ht.net]
    exact ⟨hsubs, nofun, fun _ => ⟨rfl, (ht.sq 3 7 (by simp)).trans (v.noteDenial_sq _ _ _)⟩⟩
  | denySource =>
    rw [hmay] at hcov
    refine (netEvent_ends (f := fun s => s.cov i) he hcov rfl).imp fun t ht => ?_
    rw [ht.net]
    exact ⟨hsubs, nofun, nofun⟩

end

/-! ### Tunnelled connections (R342 to R344) -/

section
variable {s : State} (he : s.engineUp 3 = true)

/-- A connection within the profile takes the first place when that is free (R342, R343). -/
theorem tunnelConnect_first {vid : Nat} {cert : List Byte} (hsvc : s.servicesUp = true) (hrom : s.sys.romOnly = false)
    (hen : s.flag 0x60A0 0 = true) (hvlan : (s.vlanBooth vid).isSome = true)
    (hlistens : ((s.ifOf vid).map fun e => bitAt (ew e 0) 28) = some true) (hfree : (s.net.tunnels.getD 0 {}).state = 0) :
    s.tunnelConnect vid true cert = (State.setSess { s with net := { s.net with tunnels := lmod s.net.tunnels 0 fun _ => { state := 1, vid } } }
      4 { vid, cert }).count 0x6174 1 := by
  have hplace : (idxWhere 4 fun i => decide ((s.net.tunnels.getD i {}).state = 0)) = some 0 := by
    exact List.find?_cons_of_pos (l := [1, 2, 3]) (decide_eq_true hfree)
  have hbooth : (s.vlanBooth vid).isNone = false := by
    rw [Option.isNone_eq_false_iff]; exact hvlan
  unfold State.tunnelConnect
  dsimp only
  rw [if_neg (by simp [hsvc, hrom]), hbooth, if_neg (by simp), hlistens, if_neg (by simp [hen]), hplace]
  rfl

theorem tunnelConnect_reaches {vid : Nat} {cert : List Byte} (he : s.engineUp 3 = true) (hsvc : s.servicesUp = true) (hrom : s.sys.romOnly = false)
    (hen : s.flag 0x60A0 0 = true) (htunnels : s.net.tunnels.length = 4) (hsessions : s.mbx.sessions.length = 8)
    (hvlan : (s.vlanBooth vid).isSome = true)
    (hlistens : ((s.ifOf vid).map fun e => bitAt (ew e 0) 28) = some true) (hfree : (s.net.tunnels.getD 0 {}).state = 0)
    (hroot : s.slotUsable s.key.ownerRoot = true) (hrests : Config.certRests cert (s.slotAt s.key.ownerRoot).material = true) :
    Reaches (exec (.tunnelConnect vid true cert) s) fun t => (t.net.tunnels.getD 0 {}).state = 1 ∧
      (t.net.tunnels.getD 0 {}).vid = vid ∧ (t.sess 4).vid = vid ∧ (t.sess 4).cert = cert ∧ t.total 0x6174 = s.total 0x6174 + 1 := by
  have hprofile : (true && s.draw.slotUsable s.draw.key.ownerRoot &&
      Config.certRests cert (s.draw.slotAt s.draw.key.ownerRoot).material) = true := by
    rw [show s.draw.slotUsable s.draw.key.ownerRoot = true from hroot]; exact hrests
  have hrun : s.draw.tunnelHandshake vid true cert = _ :=
    (congrArg (s.draw.tunnelConnect vid · cert) hprofile).trans (tunnelConnect_first (s := s.draw) hsvc hrom hen hvlan hlistens hfree)
  refine (netEvent_ends (f := fun s => s.tunnelHandshake vid true cert) he hrun rfl).imp fun t ht => ?_
  have hplace := lmod_getD_self s.net.tunnels 0 (fun _ => ({ state := 1, vid } : Tunnel)) {} (by omega)
  have hsess := lmod_getD_self s.mbx.sessions 4 (fun _ => ({ vid, cert } : Session)) {} (by omega)
  rw [ht.net, ht.total _ (by decide), show t.sess 4 = _ from (congrArg (·.sessions.getD 4 {}) ht.mbx).trans hsess]
  exact ⟨congrArg Tunnel.state hplace, congrArg Tunnel.vid hplace, rfl, rfl, State.total_count ..⟩

/-- The closing of a session leaves the network and the fault handling, and its commands in flight are discarded (R381). -/
theorem closeSession_leaves (s : State) (n : Nat) : (s.closeSession n).net = s.net ∧ (s.closeSession n).flt = s.flt ∧
    (s.closeSession n).mbx.sessions.length = s.mbx.sessions.length ∧
    ((s.sess n).state ≠ .closed → ∀ x ∈ (s.closeSession n).mbx.slots, x.session = n → x.discard = true) := by
  by_cases hclosed : (s.sess n).state = .closed
  · have hsame : s.closeSession n = if n < 4 then s else s.setQ (8 + n) (s.q (8 + n)).clear := if_pos hclosed
    rw [hsame]
    split <;> exact ⟨rfl, rfl, rfl, fun h => absurd hclosed h⟩
  · unfold State.closeSession
    rw [if_neg hclosed]
    refine ⟨rfl, rfl, lmod_length .., fun _ x hx hn => ?_⟩
    obtain ⟨y, -, rfl⟩ := List.mem_map.mp hx
    split
    · rfl
    next hother => exact absurd (by rwa [if_neg hother] at hn) hother

section
variable {n : Fin 4} (he : s.engineUp 3 = true) (htunnels : s.net.tunnels.length = 4) (hsessions : s.mbx.sessions.length = 8)
  (hopen : (s.net.tunnels.getD n {}).state ≠ 0)
include he htunnels hsessions hopen

/-- The end of a connection closes its session (R344, R381). -/
theorem tunnelClose_ends {f : State → State} (hf : f s.draw = s.draw.tunnelClose n) : Reaches (liveIoe 3 f s) fun t =>
    (t.net.tunnels.getD n {}).state = 0 ∧ (t.sess (4 + n)).state = .closed ∧
      ((s.sess (4 + n)).state ≠ .closed → ∀ x ∈ t.mbx.slots, x.session = 4 + n.val → x.discard = true) := by
  obtain ⟨hnet, hflt, hlen, hslots⟩ := closeSession_leaves s.draw (4 + n)
  have hrun := hf.trans (if_neg hopen)
  generalize s.draw.closeSession (4 + n) = u at hnet hflt hlen hslots hrun
  refine (netEvent_ends he hrun hflt).imp fun t ht => ⟨?_, ?_, ?_⟩
  · rw [ht.net]
    exact congrArg Tunnel.state (lmod_getD_self _ _ _ _ (show n.val < u.net.tunnels.length by rw [hnet]; exact lt_of_lt_of_eq n.isLt htunnels.symm))
  · rw [State.sess, ht.mbx]
    exact congrArg Session.state (lmod_getD_self _ _ _ _ (by rw [hlen]; exact lt_of_lt_of_eq (by omega) hsessions.symm))
  · rw [ht.mbx]
    exact hslots

theorem responseStallClose_reaches (hheld : sget [] s.mbx.resp (4 + n) ≠ []) : Reaches (exec (.responseStallClose n) s) fun t =>
    (t.net.tunnels.getD n {}).state = 0 ∧ (t.sess (4 + n)).state = .closed :=
  (tunnelClose_ends (f := fun s => s.stallClose n) he htunnels hsessions hopen
    (if_neg (by rw [List.isEmpty_iff]; exact hheld))).imp fun _ ht => ⟨ht.1, ht.2.1⟩

end

end

/-! ### Host frames (R345, R346) -/

/-- `t` is `s` but for the ports and the counters: frames given to ports. -/
def NetOnly (s t : State) : Prop := ∃ n c, t = { s with net := n, cnt := c }

theorem NetOnly.trans {s t u : State} (h : NetOnly s t) (k : NetOnly t u) : NetOnly s u := by
  obtain ⟨_, _, rfl⟩ := h
  obtain ⟨n, c, rfl⟩ := k
  exact ⟨n, c, rfl⟩

theorem NetOnly.foldl {α : Type} {f : State → α → State} (h : ∀ s x, NetOnly s (f s x)) (l : List α) (s : State) :
    NetOnly s (l.foldl f s) := by
  induction l generalizing s with
  | nil => exact ⟨s.net, s.cnt, rfl⟩
  | cons x l ih => exact (h s x).trans (ih _)

theorem sendAll_netOnly (s : State) (p : Nat) (l : List (List Byte)) : NetOnly s (s.sendAll p l) := by
  have hsends : NetOnly s (l.foldl (fun (s : State) f => s.send p f) s) := .foldl (fun s x => by
    obtain ⟨n, c, h, -⟩ := send_books s p x; exact ⟨n, c, h⟩) l s
  unfold State.sendAll
  dsimp only
  split
  · exact hsends
  · exact hsends.trans ⟨_, _, rfl⟩

/-- A frame given alone to a port that may start it (R322). -/
theorem sendAll_free {s : State} {p : Nat} (l : List Byte) (hp : p < s.net.ports.length) (hup : s.portUp p = true)
    (hfree : (s.port p).held = false) : ((s.sendAll p [l]).port p).sent = [l] ∧
      (s.sendAll p [l]).total (portCounter p 1) = s.total (portCounter p 1) + 1 := by
  have hself := State.port_setPort_self { s.port p with sent := [l], lpiTx := false } hp
  obtain ⟨c, hcount, htotal, -⟩ := portCount_books (s.setPort p { s.port p with sent := [l], lpiTx := false }) p 1 1
  unfold State.sendAll
  rw [List.foldl_cons, List.foldl_nil, send_free l hup hfree, hcount]
  dsimp only
  rw [if_neg (by simp [hup, hfree])]
  exact ⟨congrArg NetPort.sent (State.port_setPort_self _ (by exact (lmod_length ..).symm ▸ hp)), htotal⟩

theorem hostPorts_named {s : State} {sel : Nat} {l : List Byte} {k : Fin 2} (h : sel = k.val + 1) : s.hostPorts sel l = [k.val] := by
  subst h
  match k with
  | 0 => rfl
  | 1 => rfl

/-- The frame bytes of a host packet: as many as its first word says (R346). -/
def hostBytes (w0 : W64) (rest : List W64) : List Byte := (bytesOf rest).take (w0.toNat % 65536)

/-- A host packet that R346 discards: no such port, short of its length, too long, or no packet TSO can cut. -/
def hostBad (w0 : W64) (l : List Byte) : Bool :=
  let top := if isTagged l then 1522 else 1518
  decide (w0.toNat / 2 ^ 62 = 3) || decide (l.length < w0.toNat % 65536) ||
    (if w0.getLsbD 61 then decide (top < w0.toNat / 2 ^ 52 % 256 + w0.toNat / 2 ^ 32 % 65536 + 4) || !tsoTcp l ||
      decide (w0.toNat / 2 ^ 32 % 65536 = 0)
     else decide (top < w0.toNat % 65536 + 4))

/-- The frames of a host packet (R345). -/
def hostFrames (w0 : W64) (l : List Byte) : List (List Byte) :=
  if w0.getLsbD 61 then
    tsoCut l (w0.toNat / 2 ^ 52 % 256) (w0.toNat / 2 ^ 32 % 65536) (w0.toNat % 65536 + 1) (l.drop (w0.toNat / 2 ^ 52 % 256)) 0 0
  else [l]

/-- The frames of a host packet given to its ports. -/
def State.hostSends (s : State) (w0 : W64) (l : List Byte) : State :=
  (s.hostPorts (w0.toNat / 2 ^ 62) l).foldl (fun (s : State) p => s.sendAll p ((hostFrames w0 l).map padFrame)) s

section
variable {s : State} {w0 : W64} {rest : List W64} (hhead : (s.q 24).headPacket = w0 :: rest) (hpath : s.flag 0x6000 2 = true)
include hhead hpath

theorem hostTx_eq : s.hostTx =
    let v := s.setQ 24 (s.q 24).dropHead
    let l := hostBytes w0 rest
    if hostBad w0 l then v.setSQ 12 3
    else if w0.getLsbD 61 ∧ (((v.hostSends w0 l).hostPorts (w0.toNat / 2 ^ 62) l).any fun p => (v.hostSends w0 l).accepts p) then
      (v.hostSends w0 l).count 0x6168 (hostFrames w0 l).length
    else v.hostSends w0 l := by
  unfold State.hostTx
  rw [hhead]
  exact if_neg (ne_false_of_eq_true hpath)

/-- A packet of Q24 leaves the queue whatever becomes of its frames (R346). -/
theorem hostTx_same : ∃ n c st, s.hostTx = { s.setQ 24 (s.q 24).dropHead with net := n, cnt := c, stat := st } := by
  rw [hostTx_eq hhead hpath]
  extract_lets v l
  obtain ⟨n, c, hsent⟩ : NetOnly v (v.hostSends w0 l) := .foldl (fun t p => sendAll_netOnly t p _) _ v
  rw [hsent]
  split
  · exact ⟨v.net, v.cnt, _, rfl⟩
  split
  · exact ⟨n, _, v.stat, rfl⟩
  · exact ⟨n, c, v.stat, rfl⟩

/-- A whole frame for one ring port goes out there, padded (R324, R346). -/
theorem hostTx_named {k : Fin 2} (hport : w0.toNat / 2 ^ 62 = k.val + 1) (hwhole : w0.getLsbD 61 = false)
    (hlen : w0.toNat % 65536 ≤ (bytesOf rest).length)
    (htop : (hostBytes w0 rest).length + 4 ≤ if isTagged (hostBytes w0 rest) then 1522 else 1518) :
    s.hostTx = (s.setQ 24 (s.q 24).dropHead).sendAll k [padFrame (hostBytes w0 rest)] := by
  have hbad : hostBad w0 (hostBytes w0 rest) = false := by
    have hsel : w0.toNat / 2 ^ 62 ≠ 3 := by omega
    have hl : (hostBytes w0 rest).length = w0.toNat % 65536 := List.length_take_of_le hlen
    rw [hl] at htop
    unfold hostBad
    rw [hwhole, hl]
    dsimp only
    rw [decide_eq_false hsel, decide_eq_false (lt_irrefl _), if_neg (by simp), decide_eq_false (Nat.not_lt.mpr htop)]
    rfl
  have hframes : hostFrames w0 (hostBytes w0 rest) = [hostBytes w0 rest] := if_neg (ne_true_of_eq_false hwhole)
  rw [hostTx_eq hhead hpath]
  extract_lets v l
  rw [if_neg (ne_true_of_eq_false hbad), if_neg (fun h => ne_true_of_eq_false hwhole h.1)]
  unfold State.hostSends
  rw [hostPorts_named hport, hframes]
  rfl

end

theorem hostFrameTx_reaches {s : State} {w0 : W64} {rest : List W64} (he : s.engineUp 3 = true) (hhead : (s.q 24).headPacket = w0 :: rest)
    (hpath : s.flag 0x6000 2 = true) (hqs : s.hostp.queues.length = 32) : Reaches (exec .hostFrameTx s) fun t =>
      t.q 24 = (s.q 24).dropHead ∧ ∀ k : Fin 2, w0.toNat / 2 ^ 62 = k.val + 1 → w0.getLsbD 61 = false → s.net.ports.length = 3 →
        s.portUp k = true → (s.port k).held = false → w0.toNat % 65536 ≤ (bytesOf rest).length →
        (hostBytes w0 rest).length + 4 ≤ (if isTagged (hostBytes w0 rest) then 1522 else 1518) →
          (t.port k).sent = [padFrame (hostBytes w0 rest)] ∧ t.total (portCounter k 1) = s.total (portCounter k 1) + 1 := by
  obtain ⟨n, c, st, hrun⟩ := hostTx_same (s := s.draw) hhead hpath
  refine (netEvent_ends (f := fun s => s.hostTx) he hrun rfl).imp fun t ht => ⟨?_, fun k hport hwhole hports hup hfree hlen htop => ?_⟩
  · exact (ht.q 24).trans (State.q_setQ_self s.draw _ (by rw [show s.draw.hostp = s.hostp from rfl, hqs]; decide))
  · have hnamed := hostTx_named (s := s.draw) hhead hpath hport hwhole hlen htop
    have hsent := sendAll_free (s := s.draw.setQ 24 (s.q 24).dropHead) (padFrame (hostBytes w0 rest)) (p := k.val)
      (by rw [show (s.draw.setQ 24 (s.q 24).dropHead).net = s.net from rfl, hports]; omega) hup hfree
    rw [ht.port, ht.total _ (by unfold portCounter; omega), ← hrun, hnamed]
    exact hsent

end Sys2Proof.Machine

open Sys2Proof.Machine

/-- Settles O52, a service at a time. -/
theorem networkServices : Obligations.NetworkServices := by
  refine fun s he => ⟨fun vid dev b d e p hsvc hvlan hif hdev hip hp => ⟨?_, ?_, ?_⟩, fun i x e hsub hnew hhome hsvc hrun _ => ?_,
    fun vid cert hsvc hrom hen htunnels hsessions hvlan hlistens hfree hroot hrests => ?_, fun n htunnels hsessions hopen => ⟨?_, ?_⟩,
    fun w0 rest hhead hpath hqs => ?_⟩
  · exact fun hsame => bacnetRequest_read he hsvc hvlan hif hdev hip hsame hp
  · exact fun hsame => bacnetRequest_denied he hsvc hvlan hif hdev hip hsame hp
  · exact bacnetRequest_foreign he hsvc hvlan hif hdev hip (.read p)
  · exact covNotification_reaches he hsub hnew hhome hsvc hrun
  · exact tunnelConnect_reaches he hsvc hrom hen htunnels hsessions hvlan hlistens hfree hroot hrests
  · exact tunnelClose_ends (f := fun s => s.tunnelClose n) he htunnels hsessions hopen rfl
  · exact responseStallClose_reaches he htunnels hsessions hopen
  · exact hostFrameTx_reaches he hhead hpath hqs
end

section
/-! SUPPORT. Chapter 14: the commands on the network, the time limit of a command, and hub retries (O53). -/
namespace Sys2Proof.Machine

/-! ### The state a command in its turn starts from (R383, R384) -/

/-- A command answered at once with OK, its effect judged on the one state it starts from. -/
theorem ok_serves_at {f : State → State} {s : State} {h : Hdr} {c : CmdSpec} {body : State → Res} {fl : Nat} {da : List Byte}
    {P : State → Prop} (hf : f s.draw = runCmd h c body s.draw) (ha : s.admits h c.maxData) (hc : c.Clear s) (hd : da.length ≤ c.maxData)
    (hbody : ∀ v, v = (s.draw.advanceSseq h c).accept → Taken s h v → ∃ u, body v = .now 0 0 da fl u ∧ PathKept s u h ∧
      ∀ t, s.answered t h c.opcode fl da → Served u t → P t) : Reaches (live f s) P := by
  obtain ⟨u, hu, k, hP⟩ := hbody _ rfl (admits_taken c ha)
  have htake := admits_canTake ha
  have hpass := admits_firstFail ha hc
  have hgiven := (hf.trans (runCmd_now h c body s.draw htake hpass hu)).trans
    (runCmd_now h c (fun _ => .now 0 0 da fl u) s.draw htake hpass rfl).symm
  exact ok_serves hgiven ha hc hd fun _ _ => ⟨u, rfl, k, hP⟩

/-- A command in its turn moves the expected SSEQ of its own session, and nothing else of any session (R384). -/
theorem accept_sess {s : State} {h : Hdr} {n : Nat} (c : CmdSpec) (ha : s.admits h n) (k : Nat) :
    ∃ e, (s.draw.advanceSseq h c).accept.sess k = { s.sess k with expected := e } := by
  have hhdr := admits_headerBad (c := c) ha
  obtain ⟨⟨-, -, -, -, -, -, -, -, -, hlen, -⟩, -, hopen, hseq, -⟩ := ha
  obtain ⟨st, haccept⟩ := State.accept_same (s.draw.advanceSseq h c)
  rw [haccept, State.advanceSseq_turn s.draw h c hopen hhdr hseq]
  obtain rfl | hne := eq_or_ne h.session.val k
  · exact ⟨_, State.sess_setSess_self s.draw _ (by rw [show s.draw.mbx = s.mbx from rfl, hlen]; exact h.session.isLt)⟩
  · exact ⟨_, lmod_getD_ne s.mbx.sessions _ _ hne⟩

/-! ### Tables (R393) -/

theorem Taken.net {s v : State} {h : Hdr} (hv : Taken s h v) : v.net = s.net := by
  obtain ⟨_, _, _, _, e⟩ := hv.same; rw [e]; rfl

section
variable {s : State} {h : Hdr}

theorem ifRead_reaches {i : Nat} (hi : i < 256) (ha : s.admits h 32) (hlord : s.landlord h = true) :
    Reaches (exec (.ifRead h i) s) fun t =>
      s.answered t h 0x0802 0 (bytesOf32 ((s.ifEntry i ++ List.replicate 8 0).take 8)) ∧ t.net = s.net := by
  have hlen : (bytesOf32 ((s.ifEntry i ++ List.replicate 8 0).take 8)).length ≤ 32 := by
    have := List.length_take_le 8 (s.ifEntry i ++ List.replicate 8 0)
    rw [bytesOf32_length]
    omega
  have hdata : ∀ v, Taken s h v → bytesOf32 ((v.ifEntry i ++ List.replicate 8 0).take 8) = bytesOf32 ((s.ifEntry i ++ List.replicate 8 0).take 8) :=
    fun v hv => by unfold State.ifEntry; rw [hv.net]
  generalize bytesOf32 ((s.ifEntry i ++ List.replicate 8 0).take 8) = da at hlen hdata ⊢
  exact ok_serves (f := fun s => cmdIfRead h i s) (fl := 0) (da := da) rfl ha
    { denied := congrArg (!·) hlord, bad := if_neg (Nat.not_le.mpr hi), changes := nofun } hlen fun v hv =>
    ⟨v, congrArg (okRes · v) (hdata v hv), hv.path, fun t hans ht => ⟨hans, ht.net.trans hv.net⟩⟩

theorem neighbourRead_reaches {p : Nat} (hp : p < 2) (ha : s.admits h 1500) (hlord : s.landlord h = true) :
    Reaches (exec (.neighbourRead h p) s) fun t => s.answered t h 0x0803 0 ((s.port p).lldp.take 1500) ∧ t.net = s.net := by
  refine ok_serves (f := fun s => cmdNeighbourRead h p s) (fl := 0) (da := (s.port p).lldp.take 1500) rfl ha
    { denied := congrArg (!·) hlord, bad := if_neg (Nat.not_le.mpr hp), changes := nofun } (List.length_take_le ..) fun v hv =>
    ⟨v, ?_, hv.path, fun t hans ht => ⟨hans, ht.net.trans hv.net⟩⟩
  unfold State.port
  rw [hv.net]
  rfl

/-- The word of a session leaves out its expected SSEQ. -/
theorem mbxSess_of_expected {u v : State} {n : Nat} {e : W32} (hsess : v.sess n = { u.sess n with expected := e }) (hpnt : v.pnt = u.pnt)
    (hslots : v.mbx.slots = u.mbx.slots) : v.mbxSess n = u.mbxSess n := by
  unfold State.mbxSess State.inFlight
  rw [hsess, hpnt, hslots]

theorem sessionList_reaches (ha : s.admits h 32) (hlord : s.landlord h = true) : Reaches (exec (.sessionList h) s) fun t =>
    s.answered t h 0x0804 0 (bytesOf32 ((List.range 8).map s.mbxSess)) ∧ t.net = s.net := by
  refine ok_serves_at (f := fun s => cmdSessionList h s) (fl := 0) (da := bytesOf32 ((List.range 8).map s.mbxSess)) rfl ha
    { denied := congrArg (!·) hlord, bad := rfl, changes := nofun } (by rw [bytesOf32_length]; simp) fun v hat hv =>
    ⟨v, ?_, hv.path, fun t hans ht => ⟨hans, ht.net.trans hv.net⟩⟩
  have hwords : (List.range 8).map v.mbxSess = (List.range 8).map s.mbxSess := List.map_congr_left fun k _ => by
    obtain ⟨e, hsess⟩ := accept_sess _ ha k
    exact mbxSess_of_expected (hat ▸ hsess) hv.pnt hv.path.slots
  exact congrArg (fun l => okRes (bytesOf32 l) v) hwords

theorem scHubs_reaches {booth : Nat} {primary failover : List Byte} (ha : s.admits h 0) (hbooth : s.boothIs h booth = true)
    (hprimary : wssOk primary = true) (hfailover : wssOk failover = true) : Reaches (exec (.scHubs h booth primary failover) s) fun t =>
      s.answered t h 0x0801 0 [] ∧ t.net.sc.find? (fun e => e.1 == booth) = some (booth, { primary, failover }) := by
  refine ok_serves (f := fun s => cmdScHubs h booth primary failover s) (fl := 0) (da := []) rfl ha
    { denied := congrArg (!·) hbooth, bad := by dsimp only; rw [if_neg (by simp [hprimary]), if_neg (by simp [hfailover])], changes := nofun }
    (Nat.zero_le _) fun v hv => ⟨_, rfl, ?_, fun t hans ht => ⟨hans, ?_⟩⟩
  · obtain ⟨tr, e⟩ := State.noteOut_same { v with net := { v.net with sc := sput v.net.sc booth { primary, failover } } }
      fun (c : SyncChange) => { c with hubs := c.hubs ++ [(booth, { primary, failover })] }
    exact hv.path.of_same (by rw [e]) (by rw [e]) (by rw [e]) (by rw [e])
  · obtain ⟨tr, e⟩ := State.noteOut_same { v with net := { v.net with sc := sput v.net.sc booth { primary, failover } } }
      fun (c : SyncChange) => { c with hubs := c.hubs ++ [(booth, { primary, failover })] }
    rw [ht.net, e]
    exact find?_sput ..

end

/-! ### Hub retries (R341, R450) -/

theorem cacheLoad_same (s : State) (i : Nat) (b m : List Byte) : ∃ k c, s.cacheLoad i b m = { s with key := k, cnt := c } := by
  unfold State.cacheLoad
  dsimp only
  split <;> exact ⟨_, _, rfl⟩

/-- The asking for an identity key leaves the network (R341). -/
theorem needIdent_leaves (s : State) (booth : Nat) : ∃ k c, (s.needIdent booth).1 = { s with key := k, cnt := c } := by
  have hsame : ∃ k c, s = { s with key := k, cnt := c } := ⟨s.key, s.cnt, rfl⟩
  unfold State.needIdent
  extract_lets bs
  split
  · exact hsame
  split
  · exact hsame
  split
  · exact ⟨_, s.cnt, rfl⟩
  split
  · split
    · exact cacheLoad_same s _ _ _
    · exact hsame
  split
  · exact ⟨s.key, _, rfl⟩
  · exact hsame

/-- A node after a connection that failed: the interval doubled up to 64 s, the other hub next (R341). -/
def ScNode.failed (n : ScNode) : ScNode := { n with connected := false, interval := Nat.min 64 (2 * n.interval), second := !n.second }

/-- A retry that fails doubles its interval up to 64 s and turns to the other hub (R341). -/
theorem scRetry_failed {s : State} {booth : Nat} {n : ScNode} {e : List W32} (hsvc : s.servicesUp = true)
    (hnode : s.net.sc.find? (fun e => e.1 == booth) = some (booth, n)) (hhome : s.homeIf booth = some e) (hsc : bitAt (ew e 0) 29 = true) :
    s.scRetry booth false = { s with net := { s.net with sc := sput s.net.sc booth n.failed } } := by
  unfold State.scRetry
  rw [hnode, hhome]
  exact if_neg (by simp [hsvc, hsc])

theorem scHubRetry_reaches {s : State} {booth : Byte} {n : ScNode} {e : List W32} (he : s.engineUp 3 = true) (hsvc : s.servicesUp = true)
    (hnode : s.net.sc.find? (fun e => e.1 == booth.toNat) = some (booth.toNat, n)) (hhome : s.homeIf booth.toNat = some e)
    (hsc : bitAt (ew e 0) 29 = true) : Reaches (exec (.scHubRetry booth false) s) fun t =>
      (t.net.sc.find? fun e => e.1 == booth.toNat).map (fun e => (e.2.connected, e.2.interval, e.2.second)) =
        some (false, Nat.min 64 (2 * n.interval), !n.second) := by
  obtain ⟨k, c, hasked⟩ := needIdent_leaves s.draw booth.toNat
  have hrun : scHubRetry booth.toNat false s.draw = State.scRetry { s.draw with key := k, cnt := c } booth.toNat false := by
    unfold scHubRetry
    rw [← hasked]
    rfl
  rw [scRetry_failed (s := { s.draw with key := k, cnt := c }) hsvc hnode hhome hsc] at hrun
  refine (netEvent_ends (f := fun s => scHubRetry booth.toNat false s) he hrun rfl).imp fun t ht => ?_
  rw [ht.net, find?_sput]
  rfl

/-! ### The time limit of a command (R385) -/

/-- A response with room on its path stands there (R379). -/
theorem PathSame.respond_room {s u : State} (hqueues : u.hostp.queues = s.hostp.queues) (hresp : u.mbx.resp = s.mbx.resp)
    (hregs : u.regs = s.regs) {n : Nat} (op : Nat) (tag booth : Byte) (sseq : W32) (fl st de : Nat) (da : List Byte)
    (hlen : s.hostp.queues.length = 32) (hroom : n < 4 → s.qRoom (4 + n) (respWords da.length) = true) :
    s.wrote (u.respond n op tag booth sseq fl st de da) n (respPacket op tag booth sseq fl st de da) := by
  have hsame : PathSame { s with mbx := u.mbx } u := ⟨hqueues, rfl, rfl, fun k _ => congrArg (bitAt · 31) (State.reg_of_regs hregs _)⟩
  have hdone := hsame.countDone n op st
  unfold State.wrote State.respond
  split
  next hn =>
    have hfits : (u.countDone n op st).qRoom (4 + n) (respPacket op tag booth sseq fl st de da).length = true := by
      have hs := hroom hn
      unfold State.qRoom State.q at hs ⊢
      rw [respPacket_length, hdone.qEn _ (by omega), hdone.queues]
      exact hs
    rw [State.deliver_host _ _ hn (hdone.queues ▸ hlen) hfits]
    unfold State.q
    rw [hdone.queues]
  next hn => rw [State.deliver_tunnel _ _ hn, hdone.resp, hresp]

/-- A completion with TIMEOUT is shown (R385, R399). -/
theorem State.countDone_timeout (s : State) (n op : Nat) : (s.countDone n op 0x0F).sq 14 2 = true := by
  have hdone : s.countDone n op 0x0F = ((s.count 0x706C 1).setSQ 14 2).setReg 0x700C (place op 16 ||| place n 13 ||| place 0x0F 0) := by
    simp [State.countDone]
  rw [hdone]
  exact State.sq_setSQ_self (s.count 0x706C 1) 14 2

theorem timeout_reaches {s : State} {n : Fin 8} {tag : Byte} {x : Slot} {m : BitVec 22} (hup : s.up = true)
    (hx : s.mbx.slots.find? (fun y => y.session == n.val && y.tag == tag) = some x) (hwait : x.wait = .shutter m)
    (hkept : x.discard = false) (hlate : x.accepted + 2000000000 ≤ s.crsl.upNs + s.periodNs)
    (hroom : n.val < 4 → s.qRoom (4 + n.val) 3 = true) (hqs : s.hostp.queues.length = 32) :
    Reaches (exec (.timeout n tag) s) fun t => t.mbx.slots = s.mbx.slots.filter (fun y => y.ident != x.ident) ∧
      s.wrote t n.val (respPacket x.opcode x.tag x.booth x.sseq 0 0x0F 0 []) ∧ t.sq 14 2 = true := by
  have hsession : x.session = n.val := by
    have := List.find?_some hx
    rw [Bool.and_eq_true] at this
    exact beq_iff_eq.mp this.1
  let v : State := { s.draw.withdrawWrites x.ident with mbx := { s.mbx with slots := s.mbx.slots.filter fun y => y.ident != x.ident } }
  have hrun : timeout n tag s.draw = v.respond n x.opcode x.tag x.booth x.sseq 0 0x0F 0 [] := by
    have hwithdraw : s.draw.withdraw x = s.draw.withdrawWrites x.ident := by unfold State.withdraw; rw [hwait]
    unfold timeout
    rw [show s.draw.mbx.slots.find? (fun y => y.session == n.val && y.tag == tag) = some x from hx]
    refine (if_pos hlate).trans ?_
    rw [hwithdraw, ← hsession]
    exact if_neg (ne_true_of_eq_false hkept)
  have hleft := respond_leaves v n.val x.opcode x.tag x.booth x.sseq 0 0x0F 0 []
  have hwrote := PathSame.respond_room (s := s) (u := v) rfl rfl rfl (n := n.val) x.opcode x.tag x.booth x.sseq 0 0x0F 0 [] hqs hroom
  have hshown : (v.respond n x.opcode x.tag x.booth x.sseq 0 0x0F 0 []).sq 14 2 = true := by
    obtain ⟨qs, b, e⟩ := (v.countDone n.val x.opcode 0x0F).deliver_same n.val (respPacket x.opcode x.tag x.booth x.sseq 0 0x0F 0 [])
    unfold State.respond
    rw [e]
    exact v.countDone_timeout n.val x.opcode
  refine (live_ends (f := fun s => timeout n tag s) hup hrun (congrArg Flt.nest hleft.flt)).imp fun t ht => ⟨?_, ?_, ?_⟩
  · rw [ht.mbx]; exact hleft.slots
  · unfold State.wrote at hwrote ⊢
    rwa [ht.q, ht.mbx]
  · rw [ht.sq 14 2 (by simp)]; exact hshown

end Sys2Proof.Machine

open Sys2Proof.Machine

/-- Settles O53, a command or event at a time. -/
theorem networkCommands : Obligations.NetworkCommands := fun _ _ =>
  ⟨fun _ _ _ ha hbooth hprimary hfailover => scHubs_reaches ha hbooth hprimary hfailover, fun _ hi ha hlord => ifRead_reaches hi ha hlord,
    fun _ hp ha hlord => neighbourRead_reaches hp ha hlord, sessionList_reaches,
    fun _ _ _ hup hx ⟨_, hwait⟩ hkept hlate hroom hqs => timeout_reaches hup hx hwait hkept hlate hroom hqs,
    fun _ _ _ he hsvc hnode hhome hsc => scHubRetry_reaches he hsvc hnode hhome hsc⟩
end

section
/-! SUPPORT. What stands aside of the work on points, loops, images and sessions: the calendar, the keys, a nested CRITICAL and the counters of
the pair, the calendar and the keys, through a stop of control, the closing of sessions and the taking of a partner's packet (R62, R381, R407). -/
namespace Sys2Proof.Machine

/-- A counter of the pair, the calendar or the keys, but that of the mirror's differences (R409). -/
def asideCounter (o : Nat) : Bool := decide (0x7880 ≤ o ∧ o < 0x9000 ∧ o ≠ 0x78B0)

/-- The revolution counter, the calendar, the keys, the debug port, a nested CRITICAL and the counters aside stand, and where `pair` the pair record. -/
structure Aside (pair : Bool) (s t : State) : Prop where
  trap : pair = true → t.trap = s.trap
  rev : t.rev = s.rev
  rtc : t.rtc = s.rtc
  key : t.key = s.key
  dbg : t.dbg = s.dbg
  nest : t.flt.nest = s.flt.nest
  total : ∀ o, asideCounter o = true → t.total o = s.total o

section
variable {pair : Bool}

theorem Aside.refl (s : State) : Aside pair s s := ⟨fun _ => rfl, rfl, rfl, rfl, rfl, rfl, fun _ _ => rfl⟩

theorem Aside.trans {s t u : State} (h : Aside pair s t) (k : Aside pair t u) : Aside pair s u :=
  ⟨fun hp => (k.trap hp).trans (h.trap hp), k.rev.trans h.rev, k.rtc.trans h.rtc, k.key.trans h.key, k.dbg.trans h.dbg, k.nest.trans h.nest,
    fun o ho => (k.total o ho).trans (h.total o ho)⟩

theorem Aside.of_same {s t : State} (htrap : pair = true → t.trap = s.trap) (hrev : t.rev = s.rev) (hrtc : t.rtc = s.rtc)
    (hkey : t.key = s.key) (hdbg : t.dbg = s.dbg) (hflt : t.flt = s.flt) (hcnt : t.cnt = s.cnt) : Aside pair s t :=
  ⟨htrap, hrev, hrtc, hkey, hdbg, congrArg Flt.nest hflt, fun _ _ => congrArg (sget 0 · _) hcnt⟩

theorem ite_aside {s t u : State} {c : Prop} [Decidable c] (ht : Aside pair s t) (hu : Aside pair s u) : Aside pair s (if c then t else u) := by
  split
  · exact ht
  · exact hu

theorem foldl_aside {α : Type} (f : State → α → State) (hf : ∀ t x, Aside pair t (f t x)) (l : List α) (s : State) : Aside pair s (l.foldl f s) :=
  List.foldlRecOn _ _ (Aside.refl s) fun t h x _ => h.trans (hf t x)

theorem setSQ_aside (s : State) (b i : Nat) : Aside pair s (s.setSQ b i) := .of_same (fun _ => rfl) rfl rfl rfl rfl rfl rfl

theorem asideCounter_ne {o off : Nat} (ho : asideCounter o = true) (h : asideCounter off = false) : off ≠ o :=
  fun e => ne_true_of_eq_false h (e ▸ ho)

theorem count_aside (s : State) {off : Nat} (n : Nat) (h : asideCounter off = false) : Aside pair s (s.count off n) :=
  ⟨fun _ => rfl, rfl, rfl, rfl, rfl, rfl, fun _ ho => s.total_count_ne n (asideCounter_ne ho h)⟩

theorem setSQ_count_aside (s : State) (b i : Nat) {off : Nat} (n : Nat) (h : asideCounter off = false) :
    Aside pair s ((s.setSQ b i).count off n) := (setSQ_aside s b i).trans (count_aside _ n h)

/-- An event reported that is no CRITICAL nests none (R492). -/
theorem report_aside (s : State) {cls : EvClass} (blk bit : Nat) (booth : Byte) (data : Nat) (h : cls ≠ .critical) :
    Aside pair s (s.report cls blk bit booth data) := by
  have hnest := raise_nest (s.setSQ blk bit) cls blk bit booth data h
  have hcnt := fun o => State.report_total_low s cls blk bit booth data (o := o)
  have hsame := report_logOnly s cls blk bit booth data
  have hn : (s.report cls blk bit booth data).flt.nest = s.flt.nest := hnest
  generalize s.report cls blk bit booth data = u at hn hcnt hsame
  obtain ⟨f, st, c, rfl⟩ := hsame.same
  exact ⟨fun _ => rfl, rfl, rfl, rfl, rfl, hn, fun o ho => hcnt o (by have := of_decide_eq_true ho; omega)⟩

theorem dropReq_aside (s : State) (p : Nat) : Aside pair s (s.dropReq p) := by
  unfold State.dropReq
  refine ite_aside (Aside.trans (t := s.endReq p) ?_ (count_aside _ 1 (by decide))) (.refl s)
  exact .of_same (fun _ => rfl) rfl rfl rfl rfl rfl rfl

theorem dropWriter_aside (s : State) (w : Writer) : Aside pair s (s.dropWriter w) :=
  foldl_aside (fun (s : State) (r : Req) => s.dropReq r.point) (fun t _ => dropReq_aside t _) _ s

/-! ### Spotlight tests and exchanges -/

theorem setCtx_aside (s : State) (c : Nat) (x : LoopCtx) : Aside pair s (s.setCtx c x) := .of_same (fun _ => rfl) rfl rfl rfl rfl rfl rfl

theorem setSpot_aside (s : State) (k : Nat) (x : Spot) : Aside pair s (s.setSpot k x) := .of_same (fun _ => rfl) rfl rfl rfl rfl rfl rfl

theorem keepPacket_aside (s : State) (k : Nat) (b : SpotBuf) : Aside pair s (s.keepPacket k b) := by
  unfold State.keepPacket
  exact ite_aside (.refl s) (ite_aside (setSQ_count_aside s 5 1 1 rfl) (setSpot_aside s k _))

theorem endSpot_aside (s : State) (k cause : Nat) : Aside pair s (s.endSpot k cause) := by
  unfold State.endSpot
  dsimp only
  refine ite_aside (.refl s) (Aside.trans ?_ (ite_aside (setSQ_count_aside _ 5 3 1 rfl) (setSQ_count_aside _ 5 2 1 rfl)))
  refine Aside.trans (Aside.trans ?_ (ite_aside (setCtx_aside _ _ _) (ite_aside (setCtx_aside _ _ _) (.refl _)))) (setCtx_aside _ _ _)
  split
  · exact setSpot_aside s k _
  · exact (setSpot_aside s k _).trans (keepPacket_aside _ k _)

theorem endSpots_aside (s : State) (cause : Nat) : Aside pair s (s.endSpots cause) :=
  foldl_aside (fun (s : State) k => s.endSpot k cause) (fun t k => endSpot_aside t k cause) _ s

theorem swbAbort_aside (s : State) (booth : Nat) : Aside pair s (s.swbAbort booth) := by
  unfold State.swbAbort
  refine ite_aside (Aside.trans ?_ (setSQ_count_aside _ 6 6 1 (by decide))) (.refl s)
  exact .of_same (fun _ => rfl) rfl rfl rfl rfl rfl rfl

theorem swbAbortAll_aside (s : State) : Aside pair s s.swbAbortAll :=
  foldl_aside (fun (s : State) (e : Nat × Armed) => s.swbAbort e.1) (fun t e => swbAbort_aside t e.1) _ s

theorem abortArmed_aside (s : State) : Aside pair s s.abortArmed :=
  foldl_aside (fun (s : State) (e : Nat × Armed) => s.swbAbort e.1) (fun t e => swbAbort_aside t e.1) _ s

theorem relinquishOnStop_aside (s : State) : Aside false s s.relinquishOnStop := by
  unfold State.relinquishOnStop State.relinquishAt
  exact ite_aside ((swbAbortAll_aside s).trans (.of_same Bool.noConfusion rfl rfl rfl rfl rfl rfl)) (.refl s)

/-! ### Records and outputs -/

theorem badRecord_aside (s : State) (p : Nat) : Aside pair s (s.badRecord p) := by
  unfold State.badRecord
  dsimp only
  refine ite_aside (.refl s) (Aside.trans (Aside.trans ?_ (report_aside _ 3 2 0xFF p (by decide))) (count_aside _ 1 rfl))
  exact .of_same (fun _ => rfl) rfl rfl rfl rfl rfl rfl

theorem verifyRead_aside (s : State) (p : Nat) : Aside pair s (s.verifyRead p) := by
  unfold State.verifyRead
  exact ite_aside (.refl s) (ite_aside (badRecord_aside s p) (ite_aside (.refl s) (.of_same (fun _ => rfl) rfl rfl rfl rfl rfl rfl)))

theorem writeRec_aside (s : State) (p : Nat) (r : PRec) : Aside pair s (s.writeRec p r) := .of_same (fun _ => rfl) rfl rfl rfl rfl rfl rfl

theorem setQuality_aside (s : State) (p : Nat) (q : Byte) (ts : Stamp) : Aside pair s (s.setQuality p q ts) := by
  unfold State.setQuality
  dsimp only
  exact ite_aside (verifyRead_aside s p) ((verifyRead_aside s p).trans (writeRec_aside _ _ _))

theorem enterHeld_aside (s : State) (c : Int) : Aside pair s (s.enterHeld c) := by
  unfold State.enterHeld
  exact ite_aside (.refl s) (.of_same (fun _ => rfl) rfl rfl rfl rfl rfl rfl)

theorem dropLoad_aside (s : State) (p stages : Nat) : Aside pair s (s.dropLoad p stages) := by
  unfold State.dropLoad
  exact ite_aside (.of_same (fun _ => rfl) rfl rfl rfl rfl rfl rfl) (.refl s)

theorem safeOut_aside (s : State) (p : Nat) : Aside pair s (s.safeOut p) := by
  have hread : Aside pair s ((s.dropReq p).verifyRead p) := (dropReq_aside s p).trans (verifyRead_aside _ p)
  unfold State.safeOut
  dsimp only
  refine ite_aside hread ?_
  split
  · split
    · exact hread.trans (.of_same (fun _ => rfl) rfl rfl rfl rfl rfl rfl)
    · refine Aside.trans ?_ (writeRec_aside _ _ _)
      refine Aside.trans (Aside.trans ?_ (enterHeld_aside _ _)) (dropLoad_aside _ _ _)
      exact hread.trans (.of_same (fun _ => rfl) rfl rfl rfl rfl rfl rfl)
  · refine Aside.trans ?_ (setQuality_aside _ _ _ _)
    exact hread.trans (.of_same (fun _ => rfl) rfl rfl rfl rfl rfl rfl)

theorem handField_aside (s : State) (k : Nat) : Aside pair s (s.handField k) := by
  unfold State.handField
  exact ite_aside (.of_same (fun _ => rfl) rfl rfl rfl rfl rfl rfl) (.refl s)

theorem handAo_aside (s : State) (j : Nat) : Aside pair s (s.handAo j) := by
  unfold State.handAo
  dsimp only
  refine ite_aside ?_ (.refl s)
  split
  · refine ite_aside (Aside.trans ?_ (count_aside _ 1 (by decide))) (.of_same (fun _ => rfl) rfl rfl rfl rfl rfl rfl)
    exact .of_same (fun _ => rfl) rfl rfl rfl rfl rfl rfl
  · exact .of_same (fun _ => rfl) rfl rfl rfl rfl rfl rfl

theorem setFan_aside (s : State) (c : Nat) (x : FanCh) : Aside pair s (s.setFan c x) := .of_same (fun _ => rfl) rfl rfl rfl rfl rfl rfl

theorem fromStopped_aside (s : State) (c : Nat) : Aside pair s (s.fromStopped c) := by
  unfold State.fromStopped State.startKick
  exact ite_aside (setFan_aside s c _) (((setFan_aside s c _).trans (setFan_aside _ c _)).trans (count_aside _ 1 rfl))

theorem handFan_aside (s : State) (c : Nat) : Aside pair s (s.handFan c) := by
  have hset : ∀ x, Aside pair s (s.setFan c x) := fun x => setFan_aside s c x
  unfold State.handFan
  dsimp only
  refine ite_aside (.refl s) (ite_aside (hset _) ?_)
  split
  · exact ite_aside (hset _) ((hset _).trans (fromStopped_aside _ c))
  · exact ite_aside ((hset _).trans (setFan_aside _ c _)) (hset _)
  · exact ite_aside ((hset _).trans (setFan_aside _ c _)) (hset _)
  · exact ite_aside ((hset _).trans (setFan_aside _ c _)) (ite_aside (hset _) ((hset _).trans (setFan_aside _ c _)))
  · exact hset _
  · exact hset _

theorem handOff_aside (s : State) (p : Nat) : Aside pair s (s.handOff p) := by
  unfold State.handOff
  split
  · exact handField_aside s _
  · split
    · exact handAo_aside s _
    · split
      · exact handFan_aside s _
      · exact .refl s

theorem driveSafe_aside (s : State) : Aside pair s s.driveSafe :=
  foldl_aside (fun (s : State) p => (s.safeOut p).handOff p) (fun t p => (safeOut_aside t p).trans (handOff_aside _ p)) _ _

theorem dropFrames_aside (s : State) : Aside pair s s.dropFrames := by
  refine foldl_aside _ (fun t b => ?_) _ _
  exact .of_same (fun _ => rfl) rfl rfl rfl rfl rfl rfl

end

theorem discardCommit_rtc (s : State) : s.discardCommit.rtc = s.rtc := by
  unfold State.discardCommit
  split
  · rfl
  · exact List.foldlRecOn (motive := fun t : State => t.rtc = s.rtc) _ _ rfl fun _ h _ _ => h

/-- A stop of control leaves the calendar (R62). -/
theorem controlStop_rtc (s : State) : s.controlStop.rtc = s.rtc := by
  unfold State.controlStop
  split
  · rfl
  · have hbefore := ((abortArmed_aside s.discardCommit).trans (endSpots_aside _ 5)).trans (relinquishOnStop_aside _)
    have hrtc := hbefore.rtc.trans (discardCommit_rtc s)
    dsimp only
    generalize ((s.discardCommit.abortArmed).endSpots 5).relinquishOnStop = u at hrtc ⊢
    exact (dropFrames_aside (pair := false) _).rtc.trans ((driveSafe_aside (pair := false) _).rtc.trans hrtc)

/-! ### Sessions -/

section
variable {pair : Bool}

theorem closeSession_aside (s : State) (n : Nat) : Aside pair s (s.closeSession n) := by
  unfold State.closeSession
  refine ite_aside (ite_aside (.refl s) (.of_same (fun _ => rfl) rfl rfl rfl rfl rfl rfl)) (Aside.trans ?_ (setSQ_aside _ 14 6))
  exact .of_same (fun _ => rfl) rfl rfl rfl rfl rfl rfl

theorem tunnelClose_aside (s : State) (i : Nat) : Aside pair s (s.tunnelClose i) := by
  unfold State.tunnelClose
  refine ite_aside (.refl s) ((closeSession_aside s (4 + i)).trans ?_)
  generalize s.closeSession (4 + i) = u
  exact .of_same (fun _ => rfl) rfl rfl rfl rfl rfl rfl

theorem closeAll_aside (s : State) : Aside pair s s.closeAll :=
  (foldl_aside (fun (s : State) n => s.closeSession n) closeSession_aside _ s).trans
    (foldl_aside (fun (s : State) n => s.tunnelClose n) tunnelClose_aside _ _)

end

theorem closeSession_sysStands (s : State) (n : Nat) : SysStands s (s.closeSession n) := by
  unfold State.closeSession
  refine ite_sysStands (ite_sysStands (.refl s) (.of_stat rfl rfl)) (.trans ?_ ((LogOnly.refl _).setSQ 14 6).sysStands)
  exact .of_stat rfl rfl

theorem tunnelClose_sysStands (s : State) (i : Nat) : SysStands s (s.tunnelClose i) := by
  unfold State.tunnelClose
  exact ite_sysStands (.refl s) ((closeSession_sysStands s _).trans (.of_stat rfl rfl))

theorem closeAll_sysStands (s : State) : SysStands s s.closeAll :=
  (foldl_sysStands (fun (s : State) n => s.closeSession n) closeSession_sysStands _ s).trans
    (foldl_sysStands (fun (s : State) n => s.tunnelClose n) tunnelClose_sysStands _ _)

end Sys2Proof.Machine
end

section
/-! SUPPORT. Chapter 16: the calendar's seconds and hour shifts, its latch, and the backup supply (O17). -/
namespace Sys2Proof.Machine

/-! ### A second (R425, R430, R435) -/

/-- The judging of an increment's phase leaves the calendar, its shift and the revolution noted (R435). -/
theorem alignPhase_leaves (s : State) (phase : Int) : ∃ r c, s.alignPhase phase = { s with rtc := r, cnt := c } ∧ r.cal = s.rtc.cal ∧
    r.shift = s.rtc.shift ∧ r.incRev = s.rtc.incRev ∧ ∀ o, 0x8054 ≠ o → sget 0 c o = s.total o := by
  unfold State.alignPhase
  dsimp only
  split
  · exact ⟨_, _, rfl, rfl, rfl, rfl, fun _ _ => rfl⟩
  · split
    · exact ⟨_, _, rfl, rfl, rfl, rfl, fun _ _ => rfl⟩
    · split
      · exact ⟨_, _, rfl, rfl, rfl, rfl, fun o h => s.total_count_ne 1 h⟩
      · split
        · exact ⟨_, _, rfl, rfl, rfl, rfl, fun o h => s.total_count_ne 1 h⟩
        · exact ⟨_, _, rfl, rfl, rfl, rfl, fun _ _ => rfl⟩

/-- The calendar after a second of revolution `rev` (R425). -/
def Rtc.second (r : Rtc) (rev : Nat) : Rtc :=
  { r with cal := incSec r.cal, incRev := rev, sinceRelease := satNat 10 (r.sinceRelease + 1) }

/-- The calendar after a forward shift (R430). -/
def Rtc.forward (r : Rtc) : Rtc := { r with cal := incHour r.cal, shift := none }

theorem rtcTick_running {s : State} (hhalt : s.rtc.halt = false) (hlost : s.rtc.lost = false) :
    rtcTick s = s.setRtc (s.rtc.second s.rev) :=
  if_neg (by rw [hhalt, hlost]; decide)

theorem rtcIncrement_running {s : State} (phase : Int) (hhalt : s.rtc.halt = false) (hlost : s.rtc.lost = false) :
    rtcIncrement phase s = (((rtcTick s).count 0x8040 1).applyShift).alignPhase phase :=
  if_neg (by rw [hhalt, hlost]; decide)

theorem endShift_of_no_slots {s : State} (status detail : Nat) (data : List Byte) (h : s.mbx.slots = []) :
    s.endShift status detail data = s := by
  unfold State.endShift
  rw [h]
  rfl

/-- A pending forward shift adds an hour; no command waits for it (R430, R431). -/
theorem applyShift_forward {s : State} (hshift : s.rtc.shift = some true) (hslots : s.mbx.slots = []) :
    s.applyShift.rtc = s.rtc.forward ∧ s.applyShift.flt.nest = s.flt.nest := by
  have hrun : s.applyShift = (((s.setRtc s.rtc.forward).reportBare .note 16 2 0xFF).count 0x8044 1).endShift 0 0 (incHour s.rtc.cal) := by
    unfold State.applyShift
    rw [hshift]
    rfl
  have hlog := reportBare_logOnly (s.setRtc s.rtc.forward) .note 16 2 0xFF
  have hnest := reportBare_nest (s.setRtc s.rtc.forward) 16 2 0xFF (show EvClass.note ≠ .critical by decide)
  rw [hrun]
  generalize (s.setRtc s.rtc.forward).reportBare .note 16 2 0xFF = u at hlog hnest
  have hmbx : u.mbx = s.mbx := by obtain ⟨_, _, _, rfl⟩ := hlog.same; rfl
  have hrtc : u.rtc = s.rtc.forward := by obtain ⟨_, _, _, rfl⟩ := hlog.same; rfl
  rw [endShift_of_no_slots _ _ _ (show (u.count 0x8044 1).mbx.slots = [] from hmbx ▸ hslots)]
  exact ⟨hrtc, hnest⟩

theorem regRead_second (p : Path) (s : State) : regRead p 0x8000 s = (rtcLatch p s, s.view 0x8000) := by
  unfold regRead calendarRead
  rw [if_neg (by decide), if_neg (by decide), if_neg (by decide), if_neg (by decide), if_neg (by decide), if_neg (by decide),
    if_neg (by decide), if_pos (by decide)]
  rfl

section
variable {s : State} (hup : s.up = true)
include hup

theorem rtcIncrement_powered (phase : Int) :
    (if s.draw.sys.powered then rtcIncrement phase s.draw else rtcTick s.draw) = rtcIncrement phase s.draw :=
  if_pos (State.up_iff.mp hup).1

theorem rtcIncrement_counts (phase : Int) (hhalt : s.rtc.halt = false) (hlost : s.rtc.lost = false) (hshift : s.rtc.shift = none) :
    Reaches (exec (.rtcIncrement phase) s) fun t =>
      t.rtc.cal = incSec s.rtc.cal ∧ t.rtc.incRev = s.rev ∧ t.total 0x8040 = s.total 0x8040 + 1 := by
  have htick := rtcTick_running (s := s.draw) hhalt hlost
  have hstill : ((rtcTick s.draw).count 0x8040 1).applyShift = (s.draw.setRtc (s.rtc.second s.rev)).count 0x8040 1 := by
    rw [htick]
    unfold State.applyShift
    rw [show ((s.draw.setRtc (s.draw.rtc.second s.draw.rev)).count 0x8040 1).rtc.shift = none from hshift]
    rfl
  obtain ⟨r, c, hjudge, hcal, -, hrev, hcnt⟩ := alignPhase_leaves ((s.draw.setRtc (s.rtc.second s.rev)).count 0x8040 1) phase
  have hrun := rtcIncrement_running (s := s.draw) phase hhalt hlost
  rw [hstill, hjudge] at hrun
  replace hrun := (rtcIncrement_powered hup phase).trans hrun
  refine (anyPower_ends (f := fun s => if s.sys.powered then rtcIncrement phase s else rtcTick s) hup hrun rfl).imp fun t ht => ?_
  rw [ht.rtc, ht.total _ (by decide)]
  exact ⟨hcal, hrev, (hcnt _ (by decide)).trans (State.total_count ..)⟩

theorem rtcIncrement_stands (phase : Int) (hstill : s.rtc.halt = true ∨ s.rtc.lost = true) :
    Reaches (exec (.rtcIncrement phase) s) fun t => t.rtc = s.rtc := by
  have hrun : _ = s.draw := (rtcIncrement_powered hup phase).trans (if_pos hstill)
  exact (anyPower_ends (f := fun s => if s.sys.powered then rtcIncrement phase s else rtcTick s) hup hrun rfl).imp
    fun t ht => ht.rtc

theorem rtcIncrement_shifts (phase : Int) (hhalt : s.rtc.halt = false) (hlost : s.rtc.lost = false)
    (hshift : s.rtc.shift = some true) (hslots : s.mbx.slots = []) : Reaches (exec (.rtcIncrement phase) s) fun t =>
      t.rtc.cal = incHour (incSec s.rtc.cal) ∧ t.rtc.shift = none := by
  have happly := applyShift_forward (s := (s.draw.setRtc (s.rtc.second s.rev)).count 0x8040 1) hshift hslots
  obtain ⟨hrtc, hnest⟩ := happly
  obtain ⟨r, c, hjudge, hcal, hnone, -, -⟩ :=
    alignPhase_leaves ((s.draw.setRtc (s.rtc.second s.rev)).count 0x8040 1).applyShift phase
  have hrun := rtcIncrement_running (s := s.draw) phase hhalt hlost
  rw [rtcTick_running (s := s.draw) hhalt hlost] at hrun
  replace hrun := (rtcIncrement_powered hup phase).trans (hrun.trans hjudge)
  rw [hrtc] at hcal hnone
  refine (anyPower_ends (f := fun s => if s.sys.powered then rtcIncrement phase s else rtcTick s) hup hrun hnest).imp fun t ht => ?_
  rw [ht.rtc]
  exact ⟨hcal, hnone⟩

/-! ### The latch (R427) -/

theorem rtcSecRead_latches (p : Path) : Reaches (exec (.rtcSecRead p) s) fun t =>
    (t.pathOf p).cal = some (s.rtc.cal, s.instant) ∧ t.hostp.dout = [s.draw.view 0x8000] := by
  have hrun := readWord_eq (regRead_second p s.draw)
  refine (live_ends (f := fun s => readWord p 0x8000 s) hup hrun rfl).imp fun t ht => ⟨?_, ht.dout⟩
  rw [State.pathOf, ht.paths]
  exact congrArg PathRec.cal (State.pathOf_setPath_self s.draw p _)

/-! ### The backup supply (R432 to R434) -/

theorem batSwitch_to (hoff : s.rtc.onBat = false) : Reaches (exec (.batSwitch true) s) fun t => t.rtc.onBat = true ∧
    t.rtc.swCount = Nat.min 255 (s.rtc.swCount + 1) ∧ t.rtc.fswValid = true := by
  obtain ⟨r, hrun, hon, hcount, hstamped⟩ : ∃ r, batSwitch true s.draw = s.draw.setRtc r ∧ r.onBat = true ∧
      r.swCount = Nat.min 255 (s.rtc.swCount + 1) ∧ r.fswValid = true := by
    unfold batSwitch
    rw [if_neg (by decide), if_neg (show ¬ s.draw.rtc.onBat = true from ne_true_of_eq_false hoff)]
    dsimp only
    split
    next hvalid => exact ⟨_, rfl, rfl, satNat_min .., hvalid⟩
    · exact ⟨_, rfl, rfl, satNat_min .., rfl⟩
  refine (anyPower_ends (f := fun s => batSwitch true s) hup hrun rfl).imp fun t ht => ?_
  rw [ht.rtc]
  exact ⟨hon, hcount, hstamped⟩

theorem batSwitch_back : Reaches (exec (.batSwitch false) s) fun t => t.rtc.onBat = false ∧ t.rtc.swCount = s.rtc.swCount := by
  have hrun : batSwitch false s.draw = s.draw.setRtc { s.draw.rtc with onBat := false } := rfl
  refine (anyPower_ends (f := fun s => batSwitch false s) hup hrun rfl).imp fun t ht => ?_
  rw [ht.rtc]
  exact ⟨rfl, rfl⟩

theorem batMeasurement_shows {mv : Nat} (hmv : mv < 4096) : Reaches (exec (.batMeasurement mv) s) fun t => t.rtc.batMv = mv ∧
    t.rtc.lowBackup = (s.rtc.lowBackup || decide (mv < 2500)) ∧
    t.rtc.lost = (s.rtc.lost || (decide (mv < 2000) && s.rtc.onBat)) := by
  obtain ⟨u, hrun, hmeasured, hlow, hlost, hnest⟩ : ∃ u : State, batMeasurement mv s.draw = u ∧ u.rtc.batMv = mv ∧
      u.rtc.lowBackup = (s.rtc.lowBackup || decide (mv < 2500)) ∧
      u.rtc.lost = (s.rtc.lost || (decide (mv < 2000) && s.rtc.onBat)) ∧ u.flt.nest = s.flt.nest := by
    have hsat : satNat 4095 mv = mv := if_neg (by omega)
    refine ⟨_, rfl, ?_⟩
    unfold batMeasurement
    dsimp only
    split
    · have haside := report_aside (pair := true) (s.draw.setRtc { s.draw.rtc with
        batMv := satNat 4095 mv, lowBackup := s.draw.rtc.lowBackup || decide (mv < 2500)
        lost := s.draw.rtc.lost || (decide (mv < 2000) && s.draw.rtc.onBat)
        lowDue := s.draw.rtc.lowDue || ((decide (mv < 2500) && !s.draw.rtc.lowBackup) && !s.draw.sys.powered) }) (cls := .warn) 16 4 0xFF mv
        (by decide)
      rw [haside.rtc]
      exact ⟨hsat, rfl, rfl, haside.nest⟩
    · exact ⟨hsat, rfl, rfl, rfl⟩
  refine (anyPower_ends (f := fun s => batMeasurement mv s) hup hrun hnest).imp fun t ht => ?_
  rw [ht.rtc]
  exact ⟨hmeasured, hlow, hlost⟩

end

/-! ### The backup domain initialised (R434) -/

/-- The calendar as R434 initialises it, its INIT reported. -/
def Rtc.initial (r : Rtc) : Rtc := { r with
  cal := [0x00, 0x00, 0x00, 0x06, 0x01, 0x01, 0x00, 0x20], halt := false, lowBackup := true, onBat := false
  swCount := 0, fswValid := false, fswLo := 0, fswHi := 0, batMv := 0, shift := none, lost := false, initDue := false, lowDue := false }

theorem rtcInit_shows {s : State} (hp : s.sys.powered = true) :
    (rtcInit s).rtc = s.rtc.initial ∧ (rtcInit s).sq 16 5 = true := by
  have hrun : rtcInit s = ((s.setRtc s.rtc.initial).reportBare .warn 16 5 0xFF).setSQ 16 4 := if_pos hp
  have hlog := (reportBare_logOnly (s.setRtc s.rtc.initial) .warn 16 5 0xFF).setSQ 16 4
  rw [hrun]
  refine ⟨?_, ((LogOnly.refl _).setSQ 16 4).sq 16 5 (reportBare_sq _ .warn 16 5 0xFF)⟩
  obtain ⟨_, _, _, e⟩ := hlog.same
  rw [e]
  rfl

/-- A battery-backed root lost leaves the calendar and clears no SQ field (R434, R443). -/
theorem backupRootLost_leaves (s : State) : s.backupRootLost.rtc = s.rtc ∧ ∀ b i, b ≠ 2 → s.sq b i = true → s.backupRootLost.sq b i = true := by
  have hlose : ∀ u : State, u.loseRoot.rtc = u.rtc ∧ SysStands u u.loseRoot := fun u => by
    unfold State.loseRoot
    split
    · exact ⟨rfl, .refl u⟩
    · have hlog := reportBare_logOnly (u.setKey { u.key with rootLost := true }) .critical 17 6 0xFF
      have hclose := closeAll_aside (pair := true) ((u.setKey { u.key with rootLost := true }).reportBare .critical 17 6 0xFF)
      have hlost : SysStands u (u.setKey { u.key with rootLost := true }) := .of_stat rfl rfl
      refine ⟨hclose.rtc.trans ?_, (hlost.trans hlog.sysStands).trans (closeAll_sysStands _)⟩
      obtain ⟨_, _, _, e⟩ := hlog.same
      rw [e]
      rfl
  unfold State.backupRootLost
  dsimp only
  split
  · exact ⟨(hlose _).1, fun b i hb h => (hlose _).2.sq b i hb h⟩
  · exact ⟨rfl, fun _ _ _ h => h⟩

/-- What a nested CRITICAL brings about leaves the calendar and clears no SQ field outside the ledger's block (R62, R495). -/
theorem afterNest_leaves (s : State) : s.afterNest.rtc = s.rtc ∧ ∀ b i, b ≠ 2 → s.sq b i = true → s.afterNest.sq b i = true := by
  unfold State.afterNest
  split
  · exact ⟨controlStop_rtc s, (controlStop_stops s).2⟩
  · exact ⟨rfl, fun _ _ _ h => h⟩

theorem init_reaches {s : State} (hup : s.up = true) : Reaches (exec .init s) fun t =>
    t.rtc.cal = [0x00, 0x00, 0x00, 0x06, 0x01, 0x01, 0x00, 0x20] ∧ t.rtc.halt = false ∧
      t.rtc.lowBackup = true ∧ t.rtc.swCount = 0 ∧ t.rtc.fswValid = false ∧ t.sq 16 5 = true := by
  obtain ⟨hp, -⟩ := State.up_iff.mp hup
  have hinit := rtcInit_shows (s := s.draw) hp
  have hroot := backupRootLost_leaves (rtcInit s.draw)
  have hnest := afterNest_leaves (rtcInit s.draw).backupRootLost
  refine ⟨_, rfl, ?_⟩
  dsimp only
  rw [if_pos hp, State.outside_rtc, settle_rtc, State.outside_sq, settle_sq _ _ (by simp)]
  rw [hnest.1, hroot.1, hinit.1]
  exact ⟨rfl, rfl, rfl, rfl, rfl, hnest.2 16 5 (by decide) (hroot.2 16 5 (by decide) hinit.2)⟩

/-- The calendar of a module without supply counts on (R425, R428). -/
theorem rtcIncrement_unpowered {s : State} (phase : Int) (hp : s.sys.powered = false) (hhalt : s.rtc.halt = false)
    (hlost : s.rtc.lost = false) : Reaches (exec (.rtcIncrement phase) s) fun t => t.rtc.cal = incSec s.rtc.cal := by
  refine ⟨_, rfl, ?_⟩
  dsimp only
  rw [if_neg (ne_true_of_eq_false hp), State.outside_rtc, if_neg (show ¬ s.draw.sys.powered = true from ne_true_of_eq_false hp), rtcTick_running (s := s.draw) hhalt hlost]
  rfl

end Sys2Proof.Machine

open Sys2Proof.Machine

/-- Settles O17: the seconds and shifts, the latch, the four seconds at a carry by evaluation, and the backup supply. -/
theorem calendarCounts : Obligations.CalendarCounts :=
  ⟨fun _ hup => ⟨fun ph hhalt hlost hshift => rtcIncrement_counts hup ph hhalt hlost hshift, fun ph hstill => rtcIncrement_stands hup ph hstill,
      fun ph hhalt hlost hshift hslots => rtcIncrement_shifts hup ph hhalt hlost hshift hslots, fun p => rtcSecRead_latches hup p⟩,
    fun _ ph hp hhalt hlost => rtcIncrement_unpowered ph hp hhalt hlost,
    by decide,
    fun _ hup => ⟨batSwitch_to hup, batSwitch_back hup, fun _ hmv => batMeasurement_shows hup hmv, init_reaches hup⟩⟩
end

section
/-! SUPPORT. What stands aside while a member of a pair takes a packet of its partner (R404, R407 to R409). -/
namespace Sys2Proof.Machine

/-! ### Registers and windows applied (R44, R94, R129) -/

theorem noteOut_aside (s : State) (f : SyncChange → SyncChange) : Aside false s (s.noteOut f) := by
  unfold State.noteOut
  exact ite_aside (.of_same Bool.noConfusion rfl rfl rfl rfl rfl rfl) (.refl s)

theorem noteWrites_aside (s : State) (l : List Shadow) : Aside false s (s.noteWrites l) := noteOut_aside s _

theorem applyReg_aside (s : State) (off : Nat) (w : W32) : Aside false s (s.applyReg off w) := .of_same Bool.noConfusion rfl rfl rfl rfl rfl rfl

theorem setQ_aside (s : State) (n : Nat) (q : Queue) : Aside false s (s.setQ n q) := .of_same Bool.noConfusion rfl rfl rfl rfl rfl rfl

theorem setSync_aside (s : State) (x : SyncState) : Aside false s (s.setSync x) := by
  unfold State.setSync
  exact ite_aside (.refl s) (.of_same Bool.noConfusion rfl rfl rfl rfl rfl rfl)

theorem groupsChanged_aside (s : State) (old : W32) : Aside false s (s.groupsChanged old) := by
  refine foldl_aside _ (fun t g => ite_aside (.refl t) ?_) _ s
  refine Aside.trans (t := t.setGrp g { out := (t.fgrp g).out, newPending := (t.fgrp g).newPending }) (.of_same Bool.noConfusion rfl rfl rfl rfl rfl rfl) ?_
  refine foldl_aside _ (fun u k => ?_) _ _
  exact .of_same Bool.noConfusion rfl rfl rfl rfl rfl rfl

theorem fansChanged_aside (s : State) (old : W32) : Aside false s (s.fansChanged old) := by
  refine foldl_aside _ (fun t c => ite_aside (.refl t) (ite_aside (setFan_aside t c _) ?_)) _ s
  exact ((setFan_aside t c _).trans (setFan_aside _ c _)).trans (fromStopped_aside _ c)

theorem closeDisabled_aside (s : State) : Aside false s s.closeDisabled :=
  foldl_aside _ (fun t n => ite_aside (.refl t) (closeSession_aside t n)) _ s

theorem clearTx_aside (s : State) (n : Nat) : Aside false s (s.clearTx n) := by
  unfold State.clearTx
  exact ite_aside (.of_same Bool.noConfusion rfl rfl rfl rfl rfl rfl) (.refl s)

theorem afterApply_aside (s : State) (off : Nat) (old : W32) : Aside false s (s.afterApply off old) := by
  unfold State.afterApply
  refine ite_aside (.of_same Bool.noConfusion rfl rfl rfl rfl rfl rfl) (ite_aside (ite_aside (.refl s) (setSync_aside s _)) ?_)
  refine ite_aside (groupsChanged_aside s old) (ite_aside (fansChanged_aside s old) (ite_aside (closeDisabled_aside s) ?_))
  refine ite_aside (ite_aside (.refl s) ((setQ_aside s _ _).trans (clearTx_aside _ _))) ?_
  exact ite_aside (ite_aside (.refl s) (.of_same Bool.noConfusion rfl rfl rfl rfl rfl rfl)) (.refl s)

theorem applyPlain_aside (s : State) (e : Shadow) : Aside false s (s.applyPlain e) :=
  (applyReg_aside s _ _).trans (afterApply_aside _ _ _)

theorem applyMap_aside (s : State) (e : Shadow) : Aside false s (s.applyMap e) := by
  unfold State.applyMap
  refine ite_aside (setSQ_aside s 3 4) (Aside.trans ?_ (count_aside _ 1 (by decide)))
  exact .of_same Bool.noConfusion rfl rfl rfl rfl rfl rfl

theorem applyLedgerWord_aside (s : State) (e : Shadow) : Aside false s (s.applyLedgerWord e) := by
  unfold State.applyLedgerWord
  exact ite_aside (.of_same Bool.noConfusion rfl rfl rfl rfl rfl rfl) (.of_same Bool.noConfusion rfl rfl rfl rfl rfl rfl)

/-! ### Loops (R113, R388) -/

theorem endsTest_aside (s : State) (n : Nat) : Aside false s (match s.spotOf n with | some k => s.endSpot k 2 | none => s) := by
  split
  · exact endSpot_aside s _ 2
  · exact .refl s

theorem switchesTest_aside (s : State) (n : Nat) (c : Prop) [Decidable c] :
    Aside false s (match s.spotOf n with | some k => if c then s else s.endSpot k 2 | none => s) := by
  split
  · exact ite_aside (.refl s) (endSpot_aside s _ 2)
  · exact .refl s

theorem applyMode_aside (s : State) (n m : Nat) (manOut : W32) : Aside false s (s.applyMode n m manOut) := by
  unfold State.applyMode
  extract_lets c old c' c'' t1 t2 t3 t4 src
  refine ite_aside (.refl s) ?_
  have h2 : Aside false s t2 := ite_aside (setCtx_aside s n _) ((setCtx_aside s n _).trans (count_aside t1 1 (by decide)))
  have h3 : Aside false t2 t3 := ite_aside (dropWriter_aside t2 _) (.refl t2)
  have h4 : Aside false t3 t4 := switchesTest_aside t3 n _
  exact ite_aside (((h2.trans h3).trans h4).trans (setCtx_aside t4 n _)) ((h2.trans h3).trans h4)

theorem applyLoad_aside (s : State) (n : Nat) (ws : List W32) : Aside false s (s.applyLoad n ws) := by
  unfold State.applyLoad
  extract_lets ws c t old counted dropped
  have ht : Aside false s t := endsTest_aside s n
  have hcounted : Aside false s counted := ite_aside (ht.trans (count_aside t 1 (by decide))) ht
  have hdropped : Aside false s dropped := ite_aside (hcounted.trans (dropWriter_aside counted _)) hcounted
  exact hdropped.trans (setCtx_aside _ n _)

theorem emptyCtx_aside (s : State) (n : Nat) : Aside false s (s.emptyCtx n) :=
  ((endsTest_aside s n).trans (dropWriter_aside _ _)).trans (setCtx_aside _ n _)

theorem applyCtxWrites_aside (s : State) (n : Nat) (l : List Shadow) : Aside false s (s.applyCtxWrites n l) := by
  have hrefused : Aside false s ((s.setSQ 5 6).count 0x28BC 1) := setSQ_count_aside s 5 6 1 (by decide)
  unfold State.applyCtxWrites
  extract_lets c base new new' re kept src t
  have ht : Aside false s t := (setCtx_aside s n _).trans (count_aside _ _ (by decide))
  refine ite_aside (ite_aside (emptyCtx_aside s n) (.refl s)) (ite_aside (ite_aside ?_ hrefused) (ite_aside hrefused ?_))
  · exact (applyLoad_aside s n _).trans (count_aside _ _ (by decide))
  · exact ite_aside ht (ht.trans (applyMode_aside t n _ _))

/-! ### The application of a list of writes -/

theorem applyEntry_aside (s : State) (i : Nat) (l : List Shadow) : Aside false s (s.applyEntry i l) := by
  unfold State.applyEntry
  refine ite_aside (setSQ_aside s 11 1) (Aside.trans ?_ (count_aside _ _ (by decide)))
  exact .of_same Bool.noConfusion rfl rfl rfl rfl rfl rfl

theorem applyIf_aside (s : State) (i : Nat) (l : List Shadow) : Aside false s (s.applyIf i l) := by
  unfold State.applyIf
  refine ite_aside (setSQ_aside s 12 2) (Aside.trans ?_ (count_aside _ _ (by decide)))
  exact .of_same Bool.noConfusion rfl rfl rfl rfl rfl rfl

theorem applyShadows_aside (s : State) (l : List Shadow) : Aside false s (s.applyShadows l) := by
  unfold State.applyShadows
  extract_lets s0 plain ledger s1 s2 s3 ctx s4 ent s5 ifs
  have h1 : Aside false s s1 := ((noteWrites_aside s l).trans (count_aside s0 _ (by decide))).trans (foldl_aside _ applyPlain_aside _ _)
  have h3 : Aside false s1 s3 := (foldl_aside _ applyMap_aside _ s1).trans (foldl_aside _ applyLedgerWord_aside _ s2)
  have h4 : Aside false s3 s4 := foldl_aside _ (fun t k => applyCtxWrites_aside t _ _) _ s3
  have h5 : Aside false s4 s5 := foldl_aside _ (fun t k => applyEntry_aside t k _) _ s4
  exact (((h1.trans h3).trans h4).trans h5).trans (foldl_aside _ (fun t k => applyIf_aside t k _) _ s5)

theorem setFch_aside (s : State) (k : Nat) (x : FioCh) : Aside false s (s.setFch k x) := .of_same Bool.noConfusion rfl rfl rfl rfl rfl rfl

theorem takeSetting_aside (s : State) (off : Nat) (v : W32) : Aside false s (s.takeSetting off v) := by
  unfold State.takeSetting
  extract_lets k old rm t c
  have ht : Aside false s t := (applyReg_aside s off v).trans (noteWrites_aside _ _)
  exact ite_aside (ht.trans (setFch_aside t k _)) (ite_aside ht (ht.trans (setFch_aside t k _)))

/-! ### Points, images and forces (R71, R87, R144, R160) -/

theorem takeConf_aside (s : State) (c : SyncConf) (ts : Stamp) : Aside false s (s.takeConf c ts) := by
  unfold State.takeConf
  extract_lets p t r u n n' n''
  have ht : Aside false s t := verifyRead_aside s p
  have hu : Aside false s u := ite_aside (ht.trans (count_aside t 1 (by decide))) ht
  exact (hu.trans (writeRec_aside u p _)).trans (count_aside _ 1 (by decide))

theorem markOrphans_aside (s : State) : Aside false s s.markOrphans := by
  refine foldl_aside _ (fun t e => ite_aside (.refl t) ?_) _ s
  extract_lets _ _ u _ v
  have hu : Aside false t u := .of_same Bool.noConfusion rfl rfl rfl rfl rfl rfl
  have hv : Aside false t v := hu.trans (writeRec_aside u _ _)
  exact ite_aside ((hv.trans (report_aside v 6 4 0xFF _ (by decide))).trans (count_aside _ 1 (by decide))) hv

theorem placeTasks_aside (s : State) (ts : List Task) : Aside false s (s.placeTasks ts) := by
  refine foldl_aside _ (fun t e => ?_) _ s
  exact .of_same Bool.noConfusion rfl rfl rfl rfl rfl rfl

theorem releases_aside (s : State) (old : Option Image) (new : Image) : Aside false s (match old with
    | some o => { s with crsl := { s.crsl with releaseSafe := s.crsl.releaseSafe ++ releaseSafe o new } }
    | none => s) := by
  split
  · exact .of_same Bool.noConfusion rfl rfl rfl rfl rfl rfl
  · exact .refl s

theorem switchImage_aside (s : State) (booth : Nat) (new : Image) : Aside false s (s.switchImage booth new) := by
  unfold State.switchImage
  extract_lets old oldIdx s1 _ s2 s3 _ s4 _ s5
  have h1 : Aside false s s1 := foldl_aside _ (fun t i => dropWriter_aside t _) _ s
  have h2 : Aside false s1 s2 := .of_same Bool.noConfusion rfl rfl rfl rfl rfl rfl
  have hretired : Aside false s2 (s2.retireTasks booth) := .of_same Bool.noConfusion rfl rfl rfl rfl rfl rfl
  have h3 : Aside false s2 s3 := hretired.trans (placeTasks_aside _ _)
  have h4 : Aside false s3 s4 := .of_same Bool.noConfusion rfl rfl rfl rfl rfl rfl
  have h5 : Aside false s4 s5 := releases_aside s4 old new
  exact ((((h1.trans h2).trans (h3.trans h4)).trans h5).trans (markOrphans_aside s5)).trans (noteOut_aside _ _)

theorem takeStage_aside (s : State) (x : SyncStage) : Aside false s (s.takeStage x) := .of_same Bool.noConfusion rfl rfl rfl rfl rfl rfl

theorem chargeForce_aside (s : State) (p : Nat) (v : W64) : Aside false s (s.chargeForce p v) := by
  unfold State.chargeForce
  refine ite_aside (.refl s) (ite_aside (dropReq_aside s p) ((dropReq_aside s p).trans ?_))
  exact .of_same Bool.noConfusion rfl rfl rfl rfl rfl rfl

theorem enterForce_aside (s : State) (p : Nat) (v : W64) (setter : Byte) (i : Nat) (ts : Stamp) :
    Aside false s (s.enterForce p v setter i ts) := by
  unfold State.enterForce
  extract_lets old e _ t
  have ht : Aside false s t := .of_same Bool.noConfusion rfl rfl rfl rfl rfl rfl
  exact (ht.trans (chargeForce_aside t p v)).trans (writeRec_aside _ p _)

theorem leaveForce_aside (s : State) (p : Nat) (ts : Stamp) : Aside false s (s.leaveForce p ts) := .of_same Bool.noConfusion rfl rfl rfl rfl rfl rfl

theorem takeForce_aside (s : State) (f : SyncForce) : Aside false s (s.takeForce f) := by
  have hread : Aside false s (s.verifyRead f.point) := verifyRead_aside s f.point
  unfold State.takeForce
  dsimp only
  split
  · split
    · exact hread.trans (enterForce_aside _ _ _ _ _ _)
    · exact hread
  · exact ite_aside (hread.trans (leaveForce_aside _ _ _)) hread

/-! ### A packet (R407 to R409) -/

theorem applyChanges_aside (s : State) (c : SyncChange) : Aside false s (s.applyChanges c) := by
  unfold State.applyChanges
  extract_lets ws s1 s2 s3 s4 s5 _ s6 s7 s8
  have h2 : Aside false s s2 := (applyShadows_aside s _).trans (foldl_aside _ (fun t e => takeSetting_aside t _ _) _ s1)
  have h3 : Aside false s2 s3 := foldl_aside _ (fun t x => takeConf_aside t x _) _ s2
  have h4 : Aside false s3 s4 := foldl_aside _ (fun t x => (applyLoad_aside t _ _).trans (markOrphans_aside _)) _ s3
  have h5 : Aside false s4 s5 := foldl_aside _ (fun t x => applyMode_aside t _ _ _) _ s4
  have h6 : Aside false s5 s6 := .of_same Bool.noConfusion rfl rfl rfl rfl rfl rfl
  have h7 : Aside false s6 s7 := foldl_aside _ (fun t x => switchImage_aside t _ _) _ s6
  have h8 : Aside false s7 s8 := foldl_aside _ takeStage_aside _ s7
  exact (((((h2.trans h3).trans h4).trans h5).trans h6).trans (h7.trans h8)).trans (foldl_aside _ takeForce_aside _ s8)

theorem setLive_aside (s : State) (i : Nat) (v : W64) : Aside false s (s.setLive i v) := by
  unfold State.setLive
  split
  · exact .of_same Bool.noConfusion rfl rfl rfl rfl rfl rfl
  · exact .refl s

theorem supply_aside (s : State) (p : Nat) (v : W64) (q : Byte) (ts phase : Stamp) : Aside false s (s.supply p v q ts phase) := by
  unfold State.supply
  extract_lets t r _ u w
  have hu : Aside false s u := (verifyRead_aside s p).trans (.of_same Bool.noConfusion rfl rfl rfl rfl rfl rfl)
  have hw : Aside false s w := hu.trans (setLive_aside u _ v)
  exact ite_aside (ite_aside hw (hw.trans (writeRec_aside w p _))) (hu.trans (writeRec_aside u p _))

theorem setTrap_aside (s : State) (t : Trap) : Aside false s (s.setTrap t) := .of_same Bool.noConfusion rfl rfl rfl rfl rfl rfl

theorem noteDiffs_aside (s : State) (l : List Nat) : Aside false s (s.noteDiffs l) := by
  unfold State.noteDiffs
  extract_lets runs _ t
  have ht : Aside false s t := (setTrap_aside s _).trans (count_aside _ _ (by decide))
  exact ht.trans (foldl_aside _ (fun u e => report_aside u 15 6 _ _ (by decide)) _ t)

theorem adoptMove_aside (s : State) (p : Nat) (v : W64) (q : Byte) : Aside false s (s.adoptMove p v q) := by
  unfold State.adoptMove
  exact ite_aside (.refl s) (writeRec_aside s p _)

theorem comparesMoves_aside (s : State) (own : Option (List OwnMove)) (ms : List SyncMove) : Aside false s (match own with
    | some o => if s.trap.role = .standby then s.noteDiffs (s.mirrorDiffs o ms) else s
    | none => s) := by
  split
  · exact ite_aside (noteDiffs_aside s _) (.refl s)
  · exact .refl s

theorem mirrorMoves_aside (s : State) (rev : Nat) (ms : List SyncMove) : Aside false s (s.mirrorMoves rev ms) := by
  unfold State.mirrorMoves
  extract_lets own t u
  have ht : Aside false s t := comparesMoves_aside s own ms
  have hu : Aside false t u := foldl_aside _ (fun t m => adoptMove_aside t _ _ _) _ t
  exact (ht.trans hu).trans (foldl_aside _ (fun t o => ite_aside (.refl t) (adoptMove_aside t _ _ _)) _ u)

theorem takeLedger_aside (s : State) (p : SyncPacket) (lag : Nat) : Aside false s (s.takeLedger p lag) := .of_same Bool.noConfusion rfl rfl rfl rfl rfl rfl

theorem joinReg_aside (regs : Sparse W32) (s : State) (off : Nat) : Aside false s (State.joinReg regs s off) := by
  unfold State.joinReg
  exact ite_aside (.refl s) (applyPlain_aside s _)

theorem takeJoin_aside (s : State) (j : SyncJoin) : Aside false s (s.takeJoin j) := by
  unfold State.takeJoin
  extract_lets offs t syms _ _ _ _ _ _ u
  have ht : Aside false s t := foldl_aside _ (joinReg_aside j.regs) _ s
  have hu : Aside false t u := .of_same Bool.noConfusion rfl rfl rfl rfl rfl rfl
  exact ((ht.trans hu).trans (foldl_aside _ (fun t c => takeConf_aside t c _) _ u)).trans (.of_same Bool.noConfusion rfl rfl rfl rfl rfl rfl)

end Sys2Proof.Machine
end

section
/-! SUPPORT. Chapter 15: what a member of a pair hears (O54). -/
namespace Sys2Proof.Machine

/-! ### Frames of the pair (R405, R412) -/

/-- `t` is `s` but for frames given to ports and buses, and the counters of the ports. -/
structure FramesGiven (s t : State) : Prop where
  same : ∃ ca n c, t = { s with can := ca, net := n, cnt := c }
  total : ∀ o, asideCounter o = true → t.total o = s.total o

theorem FramesGiven.trans {s t u : State} (h : FramesGiven s t) (k : FramesGiven t u) : FramesGiven s u := by
  refine ⟨?_, fun o ho => (k.total o ho).trans (h.total o ho)⟩
  obtain ⟨_, _, _, rfl⟩ := h.same
  obtain ⟨_, _, _, rfl⟩ := k.same
  exact ⟨_, _, _, rfl⟩

theorem send_given (s : State) {p : Nat} (f : List Byte) (hp : p < 4) : FramesGiven s (s.send p f) := by
  obtain ⟨n, c, e, -, hcnt⟩ := send_books s p f
  rw [e]
  refine ⟨⟨s.can, n, c, rfl⟩, fun o ho => hcnt o ?_ ?_⟩ <;>
  · have := of_decide_eq_true ho
    unfold portCounter
    omega

theorem sendRing_given (s : State) (dest : Nat) (payload : List Byte) : FramesGiven s (s.sendRing dest payload) :=
  (send_given s _ (by decide)).trans (send_given _ _ (by decide))

theorem sendPair_given (s : State) (ident : BitVec 29) : FramesGiven s (s.sendPair ident) := by
  unfold State.sendPair
  extract_lets f bus _ t
  exact FramesGiven.trans (t := t) ⟨⟨_, _, _, rfl⟩, fun _ _ => rfl⟩ (sendRing_given t _ _)

/-- A query forgets the replies of the last one and is counted (R412). -/
theorem query_shows (s : State) : ∃ u : State, s.query = u.count 0x78A0 1 ∧ FramesGiven (s.setTrap { s.trap with replies := [], barred := false }) u :=
  ⟨_, rfl, sendPair_given _ _⟩

/-- A pair record that enters DECIDING at time `now` (R406). -/
def Trap.decides (t : Trap) (now : Nat) : Trap := { t with role := .deciding, decideNs := now }

/-- The pair record at a query (R412). -/
def Trap.queried (t : Trap) : Trap := { t with replies := [], barred := false }

/-- DECIDING entered: TAKEOVER shown, the take-over and its first query counted (R406). -/
theorem enterDeciding_shows (s : State) : s.enterDeciding.trap = (s.trap.decides s.crsl.upNs).queried ∧
    s.enterDeciding.sq 15 2 = true ∧ s.enterDeciding.total 0x789C = s.total 0x789C + 1 ∧
    s.enterDeciding.total 0x78A0 = s.total 0x78A0 + 1 ∧ s.enterDeciding.flt.nest = s.flt.nest := by
  have hrun : s.enterDeciding = (((s.setTrap (s.trap.decides s.crsl.upNs)).reportBare .warn 15 2 0xFF).count 0x789C 1).query := rfl
  have haside : Aside true (s.setTrap (s.trap.decides s.crsl.upNs)) ((s.setTrap (s.trap.decides s.crsl.upNs)).reportBare .warn 15 2 0xFF) :=
    report_aside _ 15 2 0xFF _ (by decide)
  have hsq := reportBare_sq (s.setTrap (s.trap.decides s.crsl.upNs)) .warn 15 2 0xFF
  rw [hrun]
  generalize (s.setTrap (s.trap.decides s.crsl.upNs)).reportBare .warn 15 2 0xFF = v at haside hsq
  obtain ⟨u, hquery, hgiven⟩ := query_shows (v.count 0x789C 1)
  have htotal := hgiven.total
  rw [hquery]
  obtain ⟨_, _, c, rfl⟩ := hgiven.same
  refine ⟨congrArg Trap.queried (haside.trap rfl), hsq, ?_, ?_, haside.nest⟩
  · rw [State.total_count_ne _ 1 (by decide), htotal _ (by decide)]
    exact (State.total_count v 0x789C 1).trans (congrArg (· + 1) (haside.total _ (by decide)))
  · rw [State.total_count, htotal _ (by decide)]
    exact congrArg (· + 1) ((v.total_count_ne 1 (by decide)).trans (haside.total _ (by decide)))

/-! ### Roles (R402, R415 to R417) -/

theorem dropServices_aside (s : State) : Aside true s s.dropServices := by
  unfold State.dropServices
  refine Aside.trans (foldl_aside (fun (s : State) i => s.tunnelClose i) tunnelClose_aside (List.range 4) s) ?_
  generalize (List.range 4).foldl (fun (s : State) i => s.tunnelClose i) s = u
  exact .of_same (fun _ => rfl) rfl rfl rfl rfl rfl rfl

theorem shiftTimers_aside (s : State) (k : Int) : Aside true s (s.shiftTimers k) := by
  unfold State.shiftTimers
  exact ite_aside (.refl s) (.of_same (fun _ => rfl) rfl rfl rfl rfl rfl rfl)

theorem Aside.weaken {s t : State} (h : Aside true s t) : Aside false s t :=
  ⟨Bool.noConfusion, h.rev, h.rtc, h.key, h.dbg, h.nest, h.total⟩

/-- SYNCING entered: the role and what counts its joining; the partner heard stays (R402, R408). -/
theorem enterSyncing_leaves (s : State) : Aside false s s.enterSyncing ∧ s.enterSyncing.trap.partner = s.trap.partner ∧
    s.enterSyncing.trap.role = .syncing ∧ s.enterSyncing.trap.joined = 0 := by
  unfold State.enterSyncing
  extract_lets delta t
  have ht : Aside true s t := ((shiftTimers_aside s _).trans (dropServices_aside _)).trans (endSpots_aside _ 5)
  clear_value t
  exact ⟨ht.weaken.trans (setTrap_aside t _), (congrArg Trap.partner (ht.trap rfl) :), rfl, rfl⟩

theorem gapQuality_aside (s : State) : Aside true s s.gapQuality := by
  unfold State.gapQuality
  exact ite_aside (foldl_aside _ (fun t e => setQuality_aside t _ _ _) _ s) (.refl s)

/-- CATCHING entered in the revolution in progress (R415). -/
theorem enterCatching_leaves (s : State) : Aside false s s.enterCatching ∧
    s.enterCatching.trap = { s.trap with role := .catching, journalled := false, claimed := false, catchRev := s.rev } := by
  have hgap := gapQuality_aside (s.setTrap { s.trap with role := .catching, journalled := false, claimed := false, catchRev := s.rev })
  exact ⟨(setTrap_aside s _).trans hgap.weaken, hgap.trap rfl⟩

/-- A yield's CRITICAL finds none in handling (R417, R495). -/
theorem yieldPair_leaves {s : State} (hcalm : s.calm = true) :
    Aside false s s.yieldPair ∧ s.yieldPair.trap = { s.trap with yieldDue := true } ∧ (s.trap.yieldDue = false → s.yieldPair.sq 15 7 = true) := by
  have hlog := reportBare_logOnly (s.setTrap { s.trap with yieldDue := true }) .critical 15 7 0xFF
  have hnest : ((s.setTrap { s.trap with yieldDue := true }).reportBare .critical 15 7 0xFF).flt.nest = s.flt.nest :=
    (raise_critical_calm ((s.setTrap { s.trap with yieldDue := true }).setSQ 15 7) 15 7 0xFF _ hcalm).2.1
  have htotal := fun o => State.reportBare_total_low (s.setTrap { s.trap with yieldDue := true }) .critical 15 7 0xFF (o := o)
  have hsq := reportBare_sq (s.setTrap { s.trap with yieldDue := true }) .critical 15 7 0xFF
  unfold State.yieldPair
  split
  next hdue =>
    refine ⟨.refl s, ?_, fun h => absurd (hdue.symm.trans h) (by decide)⟩
    rw [← hdue]
  next =>
    generalize (s.setTrap { s.trap with yieldDue := true }).reportBare .critical 15 7 0xFF = u at hlog hnest htotal hsq
    obtain ⟨_, _, _, rfl⟩ := hlog.same
    exact ⟨⟨Bool.noConfusion, rfl, rfl, rfl, rfl, hnest, fun o ho => htotal o (by have := of_decide_eq_true ho; omega)⟩, rfl, fun _ => hsq⟩

/-- The pair record of a primary that handed over, at a higher EPOCH in a revolution of the pair (R416). -/
def Trap.handedOver (t : Trap) (epoch : W32) (rev : Nat) : Trap := { t with
  role := .standby, relinquish := none, epoch, based := true, lastSyncRev := rev, mcRuns := [], moved := [], out := {} }

/-- A primary that has handed over becomes STANDBY on a higher EPOCH (R416). -/
theorem higherEpoch_relinquishing {s : State} (epoch : W32) (hrole : s.trap.role = .primary) (hsome : s.trap.relinquish.isSome = true) :
    Aside false s (s.higherEpoch epoch) ∧ (s.higherEpoch epoch).trap = s.trap.handedOver epoch s.pairRev := by
  have ht : Aside true s (s.dropServices.endSpots 5) := (dropServices_aside s).trans (endSpots_aside _ 5)
  have hrun : s.higherEpoch epoch = (s.dropServices.endSpots 5).setTrap ((s.dropServices.endSpots 5).trap.handedOver epoch
      (s.dropServices.endSpots 5).pairRev) := (if_pos hrole).trans (if_pos hsome)
  have hrev : (s.dropServices.endSpots 5).pairRev = s.pairRev := by
    unfold State.pairRev
    rw [ht.trap rfl, ht.rev]
  rw [hrun, hrev, ht.trap rfl]
  exact ⟨ht.weaken.trans (setTrap_aside _ _), rfl⟩

theorem higherEpoch_other {s : State} (epoch : W32) (hrole : s.trap.role ≠ .primary) :
    s.higherEpoch epoch = s.setTrap { s.trap with epoch } := if_neg hrole

/-- A primary that has not handed over yields to a higher EPOCH (R417). -/
theorem higherEpoch_yields {s : State} (epoch : W32) (hrole : s.trap.role = .primary) (hnone : s.trap.relinquish = none) :
    s.higherEpoch epoch = s.yieldPair :=
  (if_pos hrole).trans (if_neg (by rw [hnone]; decide))

/-! ### A heartbeat (R405, R406) -/

/-- `t` is `s` with another role at most: the partner heard, and what stands aside (R405). -/
def Hearing (s t : State) : Prop := Aside false s t ∧ t.trap.partner = s.trap.partner

theorem Hearing.refl (s : State) : Hearing s s := ⟨.refl s, rfl⟩

theorem Hearing.trans {s t u : State} (h : Hearing s t) (k : Hearing t u) : Hearing s u := ⟨h.1.trans k.1, k.2.trans h.2⟩

theorem ite_hearing {s t u : State} {c : Prop} [Decidable c] (ht : Hearing s t) (hu : Hearing s u) : Hearing s (if c then t else u) := by
  split
  · exact ht
  · exact hu

theorem yieldPair_hearing {s : State} (hcalm : s.calm = true) : Hearing s s.yieldPair :=
  have h := yieldPair_leaves hcalm
  ⟨h.1, (congrArg Trap.partner h.2.1 :)⟩

theorem higherEpoch_hearing {s : State} (epoch : W32) (hcalm : s.calm = true) : Hearing s (s.higherEpoch epoch) := by
  by_cases hrole : s.trap.role = .primary
  · cases hr : s.trap.relinquish with
    | none => rw [higherEpoch_yields epoch hrole hr]; exact yieldPair_hearing hcalm
    | some b =>
      obtain ⟨haside, htrap⟩ := higherEpoch_relinquishing epoch hrole (by rw [hr]; rfl)
      exact ⟨haside, (congrArg Trap.partner htrap :)⟩
  · rw [higherEpoch_other epoch hrole]
    exact ⟨setTrap_aside s _, rfl⟩

theorem enterSyncing_hearing (s : State) : Hearing s s.enterSyncing :=
  have h := enterSyncing_leaves s
  ⟨h.1, h.2.1⟩

theorem enterCatching_hearing (s : State) : Hearing s s.enterCatching :=
  have h := enterCatching_leaves s
  ⟨h.1, (congrArg Trap.partner h.2 :)⟩

/-- What a heartbeat's content does to the role leaves the partner heard (R405, R416, R417). -/
theorem hbActs_hearing {s : State} (hb : Heartbeat) (hcalm : s.calm = true) : Hearing s (s.hbActs hb) := by
  unfold State.hbActs
  extract_lets t higher u
  have hu : Hearing s u := ite_hearing (higherEpoch_hearing _ hcalm) (.refl s)
  have hyield := yieldPair_hearing hcalm
  clear_value u
  refine ite_hearing (ite_hearing (higherEpoch_hearing _ hcalm) (ite_hearing hyield (.refl s))) ?_
  exact ite_hearing (hu.trans (enterSyncing_hearing u)) (ite_hearing (hu.trans (enterCatching_hearing u)) hu)

/-- The counter of the heartbeats of a path (R405). -/
def hbCounter (ring : Bool) : Nat := if ring then 0x7884 else 0x7880

theorem hbPath_counts (s : State) (ring : Bool) : ∃ r, s.hbPath ring = (s.setTrap r).count (hbCounter ring) 1 := by
  unfold State.hbPath
  cases ring with
  | true => exact ⟨_, rfl⟩
  | false => exact ⟨_, rfl⟩

section
variable {s : State} (hup : s.up = true) (hcalm : s.calm = true)

section
variable (hengine : s.engineUp 3 = true)

include hcalm hengine in
theorem heartbeatReceive_reaches (ring : Bool) {hb : Heartbeat} (hcounts : s.hbCounts hb = true) :
    Reaches (exec (.heartbeatReceive ring hb) s) fun t =>
      t.trap.partner = some hb ∧ t.total (hbCounter ring) = s.total (hbCounter ring) + 1 := by
  obtain ⟨r, hpath⟩ := hbPath_counts s.draw ring
  obtain ⟨u, hrun, ⟨haside, hpartner⟩⟩ : ∃ u, heartbeatReceive ring hb s.draw = u ∧
      Hearing (((s.draw.setTrap r).count (hbCounter ring) 1).setTrap { r with
        partner := some hb, partnerRev := s.rev - 1, partnerMac := some (if ring then hb.source else hb.source - 1)
        joinSent := r.joinSent && decide (hb.role = 3) }) u := by
    refine ⟨_, rfl, ?_⟩
    unfold heartbeatReceive
    rw [if_neg (show ¬ s.draw.hbCounts hb = false from ne_false_of_eq_true hcounts)]
    dsimp only
    rw [hpath]
    exact hbActs_hearing hb hcalm
  refine (liveIoe_ends (f := fun s => heartbeatReceive ring hb s) hengine hrun haside.nest).imp fun t ht => ?_
  rw [ht.trap, ht.total _ (by cases ring <;> decide), haside.total _ (by cases ring <;> decide)]
  exact ⟨hpartner, (s.draw.setTrap r).total_count (hbCounter ring) 1⟩

/-! ### Sync packets (R407 to R409, R411) -/

/-- What a packet brings of the partner's demand and health (R226, R411). -/
theorem takeDemand_takes (s : State) (p : SyncPacket) : ∃ l hl ns c,
    s.takeDemand p = { s with ledger := l, trap := { s.trap with health := hl, healthNs := ns }, cnt := c } ∧
    l.partnerDemand = p.demand ∧ l.partnerValid = p.demandValid ∧ ∀ o, 0x78BC ≠ o → sget 0 c o = s.total o := by
  unfold State.takeDemand
  dsimp only
  split
  · exact ⟨_, _, _, _, rfl, rfl, rfl, fun o h => s.total_count_ne 1 h⟩
  · exact ⟨_, s.trap.health, s.trap.healthNs, s.cnt, rfl, rfl, rfl, fun _ _ => rfl⟩

/-- The state in which a member takes a packet: its words in Q29, its number, demand and health taken in (R407). -/
def State.syncHeard (s : State) (p : SyncPacket) : State :=
  ((s.setQ 29 ((s.q 29).push (Config.syncWords p))).setTrap { s.trap with syncSeen := p.seq.toNat }).takeDemand p

theorem heard_same (s : State) (p : SyncPacket) : ∃ (q : Queue) (l : Ledger) (hl : Option HealthRep) (ns : Nat) (c : Sparse Nat),
    s.syncHeard p = { s.setQ 29 q with ledger := l, trap := { s.trap with syncSeen := p.seq.toNat, health := hl, healthNs := ns }, cnt := c } ∧
    l.partnerDemand = p.demand ∧ l.partnerValid = p.demandValid ∧ sget 0 c 0x7894 = s.total 0x7894 := by
  obtain ⟨l, hl, ns, c, hrun, hdemand, hvalid, hcnt⟩ :=
    takeDemand_takes ((s.setQ 29 ((s.q 29).push (Config.syncWords p))).setTrap { s.trap with syncSeen := p.seq.toNat }) p
  exact ⟨_, l, hl, ns, c, hrun, hdemand, hvalid, hcnt _ (by decide)⟩

/-- A packet with room in Q29 (R407). -/
theorem syncPacketReceive_heard {s : State} {p : SyncPacket} (hroom : s.qRoom 29 (Config.syncWords p).length = true)
    (hrole : s.trap.role = .primary ∨ s.trap.role = .syncing ∨ s.trap.role = .standby) : syncPacketReceive p s =
      if s.trap.role = .primary then (s.syncHeard p).setQ 29 (((s.syncHeard p).q 29).dropHead) else (s.syncHeard p).receiveSync p := by
  unfold syncPacketReceive State.syncHeard
  rw [← State.produce_room s 29 _ hroom]
  refine if_neg ?_
  rintro (h | ⟨h1, h2, h3⟩)
  · exact absurd (hroom.symm.trans h) (by decide)
  · exact hrole.elim h1 (·.elim h2 h3)

/-- The primary's packet applied: its changes, records, moves and ledger, and its number noted (R407). -/
theorem applySync_applies {s : State} {p : SyncPacket}
    (h : s.trap.role = .syncing ∧ s.trap.based = true ∧ p.join = none ∨ s.trap.role = .standby) :
    ∃ (u : State) (r : Trap), s.applySync p = (u.setTrap r).count 0x7894 1 ∧ r.syncApplied = p.seq.toNat ∧ Aside false s u ∧
      u.ledger.limit = p.limit ∧ u.ledger.shed = p.shed := by
  have hthird : ∀ (u : State) (lag : Nat), Aside false s u → Aside false s (u.takeLedger p lag) ∧
      (u.takeLedger p lag).ledger.limit = p.limit ∧ (u.takeLedger p lag).ledger.shed = p.shed :=
    fun u lag hu => ⟨hu.trans (takeLedger_aside u p lag), rfl, rfl⟩
  have hmoved : Aside false s ((p.records.foldl (fun (s : State) r => s.supply r.point r.value r.quality r.stamp r.stamp)
      (s.applyChanges p.changes)).mirrorMoves p.pairRev.toNat p.moves) :=
    ((applyChanges_aside s _).trans (foldl_aside _ (fun t r => supply_aside t _ _ _ _ _) _ _)).trans (mirrorMoves_aside _ _ _)
  obtain ⟨haside, hlimit, hshed⟩ := hthird _ (s.pairRev - p.pairRev.toNat) hmoved
  rcases h with ⟨hrole, hbased, hjoin⟩ | hrole
  · unfold State.applySync
    simp only [hrole, hbased, hjoin]
    exact ⟨_, _, rfl, rfl, haside, hlimit, hshed⟩
  · unfold State.applySync
    simp only [hrole]
    exact ⟨_, _, rfl, rfl, haside, hlimit, hshed⟩

/-- The join data taken over by a member in SYNCING (R408). -/
theorem applySync_joins {s : State} {p : SyncPacket} {j : SyncJoin} (hrole : s.trap.role = .syncing) (hjoin : p.join = some j) :
    s.applySync p = ((s.takeJoin j).setTrap { s.trap with
      syncApplied := p.seq.toNat, lastSyncRev := p.pairRev.toNat, based := true, joined := 0 }).count 0x7894 1 := by
  unfold State.applySync
  simp only [hrole, hjoin]

section
variable (hengine : s.engineUp 3 = true) {p : SyncPacket}
include hengine

theorem syncPacketReceive_lost (hroom : s.qRoom 29 (Config.syncWords p).length = false) :
    Reaches (exec (.syncPacketReceive p) s) fun t => t.trap = s.trap ∧ t.pnt = s.pnt ∧ t.ledger = s.ledger := by
  have hrun : syncPacketReceive p s.draw = s.draw := if_pos (.inl hroom)
  exact (liveIoe_ends (f := fun s => syncPacketReceive p s) hengine hrun rfl).imp fun t ht => ⟨ht.trap, ht.pnt, ht.ledger⟩

variable (hroom : s.qRoom 29 (Config.syncWords p).length = true)
include hroom

theorem syncPacketReceive_primary (hrole : s.trap.role = .primary) : Reaches (exec (.syncPacketReceive p) s) fun t =>
    t.trap.syncSeen = p.seq.toNat ∧ t.ledger.partnerDemand = p.demand ∧ t.ledger.partnerValid = p.demandValid ∧ t.pnt = s.pnt ∧
      t.regs = s.regs := by
  obtain ⟨q, l, hl, ns, c, hheard, hdemand, hvalid, -⟩ := heard_same s.draw p
  have hrun := (syncPacketReceive_heard (s := s.draw) hroom (.inl hrole)).trans (if_pos hrole)
  rw [hheard] at hrun
  refine (liveIoe_ends (f := fun s => syncPacketReceive p s) hengine hrun rfl).imp fun t ht => ?_
  rw [ht.trap, ht.ledger, ht.pnt, ht.regs]
  exact ⟨rfl, hdemand, hvalid, rfl, rfl⟩

theorem syncPacketReceive_held (hrole : s.trap.role = .syncing ∨ s.trap.role = .standby) (hfree : s.tableFree = false) :
    Reaches (exec (.syncPacketReceive p) s) fun t =>
      t.trap.inSync = s.trap.inSync ++ [p] ∧ t.trap.syncApplied = s.trap.syncApplied ∧ t.pnt = s.pnt := by
  obtain ⟨q, l, hl, ns, c, hheard, -, -, -⟩ := heard_same s.draw p
  have hother : s.trap.role ≠ .primary := by rcases hrole with h | h <;> rw [h] <;> decide
  have hrun := (syncPacketReceive_heard (s := s.draw) hroom (.inr hrole)).trans (if_neg hother)
  rw [hheard] at hrun
  have hheld := hrun.trans (if_neg (show ¬ State.tableFree _ = true from ne_true_of_eq_false hfree))
  refine (liveIoe_ends (f := fun s => syncPacketReceive p s) hengine hheld rfl).imp fun t ht => ?_
  rw [ht.trap, ht.pnt]
  exact ⟨rfl, rfl, rfl⟩

theorem syncPacketReceive_joins {j : SyncJoin} (hrole : s.trap.role = .syncing) (hjoin : p.join = some j) (hfree : s.tableFree = true) :
    Reaches (exec (.syncPacketReceive p) s) fun t =>
      t.trap.role = .syncing ∧ t.trap.based = true ∧ t.trap.joined = 0 ∧ t.trap.syncApplied = p.seq.toNat := by
  obtain ⟨q, l, hl, ns, c, hheard, -, -, -⟩ := heard_same s.draw p
  have hrun := (syncPacketReceive_heard (s := s.draw) hroom (.inr (.inl hrole))).trans
    (if_neg (show ¬ s.draw.trap.role = .primary by rw [State.draw_trap, hrole]; decide))
  rw [hheard] at hrun
  have htaken := (hrun.trans (if_pos hfree)).trans (applySync_joins hrole hjoin)
  refine (liveIoe_ends (f := fun s => syncPacketReceive p s) hengine htaken (takeJoin_aside _ j).nest).imp fun t ht => ?_
  rw [ht.trap]
  exact ⟨hrole, rfl, rfl, rfl⟩

theorem syncPacketReceive_applies (h : s.trap.role = .syncing ∧ s.trap.based = true ∧ p.join = none ∨ s.trap.role = .standby)
    (hfree : s.tableFree = true) : Reaches (exec (.syncPacketReceive p) s) fun t =>
      t.trap.syncApplied = p.seq.toNat ∧ t.ledger.limit = p.limit ∧ t.ledger.shed = p.shed ∧ t.total 0x7894 = s.total 0x7894 + 1 := by
  obtain ⟨q, l, hl, ns, c, hheard, -, -, hcnt⟩ := heard_same s.draw p
  have hrole : s.trap.role = .syncing ∨ s.trap.role = .standby := h.imp (·.1) id
  have hother : s.trap.role ≠ .primary := by rcases hrole with h | h <;> rw [h] <;> decide
  have hreceive := (syncPacketReceive_heard (s := s.draw) hroom (.inr hrole)).trans (if_neg hother)
  have htable : (s.draw.syncHeard p).tableFree = true := by rw [hheard]; exact hfree
  have hrun := hreceive.trans (if_pos htable)
  obtain ⟨u, r, happly, hseq, haside, hlimit, hshed⟩ := applySync_applies (p := p)
    (s := (s.draw.syncHeard p).setQ 29 (((s.draw.syncHeard p).q 29).dropHead)) (by rw [State.setQ_trap, hheard]; exact h)
  have hnest : u.flt.nest = s.flt.nest := by rw [haside.nest, State.setQ_flt, hheard]; rfl
  have hcount : u.total 0x7894 = s.total 0x7894 := by
    rw [haside.total _ (by decide), hheard]
    exact hcnt
  refine (liveIoe_ends (f := fun s => syncPacketReceive p s) hengine (hrun.trans happly) hnest).imp fun t ht => ?_
  rw [ht.trap, ht.ledger, ht.total _ (by decide), State.total_count]
  exact ⟨hseq, hlimit, hshed, congrArg (· + 1) hcount⟩

end

end

/-! ### Lost paths, take-over, and what runs out (R406, R407, R411) -/

include hup in
/-- A path found lost is shown (R406). -/
theorem hbLost_shows {ring : Bool} {r : Trap} (hrun : hbLost ring s.draw = (s.draw.setTrap r).reportBare .warn 15 0 0xFF) :
    Reaches (exec (.hbLost ring) s) fun t => t.trap = r ∧ t.sq 15 0 = true := by
  have hlog := reportBare_logOnly (s.draw.setTrap r) .warn 15 0 0xFF
  refine (live_ends (f := fun s => hbLost ring s) hup hrun (reportBare_nest _ 15 0 0xFF (by decide))).imp fun t ht => ?_
  rw [ht.trap, ht.sq _ _ (by simp)]
  refine ⟨?_, reportBare_sq _ .warn 15 0 0xFF⟩
  obtain ⟨_, _, _, e⟩ := hlog.same
  rw [e]
  rfl

include hup in
theorem hbLost_ring (hpaired : s.paired = true) (hmiss : 3 ≤ s.trap.missR) (hheld : s.trap.lostR = false) :
    Reaches (exec (.hbLost true) s) fun t => t.trap = { s.trap with lostR := true, upR := 0 } ∧ t.sq 15 0 = true :=
  hbLost_shows hup (((if_neg (ne_false_of_eq_true hpaired)).trans (if_pos rfl)).trans (if_pos ⟨hmiss, hheld⟩))

include hup in
theorem hbLost_netP (hpaired : s.paired = true) (hmiss : 3 ≤ s.trap.missP) (hheld : s.trap.lostP = false) :
    Reaches (exec (.hbLost false) s) fun t => t.trap = { s.trap with lostP := true, upP := 0 } ∧ t.sq 15 0 = true :=
  hbLost_shows hup (((if_neg (ne_false_of_eq_true hpaired)).trans (if_neg (by decide))).trans (if_pos ⟨hmiss, hheld⟩))

include hup in
theorem takeover_standby (hmiss : 5 ≤ s.trap.bothMissed) (hrole : s.trap.role = .standby) : Reaches (exec .takeover s) fun t =>
    t.trap.role = .deciding ∧ t.trap.replies = [] ∧ t.sq 15 2 = true ∧ t.total 0x789C = s.total 0x789C + 1 ∧
      t.total 0x78A0 = s.total 0x78A0 + 1 := by
  have hrun : takeover s.draw = s.draw.enterDeciding := by
    unfold takeover
    rw [if_neg (show ¬ s.draw.trap.bothMissed < 5 from Nat.not_lt.mpr hmiss), State.draw_trap, hrole]
  obtain ⟨htrap, hsq, hover, hquery, hnest⟩ := enterDeciding_shows s.draw
  refine (live_ends (f := fun s => takeover s) hup hrun hnest).imp fun t ht => ?_
  rw [ht.trap, ht.sq _ _ (by simp), ht.total _ (by decide), ht.total _ (by decide), htrap]
  exact ⟨rfl, rfl, hsq, hover, hquery⟩

include hup in
theorem takeover_primary (hmiss : 5 ≤ s.trap.bothMissed) (hrole : s.trap.role = .primary) :
    Reaches (exec .takeover s) fun t => t.trap = s.trap ∧ t.sq 15 3 = true := by
  have hrun : takeover s.draw = s.draw.reportBare .warn 15 3 0xFF := by
    unfold takeover
    rw [if_neg (show ¬ s.draw.trap.bothMissed < 5 from Nat.not_lt.mpr hmiss), State.draw_trap, hrole]
  have hlog := reportBare_logOnly s.draw .warn 15 3 0xFF
  refine (live_ends (f := fun s => takeover s) hup hrun (reportBare_nest _ 15 3 0xFF (by decide))).imp fun t ht => ?_
  rw [ht.trap, ht.sq _ _ (by simp)]
  refine ⟨?_, reportBare_sq _ .warn 15 3 0xFF⟩
  obtain ⟨_, _, _, e⟩ := hlog.same
  rw [e]
  rfl

include hup in
theorem syncLoss_rejoins (hrole : s.trap.role = .standby) (hlate : s.trap.lastSyncRev + 4 ≤ s.pairRev) :
    Reaches (exec .syncLoss s) fun t => t.trap = { s.trap with role := .syncing, joined := 0, based := false, lossDue := false } ∧
      t.total 0x7898 = s.total 0x7898 + 1 := by
  have hrun : syncLoss s.draw = _ := if_pos ⟨hrole, .inl hlate⟩
  refine (live_ends (f := fun s => syncLoss s) hup hrun rfl).imp fun t ht => ?_
  rw [ht.trap, ht.total _ (by decide)]
  exact ⟨rfl, State.total_count ..⟩

include hup in
theorem syncLoss_counts (hdue : s.trap.lossDue = true) (hrole : s.trap.role ≠ .standby) :
    Reaches (exec .syncLoss s) fun t => t.trap = { s.trap with lossDue := false } ∧ t.total 0x7898 = s.total 0x7898 + 1 := by
  have hrun : syncLoss s.draw = _ := (if_neg fun h => hrole h.1).trans (if_pos hdue)
  refine (live_ends (f := fun s => syncLoss s) hup hrun rfl).imp fun t ht => ?_
  rw [ht.trap, ht.total _ (by decide)]
  exact ⟨rfl, State.total_count ..⟩

include hup in
theorem partnerStale_shows (hrole : s.trap.role = .primary) (hold : s.trap.healthNs + 3000000000 ≤ s.crsl.upNs + s.periodNs) :
    Reaches (exec .partnerStale s) fun t => t.trap = { s.trap with health := none } ∧ t.sq 15 4 = true := by
  have hrun : partnerStale s.draw = _ := if_pos ⟨hrole, hold⟩
  refine (live_ends (f := fun s => partnerStale s) hup hrun rfl).imp fun t ht => ?_
  rw [ht.trap, ht.sq _ _ (by simp)]
  exact ⟨rfl, State.sq_setSQ_self _ 15 4⟩

end

end Sys2Proof.Machine

open Sys2Proof.Machine

/-- Settles O54: heartbeats, lost paths, take-over, sync packets by the role that takes them, and what runs out. -/
theorem pairHearing : Obligations.PairHearing := by
  intro s hup hcalm
  have hengine : s.sys.ioeBad.getLsbD 3 = false → s.engineUp 3 = true := fun h =>
    State.engineUp_iff.mpr ⟨(State.up_iff.mp hup).1, (State.up_iff.mp hup).2, h⟩
  refine ⟨fun hb hcounts he => ⟨heartbeatReceive_reaches hcalm (hengine he) false hcounts,
      heartbeatReceive_reaches hcalm (hengine he) true hcounts⟩,
    fun hpaired hmiss hheld => hbLost_ring hup hpaired hmiss hheld, fun hpaired hmiss hheld => hbLost_netP hup hpaired hmiss hheld,
    fun hmiss hrole => takeover_standby hup hmiss hrole, fun hmiss hrole => takeover_primary hup hmiss hrole,
    fun p he hroom => syncPacketReceive_lost (hengine he) hroom,
    fun p he hroom => ⟨fun hrole => syncPacketReceive_primary (hengine he) hroom hrole,
      fun hrole hfree => syncPacketReceive_held (hengine he) hroom hrole hfree,
      fun j hrole hjoin hfree => syncPacketReceive_joins (hengine he) hroom hrole hjoin hfree,
      fun h hfree => syncPacketReceive_applies (hengine he) hroom h hfree⟩,
    fun hrole hlate => syncLoss_rejoins hup hrole hlate, fun hdue hrole => syncLoss_counts hup hdue hrole,
    fun hrole hold => partnerStale_shows hup hrole hold⟩
end

section
/-! SUPPORT. Chapter 15: how a member of a pair takes over or yields (O55). -/
namespace Sys2Proof.Machine

section
variable {s : State} (hup : s.up = true)
include hup

/-! ### Witnesses (R412, R413) -/

section
variable {r : WitnessRep} (hrole : s.trap.role = .deciding)
include hrole

omit hup in
theorem witnessReply_heard : witnessReply r s =
    if s.bars r then ((s.setTrap { s.trap with replies := s.trap.replies ++ [r] }).count 0x78A8 1).setTrap
      { s.trap with replies := s.trap.replies ++ [r], barred := true, role := .isolated }
    else if s.confirms r then
      (if s.trap.unfit then (s.setTrap { s.trap with replies := s.trap.replies ++ [r] }).count 0x78A4 1
        else ((s.setTrap { s.trap with replies := s.trap.replies ++ [r] }).count 0x78A4 1).enterCatching)
    else s.setTrap { s.trap with replies := s.trap.replies ++ [r] } := by
  have hskip : ¬(s.trap.role ≠ .deciding ∧ s.trap.role ≠ .isolated) := fun h => h.1 hrole
  have hfit : ∀ t : State, t.trap.role = .deciding → t.trap.unfit = s.trap.unfit →
      (if t.trap.unfit ∨ (t.trap.role = .isolated ∧ t.trap.barred) then t else t.enterCatching) =
        if s.trap.unfit then t else t.enterCatching := fun t h hu => by
    rw [h, hu]
    simp
  unfold witnessReply
  rw [if_neg hskip]
  dsimp only
  rw [hfit ((s.setTrap { s.trap with replies := s.trap.replies ++ [r] }).count 0x78A4 1) hrole rfl]
  rfl

theorem witnessReply_bars (hbars : s.bars r = true) : Reaches (exec (.witnessReply r) s) fun t => t.trap.role = .isolated ∧
    t.trap.barred = true ∧ t.trap.replies = s.trap.replies ++ [r] ∧ t.total 0x78A8 = s.total 0x78A8 + 1 := by
  have hrun : witnessReply r s.draw = _ := (witnessReply_heard (s := s.draw) hrole).trans (if_pos hbars)
  refine (live_ends (f := fun s => witnessReply r s) hup hrun rfl).imp fun t ht => ?_
  rw [ht.trap, ht.total _ (by decide)]
  exact ⟨rfl, rfl, rfl, State.total_count (s.draw.setTrap _) 0x78A8 1⟩

theorem witnessReply_confirms (hbars : s.bars r = false) (hconfirms : s.confirms r = true) (hfit : s.trap.unfit = false) :
    Reaches (exec (.witnessReply r) s) fun t => t.trap.role = .catching ∧ t.trap.journalled = false ∧ t.trap.claimed = false ∧
      t.trap.catchRev = s.rev ∧ t.total 0x78A4 = s.total 0x78A4 + 1 := by
  have hrun : witnessReply r s.draw = ((s.draw.setTrap { s.draw.trap with replies := s.draw.trap.replies ++ [r] }).count 0x78A4 1).enterCatching :=
    (witnessReply_heard (s := s.draw) hrole).trans (((if_neg (ne_true_of_eq_false hbars)).trans (if_pos hconfirms)).trans
      (if_neg (ne_true_of_eq_false hfit)))
  obtain ⟨haside, htrap⟩ := enterCatching_leaves ((s.draw.setTrap { s.draw.trap with replies := s.draw.trap.replies ++ [r] }).count 0x78A4 1)
  refine (live_ends (f := fun s => witnessReply r s) hup hrun haside.nest).imp fun t ht => ?_
  rw [ht.trap, ht.total _ (by decide), htrap, haside.total _ (by decide)]
  exact ⟨rfl, rfl, rfl, rfl, State.total_count (s.draw.setTrap _) 0x78A4 1⟩

theorem witnessReply_kept (hbars : s.bars r = false) (hconfirms : s.confirms r = false) : Reaches (exec (.witnessReply r) s) fun t =>
    t.trap = { s.trap with replies := s.trap.replies ++ [r] } := by
  have hrun : witnessReply r s.draw = _ := (witnessReply_heard (s := s.draw) hrole).trans
    ((if_neg (ne_true_of_eq_false hbars)).trans (if_neg (ne_true_of_eq_false hconfirms)))
  exact (live_ends (f := fun s => witnessReply r s) hup hrun rfl).imp fun t ht => ht.trap

end

/-- A query: the replies forgotten, and counted (R412). -/
theorem query_ends {f : State → State} (hf : f s.draw = s.draw.query) : Reaches (live f s) fun t =>
    t.trap = s.trap.queried ∧ t.total 0x78A0 = s.total 0x78A0 + 1 := by
  obtain ⟨u, hquery, hgiven⟩ := query_shows s.draw
  have htotal := hgiven.total
  obtain ⟨_, _, _, rfl⟩ := hgiven.same
  refine (live_ends hup (hf.trans hquery) rfl).imp fun t ht => ?_
  rw [ht.trap, ht.total _ (by decide), State.total_count, htotal _ (by decide)]
  exact ⟨rfl, rfl⟩

theorem witnessRetry_reaches (hrole : s.trap.role = .deciding) : Reaches (exec .witnessRetry s) fun t =>
    t.trap = { s.trap with replies := [], barred := false } ∧ t.total 0x78A0 = s.total 0x78A0 + 1 :=
  query_ends (f := fun s => witnessRetry s) hup (if_pos hrole)

theorem isolatedQuery_reaches (hrole : s.trap.role = .isolated) : Reaches (exec .isolatedQuery s) fun t =>
    t.trap = { s.trap with replies := [], barred := false } ∧ t.total 0x78A0 = s.total 0x78A0 + 1 :=
  query_ends (f := fun s => isolatedQuery s) hup (if_pos hrole)

theorem witnessWaitExpiry_isolates (hrole : s.trap.role = .deciding)
    (hover : s.trap.decideNs + s.fld 0x7818 31 16 * 1000000 ≤ s.crsl.upNs + s.periodNs) :
    Reaches (exec .witnessWaitExpiry s) fun t => t.trap = { s.trap with role := .isolated } :=
  (live_ends (f := fun s => witnessWaitExpiry s) hup (if_pos ⟨hrole, hover⟩) rfl).imp fun _ ht => ht.trap

theorem witnessWaitExpiry_waits (hearly : s.crsl.upNs + s.periodNs < s.trap.decideNs + s.fld 0x7818 31 16 * 1000000) :
    Reaches (exec .witnessWaitExpiry s) fun t => t.trap = s.trap :=
  (live_ends (f := fun s => witnessWaitExpiry s) hup (if_neg fun h => absurd h.2 (Nat.not_le.mpr hearly)) rfl).imp fun _ ht => ht.trap

/-! ### EPOCH written (R415, R418) -/

theorem epochJournaled_founds (hrole : s.trap.role = .starting) (hfounding : s.trap.founding = true) :
    Reaches (exec .epochJournaled s) fun t => t.trap.role = .primary ∧ t.trap.epoch = s.trap.epoch + 1 ∧ t.trap.founding = false := by
  refine (live_ends (f := fun s => epochJournaled s) hup (if_pos ⟨hrole, hfounding⟩) rfl).imp fun t ht => ?_
  rw [ht.trap]
  exact ⟨rfl, rfl, rfl⟩

omit hup in
/-- Frames given to the ring ports leave the pair record and a nested CRITICAL (R415). -/
theorem announceSelf_netOnly (s : State) : NetOnly s s.announceSelf :=
  (sendAll_netOnly s 0 _).trans (sendAll_netOnly _ 1 _)

omit hup in
/-- A CLAIM leaves of the pair record all but that it was sent (R415). -/
theorem claim_leaves (s : State) : s.claim.trap = { s.trap with claimed := true } ∧ s.claim.flt.nest = s.flt.nest := by
  have hend : ∀ u : State, Aside true u u.endForSwitch := fun u => (endSpots_aside u 5).trans (swbAbortAll_aside _)
  unfold State.claim
  obtain ⟨ca, n, c, hsent⟩ := (sendPair_given (s.setTrap { s.trap with claimed := true }) 0x015).same
  obtain ⟨m, d, hannounced⟩ := announceSelf_netOnly ((s.setTrap { s.trap with claimed := true }).sendPair 0x015)
  rw [(hend _).trap rfl, (hend _).nest, hannounced, hsent]
  exact ⟨rfl, rfl⟩

theorem epochJournaled_claims (hrole : s.trap.role = .catching) (hnew : s.trap.journalled = false) :
    Reaches (exec .epochJournaled s) fun t => t.trap.role = .catching ∧ t.trap.journalled = true ∧ t.trap.epoch = s.trap.epoch + 1 ∧
      t.trap.claimed = (s.trap.claimed || decide (s.trap.catchRev < s.rev)) := by
  have hrun : epochJournaled s.draw = if s.trap.catchRev < s.rev
      then (s.draw.setTrap { s.trap with epoch := s.trap.epoch + 1, journalled := true }).claim
      else s.draw.setTrap { s.trap with epoch := s.trap.epoch + 1, journalled := true } :=
    (if_neg (show ¬(s.draw.trap.role = .starting ∧ s.draw.trap.founding = true) from fun h => by
      rw [State.draw_trap, hrole] at h; exact absurd h.1 (by decide))).trans (if_pos ⟨hrole, hnew⟩)
  obtain ⟨htrap, hnest⟩ := claim_leaves (s.draw.setTrap { s.trap with epoch := s.trap.epoch + 1, journalled := true })
  by_cases hlater : s.trap.catchRev < s.rev
  · rw [if_pos hlater] at hrun
    refine (live_ends (f := fun s => epochJournaled s) hup hrun hnest).imp fun t ht => ?_
    rw [ht.trap, htrap, decide_eq_true hlater, Bool.or_true]
    exact ⟨hrole, rfl, rfl, rfl⟩
  · rw [if_neg hlater] at hrun
    refine (live_ends (f := fun s => epochJournaled s) hup hrun rfl).imp fun t ht => ?_
    rw [ht.trap, decide_eq_false hlater, Bool.or_false]
    exact ⟨hrole, rfl, rfl, rfl⟩

/-! ### A CLAIM heard (R416, R417) -/

section
variable {pairId : BitVec 16} {member : Bool} {epoch : W32} (hpaired : s.paired = true) (hid : pairId.toNat = s.pairId)
  (hother : member ≠ s.trap.member) (hhigher : s.trap.epoch.toNat < epoch.toNat)

include hpaired hid hother hhigher in
omit hup in
theorem claimReceive_higher (hrole : s.trap.role ≠ .starting) : claimReceive pairId member epoch s = s.higherEpoch epoch :=
  if_pos ⟨hpaired, hid, hother, hrole, hhigher⟩

theorem claimReceive_starting (hrole : s.trap.role = .starting) :
    Reaches (exec (.claimReceive pairId member epoch) s) fun t => t.trap = s.trap :=
  (live_ends (f := fun s => claimReceive pairId member epoch s) hup (if_neg fun ⟨_, _, _, hother, _⟩ => hother hrole) rfl).imp fun _ ht => ht.trap

include hpaired hid hother hhigher

theorem claimReceive_relinquishing (hrole : s.trap.role = .primary) (hsome : s.trap.relinquish.isSome = true) :
    Reaches (exec (.claimReceive pairId member epoch) s) fun t => t.trap = s.trap.handedOver epoch s.pairRev := by
  have hrun := claimReceive_higher (s := s.draw) hpaired hid hother hhigher (by rw [State.draw_trap, hrole]; decide)
  obtain ⟨haside, htrap⟩ := higherEpoch_relinquishing (s := s.draw) epoch hrole hsome
  exact (live_ends (f := fun s => claimReceive pairId member epoch s) hup hrun haside.nest).imp fun _ ht => ht.trap.trans htrap

theorem claimReceive_yields (hrole : s.trap.role = .primary) (hnone : s.trap.relinquish = none) (hdue : s.trap.yieldDue = false)
    (hcalm : s.calm = true) : Reaches (exec (.claimReceive pairId member epoch) s) fun t =>
      t.trap = { s.trap with yieldDue := true } ∧ t.sq 15 7 = true := by
  have hrun := (claimReceive_higher (s := s.draw) hpaired hid hother hhigher (by rw [State.draw_trap, hrole]; decide)).trans
    (higherEpoch_yields epoch hrole hnone)
  obtain ⟨haside, htrap, hsq⟩ := yieldPair_leaves (s := s.draw) hcalm
  refine (live_ends (f := fun s => claimReceive pairId member epoch s) hup hrun haside.nest).imp fun t ht => ?_
  rw [ht.trap, ht.sq _ _ (by simp)]
  exact ⟨htrap, hsq hdue⟩

theorem claimReceive_adopts (hprimary : s.trap.role ≠ .primary) (hstarting : s.trap.role ≠ .starting) :
    Reaches (exec (.claimReceive pairId member epoch) s) fun t => t.trap = { s.trap with epoch } := by
  have hrun := (claimReceive_higher (s := s.draw) hpaired hid hother hhigher hstarting).trans (higherEpoch_other epoch hprimary)
  exact (live_ends (f := fun s => claimReceive pairId member epoch s) hup hrun rfl).imp fun _ ht => ht.trap

end

/-! ### After the listening of a start (R418) -/

omit hup in
theorem startingListenEnd_listened (hrole : s.trap.role = .starting) (hfounding : s.trap.founding = false)
    (hover : s.trap.listenRev + 50 ≤ s.rev) : ¬(s.trap.role ≠ .starting ∨ s.trap.founding ∨ s.rev < s.trap.listenRev + 50) := by
  rintro (h | h | h)
  · exact h hrole
  · exact absurd (hfounding.symm.trans h) (by decide)
  · omega

theorem startingListenEnd_decides (hrole : s.trap.role = .starting) (hfounding : s.trap.founding = false)
    (hover : s.trap.listenRev + 50 ≤ s.rev) (hnone : s.trap.partner = none) : Reaches (exec .startingListenEnd s) fun t =>
      t.trap.role = .deciding ∧ t.sq 15 2 = true ∧ t.total 0x789C = s.total 0x789C + 1 := by
  have hrun : startingListenEnd s.draw = s.draw.enterDeciding := by
    unfold startingListenEnd
    rw [if_neg (startingListenEnd_listened (s := s.draw) hrole hfounding hover), State.draw_trap, hnone]
  obtain ⟨htrap, hsq, hover, -, hnest⟩ := enterDeciding_shows s.draw
  refine (live_ends (f := fun s => startingListenEnd s) hup hrun hnest).imp fun t ht => ?_
  rw [ht.trap, ht.sq _ _ (by simp), ht.total _ (by decide), htrap]
  exact ⟨rfl, hsq, hover⟩

theorem startingListenEnd_syncs (hrole : s.trap.role = .starting) (hfounding : s.trap.founding = false)
    (hover : s.trap.listenRev + 50 ≤ s.rev) {hb : Heartbeat} (hpartner : s.trap.partner = some hb) (hprimary : hb.role = 2) :
    Reaches (exec .startingListenEnd s) fun t => t.trap.role = .syncing ∧ t.trap.joined = 0 := by
  have hrun : startingListenEnd s.draw = s.draw.enterSyncing := by
    unfold startingListenEnd
    rw [if_neg (startingListenEnd_listened (s := s.draw) hrole hfounding hover), State.draw_trap, hpartner]
    exact if_pos hprimary
  obtain ⟨haside, -, hsyncing, hjoined⟩ := enterSyncing_leaves s.draw
  refine (live_ends (f := fun s => startingListenEnd s) hup hrun haside.nest).imp fun t ht => ?_
  rw [ht.trap]
  exact ⟨hsyncing, hjoined⟩

end

end Sys2Proof.Machine

open Sys2Proof.Machine

/-- Settles O55: witnesses, a written EPOCH, a CLAIM by the role that hears it, and the end of listening. -/
theorem pairDeciding : Obligations.PairDeciding := by
  intro s hup
  refine ⟨fun r hrole => ⟨fun hbars => witnessReply_bars hup hrole hbars,
      fun hbars hconfirms hfit => witnessReply_confirms hup hrole hbars hconfirms hfit,
      fun hbars hconfirms => witnessReply_kept hup hrole hbars hconfirms⟩,
    fun hrole => ⟨witnessRetry_reaches hup hrole, fun hover => witnessWaitExpiry_isolates hup hrole hover,
      fun hearly => witnessWaitExpiry_waits hup hearly⟩,
    fun hrole => isolatedQuery_reaches hup hrole, fun hrole hfounding => epochJournaled_founds hup hrole hfounding,
    fun hrole hnew => epochJournaled_claims hup hrole hnew, fun pairId member epoch hpaired hid hother hhigher => ⟨?_, ?_, ?_, ?_⟩,
    fun hrole hfounding hover => ⟨fun hnone => startingListenEnd_decides hup hrole hfounding hover hnone,
      fun hb hpartner hprimary => startingListenEnd_syncs hup hrole hfounding hover hpartner hprimary⟩⟩
  · exact fun hrole hsome => claimReceive_relinquishing hup hpaired hid hother hhigher hrole hsome
  · exact fun hrole hnone hdue hcalm => claimReceive_yields hup hpaired hid hother hhigher hrole hnone hdue hcalm
  · exact fun hrole => claimReceive_starting hup hrole
  · exact fun hprimary hstarting => claimReceive_adopts hup hpaired hid hother hhigher hprimary hstarting
end

section
/-! SUPPORT. Chapters 15 and 16: the pair and the calendar by command (O56). -/
namespace Sys2Proof.Machine

/-! ### A command refused by the state (R384) -/

/-- A command to which nothing but the state objects fails with the state's DETAIL (R384 order 22). -/
theorem admits_refused {s : State} {h : Hdr} {c : CmdSpec} {d : Nat} (ha : s.admits h c.maxData) (hc : { c with refuse := none }.Clear s)
    (hrefuse : c.refuse = some d) : s.draw.firstFail h c = some (0x0E, d, 0, []) := by
  have hhdr := admits_headerBad (c := c) ha
  obtain ⟨⟨-, -, -, hpay, htag, -, hfree, -, -, -, hpar, hrun⟩, -, hopen, hseq, hbooth⟩ := ha
  obtain ⟨hundef, habsent, hdenied, hauth, hlock, hbad, hchanges, hbusy, -⟩ := hc
  dsimp only at hundef habsent hdenied hauth hlock hbad hchanges hbusy
  have hnone : (s.mbx.slots.any fun x => x.session == h.session.val && x.tag == h.tag && !x.discard) = false := by
    rw [List.any_eq_false] at htag ⊢
    exact fun x hx e => htag x hx (Bool.and_eq_true_iff.mp e).1
  have hheld : ∀ o : Option Nat, (o.map s.draw.parityHeld).getD false = false := fun o => by
    cases o <;> simp [State.parityHeld, hpar]
  have hlong : ¬s.draw.pathWords h.session.val < respWords c.maxData := Nat.not_lt.mpr (Nat.le_trans hfree (s.pathFree_le _))
  have hsess : s.draw.sess h.session.val = s.sess h.session.val := rfl
  unfold State.firstFail
  dsimp only
  simp [hhdr, hsess, hopen, hseq, hbooth, hnone, hpay, hundef, habsent, hdenied, hauth, hlock, hheld, hbad, hlong, hrun, hbusy, hrefuse]
  exact fun e hrole => absurd (hchanges e) (ne_false_of_eq_true hrole)

/-- Such a command is turned down and changes no unit. -/
theorem refused_reaches {f : State → State} {s : State} {h : Hdr} {c : CmdSpec} {body : State → Res} {d : Nat}
    (hf : f s.draw = runCmd h c body s.draw) (ha : s.admits h c.maxData) (hc : { c with refuse := none }.Clear s)
    (hrefuse : c.refuse = some d) : Reaches (live f s) fun t => s.turnedDown t h c.opcode 0 0x0E d [] ∧ UnitsKept s t := by
  obtain ⟨hdown, hkept, -⟩ := runCmd_turnsDown body ha (admits_refused ha hc hrefuse) (Nat.zero_le _)
  rw [← hf] at hdown hkept
  refine live_reaches f s (admits_powered ha) ?_ ?_
  · exact hkept.flt ▸ admits_calm ha
  · exact ⟨State.turnedDown_settle hdown s.rev, hkept.trans (settle_unitsKept s (f s.draw) s.rev)⟩

theorem UnitsKept.trap {u t : State} (h : UnitsKept u t) : t.trap = u.trap := by
  obtain ⟨_, _, _, _, _, _, _, _, _, rfl⟩ := h; rfl

/-! ### The pair by command (R416, R420) -/

section
variable {s : State} {h : Hdr} (hlord : s.landlord h = true)

theorem Taken.trap {s v : State} {h : Hdr} (hv : Taken s h v) : v.trap = s.trap := by
  obtain ⟨_, _, _, _, e⟩ := hv.same; rw [e]; rfl

theorem Taken.rtc {s v : State} {h : Hdr} (hv : Taken s h v) : v.rtc = s.rtc := by
  obtain ⟨_, _, _, _, e⟩ := hv.same; rw [e]; rfl

/-- The data of PAIR_STATUS (R420). -/
def State.pairData (s : State) : List Byte :=
  bytesOf32 [s.trapState, s.trap.epoch, s.trapHb, s.trapHealth] ++ leBytes 8 (BitVec.ofInt 64 s.trap.delta).toNat

theorem pairStatus_reaches (hlord : s.landlord h = true) (ha : s.admits h 24) : Reaches (exec (.pairStatus h) s) fun t =>
    s.answered t h 0x0A01 0 s.pairData := by
  refine ok_serves (f := fun s => cmdPairStatus h s) (fl := 0) (da := s.pairData) rfl ha
    { denied := congrArg (!·) hlord, bad := rfl, changes := nofun }
    (by unfold State.pairData; rw [List.length_append, bytesOf32_length, leBytes_length]; exact Nat.le_refl 24)
    fun v hv => ⟨v, ?_, hv.path, fun t hans _ => hans⟩
  have hdata : v.pairData = s.pairData := by obtain ⟨_, _, _, _, e⟩ := hv.same; rw [e]; rfl
  exact congrArg (fun l => okRes l v) hdata

theorem PathKept.swbAbort {s u : State} {h : Hdr} (k : PathKept s u h) (booth : Nat) : PathKept s (u.swbAbort booth) h := by
  unfold State.swbAbort
  split
  · have hdisarmed : PathKept s { u with
        prg := { u.prg with armed := serase u.prg.armed booth }
        mbx := { u.mbx with sched := u.mbx.sched.filter fun (x : Sched) => x.target != Target.swb booth } } h :=
      ⟨k.queues, k.resp, k.slots, k.qEn, k.expected, k.nest⟩
    exact (hdisarmed.setReg (off := 0x3008) (place 11 24 ||| place booth 16) (by decide)).of_same rfl rfl rfl rfl
  · exact k

theorem PathKept.swbAbortAll {s u : State} {h : Hdr} (k : PathKept s u h) : PathKept s u.swbAbortAll h :=
  List.foldlRecOn (motive := fun t => PathKept s t h) _ _ k fun _ ht e _ => ht.swbAbort e.1

/-- What PAIR_SWITCH names for the checks of R384. -/
def State.pairSwitchSpec (s : State) (h : Hdr) : CmdSpec :=
  { opcode := 0x0A02, effOk := true, maxData := 8, denied := !s.landlord h, bad := s.badEff h
    busy := if h.eff.isSome ∧ s.schedRoom [.pairSwitch] = false then some 0x10 else none
    refuse := if s.trap.role = .primary ∧ s.fitStandby then none else some 2 }

theorem pairSwitchSpec_clear (hlord : s.landlord h = true) (heff : h.eff = none) :
    { s.draw.pairSwitchSpec h with refuse := none }.Clear s where
  denied := congrArg (!·) hlord
  bad := by unfold State.pairSwitchSpec State.badEff; rw [heff]
  changes := nofun
  busy := if_neg (by rw [heff]; exact fun e => Bool.noConfusion e.1)

theorem pairSwitch_hands (hlord : s.landlord h = true) (ha : s.admits h 8) (hrole : s.trap.role = .primary) (hfit : s.fitStandby = true) :
    Reaches (exec (.pairSwitch h) s) fun t =>
      s.answered t h 0x0A02 0 (leBytes 8 s.dueNow) ∧ t.trap = { s.trap with relinquish := some s.dueNow } := by
  have heff : h.eff = none := ha.2.1
  have hclear := pairSwitchSpec_clear hlord heff
  have hhands : ∀ v, Taken s h v → v.relinquishAt v.dueNow = v.swbAbortAll.setTrap { v.trap with relinquish := some v.dueNow } :=
    fun v hv => if_pos ⟨hv.trap ▸ hrole, by obtain ⟨_, _, _, _, e⟩ := hv.same; rw [e]; exact hfit⟩
  refine ok_serves (f := fun s => cmdPairSwitch h s) (c := s.draw.pairSwitchSpec h) (fl := 0) (da := leBytes 8 s.dueNow) rfl ha
    ⟨hclear.undef, hclear.absent, hclear.denied, hclear.authFail, hclear.lockBlk, hclear.bad, hclear.changes, hclear.busy,
      if_pos ⟨hrole, hfit⟩⟩ (leBytes_length ..).le fun v hv => ⟨v.relinquishAt v.dueNow, ?_, ?_, fun t hans ht => ⟨hans, ?_⟩⟩
  · rw [heff, ← hv.dueNow]
    rfl
  · rw [hhands v hv]
    exact hv.path.swbAbortAll.of_same rfl rfl rfl rfl
  · rw [ht.trap, hhands v hv, hv.dueNow, hv.trap]
    rfl

theorem pairSwitch_refused (hlord : s.landlord h = true) (ha : s.admits h 8) (hnot : s.trap.role ≠ .primary ∨ s.fitStandby = false) :
    Reaches (exec (.pairSwitch h) s) fun t => s.turnedDown t h 0x0A02 0 0x0E 2 [] ∧ t.trap = s.trap := by
  have hrefuse : (s.draw.pairSwitchSpec h).refuse = some 2 := if_neg fun e => hnot.elim (· e.1) fun hf => absurd (e.2.symm.trans hf) (by decide)
  exact (refused_reaches (f := fun s => cmdPairSwitch h s) (c := s.draw.pairSwitchSpec h) rfl ha
    (pairSwitchSpec_clear hlord ha.2.1) hrefuse).imp fun t ⟨hdown, hkept⟩ => ⟨hdown, hkept.trap⟩

/-- The data of WITNESS_READ (R420). -/
def Trap.replyData (t : Trap) : List Byte :=
  BitVec.ofNat 8 t.replies.length :: List.replicate 7 0 ++ t.replies.flatMap WitnessRep.bytes

theorem Trap.replyData_length (t : Trap) : t.replyData.length = 8 + 16 * t.replies.length := by
  have hreplies : (t.replies.flatMap WitnessRep.bytes).length = 16 * t.replies.length := by
    induction t.replies with
    | nil => rfl
    | cons r l ih =>
      rw [List.flatMap_cons, List.length_append, ih, List.length_cons]
      simp [WitnessRep.bytes]
      omega
  rw [Trap.replyData, List.length_append, hreplies, List.length_cons, List.length_replicate]

theorem witnessRead_reaches (hlord : s.landlord h = true) (ha : s.admits h (8 + 16 * s.trap.replies.length)) :
    Reaches (exec (.witnessRead h) s) fun t => s.answered t h 0x0A03 0 s.trap.replyData :=
  ok_serves (f := fun s => cmdWitnessRead h s) (fl := 0) (da := s.trap.replyData) rfl ha
    { denied := congrArg (!·) hlord, bad := rfl, changes := nofun } (Trap.replyData_length _).le
    fun v hv => ⟨v, congrArg (fun r : Trap => okRes r.replyData v) hv.trap, hv.path, fun t hans _ => hans⟩

/-! ### The calendar by command (R433, R437) -/

/-- The data of TIME_READ (R437). -/
def State.timeData (s : State) : List Byte :=
  s.rtc.cal ++ leBytes 4 s.rtcBackup.toNat ++ leBytes 4 0 ++ leBytes 8 s.rtc.incRev

theorem timeRead_reaches (ha : s.admits h 24) (hcal : s.rtc.cal.length = 8) : Reaches (exec (.timeRead h) s) fun t =>
    s.answered t h 0x0B01 0 s.timeData := by
  refine ok_serves (f := fun s => cmdTimeRead h s) (fl := 0) (da := s.timeData) rfl ha
    { denied := rfl, bad := rfl, changes := nofun } (by simp [State.timeData, hcal])
    fun v hv => ⟨v, ?_, hv.path, fun t hans _ => hans⟩
  have hdata : v.timeData = s.timeData := by obtain ⟨_, _, _, _, e⟩ := hv.same; rw [e]; rfl
  exact congrArg (fun l => okRes l v) hdata

/-- A calendar held with its registers set (R437). -/
def Rtc.heldAt (r : Rtc) (regs : List Byte) : Rtc := { r with halt := true, shift := none, cal := regs }

theorem haltOn_of_no_slots {s : State} (hslots : s.mbx.slots = []) : s.haltOn = s.setRtc { s.rtc with halt := true, shift := none } :=
  endShift_of_no_slots _ _ _ hslots

theorem timeSet_reaches (hlord : s.landlord h = true) {regs : List Byte} (hlen : regs.length = 8) (ha : s.admits h 8)
    (hslots : s.mbx.slots = []) (hfree : s.flag 0x8020 2 = false ∨ s.crsl.sync ≠ .locked) : Reaches (exec (.timeSet h regs) s) fun t =>
      s.answered t h 0x0B02 0 (leBytes 8 s.rev) ∧ t.rtc.cal = regs ∧ t.rtc.halt = false ∧ t.rtc.shift = none ∧ t.regs = s.regs := by
  refine ok_serves (f := fun s => cmdTimeSet h regs s) (fl := 0) (da := leBytes 8 s.rev) rfl ha
    { denied := congrArg (!·) hlord, bad := if_pos hlen, changes := nofun } (leBytes_length ..).le
    fun v hv => ⟨(v.setRtc (v.rtc.heldAt regs)).haltOff, ?_, hv.path.of_same rfl rfl rfl rfl, fun t hans ht => ⟨hans, ?_⟩⟩
  · have hhalt := haltOn_of_no_slots (s := v) (hv.path.slots.trans hslots)
    have hnow : ¬(v.flag 0x8020 2 = true ∧ v.crsl.sync = .locked) := by
      obtain ⟨_, _, _, _, e⟩ := hv.same
      rw [e]
      exact fun hc => hfree.elim (fun hf => absurd (hf.symm.trans hc.1) (by decide)) (· hc.2)
    dsimp only
    rw [hhalt]
    exact (if_neg hnow).trans (congrArg (fun n => okRes (leBytes 8 n) _) hv.rev)
  · rw [ht.rtc, ht.regs]
    exact ⟨rfl, rfl, rfl, hv.regs⟩

theorem hourShift_waits (hlord : s.landlord h = true) {dir : Byte} (hdir : dir = 1 ∨ dir = 0xFF) (ha : s.admits h 8)
    (hvalid : calValid s.rtc.cal = true) (hhalt : s.rtc.halt = false) (hshift : s.rtc.shift = none) :
    Reaches (exec (.hourShift h dir) s) fun t =>
      s.inFlightFor t h 0x0B03 8 .shift ∧ t.rtc = { s.rtc with shift := some (decide (dir = 1)) } := by
  refine later_waits (f := fun s => cmdHourShift h dir s) (w := .shift) rfl ha
    { denied := congrArg (!·) hlord, bad := if_pos hdir, changes := nofun
      refuse := (if_neg (ne_false_of_eq_true hvalid)).trans ((if_neg (ne_true_of_eq_false hhalt)).trans
        (if_neg (show ¬ s.rtc.shift.isSome = true by rw [hshift]; decide))) }
    fun v hv => ⟨_, rfl, hv.path.of_same rfl rfl rfl rfl, hv.crsl, fun t hwait ht => ⟨hwait, ?_⟩⟩
  rw [ht.rtc]
  exact congrArg (fun r : Rtc => { r with shift := some (decide (dir = 1)) }) hv.rtc

end

end Sys2Proof.Machine

open Sys2Proof.Machine

/-- Settles O56, a command a clause. -/
theorem pairAndTimeCommands : Obligations.PairAndTimeCommands := by
  intro s h hlord
  exact ⟨fun ha => pairStatus_reaches hlord ha, fun ha hrole hfit => pairSwitch_hands hlord ha hrole hfit,
    fun ha hnot => pairSwitch_refused hlord ha hnot, fun ha => witnessRead_reaches hlord ha, fun ha hcal => timeRead_reaches ha hcal,
    fun regs hlen ha hslots hfree => timeSet_reaches hlord hlen ha hslots hfree,
    fun dir hdir ha hvalid hhalt hshift => hourShift_waits hlord hdir ha hvalid hhalt hshift⟩
end

section
/-! SUPPORT. Chapter 17: the keys by command, and what the SC makes of them (O57). -/
namespace Sys2Proof.Machine

/-! ### What a command's effect starts from (R383) -/

/-- Only the counter of commands taken advances before a command's effect (R383). -/
theorem accept_total (s : State) (h : Hdr) (c : CmdSpec) {o : Nat} (ho : 0x7060 ≠ o) :
    (s.draw.advanceSseq h c).accept.total o = s.total o := by
  obtain ⟨st, haccept⟩ := State.accept_same (s.draw.advanceSseq h c)
  have hadvance : (s.draw.advanceSseq h c).total o = s.total o := by
    unfold State.advanceSseq
    dsimp only
    split <;> rfl
  rw [haccept]
  exact (State.total_count_ne _ 1 ho).trans hadvance

/-- A command that waits in its slot, its effect judged on the one state it starts from. -/
theorem later_waits_at {f : State → State} {s : State} {h : Hdr} {c : CmdSpec} {body : State → Res} {w : Wait} {P : State → Prop}
    (hf : f s.draw = runCmd h c body s.draw) (ha : s.admits h c.maxData) (hc : c.Clear s)
    (hbody : ∀ v, v = (s.draw.advanceSseq h c).accept → Taken s h v → ∃ u, body v = .later w u ∧ PathKept s u h ∧ u.crsl = s.crsl ∧
      ∀ t, s.inFlightFor t h c.opcode c.maxData w → Waiting u t → P t) : Reaches (live f s) P := by
  obtain ⟨u, hu, k, hcrsl, hP⟩ := hbody _ rfl (admits_taken c ha)
  have htake := admits_canTake ha
  have hpass := admits_firstFail ha hc
  have hgiven := (hf.trans (runCmd_later h c body s.draw htake hpass hu)).trans
    (runCmd_later h c (fun _ => .later w u) s.draw htake hpass rfl).symm
  exact later_waits hgiven ha hc fun _ _ => ⟨u, rfl, k, hcrsl, hP⟩

theorem Taken.key {s v : State} {h : Hdr} (hv : Taken s h v) : v.key = s.key := by
  obtain ⟨_, _, _, _, e⟩ := hv.same; rw [e]; rfl

/-! ### Slots (R444, R446) -/

theorem State.slotAt_of_key {s t : State} (h : t.key = s.key) (k : Nat) : t.slotAt k = s.slotAt k := by unfold State.slotAt; rw [h]

theorem State.keysShut_of_key {s t : State} (h : t.key = s.key) : t.keysShut = s.keysShut := by
  unfold State.keysShut State.tampered; rw [h]

/-- The SC has no work in progress (R451). -/
theorem State.keyBusy_eq_false {s : State} (h : s.keyBusy = false) :
    s.key.effectDue = none ∧ (∀ j < 64, (s.slotAt j).state ≠ .writing) ∧ s.replacing = [] := by
  unfold State.keyBusy at h
  simp only [Bool.or_eq_false_iff, Bool.not_eq_false', List.isEmpty_iff] at h
  obtain ⟨⟨heffect, hwriting⟩, hreplacing⟩ := h
  refine ⟨Option.not_isSome_iff_eq_none.mp (ne_true_of_eq_false heffect), fun j hj e => ?_, hreplacing⟩
  have hmem : j ∈ s.slotsIn .writing := List.mem_filter.mpr ⟨List.mem_range.mpr hj, decide_eq_true e⟩
  exact List.not_mem_nil (hwriting ▸ hmem)

theorem finishKeys_idle {s : State} (h : s.keyBusy = false) : s.finishKeys = s := if_neg (ne_true_of_eq_false h)

/-- The record written into a slot (R444). -/
def State.slotRecord (s : State) (k : Nat) (x : KeySlot) (m : List Byte) : KeySlot :=
  ({ x with seq := s.nextJrn, made := s.keyConst
            material := if x.kind = 2 then m else Config.aesWrap (s.slotKek k s.nextJrn) m } : KeySlot).inState .writing

theorem writeSlot_slotAt_self (s : State) (k : Nat) (x : KeySlot) (m : List Byte) : (s.writeSlot k x m).slotAt k = s.slotRecord k x m :=
  sget_sput_self ..

theorem writeSlot_slotAt_ne (s : State) {k j : Nat} (x : KeySlot) (m : List Byte) (h : k ≠ j) :
    (s.writeSlot k x m).slotAt j = s.slotAt j := sget_sput_ne _ _ _ h

/-- The answering of key commands leaves the keys (R451). -/
theorem answerKeys_key (s : State) : s.answerKeys.key = s.key := by
  have hcomplete : ∀ (t : State) (x : Slot) (st de : Nat) (da : List Byte), (t.complete x st de da).key = t.key := fun t x st de da => by
    unfold State.complete State.completeAs
    dsimp only
    split
    · obtain ⟨_, _, _, e⟩ := State.countDone_same _ x.session x.opcode st
      rw [e]
    · obtain ⟨_, _, _, _, _, e⟩ := State.respond_same _ x.session x.opcode x.tag x.booth x.sseq 0 st de da
      rw [e]
  refine List.foldlRecOn (motive := fun t : State => t.key = s.key) _ _ rfl fun t h x _ => ?_
  split
  · split
    · exact (hcomplete ..).trans h
    · split
      · exact h
      · exact (hcomplete ..).trans h
  · split
    · exact h
    · exact (hcomplete ..).trans h
  · exact h

/-- A slot alone in WRITING is VALID after the SC's next step (R446, R451). -/
theorem keyStage_validates {t : State} {k : Nat} (heffect : t.key.effectDue = none) (hshut : t.keysShut = false)
    (hwriting : t.slotsIn .writing = [k]) (hreplacing : t.replacing = []) : (t.keyStage.slotAt k).state = .valid := by
  have hopen : ∀ c, ¬(t.setKey { t.key with copyB := c }).keysShut = true := fun _ => ne_true_of_eq_false hshut
  have hsame : ∀ c, (t.setKey { t.key with copyB := c }).effectStep = t.setKey { t.key with copyB := c } := fun c => by
    unfold State.effectStep
    rw [show (t.setKey { t.key with copyB := c }).key.effectDue = none from heffect]
  have hreplace : ∀ c, (t.setKey { t.key with copyB := c }).replaceStep = t.setKey { t.key with copyB := c } := fun c => by
    unfold State.replaceStep
    rw [show (t.setKey { t.key with copyB := c }).replacing = [] from hreplacing]
    rfl
  have hvalid : ∀ c, (t.setKey { t.key with copyB := c }).validStep = (t.setKey { t.key with copyB := c }).commitJournal
      (sput t.key.slots k ((t.slotAt k).inState .valid)) t.key.ownerRoot := fun c => by
    unfold State.validStep
    rw [show (t.setKey { t.key with copyB := c }).slotsIn .writing = [k] from hwriting]
    rfl
  unfold State.keyStage
  dsimp only
  rw [hsame, if_neg (hopen _), hreplace, hvalid,
    State.slotAt_of_key (answerKeys_key _)]
  exact congrArg KeySlot.state (sget_sput_self ..)

/-- A key written into a slot while the SC is idle is the one in WRITING, and no replacement waits (R446, R448). -/
theorem written_stage {s t : State} {k : Nat} (hidle : s.keyBusy = false) (hk : k < 64) (hself : (t.slotAt k).state = .writing)
    (hother : ∀ j, j ≠ k → t.slotAt j = s.slotAt j) (heffect : t.key.effectDue = s.key.effectDue) (hshut : t.keysShut = false) :
    (t.keyStage.slotAt k).state = .valid := by
  obtain ⟨hnone, hwriting, hreplacing⟩ := State.keyBusy_eq_false hidle
  refine keyStage_validates (heffect.trans hnone) hshut ?_ ?_
  · have hone : ∀ j ∈ List.range 64, decide ((t.slotAt j).state = .writing) = decide (j = k) := fun j hj => by
      obtain rfl | hne := eq_or_ne j k
      · rw [decide_eq_true hself, decide_eq_true rfl]
      · rw [hother j hne, decide_eq_false (hwriting j (List.mem_range.mp hj)), decide_eq_false hne]
    unfold State.slotsIn
    rw [List.filter_congr hone, List.filter_eq, List.count_eq_one_of_mem List.nodup_range (List.mem_range.mpr hk)]
    rfl
  · unfold State.replacing at hreplacing ⊢
    rw [List.filterMap_eq_nil_iff] at hreplacing ⊢
    intro j hj
    obtain ⟨hj, hvalid⟩ := List.mem_filter.mp hj
    have hne : j ≠ k := fun e => by rw [e, hself] at hvalid; exact absurd hvalid (by decide)
    have hold := hreplacing j (List.mem_filter.mpr ⟨hj, by rw [← hother j hne]; exact hvalid⟩)
    rw [hother j hne]
    cases hr : (s.slotAt j).replaces with
    | none => rfl
    | some old =>
      rw [hr] at hold
      dsimp only at hold ⊢
      by_cases e : old = k
      · rw [e, if_neg (by rw [hself]; decide)]
      · rw [hother old e]; exact hold

/-! ### Generation and import (R445, R454, R463) -/

theorem boothIs_of_landlord {s : State} {h : Hdr} (hlord : s.landlord h = true) (own : Nat) : s.boothIs h own = true :=
  decide_eq_true ((of_decide_eq_true hlord).elim .inl fun e => .inr (.inl e))

theorem mayOwn_of_landlord {s : State} {h : Hdr} (hlord : s.landlord h = true) (owner : Byte) : s.mayOwn h owner = true :=
  boothIs_of_landlord hlord owner.toNat

section
variable {s : State} {h : Hdr} (hlord : s.landlord h = true) (hidle : s.keyBusy = false)

/-- The record that a generation asks for (R463). -/
def generatedRecord (r : KeyGenReq) : KeySlot :=
  { kind := r.kind, origin := 0, owner := r.owner, usage := r.usage.setWidth 10, parent := optSlot r.parent, replaces := optSlot r.replaces }

/-- The record that an import of public material asks for (R454). -/
def importedRecord (r : KeyImpReq) : KeySlot :=
  { kind := r.kind, origin := 2, owner := r.owner, usage := r.usage.setWidth 10, parent := optSlot r.parent, replaces := optSlot r.replaces }

/-- A slot that may be written (R447). -/
theorem slotRefused_empty {s : State} {k : Nat} (hshut : s.keysShut = false) (hroom : s.noEmptySlot = false)
    (hempty : (s.slotAt k).state = .empty) : s.slotRefused k = none :=
  (if_neg (ne_true_of_eq_false hshut)).trans ((if_neg (ne_true_of_eq_false hroom)).trans (if_neg (not_not.mpr hempty)))

include hlord hidle in
theorem keyGenerate_runs {r : KeyGenReq} (hshut : s.keysShut = false) (hslot : r.toBlob = false) (hk : r.target < 64)
    (hkind : r.kind = 3 ∨ r.kind = 4) (husage : usageOk r.kind r.usage = true) (hreplaces : r.replaces = 0xFF)
    (hparent : r.parent = 0xFF) (hfits : s.kindFits r.target r.kind 0xFF = true) (hempty : (s.slotAt r.target).state = .empty)
    (hroom : s.noEmptySlot = false) : ∃ (c : CmdSpec) (body : State → Res), cmdKeyGenerate h r s.draw = runCmd h c body s.draw ∧
      c.opcode = 0x0C01 ∧ c.maxData = 68 ∧ c.Clear s ∧ ∀ v : State, body v = .later (.keyWrite r.target [BitVec.ofNat 8 r.target, 0, 0, 0])
        ((v.writeSlot r.target (generatedRecord r) (Config.drbg v.free 32)).count 0x8840 1) := by
  unfold cmdKeyGenerate
  rw [finishKeys_idle (s := s.draw) hidle]
  refine ⟨_, _, rfl, rfl, rfl, { denied := ?_, bad := ?_, changes := nofun, refuse := ?_ }, fun v => ?_⟩
  · have hone : r.kind ≠ 1 := by rcases hkind with e | e <;> rw [e] <;> decide
    have hmay : s.draw.mayOwn h r.owner = true := mayOwn_of_landlord hlord r.owner
    simp [hmay, State.privateDenied, hone]
  · have hbad : s.draw.replaceBad h r.replaces = false := by rw [hreplaces]; rfl
    have hfits' : s.draw.kindFits r.target r.kind r.replaces = true := hreplaces ▸ hfits
    have hone : ¬((r.kind ≠ 1 ∧ r.kind ≠ 3 ∧ r.kind ≠ 4) ∨ (r.toBlob = false ∧ s.draw.kindFits r.target r.kind r.replaces = false)) := by
      rw [hfits']
      rintro (⟨-, h3, h4⟩ | ⟨-, e⟩)
      · exact hkind.elim h3 h4
      · exact absurd e (by decide)
    refine guarded_eq_none.mpr ⟨by omega, guarded_eq_none.mpr ⟨hone, guarded_eq_none.mpr ⟨ne_false_of_eq_true husage, ?_⟩⟩⟩
    refine guarded_eq_none.mpr ⟨fun e => ne_true_of_eq_false hbad e.2, guarded_eq_none.mpr ⟨fun e => e.2.1 hparent, ?_⟩⟩
    exact guarded_eq_none.mpr ⟨fun e => ne_true_of_eq_false hslot e.1, rfl⟩
  · dsimp only
    rw [hslot, if_neg (by decide)]
    exact slotRefused_empty (s := s.draw) hshut hroom hempty
  · have hone : r.kind ≠ 1 := by rcases hkind with e | e <;> rw [e] <;> decide
    dsimp only
    rw [hslot, if_neg (by decide), if_neg hone]
    rfl

/-- A key written for a command: its slot WRITING with the record, the others as they were, VALID at the SC's next step (R444, R446). -/
theorem keyWritten {v t : State} {k : Nat} (x : KeySlot) (m : List Byte) {off : Nat} (hidle : s.keyBusy = false)
    (hshut : s.keysShut = false) (hk : k < 64) (hkey : v.key = s.key) (htotal : v.total off = s.total off)
    (hoff : 0x69FC ≠ off) (ht : Waiting ((v.writeSlot k x m).count off 1) t) :
    t.slotAt k = v.slotRecord k x m ∧ (∀ j, j ≠ k → t.slotAt j = s.slotAt j) ∧ (t.keyStage.slotAt k).state = .valid ∧
      t.total off = s.total off + 1 := by
  have htkey : t.key = (v.writeSlot k x m).key := ht.key
  have hself : t.slotAt k = v.slotRecord k x m := (State.slotAt_of_key htkey k).trans (writeSlot_slotAt_self ..)
  have hother : ∀ j, j ≠ k → t.slotAt j = s.slotAt j := fun j hj =>
    (State.slotAt_of_key htkey j).trans ((writeSlot_slotAt_ne v x m hj.symm).trans (State.slotAt_of_key hkey j))
  have heffect : t.key.effectDue = s.key.effectDue := by rw [htkey, ← hkey]; rfl
  have hstill : t.keysShut = false := by
    have hsame : t.keysShut = v.keysShut := by unfold State.keysShut State.tampered; rw [htkey]; rfl
    rw [hsame, State.keysShut_of_key hkey, hshut]
  refine ⟨hself, hother, written_stage hidle hk (by rw [hself]; rfl) hother heffect hstill, ?_⟩
  rw [ht.total off hoff, State.total_count]
  exact congrArg (· + 1) htotal

include hlord hidle in
theorem keyGenerate_reaches {r : KeyGenReq} (ha : s.admits h 68) (hshut : s.keysShut = false) (hslot : r.toBlob = false)
    (hk : r.target < 64) (hkind : r.kind = 3 ∨ r.kind = 4) (husage : usageOk r.kind r.usage = true) (hreplaces : r.replaces = 0xFF)
    (hparent : r.parent = 0xFF) (hfits : s.kindFits r.target r.kind 0xFF = true) (hempty : (s.slotAt r.target).state = .empty)
    (hroom : s.noEmptySlot = false) : Reaches (exec (.keyGenerate h r) s) fun t =>
      s.inFlightFor t h 0x0C01 68 (.keyWrite r.target [BitVec.ofNat 8 r.target, 0, 0, 0]) ∧
        (t.slotAt r.target).state = .writing ∧ (t.keyStage.slotAt r.target).state = .valid ∧
        (t.slotAt r.target).kind = r.kind ∧ (t.slotAt r.target).origin = 0 ∧ (t.slotAt r.target).owner = r.owner ∧
        (t.slotAt r.target).usage = r.usage.setWidth 10 ∧ (∀ j, j ≠ r.target → t.slotAt j = s.slotAt j) ∧
        t.total 0x8840 = s.total 0x8840 + 1 := by
  obtain ⟨c, body, hrun, hop, hmax, hclear, hbody⟩ :=
    keyGenerate_runs hlord hidle hshut hslot hk hkind husage hreplaces hparent hfits hempty hroom
  refine later_waits_at (f := fun s => cmdKeyGenerate h r s) hrun (hmax ▸ ha) hclear fun v hat hv =>
    ⟨_, hbody v, hv.path.of_same rfl rfl rfl rfl, hv.crsl, fun t hwait ht => ?_⟩
  obtain ⟨hself, hother, hvalid, htotal⟩ := keyWritten _ _ hidle hshut hk hv.key (hat ▸ accept_total s h c (by decide)) (by decide) ht
  rw [hop, hmax] at hwait
  rw [hself]
  exact ⟨hwait, rfl, hvalid, rfl, rfl, rfl, rfl, hother, htotal⟩

include hlord hidle in
theorem keyImport_runs {r : KeyImpReq} (hshut : s.keysShut = false) (hk : r.slot < 64) (hkind : r.kind = 2)
    (husage : usageOk 2 r.usage = true) (hreplaces : r.replaces = 0xFF) (hparent : r.parent = 0xFF) (hlen : r.material.length = 64)
    (hfits : s.kindFits r.slot 2 0xFF = true) (hempty : (s.slotAt r.slot).state = .empty) (hroom : s.noEmptySlot = false) :
    ∃ (c : CmdSpec) (body : State → Res), cmdKeyImport h r s.draw = runCmd h c body s.draw ∧
      c.opcode = 0x0C02 ∧ c.maxData = 1 ∧ c.Clear s ∧ ∀ v : State, body v = .later (.keyWrite r.slot [BitVec.ofNat 8 r.slot])
        ((v.writeSlot r.slot (importedRecord r) r.material).count 0x8844 1) := by
  unfold cmdKeyImport
  rw [finishKeys_idle (s := s.draw) hidle]
  refine ⟨_, _, rfl, rfl, rfl, { denied := ?_, bad := ?_, changes := nofun, refuse := ?_ }, fun v => ?_⟩
  · have hmay : s.draw.mayOwn h r.owner = true := mayOwn_of_landlord hlord r.owner
    simp [hmay, State.privateDenied, hkind]
  · have hbad : s.draw.replaceBad h r.replaces = false := by rw [hreplaces]; rfl
    have hfits' : s.draw.kindFits r.slot r.kind r.replaces = true := by rw [hreplaces, hkind]; exact hfits
    have husage' : usageOk r.kind r.usage = true := hkind ▸ husage
    have hone : ¬(r.kind < 1 ∨ 4 < r.kind ∨ s.draw.kindFits r.slot r.kind r.replaces = false) := by rw [hfits', hkind]; decide
    refine guarded_eq_none.mpr ⟨by omega, guarded_eq_none.mpr ⟨hone, guarded_eq_none.mpr ⟨ne_false_of_eq_true husage', ?_⟩⟩⟩
    refine guarded_eq_none.mpr ⟨fun e => e.1 hkind, guarded_eq_none.mpr ⟨ne_true_of_eq_false hbad, ?_⟩⟩
    exact guarded_eq_none.mpr ⟨fun e => e.1 hparent, guarded_eq_none.mpr ⟨by rw [if_pos hkind]; exact not_not.mpr hlen, rfl⟩⟩
  · exact slotRefused_empty (s := s.draw) hshut hroom hempty
  · dsimp only
    rw [if_pos hkind]
    unfold importedRecord
    rw [if_pos hkind]

include hlord hidle in
theorem keyImport_reaches {r : KeyImpReq} (ha : s.admits h 1) (hshut : s.keysShut = false) (hk : r.slot < 64) (hkind : r.kind = 2)
    (husage : usageOk 2 r.usage = true) (hreplaces : r.replaces = 0xFF) (hparent : r.parent = 0xFF) (hlen : r.material.length = 64)
    (hfits : s.kindFits r.slot 2 0xFF = true) (hempty : (s.slotAt r.slot).state = .empty) (hroom : s.noEmptySlot = false) :
    Reaches (exec (.keyImport h r) s) fun t =>
      s.inFlightFor t h 0x0C02 1 (.keyWrite r.slot [BitVec.ofNat 8 r.slot]) ∧
        (t.slotAt r.slot).state = .writing ∧ (t.keyStage.slotAt r.slot).state = .valid ∧
        (t.slotAt r.slot).kind = 2 ∧ (t.slotAt r.slot).origin = 2 ∧ (t.slotAt r.slot).owner = r.owner ∧
        (t.slotAt r.slot).material = r.material ∧ (∀ j, j ≠ r.slot → t.slotAt j = s.slotAt j) ∧ t.total 0x8844 = s.total 0x8844 + 1 := by
  obtain ⟨c, body, hrun, hop, hmax, hclear, hbody⟩ :=
    keyImport_runs hlord hidle hshut hk hkind husage hreplaces hparent hlen hfits hempty hroom
  refine later_waits_at (f := fun s => cmdKeyImport h r s) hrun (hmax ▸ ha) hclear fun v hat hv =>
    ⟨_, hbody v, hv.path.of_same rfl rfl rfl rfl, hv.crsl, fun t hwait ht => ?_⟩
  obtain ⟨hself, hother, hvalid, htotal⟩ := keyWritten _ _ hidle hshut hk hv.key (hat ▸ accept_total s h c (by decide)) (by decide) ht
  rw [hop, hmax] at hwait
  rw [hself]
  exact ⟨hwait, rfl, hvalid, hkind, rfl, rfl, if_pos hkind, hother, htotal⟩

end

/-! ### Revocation (R452) -/

/-- A command answered at once with OK, whatever becomes of its path: its effect as `u` has it (R378). -/
theorem ok_leaves {f : State → State} {s u : State} {h : Hdr} {c : CmdSpec} {body : State → Res} {fl : Nat} {da : List Byte}
    (hf : f s.draw = runCmd h c body s.draw) (ha : s.admits h c.maxData) (hc : c.Clear s)
    (hbody : body (s.draw.advanceSseq h c).accept = .now 0 0 da fl u) (hnest : u.flt.nest = s.flt.nest) :
    Reaches (live f s) (Served u) := by
  have hrun := hf.trans (runCmd_now h c body s.draw (admits_canTake ha) (admits_firstFail ha hc) hbody)
  have hleft := (respond_leaves u h.session.val c.opcode h.tag h.booth h.sseq fl 0 0 da).flt
  exact (live_ends ha.1.1 hrun ((congrArg Flt.nest hleft).trans hnest)).imp fun _ ht => respond_served _ _ _ _ _ _ _ _ _ ht

theorem closeRevoked_aside (s : State) (ks : List Nat) : Aside true s (s.closeRevoked ks) := by
  unfold State.closeRevoked
  extract_lets mats hit s1 s2 idents booths sc
  have h1 : Aside true s s1 := foldl_aside _ (fun t n => ite_aside (closeSession_aside t n) (.refl t)) _ s
  have h2 : Aside true s1 s2 := foldl_aside _ (fun t n => ite_aside (tunnelClose_aside t n) (.refl t)) _ s1
  clear_value sc booths idents s2 s1
  exact (h1.trans h2).trans (.of_same (fun _ => rfl) rfl rfl rfl rfl rfl rfl)

/-- Slots revoked one after the other are REVOKED, the others as they were (R452). -/
theorem revoked_state (ks : List Nat) (m : Sparse KeySlot) (j : Nat) :
    (sget {} (ks.foldl (fun (m : Sparse KeySlot) k => sput m k ((sget {} m k).inState .revoked)) m) j).state =
      if j ∈ ks then .revoked else (sget {} m j).state := by
  induction ks generalizing m with
  | nil => rfl
  | cons k ks ih =>
    rw [List.foldl_cons, ih]
    obtain rfl | hne := eq_or_ne k j
    · rw [sget_sput_self, if_pos List.mem_cons_self]
      split <;> rfl
    · rw [sget_sput_ne _ _ _ hne]
      simp [hne.symm]

/-- A revocation of slots: their states, what is shown and what is counted (R452). -/
theorem revoke_shows (s : State) {ks : List Nat} (owner : Nat) (hks : ks ≠ []) :
    (∀ j, ((s.revoke ks owner).slotAt j).state = if j ∈ ks then .revoked else (s.slotAt j).state) ∧ (s.revoke ks owner).sq 17 4 = true ∧
      (s.revoke ks owner).total 0x8848 = s.total 0x8848 + ks.length ∧ (s.revoke ks owner).flt.nest = s.flt.nest := by
  unfold State.revoke
  extract_lets s1 slots cache _ s2 _ s3
  have hclose : Aside true s s1 := closeRevoked_aside s ks
  obtain ⟨d, hd⟩ : ∃ d, s3 = { s2 with dbg := d } := by
    clear_value s2
    subst s3
    split
    · split
      · exact ⟨_, rfl⟩
      · exact ⟨s2.dbg, rfl⟩
    · exact ⟨s2.dbg, rfl⟩
  rw [if_neg (by rwa [List.isEmpty_iff]), hd]
  clear_value s1
  refine ⟨fun j => ?_, State.sq_setSQ_self _ 17 4, ?_, hclose.nest⟩
  · refine (revoked_state ks s1.key.slots j).trans ?_
    rw [hclose.key]
    rfl
  · exact (State.total_count _ _ _).trans (congrArg (· + ks.length) (hclose.total _ (by decide)))

theorem UnitsKept.key {u t : State} (h : UnitsKept u t) : t.key = u.key := by
  obtain ⟨_, _, _, _, _, _, _, _, _, rfl⟩ := h; rfl

section
variable {s : State} {h : Hdr} (hlord : s.landlord h = true) (hidle : s.keyBusy = false) {k : Nat} (hk : k < 64)

include hlord hidle hk in
theorem keyRevoke_runs : ∃ (c : CmdSpec) (body : State → Res), cmdKeyRevoke h k s.draw = runCmd h c body s.draw ∧ c.opcode = 0x0C03 ∧
    c.maxData = 16 ∧ { c with refuse := none }.Clear s ∧
    c.refuse = (if s.keysShut then some 6 else if k = 0 ∨ k = s.key.ownerRoot then some 5 else none) ∧
    ∀ v : State, ∃ da, body v = .now 0 0 da 0 (v.revoke (v.revokeSet k) v.key.ownerRoot) := by
  unfold cmdKeyRevoke
  rw [finishKeys_idle (s := s.draw) hidle]
  exact ⟨_, _, rfl, rfl, rfl, { denied := congrArg (!·) (mayOwn_of_landlord hlord _), bad := if_pos hk, changes := nofun }, rfl,
    fun v => ⟨_, rfl⟩⟩

include hlord hidle hk in
theorem keyRevoke_reaches (ha : s.admits h 16) (hshut : s.keysShut = false) (hzero : k ≠ 0) (hroot : k ≠ s.key.ownerRoot)
    (hset : s.revokeSet k ≠ []) : Reaches (exec (.keyRevoke h k) s) fun t =>
      (∀ j ∈ s.revokeSet k, (t.slotAt j).state = .revoked) ∧ (∀ j, j ∉ s.revokeSet k → (t.slotAt j).state = (s.slotAt j).state) ∧
        t.sq 17 4 = true ∧ t.total 0x8848 = s.total 0x8848 + (s.revokeSet k).length := by
  obtain ⟨c, body, hrun, -, hmax, hclear, hrefuse, hbody⟩ := keyRevoke_runs hlord hidle hk
  have hpass : c.refuse = none := hrefuse.trans ((if_neg (ne_true_of_eq_false hshut)).trans (if_neg (not_or.mpr ⟨hzero, hroot⟩)))
  obtain ⟨da, hnow⟩ := hbody (s.draw.advanceSseq h c).accept
  have hv : Taken s h (s.draw.advanceSseq h c).accept := admits_taken c ha
  have htotal := accept_total s h c (o := 0x8848) (by decide)
  have hclear' : c.Clear s := { hclear with refuse := hpass }
  have hleaves := fun u => ok_leaves (u := u) (fl := 0) (da := da) (f := fun s => cmdKeyRevoke h k s) hrun (hmax ▸ ha) hclear'
  generalize (s.draw.advanceSseq h c).accept = v at hnow hv htotal hleaves
  have hks : v.revokeSet k = s.revokeSet k := by obtain ⟨_, _, _, _, e⟩ := hv.same; rw [e]; rfl
  rw [hks] at hnow
  obtain ⟨hstate, hsq, hcount, hnest⟩ := revoke_shows v v.key.ownerRoot hset
  refine (hleaves _ hnow (hnest.trans (hv.path.nest.trans (admits_calm ha).symm))).imp fun t ht => ?_
  have hslot : ∀ j, (t.slotAt j).state = if j ∈ s.revokeSet k then .revoked else (s.slotAt j).state := fun j => by
    rw [State.slotAt_of_key ht.key, hstate, State.slotAt_of_key hv.key]
  refine ⟨fun j hj => (hslot j).trans (if_pos hj), fun j hj => (hslot j).trans (if_neg hj), (ht.sq 17 4 (by decide)).trans hsq, ?_⟩
  rw [ht.total _ (by decide) (by decide), hcount, htotal]

include hlord hidle hk in
/-- A revocation while keys are shut is refused (R457). -/
theorem keyRevoke_refused (ha : s.admits h 16) (hshut : s.keysShut = true) :
    Reaches (exec (.keyRevoke h k) s) fun t => s.turnedDown t h 0x0C03 0 0x0E 6 [] ∧ t.key = s.key := by
  obtain ⟨c, body, hrun, hop, hmax, hclear, hrefuse, -⟩ := keyRevoke_runs hlord hidle hk
  have hreach := refused_reaches (f := fun s => cmdKeyRevoke h k s) hrun (hmax ▸ ha) hclear (hrefuse.trans (if_pos hshut))
  exact (hop ▸ hreach).imp fun t ⟨hdown, hkept⟩ => ⟨hdown, hkept.key⟩

end

/-! ### The cache (R449, R450) -/

theorem State.slotUsable_of_key {s t : State} (h : t.key = s.key) (k : Nat) : t.slotUsable k = s.slotUsable k := by
  unfold State.slotUsable State.keyConst State.slotAt; rw [h]

theorem State.keyOf_of_key {s t : State} (h : t.key = s.key) (k : Nat) : t.keyOf k = s.keyOf k := by
  unfold State.keyOf State.slotKek State.kst State.slotAt; rw [h]

theorem State.openBlob_of_key {s t : State} (h : t.key = s.key) (b : List Byte) : t.openBlob b = s.openBlob b := by
  unfold State.openBlob; rw [State.keyOf_of_key h]

theorem State.cacheVictim_of_key {s t : State} (h : t.key = s.key) : t.cacheVictim = s.cacheVictim := by
  unfold State.cacheVictim; rw [h]

/-- The entry that a load takes is one of the 32. -/
theorem State.cacheVictim_lt {s : State} {i : Nat} (h : s.cacheVictim = some i) : i < 32 := by
  unfold State.cacheVictim at h
  split at h
  next j hfree =>
    obtain rfl := Option.some.inj h
    exact idxWhere_lt hfree
  next =>
    revert h
    refine List.foldlRecOn (motive := fun a : Option Nat => a = some i → i < 32) _ _ (fun e => absurd e (by simp)) fun a ih j hj e => ?_
    have hlt : ∀ o : Option Nat, (o = a ∨ o = some j) → o = some i → i < 32 := fun o ho he => by
      obtain rfl | rfl := ho
      · exact ih he
      · exact Option.some.inj he ▸ List.mem_range.mp hj
    refine hlt _ ?_ e
    dsimp only
    split
    · exact .inl rfl
    · split
      · exact .inr rfl
      · split
        · exact .inr rfl
        · exact .inl rfl

/-- The effect of BLOB_LOAD: the blob in its entry, and persisted where that is asked (R450). -/
def State.blobLoaded (s : State) (i : Nat) (b m : List Byte) (persist : Bool) : State :=
  let s := s.cacheLoad i b m
  if persist then s.setKey { s.key with persisted := s.key.persisted ++ [b] } else s

theorem blobLoaded_same (s : State) (i : Nat) (b m : List Byte) (persist : Bool) :
    ∃ k c, s.blobLoaded i b m persist = { s with key := k, cnt := c } := by
  obtain ⟨k, c, e⟩ := cacheLoad_same s i b m
  unfold State.blobLoaded
  rw [e]
  cases persist <;> exact ⟨_, _, rfl⟩

theorem cacheLoad_key (s : State) (i : Nat) (b m : List Byte) : ∃ c : CacheEnt, c.loaded = true ∧ c.material = m ∧
    c.gen = ((s.key.cache.getD i {}).gen + 1) % 2048 ∧
    (s.cacheLoad i b m).key = { s.key with cache := lmod s.key.cache i fun _ => c, useCount := s.key.useCount + 1 } := by
  unfold State.cacheLoad
  extract_lets old c _ s1 s2
  refine ⟨c, rfl, rfl, rfl, ?_⟩
  split <;> rfl

/-- The entry of a blob loaded, its generation, and what is persisted (R450). -/
theorem blobLoaded_key (s : State) {i : Nat} (b m : List Byte) (persist : Bool) (hi : i < s.key.cache.length) :
    let k := (s.blobLoaded i b m persist).key
    (k.cache.getD i {}).loaded = true ∧ (k.cache.getD i {}).material = m ∧
      (k.cache.getD i {}).gen = ((s.key.cache.getD i {}).gen + 1) % 2048 ∧
      k.persisted = if persist then s.key.persisted ++ [b] else s.key.persisted := by
  obtain ⟨c, hloaded, hmat, hgen, hkey⟩ := cacheLoad_key s i b m
  have hcache : (s.blobLoaded i b m persist).key.cache = lmod s.key.cache i fun _ => c := by
    unfold State.blobLoaded
    cases persist <;> exact congrArg Key.cache hkey
  have hent : (lmod s.key.cache i fun _ => c).getD i {} = c := lmod_getD_self _ _ _ _ hi
  have hpersisted : (s.cacheLoad i b m).key.persisted = s.key.persisted := by rw [hkey]
  dsimp only
  rw [hcache, hent]
  refine ⟨hloaded, hmat, hgen, ?_⟩
  unfold State.blobLoaded
  cases persist
  · exact hpersisted
  · exact congrArg (· ++ [b]) hpersisted

section
variable {s : State} {h : Hdr} (hlord : s.landlord h = true) (hidle : s.keyBusy = false)

include hlord hidle in
theorem blobLoad_runs {blob m : List Byte} {i : Nat} (persist : Bool) (hshut : s.keysShut = false) (hfits : s.blobFits blob = true)
    (husable : s.slotUsable (leAt blob 6 1) = true) (hopens : s.openBlob blob = some m) (hvictim : s.cacheVictim = some i) :
    ∃ (c : CmdSpec) (body : State → Res), cmdBlobLoad h blob persist s.draw = runCmd h c body s.draw ∧ c.opcode = 0x0C04 ∧ c.maxData = 2 ∧
      c.Clear s ∧ ∀ v : State, v.key = s.key →
        let u := v.blobLoaded i blob m persist
        body v = okRes (leBytes 2 (i + 32 * (u.key.cache.getD i {}).gen)) u := by
  unfold cmdBlobLoad
  rw [finishKeys_idle (s := s.draw) hidle]
  refine ⟨_, _, rfl, rfl, rfl, { denied := ?_, bad := ?_, changes := nofun, busy := ?_, refuse := ?_ }, fun v hkey => ?_⟩
  · exact congrArg (!·) (boothIs_of_landlord (s := s.draw) hlord _)
  · exact if_neg fun e => ne_false_of_eq_true hfits e.2
  · have hsome : s.draw.cacheVictim = some i := hvictim
    dsimp only
    rw [hsome]
    rfl
  · exact if_neg (ne_true_of_eq_false hshut)
  · dsimp only
    rw [State.slotUsable_of_key hkey, if_neg (ne_false_of_eq_true husable), State.openBlob_of_key hkey, hopens,
      State.cacheVictim_of_key hkey, hvictim]
    rfl

include hlord hidle in
theorem blobLoad_reaches {blob m : List Byte} {i : Nat} (persist : Bool) (ha : s.admits h 2) (hshut : s.keysShut = false)
    (hfits : s.blobFits blob = true) (husable : s.slotUsable (leAt blob 6 1) = true) (hopens : s.openBlob blob = some m)
    (hvictim : s.cacheVictim = some i) (hlen : s.key.cache.length = 32) :
    Reaches (exec (.blobLoad h blob persist) s) fun t => (t.key.cache.getD i {}).loaded = true ∧
        (t.key.cache.getD i {}).material = m ∧ (t.key.cache.getD i {}).gen = ((s.key.cache.getD i {}).gen + 1) % 2048 ∧
        t.key.persisted = (if persist then s.key.persisted ++ [blob] else s.key.persisted) ∧
        s.answered t h 0x0C04 0 (leBytes 2 (i + 32 * (((s.key.cache.getD i {}).gen + 1) % 2048))) := by
  obtain ⟨c, body, hrun, hop, hmax, hclear, hbody⟩ := blobLoad_runs hlord hidle persist hshut hfits husable hopens hvictim
  have hi : i < s.key.cache.length := hlen ▸ State.cacheVictim_lt hvictim
  refine ok_serves (f := fun s => cmdBlobLoad h blob persist s) (fl := 0)
    (da := leBytes 2 (i + 32 * (((s.key.cache.getD i {}).gen + 1) % 2048))) hrun (hmax ▸ ha) hclear (by rw [leBytes_length, hmax]) fun v hv =>
    ⟨v.blobLoaded i blob m persist, ?_, ?_, fun t hans ht => ?_⟩
  · obtain ⟨-, -, hgen, -⟩ := blobLoaded_key v blob m persist (hv.key ▸ hi)
    rw [hbody v hv.key, hgen, hv.key]
    rfl
  · obtain ⟨_, _, e⟩ := blobLoaded_same v i blob m persist
    rw [e]
    exact hv.path.of_same rfl rfl rfl rfl
  · obtain ⟨hloaded, hmat, hgen, hpersisted⟩ := blobLoaded_key v blob m persist (hv.key ▸ hi)
    rw [hv.key] at hgen hpersisted
    rw [hop] at hans
    rw [ht.key]
    exact ⟨hloaded, hmat, hgen, hpersisted, hans⟩

/-! ### Attestation (R453) -/

theorem statement_length_le (s : State) (subject k kind origin : Nat) (owner : Byte) (usage : BitVec 10) (id : W64) (nonce mat : List Byte) :
    (s.statement subject k kind origin owner usage id nonce mat).length ≤ 200 := by
  unfold State.statement
  simp only [List.length_append, leBytes_length, List.length_cons, List.length_nil, List.length_take, ecdsaSign_length]
  omega

include hlord hidle in
theorem attest_reaches (k : Fin 64) {nonce : List Byte} (ha : s.admits h 200) (hshut : s.keysShut = false) (hnonce : nonce.length = 32)
    (husable : s.slotUsable k.val = true) (hsigns : s.identSigns = true) :
    Reaches (exec (.attest h 0 (BitVec.ofNat 16 k.val) nonce) s) fun t =>
      let x := s.slotAt k.val
      s.answered t h 0x0C05 0 (s.statement 0 k.val x.kind x.origin x.owner x.usage 0 nonce (s.keyOf k.val)) ∧ t.key = s.key ∧
        t.total 0x8854 = s.total 0x8854 + 1 := by
  have href : (BitVec.ofNat 16 k.val).toNat = k.val := by
    rw [BitVec.toNat_ofNat]
    exact Nat.mod_eq_of_lt (Nat.lt_trans k.isLt (by decide))
  have hvalid : (s.slotAt k.val).state = .valid := by
    unfold State.slotUsable at husable
    simp only [Bool.and_eq_true, decide_eq_true_eq] at husable
    exact husable.1.1
  have hrun : ∃ (c : CmdSpec) (body : State → Res),
      cmdAttest h 0 (BitVec.ofNat 16 k.val) nonce s.draw = runCmd h c body s.draw ∧ c.opcode = 0x0C05 ∧ c.maxData = 200 ∧ c.Clear s ∧
        ∀ v : State, v.key = s.key → body v = okRes (v.statement 0 k.val (v.slotAt k.val).kind (v.slotAt k.val).origin
          (v.slotAt k.val).owner (v.slotAt k.val).usage 0 nonce (v.keyOf k.val)) (v.count 0x8854 1) := by
    unfold cmdAttest
    rw [finishKeys_idle (s := s.draw) hidle]
    refine ⟨_, _, rfl, rfl, rfl, { denied := ?_, bad := ?_, changes := nofun, refuse := ?_ }, fun v hkey => ?_⟩
    · exact congrArg (!·) (boothIs_of_landlord (s := s.draw) hlord _)
    · dsimp only
      rw [href]
      refine guarded_eq_none.mpr ⟨by decide, guarded_eq_none.mpr ⟨?_, guarded_eq_none.mpr ⟨not_not.mpr hnonce, rfl⟩⟩⟩
      rintro ⟨-, hout | hempty⟩
      · exact absurd k.isLt (Nat.not_lt.mpr hout)
      · exact absurd (hvalid.symm.trans hempty) (by decide)
    · refine guarded_eq_none.mpr ⟨ne_true_of_eq_false hshut, guarded_eq_none.mpr ⟨fun e => absurd e.1 (by decide), ?_⟩⟩
      exact guarded_eq_none.mpr ⟨ne_false_of_eq_true hsigns, rfl⟩
    · dsimp only
      rw [if_pos rfl, href, State.slotUsable_of_key hkey, if_neg (ne_false_of_eq_true husable)]
  obtain ⟨c, body, hrun, hop, hmax, hclear, hbody⟩ := hrun
  refine ok_serves_at (f := fun s => cmdAttest h 0 (BitVec.ofNat 16 k.val) nonce s) (fl := 0)
    (da := s.statement 0 k.val (s.slotAt k.val).kind (s.slotAt k.val).origin (s.slotAt k.val).owner (s.slotAt k.val).usage 0 nonce
      (s.keyOf k.val)) hrun (hmax ▸ ha) hclear (hmax ▸ statement_length_le ..) fun v hat hv =>
    ⟨v.count 0x8854 1, ?_, hv.path.of_same rfl rfl rfl rfl, fun t hans ht => ?_⟩
  · rw [hbody v hv.key]
    have hdata : v.statement 0 k.val (v.slotAt k.val).kind (v.slotAt k.val).origin (v.slotAt k.val).owner (v.slotAt k.val).usage 0 nonce
        (v.keyOf k.val) = s.statement 0 k.val (s.slotAt k.val).kind (s.slotAt k.val).origin (s.slotAt k.val).owner (s.slotAt k.val).usage 0
          nonce (s.keyOf k.val) := by
      obtain ⟨_, _, _, _, e⟩ := hv.same
      rw [e]
      rfl
    rw [hdata]
    rfl
  · rw [hop] at hans
    refine ⟨hans, ht.key.trans hv.key, ?_⟩
    rw [ht.total _ (by decide) (by decide), State.total_count, hat, accept_total s h c (by decide)]

end

end Sys2Proof.Machine
open Sys2Proof.Machine

/-- Settles O57, from what each command's effect makes of the slots, the cache and the counters while the SC is idle. -/
theorem keyCommands : Obligations.KeyCommands := by
  intro s h hlord hidle
  exact ⟨fun r ha hshut hslot hk hkind husage hreplaces hparent hfits hempty hroom =>
      keyGenerate_reaches hlord hidle ha hshut hslot hk hkind husage hreplaces hparent hfits hempty hroom,
    fun r ha hshut hk hkind husage hreplaces hparent hlen hfits hempty hroom =>
      keyImport_reaches hlord hidle ha hshut hk hkind husage hreplaces hparent hlen hfits hempty hroom,
    fun k ha hshut hk hzero hroot hset => keyRevoke_reaches hlord hidle hk ha hshut hzero hroot hset,
    fun blob m i persist ha hshut hfits husable hopens hvictim hlen =>
      blobLoad_reaches hlord hidle persist ha hshut hfits husable hopens hvictim hlen,
    fun k nonce ha hshut hnonce husable hsigns => attest_reaches hlord hidle k ha hshut hnonce husable hsigns,
    fun k ha hshut hk => keyRevoke_refused hlord hidle hk ha hshut⟩

end

section
/-! SUPPORT. Chapter 17: the life cycle by token, tamper, the debug port and trace (O58). -/
namespace Sys2Proof.Machine

/-! ### Life cycle (R441, R442) -/

theorem lifeOf_num (l : LifeCycle) : lifeOf l.num = some l := by cases l <;> rfl

/-- A token signed by the owner root for a permitted transition that the root signs (R441, R442). -/
structure TokenHolds (s : State) (token : List Byte) (f t : LifeCycle) : Prop where
  length : token.length = 96
  magic : leAt token 0 4 = 0x4C435431
  start : leAt token 4 1 = f.num
  goal : leAt token 5 1 = t.num
  flags : leAt token 6 2 = 0
  serial : leAt token 8 8 = s.fuse.serial.toNat
  count : leAt token 16 4 = s.key.lcCount
  signer : leAt token 20 1 = 1
  reserved : ∀ b ∈ (token.drop 21).take 11, b = 0
  signed : ∃ k, s.lcSigner 1 = some k ∧ Config.ecdsaOk k (Config.sha256 (token.take 32)) (token.drop 32) = true

section
variable {s : State} {h : Hdr} {token : List Byte} {f t : LifeCycle}

theorem lifeCycle_runs (hlord : s.landlord h = true) (hidle : s.keyBusy = false) (hshut : s.keysShut = false)
    (htok : TokenHolds s token f t) (hlife : s.key.life = f) (hpermit : lcPermitted f t = true) (haccept : s.lcSignerOk f t 1 = true)
    (hnew : f ≠ .returned) : ∃ (c : CmdSpec) (body : State → Res), cmdLifeCycle h token s.draw = runCmd h c body s.draw ∧
      c.opcode = 0x0C02 ∧ c.maxData = 1 ∧ c.Clear s ∧ ∀ v : State, body v = .later .lifeCycle (v.lcFuse f t) := by
  have hf : lifeOf (leAt token 4 1) = some f := by rw [htok.start, lifeOf_num]
  have ht : lifeOf (leAt token 5 1) = some t := by rw [htok.goal, lifeOf_num]
  obtain ⟨k, hsigner, hsig⟩ := htok.signed
  unfold cmdLifeCycle
  rw [finishKeys_idle (s := s.draw) hidle]
  simp only [hf, ht, htok.signer]
  refine ⟨_, _, rfl, rfl, rfl, { denied := ?_, authFail := ?_, bad := ?_, changes := nofun, refuse := ?_ }, fun v => rfl⟩
  · exact congrArg (!·) hlord
  · have hsigner' : s.draw.lcSigner 1 = some k := hsigner
    have haccept' : s.draw.lcSignerOk f t 1 = true := haccept
    simp [hsigner', haccept', hsig]
  · have hlife' : s.draw.key.life.num = f.num := congrArg LifeCycle.num hlife
    have hzero : ¬((token.drop 21).take 11).any (· != 0) = true := by
      rw [List.any_eq_true]
      rintro ⟨b, hb, hne⟩
      exact absurd (htok.reserved b hb) (by simpa using hne)
    refine guarded_eq_none.mpr ⟨fun e => e.elim (· htok.length) (· htok.magic), guarded_eq_none.mpr ⟨?_, ?_⟩⟩
    · exact not_not.mpr (htok.start.trans hlife'.symm)
    refine guarded_eq_none.mpr ⟨not_not.mpr htok.flags, guarded_eq_none.mpr ⟨not_not.mpr htok.serial, ?_⟩⟩
    exact guarded_eq_none.mpr ⟨not_not.mpr htok.count, guarded_eq_none.mpr ⟨hzero, rfl⟩⟩
  · refine guarded_eq_none.mpr ⟨ne_false_of_eq_true hpermit, guarded_eq_none.mpr ⟨fun e => hnew (Option.some.inj e.1), ?_⟩⟩
    exact guarded_eq_none.mpr ⟨fun e => ne_true_of_eq_false hshut e.1, rfl⟩

/-- A token that holds blows the fuses of its transition, its effect due and the command in flight (R442). -/
theorem lifeCycle_reaches {P : State → Prop} (ha : s.admits h 1) (hlord : s.landlord h = true) (hidle : s.keyBusy = false)
    (hshut : s.keysShut = false) (htok : TokenHolds s token f t) (hlife : s.key.life = f) (hpermit : lcPermitted f t = true)
    (haccept : s.lcSignerOk f t 1 = true) (hnew : f ≠ .returned)
    (hP : ∀ u : State, s.inFlightFor u h 0x0C02 1 .lifeCycle →
      u.key = { s.key with life := t, lcCount := s.key.lcCount + 1, effectDue := some (f, t) } → P u) :
    Reaches (exec (.lifeCycleTransition h token) s) P := by
  obtain ⟨c, body, hrun, hop, hmax, hclear, hbody⟩ := lifeCycle_runs hlord hidle hshut htok hlife hpermit haccept hnew
  refine later_waits (f := fun s => cmdLifeCycle h token s) hrun (hmax ▸ ha) hclear fun v hv =>
    ⟨_, hbody v, hv.path.of_same rfl rfl rfl rfl, hv.crsl, fun u hwait hu => ?_⟩
  rw [hop, hmax] at hwait
  refine hP u hwait ?_
  have hepoch : (if f = .returned ∧ t = .provisioned then v.key.epoch + 1 else v.key.epoch) = v.key.epoch := if_neg fun e => hnew e.1
  rw [hu.key]
  show ({ v.key with life := t, lcCount := v.key.lcCount + 1, effectDue := some (f, t), epoch := _ } : Key) = _
  rw [hepoch, hv.key]

end

/-- The port as a state sets it: closed in DEPLOYED, open to all in RETURNED (R439, R461). -/
theorem portByState_deployed {s : State} (h : s.key.life = .deployed) : s.portByState =
    { s with dbg := { s.dbg with port := 0, rights := 0, engines := 0, expiry := 0, signer := none } } := by
  unfold State.portByState; rw [h]; rfl

theorem portByState_open {s : State} (h : s.key.life = .manufacture ∨ s.key.life = .provisioned ∨ s.key.life = .returned) : s.portByState =
    { s with dbg := { s.dbg with port := 1, rights := 31, engines := 0x3FFFFF, expiry := 0, signer := none } } := by
  unfold State.portByState
  obtain h | h | h := h <;> rw [h] <;> rfl

/-- The effect of the transition to DEPLOYED (R442). -/
theorem effectStep_deployed {t : State} (hdue : t.key.effectDue = some (.provisioned, .deployed)) (hlife : t.key.life = .deployed) :
    t.effectStep.key = { t.key with effectDue := none } ∧ t.effectStep.dbg.port = 0 ∧ t.effectStep.sq 17 5 = true := by
  have hstep : t.effectStep = (t.setKey { t.key with effectDue := none }).portByState.setSQ 17 5 := by
    unfold State.effectStep; rw [hdue]; rfl
  rw [hstep, portByState_deployed (s := t.setKey { t.key with effectDue := none }) hlife]
  exact ⟨rfl, rfl, State.sq_setSQ_self _ 17 5⟩

/-- The keys after the effect of the transition to RETURNED: what was made under another constant leaves the cache (R442). -/
def Key.returned (k : Key) : Key :=
  { k with effectDue := none, cache := k.cache.map fun (c : CacheEnt) => { c with loaded := false, material := [] } }

/-- The effect of the transition to RETURNED (R442). -/
theorem effectStep_returned {t : State} (hdue : t.key.effectDue = some (.deployed, .returned)) (hlife : t.key.life = .returned) :
    t.effectStep.key.effectDue = none ∧ (∀ c ∈ t.effectStep.key.cache, c.loaded = false) ∧ t.effectStep.dbg.port = 1 ∧
      t.effectStep.sq 17 5 = true := by
  have hstep : t.effectStep = (t.setKey t.key.returned).recordCheck.portByState.setSQ 17 5 := by unfold State.effectStep; rw [hdue]; rfl
  rw [hstep, portByState_open (s := (t.setKey t.key.returned).recordCheck) (.inr (.inr hlife))]
  refine ⟨rfl, fun c hc => ?_, rfl, State.sq_setSQ_self _ 17 5⟩
  obtain ⟨_, -, rfl⟩ := List.mem_map.mp hc
  rfl

/-! ### Tamper (R455 to R458) -/

theorem closeSession_sess_closed (s : State) {n : Nat} (hn : n < s.mbx.sessions.length) : ((s.closeSession n).sess n).state = .closed := by
  by_cases hopen : (s.sess n).state = .closed
  · unfold State.closeSession
    rw [if_pos hopen]
    split <;> exact hopen
  · exact State.closeSession_closed hopen hn

theorem closeSession_keeps_closed {s : State} {j : Nat} (n : Nat) (h : (s.sess j).state = .closed) :
    ((s.closeSession n).sess j).state = .closed := by
  by_cases hopen : (s.sess n).state = .closed
  · unfold State.closeSession
    rw [if_pos hopen]
    split <;> exact h
  · have hne : n ≠ j := fun e => hopen (e ▸ h)
    obtain ⟨_, _, _, _, _, hsame, -⟩ := s.closeSession_same hopen
    rw [hsame]
    exact (congrArg Session.state (lmod_getD_ne _ _ _ hne)).trans h

/-- A tunnelled connection that ends leaves the sessions of the host port. -/
theorem tunnelClose_keeps_closed {s : State} {j : Nat} (n : Nat) (hj : j < 4) (h : (s.sess j).state = .closed) :
    ((s.tunnelClose n).sess j).state = .closed := by
  unfold State.tunnelClose
  split
  · exact h
  · exact (congrArg Session.state (lmod_getD_ne _ _ _ (by omega))).trans (closeSession_keeps_closed (4 + n) h)

/-- Sessions closed one after the other are closed. -/
theorem foldl_closeSession_closed {n : Nat} (l : List Nat) (s : State) (hn : n < s.mbx.sessions.length)
    (h : n ∈ l ∨ (s.sess n).state = .closed) : ((l.foldl (fun (s : State) n => s.closeSession n) s).sess n).state = .closed := by
  induction l generalizing s with
  | nil => exact h.resolve_left List.not_mem_nil
  | cons k l ih =>
    rw [List.foldl_cons]
    obtain ⟨-, -, hlen, -⟩ := closeSession_leaves s k
    refine ih _ (hlen ▸ hn) ?_
    obtain hmem | hclosed := h
    · obtain rfl | hmem := List.mem_cons.mp hmem
      · exact .inr (closeSession_sess_closed s hn)
      · exact .inl hmem
    · exact .inr (closeSession_keeps_closed k hclosed)

theorem closeAll_closes {s : State} {n : Nat} (hlen : s.mbx.sessions.length = 8) (hn : n < 4) : (s.closeAll.sess n).state = .closed := by
  unfold State.closeAll
  refine List.foldlRecOn (motive := fun t : State => (t.sess n).state = .closed) _ _ ?_ fun t ht k _ => tunnelClose_keeps_closed k hn ht
  exact foldl_closeSession_closed _ s (by omega) (.inl (List.mem_range.mpr hn))

/-- The keys as a tamper event with the supply present leaves them (R456). -/
def State.tamperedKey (s : State) : Key :=
  { s.tamperZero.key with tamperFuse := s.key.tamperFuse ||| BitVec.ofNat 8 (2 ^ s.key.epoch) }

theorem tamperPowered_shows (s : State) : (tamperPowered s).key = s.tamperedKey ∧ (tamperPowered s).sq 17 7 = true ∧
    (tamperPowered s).total 0x885C = s.total 0x885C + 1 ∧ (tamperPowered s).flt.nest = s.flt.nest ∧
    (s.mbx.sessions.length = 8 → ∀ n, n < 4 → ((tamperPowered s).sess n).state = .closed) := by
  have hport : ∀ u : State, ∃ d, (if u.dbg.port = 2 then u.portByState else u) = { u with dbg := d } := fun u => by
    split
    · exact ⟨_, rfl⟩
    · exact ⟨u.dbg, rfl⟩
  unfold tamperPowered
  extract_lets s1 fuse _ s2 s3
  obtain ⟨d, hd⟩ := hport s3
  have haside : Aside true s2 s3 := closeAll_aside s2
  have hsq : s2.sq 17 7 = true → s3.sq 17 7 = true := (closeAll_sysStands s2).sq 17 7 (by decide)
  have hclosed : s.mbx.sessions.length = 8 → ∀ n, n < 4 → (s3.sess n).state = .closed := fun hlen _ hn => closeAll_closes (s := s2) hlen hn
  rw [hd]
  clear_value s3
  exact ⟨haside.key, hsq (State.sq_setSQ_self _ 17 7), (haside.total _ (by decide)).trans (State.total_count _ _ _), haside.nest, hclosed⟩

theorem tamper_reaches {s : State} (hup : s.up = true) : Reaches (exec .tamper s) fun t => t.key.tamperLatch = true ∧ t.key.rk = [] ∧
    t.key.cache = List.replicate 32 {} ∧ t.key.tamperFuse = s.key.tamperFuse ||| BitVec.ofNat 8 (2 ^ s.key.epoch) ∧
    t.sq 17 7 = true ∧ t.total 0x885C = s.total 0x885C + 1 ∧ (s.mbx.sessions.length = 8 → ∀ n, n < 4 → (t.sess n).state = .closed) := by
  obtain ⟨hkey, hsq, htotal, hnest, hclosed⟩ := tamperPowered_shows s.draw
  have hrun : (if s.draw.sys.powered then tamperPowered s.draw else tamperUnpowered s.draw) = tamperPowered s.draw :=
    if_pos (State.up_iff.mp hup).1
  refine (anyPower_ends (f := fun s => if s.sys.powered then tamperPowered s else tamperUnpowered s) hup hrun hnest).imp fun t ht => ?_
  rw [ht.key, hkey]
  refine ⟨rfl, rfl, rfl, rfl, (ht.sq 17 7 (by simp)).trans hsq, (ht.total _ (by decide)).trans htotal, fun hlen n hn => ?_⟩
  unfold State.sess
  rw [ht.mbx]
  exact hclosed hlen n hn

/-- A tamper event on BAT alone is kept for the next start (R456). -/
theorem tamper_unpowered {s : State} (hoff : s.sys.powered = false) : Reaches (exec .tamper s) fun t =>
    t.key.tamperLatch = true ∧ t.key.rk = [] ∧ t.key.tamperDue = true ∧ t.stat = s.stat ∧ t.mbx = s.mbx := by
  refine ⟨_, rfl, ?_⟩
  have hrun : (if s.draw.sys.powered then tamperPowered s.draw else tamperUnpowered s.draw) = tamperUnpowered s.draw :=
    if_neg (ne_true_of_eq_false hoff)
  have hkey : (tamperUnpowered s.draw).key = { s.tamperZero.key with tamperDue := true } := rfl
  have hmbx : (tamperUnpowered s.draw).mbx = s.mbx := rfl
  dsimp only
  rw [hoff, if_neg Bool.false_ne_true, hrun]
  generalize tamperUnpowered s.draw = u at hkey hmbx
  exact ⟨congrArg Key.tamperLatch hkey, congrArg Key.rk hkey, congrArg Key.tamperDue hkey, rfl, hmbx⟩

/-! ### The debug port and trace (R459 to R462) -/

theorem Taken.dbg {s v : State} {h : Hdr} (hv : Taken s h v) : v.dbg = s.dbg := by
  obtain ⟨_, _, _, _, e⟩ := hv.same; rw [e]; rfl

theorem Taken.ledger {s v : State} {h : Hdr} (hv : Taken s h v) : v.ledger = s.ledger := by
  obtain ⟨_, _, _, _, e⟩ := hv.same; rw [e]; rfl

section
variable {s : State} {h : Hdr} (hmay : s.notDebugger h = false)

include hmay in
theorem debugOpen_reaches (ha : s.admits h 8) (hlife : s.key.life = .manufacture ∨ s.key.life = .provisioned ∨ s.key.life = .returned) :
    Reaches (exec (.debugOpen h []) s) fun t => s.answered t h 0x0F01 0 (leBytes 8 0) ∧ t.dbg.port = 1 ∧ t.dbg.rights = 31 := by
  have hstate : s.key.life ≠ .deployed ∧ s.key.life ≠ .scrapped := by
    obtain e | e | e := hlife <;> rw [e] <;> decide
  have htoken : decide (s.draw.key.life = .deployed) = false := decide_eq_false hstate.1
  have hrun : ∃ (c : CmdSpec) (body : State → Res), cmdDebugOpen h [] s.draw = runCmd h c body s.draw ∧ c.opcode = 0x0F01 ∧
      c.maxData = 8 ∧ c.Clear s ∧ ∀ v : State, body v = okRes (leBytes 8 0) v.portByState := by
    unfold cmdDebugOpen
    simp only [htoken]
    refine ⟨_, _, rfl, rfl, rfl, { denied := hmay, authFail := rfl, bad := rfl, changes := nofun, refuse := if_neg hstate.2 },
      fun v => rfl⟩
  obtain ⟨c, body, hrun, hop, hmax, hclear, hbody⟩ := hrun
  refine ok_serves (f := fun s => cmdDebugOpen h [] s) (fl := 0) (da := leBytes 8 0) hrun (hmax ▸ ha) hclear
    (by rw [leBytes_length, hmax]) fun v hv => ⟨_, hbody v, hv.path.of_same rfl rfl rfl rfl, fun t hans ht => ?_⟩
  rw [hop] at hans
  rw [ht.dbg, portByState_open (hv.key ▸ hlife)]
  exact ⟨hans, rfl, rfl⟩

theorem debugExpiry_early (hup : s.up = true) (hearly : s.rev < s.dbg.expiry) :
    Reaches (exec .debugExpiry s) fun t => t.dbg = s.dbg :=
  (live_ends (f := debugExpiry) hup (if_neg fun e => Nat.not_le.mpr hearly e.2) rfl).imp fun _ ht => ht.dbg

theorem debugExpiry_due (hup : s.up = true) (hport : s.dbg.port = 2) (hdue : s.dbg.expiry ≤ s.rev) (hlife : s.key.life = .deployed) :
    Reaches (exec .debugExpiry s) fun t => t.dbg.port = 0 ∧ t.dbg.rights = 0 ∧ t.dbg.engines = 0 ∧ t.dbg.signer = none := by
  have hrun : debugExpiry s.draw = s.draw.portByState := if_pos ⟨hport, hdue⟩
  rw [portByState_deployed (s := s.draw) hlife] at hrun
  refine (live_ends (f := debugExpiry) hup hrun rfl).imp fun t ht => ?_
  rw [ht.dbg]
  exact ⟨rfl, rfl, rfl, rfl⟩

include hmay in
theorem traceStart_reaches {engines mask : W32} (ha : s.admits h 0) (hengines : engines.toNat < 2 ^ 22) (hport : s.dbg.port = 1)
    (hright : s.dbg.rights.getLsbD 4 = true) (hreach : engines &&& ~~~ (s.dbg.engines.setWidth 32) = 0) (hhouse : s.ledger.house = 0) :
    Reaches (exec (.traceStart h engines mask) s) fun t => s.answered t h 0x0F02 0 [] ∧
      t.dbg = { s.dbg with traceOn := true, traceSel := engines.setWidth 22, traceMask := mask, traceShed := false } := by
  have hrun : ∃ (c : CmdSpec) (body : State → Res), cmdTraceStart h engines mask s.draw = runCmd h c body s.draw ∧ c.opcode = 0x0F02 ∧
      c.maxData = 0 ∧ c.Clear s ∧ ∀ v : State, body v = okRes [] { v with dbg := { v.dbg with
        traceOn := true, traceSel := engines.setWidth 22, traceMask := mask, traceShed := decide (1 ≤ v.ledger.house) } } := by
    unfold cmdTraceStart
    extract_lets allowed
    have hallowed : allowed = true := by
      show (decide (s.dbg.port = 1 ∨ s.dbg.port = 2) && s.dbg.rights.getLsbD 4 &&
        decide (engines &&& ~~~ (s.dbg.engines.setWidth 32) = 0)) = true
      simp [hport, hright, hreach]
    exact ⟨_, _, rfl, rfl, rfl, { denied := hmay, bad := if_pos hengines, changes := nofun, refuse := if_pos hallowed }, fun v => rfl⟩
  obtain ⟨c, body, hrun, hop, hmax, hclear, hbody⟩ := hrun
  refine ok_serves (f := fun s => cmdTraceStart h engines mask s) (fl := 0) (da := []) hrun (hmax ▸ ha) hclear (Nat.zero_le _) fun v hv =>
    ⟨_, hbody v, hv.path.of_same rfl rfl rfl rfl, fun t hans ht => ⟨hop ▸ hans, ?_⟩⟩
  have hshed : decide (1 ≤ v.ledger.house) = false := by rw [hv.ledger, hhouse]; rfl
  rw [ht.dbg, hshed, hv.dbg]

include hmay in
theorem traceStop_reaches (ha : s.admits h 0) : Reaches (exec (.traceStop h) s) fun t => s.answered t h 0x0F03 0 [] ∧
    t.dbg = { s.dbg with traceOn := false, traceShed := false } := by
  refine ok_serves (f := fun s => cmdTraceStop h s) (fl := 0) (da := []) rfl ha { denied := hmay, bad := rfl, changes := nofun }
    (Nat.zero_le _) fun v hv => ⟨_, rfl, hv.path.of_same rfl rfl rfl rfl, fun t hans ht => ⟨hans, ?_⟩⟩
  rw [ht.dbg, hv.dbg]

end

end Sys2Proof.Machine
open Sys2Proof.Machine

/-- Settles O58, from the fuses a token blows and the effect that follows, the events of tamper and the record of the debug port. -/
theorem lifeCycleTamperDebug : Obligations.LifeCycleTamperDebug := by
  intro s h
  refine ⟨fun token ha hlord hlength hmagic hserial hcount hshut hsigner hflags hreserved hidle hsigned => ⟨?_, ?_⟩,
    tamper_reaches, tamper_unpowered, debugOpen_reaches, fun hup _ hearly => debugExpiry_early hup hearly, debugExpiry_due,
    fun hmay ha => ⟨fun engines mask hengines hport hright hreach hhouse => traceStart_reaches hmay ha hengines hport hright hreach hhouse,
      traceStop_reaches hmay ha⟩⟩
  · intro hlife hstart hgoal
    refine lifeCycle_reaches (f := .provisioned) (t := .deployed) ha hlord hidle hshut
      ⟨hlength, hmagic, hstart, hgoal, hflags, hserial, hcount, hsigner, hreserved, hsigned⟩ hlife rfl rfl (by decide) fun u hwait hkey => ?_
    exact ⟨hwait, hkey, effectStep_deployed (congrArg Key.effectDue hkey) (congrArg Key.life hkey)⟩
  · intro hlife hstart hgoal
    refine lifeCycle_reaches (f := .deployed) (t := .returned) ha hlord hidle hshut
      ⟨hlength, hmagic, hstart, hgoal, hflags, hserial, hcount, hsigner, hreserved, hsigned⟩ hlife rfl rfl (by decide) fun u hwait hkey => ?_
    exact ⟨hwait, hkey, effectStep_returned (congrArg Key.effectDue hkey) (congrArg Key.life hkey)⟩

end

section
/-! SUPPORT. Chapter 18: updates by command and an update's own course (O59). -/
namespace Sys2Proof.Machine

/-! ### A command refused by its effect (R384, R470) -/

/-- A command whose effect ends in REFUSED is turned down, and leaves the updates, the events shown and the other counters as its effect has
them. -/
theorem refusal_reaches {f : State → State} {s : State} {h : Hdr} {c : CmdSpec} {body : State → Res} {d : Nat} {P : State → Prop}
    (hf : f s.draw = runCmd h c body s.draw) (ha : s.admits h c.maxData) (hc : c.Clear s)
    (hbody : ∀ v, v = (s.draw.advanceSseq h c).accept → Taken s h v → ∃ u, body v = refusedRes d u ∧ PathKept s u h ∧
      ∀ t, s.turnedDown t h c.opcode 0 0x0E d [] → t.upd = u.upd → (∀ b i, u.sq b i = true → t.sq b i = true) →
        (∀ o, 0x69FC ≠ o → 0x7068 ≠ o → t.total o = u.total o) → P t) : Reaches (live f s) P := by
  obtain ⟨u, hu, k, hP⟩ := hbody _ rfl (admits_taken c ha)
  have htake := admits_canTake ha
  have hpass := admits_firstFail ha hc
  have hrun := hf.trans (runCmd_now h c body s.draw htake hpass hu)
  have hgiven := hrun.trans (runCmd_now h c (fun _ => refusedRes d u) s.draw htake hpass rfl).symm
  have hdown := now_reaches (P := fun t => s.turnedDown t h c.opcode 0 0x0E d [] ∧ Leaves u t) hgiven ha hc (Nat.zero_le _)
    fun _ _ => ⟨u, rfl, k, fun t hwrote hslots _ hleft => ⟨⟨hwrote, hslots⟩, hleft⟩⟩
  have hleft := (respond_leaves u h.session.val c.opcode h.tag h.booth h.sseq 0 0x0E d []).flt
  have hends := live_ends ha.1.1 hrun ((congrArg Flt.nest hleft).trans (k.nest.trans (admits_calm ha).symm))
  refine (hdown.and hends).imp fun t ⟨⟨hdown, hleft⟩, hend⟩ => hP t hdown ?_ hleft.sq fun o hirq hrefused => ?_
  · obtain ⟨_, _, _, _, _, e⟩ := State.respond_same u h.session.val c.opcode h.tag h.booth h.sseq 0 0x0E d []
    rw [hend.upd, e]
  · have hrespond : u.respond h.session.val c.opcode h.tag h.booth h.sseq 0 0x0E d [] =
      ((u.count 0x7068 1).setReg 0x700C (place c.opcode 16 ||| place h.session.val 13 ||| place 0x0E 0)).deliver h.session.val
        (respPacket c.opcode h.tag h.booth h.sseq 0 0x0E d []) := rfl
    obtain ⟨_, _, e⟩ := ((u.count 0x7068 1).setReg 0x700C (place c.opcode 16 ||| place h.session.val 13 ||| place 0x0E 0)).deliver_same
      h.session.val (respPacket c.opcode h.tag h.booth h.sseq 0 0x0E d [])
    rw [hend.total o hirq, hrespond, e]
    exact State.total_count_ne u 1 hrefused

theorem Taken.upd {s v : State} {h : Hdr} (hv : Taken s h v) : v.upd = s.upd := by
  obtain ⟨_, _, _, _, e⟩ := hv.same; rw [e]; rfl

theorem Taken.updConds {s v : State} {h : Hdr} (hv : Taken s h v) : v.updConds = s.updConds := by
  obtain ⟨_, _, _, _, e⟩ := hv.same; rw [e]; rfl

/-- A session whose response path stands while the scheduled commands and an update change (R383). -/
theorem PathKept.setUpd {s u : State} {h : Hdr} (k : PathKept s u h) (x : Upd) : PathKept s (u.setUpd x) h := k.of_same rfl rfl rfl rfl

theorem PathKept.discardUpdate {s u : State} {h : Hdr} (k : PathKept s u h) : PathKept s u.discardUpdate h :=
  ⟨k.queues, k.resp, k.slots, k.qEn, k.expected, k.nest⟩

/-! ### The refusal conditions (R470) -/

theorem condOf_none {s : State} {codes : List Nat} (h : ∀ d ∈ codes, s.updConds.getD (d - 1) false = false) : s.condOf codes = none :=
  List.find?_eq_none.mpr fun d hd => ne_true_of_eq_false (h d hd)

/-- With none of the five conditions nothing is refused under R470. -/
theorem condOf_clear {s : State} (h : s.updConds = [false, false, false, false, false]) : s.condOf [1, 2, 3, 4, 5] = none := by
  unfold State.condOf; rw [h]; rfl

/-- While the lock is set every step but a status read is refused with DETAIL 1 (R470, R479). -/
theorem condOf_locked {s : State} (h : s.upd.lock = true) : s.condOf [1, 2, 3, 4, 5] = some 1 :=
  List.find?_cons_of_pos h

/-- A chunk is refused for the lock and for TAMPER or ROOT_LOST only (R471). -/
theorem condOf_chunk {s : State} (hlock : s.upd.lock = false) (htamper : s.tampered = false) (hroot : s.key.rootLost = false) :
    s.condOf [1, 5] = none := by
  refine condOf_none fun d hd => ?_
  obtain rfl | hd := List.mem_cons.mp hd
  · exact hlock
  · obtain rfl := List.mem_singleton.mp hd
    exact Bool.or_eq_false_iff.mpr ⟨htamper, hroot⟩

/-- A step refused under R470: LAST_DETAIL kept, the refusal shown and counted. -/
def State.refusedUnder (s : State) (d : Nat) : State := ((s.setUpd { s.upd with lastDetail := d }).setSQ 18 1).count 0x9050 1

theorem updRefused_cond (s : State) {d : Nat} (hd : d ≤ 6) : updRefused d s = refusedRes d (s.refusedUnder d) :=
  congrArg (refusedRes d) (if_pos hd)

/-! ### The manifest (R468, R469) -/

/-- A download begun, what was in progress discarded (R469). -/
def State.beginDownload (s : State) (m : Manifest) : State :=
  (s.discardUpdate.setUpd { s.discardUpdate.upd with state := .downloading, manifest := m }).count 0x904C 1

section
variable {s : State} {h : Hdr} (hlord : s.landlord h = true)

section
variable {man : List Byte} (hvalid : (s.slotAt (parseManifest man).signer).state = .valid)
    (husable : s.slotUsable (parseManifest man).signer = true) (huses : (s.slotAt (parseManifest man).signer).uses 7 = true)
    (hsigned : Config.ecdsaOk (s.slotAt (parseManifest man).signer).material (Config.sha256 (man.take 0xC0)) ((man.drop 0xC0).take 64) = true)
    (hgood : s.manifestBad man = none) (htarget : (parseManifest man).target ≠ 3)
    (hfloor : s.upd.floor (parseManifest man).target ≤ (parseManifest man).version) (hidle : s.upd.state = .idle)

include hlord hvalid husable huses hsigned hgood htarget hfloor hidle in
theorem updManifest_runs : ∃ (c : CmdSpec) (body : State → Res), cmdUpdManifest h 0 man s.draw = runCmd h c body s.draw ∧ c.opcode = 0x0D01 ∧
    c.maxData = 2 ∧ c.Clear s ∧ ∀ v : State, v.upd = s.upd →
      (∀ d, v.condOf [1, 2, 3, 4, 5] = some d → body v = updRefused d v) ∧
      (v.condOf [1, 2, 3, 4, 5] = none → body v = okRes (leBytes 2 (parseManifest man).chunks) (v.beginDownload (parseManifest man))) := by
  have hstands : decide ((s.slotAt (parseManifest man).signer).state = .revoked) = false := decide_eq_false (by rw [hvalid]; decide)
  unfold cmdUpdManifest
  extract_lets m k revoked sigOk
  have hrevoked : revoked = false := hstands
  have hsig : sigOk = true := by
    show (s.slotUsable m.signer && (s.slotAt m.signer).uses 7 &&
      Config.ecdsaOk (s.slotAt m.signer).material (Config.sha256 (man.take 0xC0)) ((man.drop 0xC0).take 64)) = true
    rw [husable, huses, hsigned]
    rfl
  clear_value revoked sigOk
  subst hrevoked hsig
  refine ⟨_, _, rfl, rfl, rfl, { denied := congrArg (!·) hlord, authFail := rfl, bad := hgood, changes := nofun }, fun v hupd => ?_⟩
  have hversion : ¬(m.target ≠ 3 ∧ m.version < v.upd.floor m.target) := fun e => Nat.not_le.mpr e.2 (hupd ▸ hfloor)
  have hfree : ¬(v.upd.state = .trial ∨ (v.upd.state ≠ .idle ∧ (0 : Nat) = 0)) := by rw [hupd, hidle]; decide
  dsimp only
  rw [if_neg Bool.false_ne_true, if_neg hversion, if_neg hfree]
  refine ⟨fun d hcond => ?_, fun hcond => ?_⟩ <;> rw [hcond]
  exact if_neg htarget

include hlord hvalid husable huses hsigned hgood htarget hfloor hidle in
theorem updManifest_reaches (ha : s.admits h 2) (hconds : s.updConds = [false, false, false, false, false]) :
    Reaches (exec (.updManifest h 0 man) s) fun t => s.answered t h 0x0D01 0 (leBytes 2 (parseManifest man).chunks) ∧
      t.upd.state = .downloading ∧ t.upd.manifest = parseManifest man ∧ t.upd.chunkHash = [] ∧ t.upd.parts = none ∧
      t.total 0x904C = s.total 0x904C + 1 := by
  obtain ⟨c, body, hrun, hop, hmax, hclear, hbody⟩ := updManifest_runs hlord hvalid husable huses hsigned hgood htarget hfloor hidle
  refine ok_serves_at (f := fun s => cmdUpdManifest h 0 man s) (fl := 0) (da := leBytes 2 (parseManifest man).chunks) hrun (hmax ▸ ha) hclear
    (by rw [leBytes_length, hmax]) fun v hat hv =>
    ⟨v.beginDownload (parseManifest man), (hbody v hv.upd).2 (condOf_clear (hv.updConds.trans hconds)),
      hv.path.discardUpdate.of_same rfl rfl rfl rfl, fun t hans ht => ?_⟩
  have htotal : v.total 0x904C = s.total 0x904C := hat ▸ accept_total s h c (by decide)
  rw [hop] at hans
  rw [ht.upd, ht.total _ (by decide) (by decide)]
  exact ⟨hans, rfl, rfl, rfl, rfl, (State.total_count _ _ _).trans (congrArg (· + 1) htotal)⟩

include hlord hvalid husable huses hsigned hgood htarget hfloor hidle in
theorem updManifest_locked (ha : s.admits h 2) (hlock : s.upd.lock = true) :
    Reaches (exec (.updManifest h 0 man) s) fun t => s.turnedDown t h 0x0D01 0 0x0E 1 [] ∧ t.upd = { s.upd with lastDetail := 1 } ∧
      t.sq 18 1 = true ∧ t.total 0x9050 = s.total 0x9050 + 1 := by
  obtain ⟨c, body, hrun, hop, hmax, hclear, hbody⟩ := updManifest_runs hlord hvalid husable huses hsigned hgood htarget hfloor hidle
  refine refusal_reaches (f := fun s => cmdUpdManifest h 0 man s) (d := 1) hrun (hmax ▸ ha) hclear fun v hat hv =>
    ⟨v.refusedUnder 1, ((hbody v hv.upd).1 1 (condOf_locked (hv.upd ▸ hlock))).trans (updRefused_cond v (by decide)),
      hv.path.of_same rfl rfl rfl rfl, fun t hdown hupd hsq htotal => ?_⟩
  have htaken : v.total 0x9050 = s.total 0x9050 := hat ▸ accept_total s h c (by decide)
  rw [hop] at hdown
  rw [hupd, htotal _ (by decide) (by decide), ← hv.upd]
  exact ⟨hdown, rfl, hsq _ _ (State.sq_setSQ_self _ 18 1), (State.total_count _ _ _).trans (congrArg (· + 1) htaken)⟩

end

/-! ### Chunks (R471) -/

/-- The update with a chunk stored. -/
def Upd.stored (u : Upd) (i : Nat) (hash data : List Byte) : Upd :=
  let u := { u with chunkHash := sput u.chunkHash i hash, chunkData := sput u.chunkData i data,
                    other := if u.manifest.target = 1 then none else u.other }
  { u with state := if u.whole then UpdState.verifying else u.state }

theorem storeChunk_new {s : State} {i : Nat} {hash data : List Byte} (hnew : s.upd.has i = false) (hhash : Config.sha256 data = hash) :
    s.storeChunk i hash data = ((s.setUpd (s.upd.stored i hash data)).count 0x9040 1, 0) :=
  (if_neg (ne_true_of_eq_false hnew)).trans (if_neg (not_not.mpr hhash))

theorem Upd.stored_has (u : Upd) (i : Nat) (hash data : List Byte) : (u.stored i hash data).has i = true :=
  List.any_eq_true.mpr ⟨(i, hash), List.mem_of_find?_eq_some (find?_sput u.chunkHash i hash), beq_self_eq_true i⟩

include hlord in
theorem updChunk_runs {i : Nat} {hash data : List Byte} (hdown : s.upd.state = .downloading) (hi : i < s.upd.manifest.chunks)
    (hlen : data.length = s.upd.manifest.partLen i 1) (hlock : s.upd.lock = false) (htamper : s.tampered = false)
    (hroot : s.key.rootLost = false) (hhash : hash.length = 32) : ∃ (c : CmdSpec) (body : State → Res),
      cmdUpdChunk h i 1 hash data s.draw = runCmd h c body s.draw ∧ c.opcode = 0x0D02 ∧ c.maxData = 1 ∧ c.Clear s ∧
      ∀ v : State, v.upd = s.upd → v.key = s.key →
        body v = okRes [BitVec.ofNat 8 (v.takePart i 1 hash data).2] (v.takePart i 1 hash data).1 := by
  unfold cmdUpdChunk
  refine ⟨_, _, rfl, rfl, rfl, { denied := congrArg (!·) hlord, bad := ?_, changes := nofun }, fun v hupd hkey => ?_⟩
  · dsimp only
    refine guarded_eq_none.mpr ⟨by decide, guarded_eq_none.mpr ⟨not_not.mpr hhash, guarded_eq_none.mpr ⟨fun e => ?_, ?_⟩⟩⟩
    · exact Nat.not_le.mpr hi e.2
    · exact guarded_eq_none.mpr ⟨fun e => e.2 hlen, rfl⟩
  · have htampered : v.tampered = false := by unfold State.tampered at htamper ⊢; rwa [hkey]
    dsimp only
    rw [if_neg (not_not.mpr (hupd ▸ hdown)), condOf_chunk (hupd ▸ hlock) htampered (hkey ▸ hroot)]

section
variable {i : Nat} {hash data : List Byte} (ha : s.admits h 1) (hdown : s.upd.state = .downloading) (hi : i < s.upd.manifest.chunks)
    (hlen : data.length = s.upd.manifest.partLen i 1) (hlock : s.upd.lock = false) (htamper : s.tampered = false)
    (hroot : s.key.rootLost = false) (hhash : hash.length = 32) (hnew : s.upd.has i = false)

include hlord ha hdown hi hlen hlock htamper hroot hhash hnew in
/-- Half a chunk is held until the other half comes. -/
theorem updChunk_half (hnone : s.upd.parts = none) : Reaches (exec (.updChunk h i 1 hash data) s) fun t =>
    s.answered t h 0x0D02 0 [3] ∧ t.upd = { s.upd with parts := some (i, 1, hash, data) } := by
  obtain ⟨c, body, hrun, hop, hmax, hclear, hbody⟩ := updChunk_runs hlord hdown hi hlen hlock htamper hroot hhash
  refine ok_serves (f := fun s => cmdUpdChunk h i 1 hash data s) (fl := 0) (da := [3]) hrun (hmax ▸ ha) hclear hmax.ge
    fun v hv => ⟨v.setUpd { v.upd with parts := some (i, 1, hash, data) }, ?_, hv.path.setUpd _, fun t hans ht => ⟨hop ▸ hans, ?_⟩⟩
  · have hpart : v.takePart i 1 hash data = (v.setUpd { v.upd with parts := some (i, 1, hash, data) }, 3) := by
      unfold State.takePart
      rw [if_neg (ne_true_of_eq_false (hv.upd ▸ hnew)), show v.upd.parts = none from hv.upd ▸ hnone]
    rw [hbody v hv.upd hv.key, hpart]
    rfl
  · rw [ht.upd, ← hv.upd]; rfl

include hlord ha hdown hi hlen hlock htamper hroot hhash hnew in
/-- The other half completes the chunk. -/
theorem updChunk_whole {head : List Byte} (hheld : s.upd.parts = some (i, 0, hash, head)) (hdigest : Config.sha256 (head ++ data) = hash) :
    Reaches (exec (.updChunk h i 1 hash data) s) fun t => s.answered t h 0x0D02 0 [0] ∧ t.upd.has i = true ∧ t.upd.parts = none ∧
      t.total 0x9040 = s.total 0x9040 + 1 := by
  obtain ⟨c, body, hrun, hop, hmax, hclear, hbody⟩ := updChunk_runs hlord hdown hi hlen hlock htamper hroot hhash
  refine ok_serves_at (f := fun s => cmdUpdChunk h i 1 hash data s) (fl := 0) (da := [0]) hrun (hmax ▸ ha) hclear hmax.ge
    fun v hat hv => ⟨(v.setUpd ({ v.upd with parts := none }.stored i hash (head ++ data))).count 0x9040 1, ?_,
      hv.path.of_same rfl rfl rfl rfl, fun t hans ht => ?_⟩
  · have hpart : v.takePart i 1 hash data = ((v.setUpd ({ v.upd with parts := none }.stored i hash (head ++ data))).count 0x9040 1, 0) := by
      unfold State.takePart
      rw [if_neg (ne_true_of_eq_false (hv.upd ▸ hnew)), show v.upd.parts = _ from hv.upd ▸ hheld]
      dsimp only
      rw [if_pos ⟨rfl, by decide, rfl⟩, if_neg (by decide)]
      exact storeChunk_new (s := v.setUpd { v.upd with parts := none }) (hv.upd ▸ hnew) hdigest
    rw [hbody v hv.upd hv.key, hpart]
    rfl
  · refine ⟨hop ▸ hans, ?_, ?_, ?_⟩
    · rw [ht.upd]; exact Upd.stored_has _ _ _ _
    · rw [ht.upd]; rfl
    · rw [ht.total _ (by decide) (by decide), State.total_count]
      exact congrArg (· + 1) (hat ▸ accept_total s h c (by decide))

end

/-! ### Status, activation, confirmation and lock (R473, R475, R479, R480) -/

theorem bitmapBytes_length (f : Nat → Bool) (n : Nat) : (bitmapBytes f n).length = (n + 7) / 8 := by simp [bitmapBytes]

include hlord in
theorem updStatus_reaches {first count : Nat} (ha : s.admits h (8 + (count + 7) / 8)) (hpos : 1 ≤ count) (hmax : count ≤ 16384) :
    Reaches (exec (.updStatus h first count) s) fun t => s.answered t h 0x0D03 0
      (leBytes 4 s.updState.toNat ++ leBytes 4 s.updProgress.toNat ++ bitmapBytes (fun i => s.upd.has (first + i)) count) ∧
        t.upd = s.upd := by
  refine ok_serves (f := fun s => cmdUpdStatus h first count s) (fl := 0)
    (da := leBytes 4 s.updState.toNat ++ leBytes 4 s.updProgress.toNat ++ bitmapBytes (fun i => s.upd.has (first + i)) count) rfl ha
    { denied := congrArg (!·) hlord, bad := if_neg (by omega), changes := nofun } ?_ fun v hv =>
    ⟨v, ?_, hv.path, fun t hans ht => ⟨hans, ht.upd.trans hv.upd⟩⟩
  · rw [List.length_append, List.length_append, leBytes_length, leBytes_length, bitmapBytes_length]
  · unfold State.updState State.updProgress
    rw [hv.upd]
    rfl

/-- The update armed for boundary `n`, the spare core not ready meanwhile where module firmware is to run on it (R473). -/
def State.armedFor (s : State) (n : Nat) : State :=
  let s := s.setUpd { s.upd with state := .armed, armedAt := some n, spareNew := false, switched := false }
  if s.upd.manifest.target = 1 ∧ s.paired = false then { s with sys := { s.sys with spareReady := false } } else s

theorem armedFor_same (s : State) (n : Nat) : ∃ y, s.armedFor n =
    { s with sys := y, upd := { s.upd with state := .armed, armedAt := some n, spareNew := false, switched := false } } := by
  unfold State.armedFor
  extract_lets _ t
  split
  · exact ⟨_, rfl⟩
  · exact ⟨s.sys, rfl⟩

include hlord in
theorem updActivate_reaches {b : W64} (ha : s.admits h 8) (hverified : s.upd.state = .verified) (htarget : s.upd.manifest.target = 1)
    (hconds : s.updConds = [false, false, false, false, false]) (hsoon : s.soonest ≤ b.toNat) :
    Reaches (exec (.updActivate h b) s) fun t => s.answered t h 0x0D04 0 (leBytes 8 b.toNat) ∧ t.upd.state = .armed ∧
      t.mbx.sched = s.mbx.sched ∧ t.upd.armedAt = some b.toNat ∧ (s.paired = false → t.sys.spareReady = false) := by
  obtain ⟨⟨-, -, -, -, -, -, -, -, -, -, -, hnorescue⟩, heff, -⟩ := id ha
  have hrun : ∃ (c : CmdSpec) (body : State → Res), cmdUpdActivate h b s.draw = runCmd h c body s.draw ∧ c.opcode = 0x0D04 ∧ c.maxData = 8 ∧
      c.Clear s ∧ ∀ v : State, v.upd = s.upd → v.updConds = s.updConds → v.soonest = s.soonest →
        body v = .now 0 0 (leBytes 8 b.toNat) 0 (v.armedFor b.toNat) := by
    unfold cmdUpdActivate
    extract_lets rescue
    have hno : rescue = false := decide_eq_false hnorescue
    clear_value rescue
    subst hno
    have hbad : s.draw.badEff h = none := by unfold State.badEff; rw [heff]
    have hbusy : ¬(h.eff.isSome = true ∧ s.draw.schedRoom [.activation] = false) := by rw [heff]; exact fun e => Bool.noConfusion e.1
    refine ⟨_, _, rfl, rfl, rfl, { denied := congrArg (!·) hlord, bad := hbad, changes := nofun, busy := if_neg hbusy },
      fun v hupd hcond hsoonest => ?_⟩
    have hfirmware : ¬v.upd.manifest.target = 2 := by rw [hupd, htarget]; decide
    have hlate : ¬b.toNat < v.soonest := Nat.not_lt.mpr (hsoonest ▸ hsoon)
    dsimp only
    rw [if_neg (not_not.mpr (hupd ▸ hverified)), condOf_clear (hcond.trans hconds)]
    dsimp only
    rw [if_neg (fun e => Bool.noConfusion e.1), if_neg hfirmware, heff]
    dsimp only [State.packageLocked, List.find?_nil, Option.map_none, Option.isSome_none]
    rw [if_neg hlate]
    have hflags : (if false = true ∨ b.toNat < (v.armedFor b.toNat).soonest then 0x1000 else 0) = 0 := by
      obtain ⟨_, e⟩ := armedFor_same v b.toNat
      rw [e]
      exact if_neg (not_or.mpr ⟨Bool.false_ne_true, hlate⟩)
    exact congrArg (fun fl => Res.now 0 0 (leBytes 8 b.toNat) fl (v.armedFor b.toNat)) hflags
  obtain ⟨c, body, hrun, hop, hmax, hclear, hbody⟩ := hrun
  refine ok_serves (f := fun s => cmdUpdActivate h b s) (fl := 0) (da := leBytes 8 b.toNat) hrun (hmax ▸ ha) hclear
    (by rw [leBytes_length, hmax]) fun v hv => ⟨v.armedFor b.toNat, ?_, ?_, fun t hans ht => ?_⟩
  · have hsoonest : v.soonest = s.soonest := by unfold State.soonest State.periodNs; rw [hv.rev, hv.crsl]
    exact hbody v hv.upd hv.updConds hsoonest
  · obtain ⟨_, e⟩ := armedFor_same v b.toNat
    rw [e]
    exact hv.path.of_same rfl rfl rfl rfl
  · have hsched : v.mbx.sched = s.mbx.sched := by obtain ⟨_, _, _, _, e⟩ := hv.same; rw [e]
    have hspare : s.paired = false → (v.armedFor b.toNat).sys.spareReady = false := fun hpaired => by
      have hfirmware : v.upd.manifest.target = 1 := hv.upd ▸ htarget
      have hlone : v.paired = false := by unfold State.paired at hpaired ⊢; rwa [hv.trap]
      exact congrArg (fun t : State => t.sys.spareReady) (if_pos ⟨hfirmware, hlone⟩)
    refine ⟨hop ▸ hans, ?_, ?_, ?_, fun hpaired => (congrArg Sys.spareReady ht.sys).trans (hspare hpaired)⟩
    all_goals obtain ⟨_, e⟩ := armedFor_same v b.toNat
    · rw [ht.upd, e]
    · rw [ht.sched, e]; exact hsched
    · rw [ht.upd, e]

/-- What a trial's criteria read stands when a command is taken (R475). -/
theorem Taken.held {v : State} (hv : Taken s h v) : v.held = s.held := by
  have htotal : v.total 0x0894 = s.total 0x0894 := hv.total 0x0894 (by decide)
  unfold State.held State.criteria
  rw [htotal]
  generalize s.total 0x0894 = n
  obtain ⟨_, _, _, _, e⟩ := hv.same
  rw [e]
  rfl

include hlord in
theorem updConfirm_reaches (ha : s.admits h 0) (hheld : s.held = true) :
    Reaches (exec (.updConfirm h) s) fun t => s.answered t h 0x0D05 0 [] ∧ t.upd.state = .idle ∧ t.sq 18 3 = true := by
  refine ok_serves (f := fun s => cmdUpdConfirm h s) (fl := 0) (da := []) rfl ha
    { denied := congrArg (!·) hlord, bad := rfl, changes := nofun } (Nat.zero_le _) fun v hv =>
    ⟨v.confirm, if_pos (hv.held.trans hheld), hv.path.of_same rfl rfl rfl rfl, fun t hans ht => ⟨hans, ?_, ?_⟩⟩
  · rw [ht.upd]; rfl
  · exact (ht.sq 18 3 (by decide)).trans (State.sq_setSQ_self _ 18 3)

include hlord in
theorem updConfirm_early (ha : s.admits h 0) (hheld : s.held = false) :
    Reaches (exec (.updConfirm h) s) fun t => s.turnedDown t h 0x0D05 0 0x0E 7 [] ∧ t.upd = { s.upd with lastDetail := 7 } := by
  refine refusal_reaches (f := fun s => cmdUpdConfirm h s) (d := 7) rfl ha
    { denied := congrArg (!·) hlord, bad := rfl, changes := nofun } fun v _ hv =>
    ⟨v.setUpd { v.upd with lastDetail := 7 }, if_neg (ne_true_of_eq_false (hv.held.trans hheld)), hv.path.setUpd _,
      fun t hdown hupd _ _ => ⟨hdown, ?_⟩⟩
  rw [hupd, ← hv.upd]
  rfl

include hlord in
theorem updLock_reaches (ha : s.admits h 0) (on : Bool) {sig : List Byte} (husable : s.slotUsable s.key.ownerRoot = true)
    (hidle : s.upd.state = .idle) (hsigned : Config.ecdsaOk (s.slotAt s.key.ownerRoot).material (Config.sha256 (leBytes 8 s.fuse.serial.toNat ++
      leBytes 8 s.upd.nonce.toNat ++ [if on then 1 else 0])) sig = true) :
    Reaches (exec (.updLock h (if on then 1 else 0) sig) s) fun t => s.answered t h 0x0D06 0 [] ∧ t.upd.lock = on ∧ t.upd.state = .idle := by
  have hauth : (!(s.slotUsable s.key.ownerRoot && Config.ecdsaOk (s.slotAt s.key.ownerRoot).material (Config.sha256 (leBytes 8 s.fuse.serial.toNat ++
      leBytes 8 s.upd.nonce.toNat ++ [if on then 1 else 0])) sig)) = false := by rw [husable, hsigned]; rfl
  have hvalue : decide ((if on then (1 : Byte) else 0) = 1) = on := by cases on <;> rfl
  have hrun : ∃ (c : CmdSpec) (body : State → Res), cmdUpdLock h (if on then 1 else 0) sig s.draw = runCmd h c body s.draw ∧
      c.opcode = 0x0D06 ∧ c.maxData = 0 ∧ c.Clear s ∧ ∀ v : State, v.upd.state = .idle →
        body v = okRes [] (v.setUpd { v.upd with lock := on, nonce := BitVec.ofNat 64 (leNat (Config.drbg (v.free + 3) 8)) }) := by
    unfold cmdUpdLock
    refine ⟨_, _, rfl, rfl, rfl, { denied := congrArg (!·) hlord, authFail := hauth, bad := ?_, changes := nofun }, fun v hstill => ?_⟩
    · cases on <;> rfl
    · have hnone : ¬(on = true ∧ v.upd.state ≠ .idle ∧ v.upd.state ≠ .trial ∧ v.upd.switched = false) := fun e => e.2.1 hstill
      dsimp only
      rw [hvalue, if_neg hnone]
  obtain ⟨c, body, hrun, hop, hmax, hclear, hbody⟩ := hrun
  refine ok_serves (f := fun s => cmdUpdLock h (if on then 1 else 0) sig s) (fl := 0) (da := []) hrun (hmax ▸ ha) hclear (Nat.zero_le _) fun v hv =>
    ⟨_, hbody v (hv.upd ▸ hidle), hv.path.setUpd _, fun t hans ht => ⟨hop ▸ hans, ?_, ?_⟩⟩
  · rw [ht.upd]; rfl
  · rw [ht.upd]; exact hv.upd ▸ hidle

end

/-! ### An update's own course (R471, R472, R475, R476) -/

section
variable {s : State} (hup : s.up = true)

include hup in
theorem updateChunkPacket_reaches {ws : List W64} (hdown : s.upd.state = .downloading) (hhead : (s.q 31).headPacket = ws)
    (hlen : ws.length = 517) (hqueues : s.hostp.queues.length = 32) (hlock : s.upd.lock = false) (htamper : s.tampered = false)
    (hroot : s.key.rootLost = false) (hparity : s.parityHeld 18 = false) {i : Nat} {data : List Byte}
    (hi' : (ws.getD 0 0).toNat / 2 ^ 16 % 2 ^ 13 = i) (hdata : (bytesOf (ws.drop 5)).take ((ws.getD 0 0).toNat % 2 ^ 13) = data)
    (hmagic : (ws.getD 0 0).toNat / 2 ^ 48 = 0x5543) (hi : i < s.upd.manifest.chunks)
    (hn : (ws.getD 0 0).toNat % 2 ^ 13 = s.upd.manifest.chunkLen i) (hnew : s.upd.has i = false)
    (hhash : Config.sha256 data = bytesOf ((ws.drop 1).take 4)) : Reaches (exec .updateChunkPacket s) fun t =>
      t.q 31 = (s.q 31).dropHead ∧ t.upd.has i = true ∧ sget [] t.upd.chunkData i = data ∧ t.total 0x9040 = s.total 0x9040 + 1 := by
  have hwords : ws.isEmpty = false := by cases ws with
    | nil => exact absurd hlen (by decide)
    | cons => rfl
  have hrun : updateChunkPacket s.draw = ((s.draw.setQ 31 (s.q 31).dropHead).setUpd
      (s.upd.stored i (bytesOf ((ws.drop 1).take 4)) data)).count 0x9040 1 := by
    have htake : ¬(s.draw.upd.state ≠ .downloading ∨ (s.draw.q 31).headPacket.isEmpty = true) := by
      rw [show (s.draw.q 31).headPacket = ws from hhead, hwords]
      rintro (e | e)
      · exact e hdown
      · exact Bool.noConfusion e
    have hform : ¬((s.draw.setQ 31 (s.draw.q 31).dropHead).parityHeld 18 = true ∨ ws.length ≠ 517 ∨ (ws.getD 0 0).toNat / 2 ^ 48 ≠ 0x5543 ∨
        (s.draw.setQ 31 (s.draw.q 31).dropHead).upd.manifest.chunks ≤ i ∨
        (ws.getD 0 0).toNat % 2 ^ 13 ≠ (s.draw.setQ 31 (s.draw.q 31).dropHead).upd.manifest.chunkLen i) := by
      rintro (e | e | e | e | e)
      · exact ne_true_of_eq_false hparity e
      · exact e hlen
      · exact e hmagic
      · exact Nat.not_le.mpr hi e
      · exact e hn
    have hstored := storeChunk_new (s := s.draw.setQ 31 (s.draw.q 31).dropHead) (i := i) hnew hhash
    have hcond := condOf_chunk (s := s.draw.setQ 31 (s.draw.q 31).dropHead) hlock htamper hroot
    unfold updateChunkPacket
    dsimp only
    rw [if_neg htake, show (s.draw.q 31).headPacket = ws from hhead, hi', hdata]
    rw [if_neg hform, hcond, hstored]
    rfl
  refine (live_ends hup hrun rfl).imp fun t ht => ⟨?_, ?_, ?_, ?_⟩
  · rw [ht.q]
    exact lmod_getD_self _ _ _ _ (by rw [show s.draw.hostp.queues = s.hostp.queues from rfl, hqueues]; decide)
  · rw [ht.upd]; exact Upd.stored_has _ _ _ _
  · rw [ht.upd]; exact sget_sput_self _ _ _ _
  · exact (ht.total _ (by decide)).trans (State.total_count _ _ _)

theorem verifyFailed_shows (s : State) : s.verifyFailed.upd.state = .idle ∧ s.verifyFailed.upd.chunkData = [] ∧ s.verifyFailed.sq 18 6 = true ∧
    s.verifyFailed.total 0x9054 = s.total 0x9054 + 1 ∧ s.verifyFailed.flt = s.flt :=
  ⟨rfl, rfl, State.sq_setSQ_self _ 18 6, State.total_count _ _ _, rfl⟩

include hup in
/-- A verification that fails discards the download (R472). -/
theorem verifyFails_reaches (hrun : verifyComplete s.draw = s.draw.verifyFailed) : Reaches (exec .verifyComplete s) fun t =>
    t.upd.state = .idle ∧ t.upd.chunkData = [] ∧ t.sq 18 6 = true ∧ t.total 0x9054 = s.total 0x9054 + 1 := by
  obtain ⟨hstate, hdata, hsq, htotal, hflt⟩ := verifyFailed_shows s.draw
  refine (live_ends (f := verifyComplete) hup hrun (congrArg Flt.nest hflt)).imp fun t ht => ⟨?_, ?_, ?_, ?_⟩
  · rw [ht.upd, hstate]
  · rw [ht.upd, hdata]
  · exact (ht.sq 18 6 (by simp)).trans hsq
  · exact (ht.total _ (by decide)).trans htotal

/-- What a verification whose chunks, digest and signer hold comes to: the last check alone decides (R472, R478). -/
theorem verifyComplete_last (hstate : s.upd.state = .verifying)
    (hroot : Config.sha256 (s.upd.chunkHash.flatMap (·.2)) = s.upd.manifest.chunkRoot)
    (hchunks : ∀ e ∈ s.upd.chunkData, Config.sha256 e.2 = sget [] s.upd.chunkHash e.1)
    (hdigest : Config.sha256 s.upd.content = s.upd.manifest.digest) (hsigner : (s.slotAt s.upd.manifest.signer).state = .valid) :
    verifyComplete s = if Config.contentOk s.upd.manifest.target s.upd.content = false then s.verifyFailed else
      (s.setUpd { s.upd with
        state := .verified
        other := if s.upd.manifest.target = 1 then some (s.upd.manifest.version, s.upd.manifest.digest) else s.upd.other }).setSQ 18 5 := by
  have hbad : (s.upd.chunkData.filter fun e => Config.sha256 e.2 != sget [] s.upd.chunkHash e.1) = [] :=
    List.filter_eq_nil_iff.mpr fun e he => by simpa using hchunks e he
  unfold verifyComplete
  dsimp only
  rw [hbad, List.map_nil, if_pos (.inl hstate), if_neg (not_not.mpr hroot), if_neg (not_not.mpr rfl), if_neg (not_not.mpr hdigest),
    if_neg (not_not.mpr hsigner)]

include hup in
theorem verifyComplete_reaches (hstate : s.upd.state = .verifying)
    (hroot : Config.sha256 (s.upd.chunkHash.flatMap (·.2)) = s.upd.manifest.chunkRoot)
    (hchunks : ∀ e ∈ s.upd.chunkData, Config.sha256 e.2 = sget [] s.upd.chunkHash e.1)
    (hdigest : Config.sha256 s.upd.content = s.upd.manifest.digest) (hsigner : (s.slotAt s.upd.manifest.signer).state = .valid) :
    Reaches (exec .verifyComplete s) fun t =>
      if Config.contentOk s.upd.manifest.target s.upd.content = true then t.upd.state = .verified ∧ t.sq 18 5 = true
      else t.upd.state = .idle ∧ t.sq 18 6 = true ∧ t.total 0x9054 = s.total 0x9054 + 1 := by
  have hlast := verifyComplete_last (s := s.draw) hstate hroot hchunks hdigest hsigner
  by_cases hok : Config.contentOk s.upd.manifest.target s.upd.content = true
  · simp only [hok, if_true]
    have hrun := hlast.trans (if_neg (ne_false_of_eq_true hok))
    refine (live_ends (f := verifyComplete) hup hrun rfl).imp fun t ht => ⟨?_, ?_⟩
    · rw [ht.upd]; rfl
    · exact (ht.sq 18 5 (by simp)).trans (State.sq_setSQ_self _ 18 5)
  · simp only [hok]
    exact (verifyFails_reaches hup (hlast.trans (if_pos (eq_false_of_ne_true hok)))).imp fun t ⟨hidle, _, hsq, htotal⟩ => ⟨hidle, hsq, htotal⟩

include hup in
theorem verifyComplete_badRoot (hstate : s.upd.state = .verifying)
    (hroot : Config.sha256 (s.upd.chunkHash.flatMap (·.2)) ≠ s.upd.manifest.chunkRoot) : Reaches (exec .verifyComplete s) fun t =>
      t.upd.state = .idle ∧ t.upd.chunkData = [] ∧ t.sq 18 6 = true ∧ t.total 0x9054 = s.total 0x9054 + 1 :=
  verifyFails_reaches hup ((if_pos (.inl hstate)).trans (if_pos hroot))

include hup in
theorem confirmed_reaches (hheld : s.held = true) (hauto : s.flag 0x9000 12 = false) :
    Reaches (exec .confirmed s) fun t => t.upd.state = .idle ∧ t.sq 18 3 = true := by
  have hrun : confirmed s.draw = s.draw.confirm := if_pos ⟨hheld, hauto⟩
  refine (live_ends hup hrun rfl).imp fun t ht => ⟨?_, ?_⟩
  · rw [ht.upd]; rfl
  · exact (ht.sq 18 3 (by simp)).trans (State.sq_setSQ_self _ 18 3)

/-- The abort of the armed exchanges leaves the updates, the events shown and their count (R157). -/
theorem swbAbortAll_keepsUpdates (s : State) : s.swbAbortAll.upd = s.upd ∧ s.swbAbortAll.flt = s.flt ∧
    s.swbAbortAll.total 0x905C = s.total 0x905C ∧ SysStands s s.swbAbortAll := by
  refine List.foldlRecOn (motive := fun t : State => t.upd = s.upd ∧ t.flt = s.flt ∧ t.total 0x905C = s.total 0x905C ∧ SysStands s t) _ _
    ⟨rfl, rfl, rfl, .refl s⟩ fun t ⟨hupd, hflt, htotal, hstands⟩ e _ => ?_
  have hstands' := hstands.trans (swbAbort_sysStands t e.1)
  refine ⟨?_, ?_, ?_, hstands'⟩ <;> unfold State.swbAbort <;> split
  · exact hupd
  · exact hupd
  · exact hflt
  · exact hflt
  · exact (State.total_count_ne _ _ (by decide)).trans htotal
  · exact htotal

/-- A trial whose window is over falls back: shown, a FAULT, counted (R476). -/
theorem fallBack_shows (s : State) : s.fallBack.upd = { s.upd with state := .idle, backDue := true } ∧ s.fallBack.sq 18 2 = true ∧
    s.fallBack.total 0x905C = s.total 0x905C + 1 ∧ s.fallBack.flt.nest = s.flt.nest := by
  unfold State.fallBack
  extract_lets _ t
  have hlog : LogOnly t (t.reportBare .fault 18 2 0xFF) := reportBare_logOnly ..
  have hsq := reportBare_sq t .fault 18 2 0xFF
  have htotal := t.reportBare_total_low .fault 18 2 0xFF (o := 0x905C) (by decide)
  have hnest := reportBare_nest t (cls := .fault) 18 2 0xFF (by decide)
  generalize t.reportBare .fault 18 2 0xFF = u at hlog hsq htotal hnest
  obtain ⟨_, _, _, e⟩ := hlog.same
  refine ⟨?_, hsq, (State.total_count _ _ _).trans (congrArg (· + 1) htotal), hnest⟩
  rw [e]
  rfl

include hup in
theorem fallback_reaches (htrial : s.upd.state = .trial) (hover : s.upd.trialNs = 0) : Reaches (exec .fallback s) fun t =>
    t.upd.state = .idle ∧ t.upd.backDue = true ∧ t.sq 18 2 = true ∧ t.total 0x905C = s.total 0x905C + 1 := by
  obtain ⟨hupd, hsq, htotal, hnest⟩ := fallBack_shows s.draw
  have hrun : fallback s.draw = s.draw.fallBack.relinquishAt s.draw.fallBack.dueNow := if_pos ⟨htrial, .inl hover⟩
  have hhands : ∀ u n, (State.relinquishAt u n).upd = u.upd ∧ (u.relinquishAt n).flt = u.flt ∧ (u.relinquishAt n).total 0x905C = u.total 0x905C ∧
      (u.sq 18 2 = true → (u.relinquishAt n).sq 18 2 = true) := fun u n => by
    unfold State.relinquishAt
    split
    · obtain ⟨h1, h2, h3, h4⟩ := swbAbortAll_keepsUpdates u
      exact ⟨h1, h2, h3, h4.sq 18 2 (by decide)⟩
    · exact ⟨rfl, rfl, rfl, id⟩
  obtain ⟨hupd', hflt', htotal', hsq'⟩ := hhands s.draw.fallBack s.draw.fallBack.dueNow
  refine (live_ends (f := fallback) hup hrun ((congrArg Flt.nest hflt').trans hnest)).imp fun t ht => ⟨?_, ?_, ?_, ?_⟩
  · rw [ht.upd, hupd', hupd]
  · rw [ht.upd, hupd', hupd]
  · exact (ht.sq 18 2 (by simp)).trans (hsq' hsq)
  · exact ((ht.total _ (by decide)).trans htotal').trans htotal

include hup in
theorem spareReady_reaches (hgood : s.sys.coreBad = false) (hfree : s.upd.state ≠ .armed) :
    Reaches (exec .spareReady s) fun t => t.sys.spareReady = true ∧ t.upd = s.upd := by
  have hrun : spareReady s.draw = { s.draw with sys := { s.draw.sys with spareReady := true } } :=
    (if_neg (ne_true_of_eq_false hgood)).trans (if_neg fun e => hfree e.1)
  refine (live_ends (f := spareReady) hup hrun rfl).imp fun t ht => ⟨?_, ht.upd⟩
  rw [ht.sys]

end

end Sys2Proof.Machine
open Sys2Proof.Machine

/-- Settles O59, the commands from what their checks and the conditions of R470 let through, the events from the update they find. -/
theorem updateCourse : Obligations.UpdateCourse := by
  refine ⟨fun s h hlord => ⟨fun man ha hvalid husable huses hsigned hgood htarget hfloor hidle => ?_,
    fun i hash data ha hdown hi hlen hlock htamper hroot hhash hnew => ?_, fun first count ha hpos hmax => updStatus_reaches hlord ha hpos hmax,
    fun b ha hverified htarget hconds hsoon => updActivate_reaches hlord ha hverified htarget hconds hsoon,
    fun ha => ⟨updConfirm_reaches hlord ha, updConfirm_early hlord ha,
      fun on sig husable hidle hsigned => updLock_reaches hlord ha on husable hidle hsigned⟩⟩,
    fun s hup => ⟨?_, fun hstate => ⟨verifyComplete_reaches hup hstate, verifyComplete_badRoot hup hstate⟩, confirmed_reaches hup,
      fallback_reaches hup, spareReady_reaches hup⟩⟩
  · exact ⟨updManifest_reaches hlord hvalid husable huses hsigned hgood htarget hfloor hidle ha,
      updManifest_locked hlord hvalid husable huses hsigned hgood htarget hfloor hidle ha⟩
  · exact ⟨updChunk_half hlord ha hdown hi hlen hlock htamper hroot hhash hnew,
      fun head => updChunk_whole hlord ha hdown hi hlen hlock htamper hroot hhash hnew⟩
  · intro ws hdown hhead hlen hqueues hlock htamper hroot hparity i data hmagic hi hn hnew hhash
    exact updateChunkPacket_reaches hup hdown hhead hlen hqueues hlock htamper hroot hparity rfl rfl hmagic hi hn hnew hhash

end

section
/-! SUPPORT. Chapter 19: the order of fault handling (O11). -/
namespace Sys2Proof.Machine

/-- Logging an event advances the counter of its class, those of folding and of a full buffer alone (R492, R500). -/
theorem State.logEvent_total_ne (s : State) (cls : EvClass) (src code : Nat) (booth : Byte) (data : W64) {o : Nat}
    (hclass : 0x9840 + 4 * cls.num ≠ o) (hfold : 0x9850 ≠ o) (hfull : 0x9858 ≠ o) :
    (s.logEvent cls src code booth data).total o = s.total o :=
  s.logEvent_induction cls src code booth data (P := fun t => t.total o = s.total o) (s.total_count_ne 1 hclass)
    (fun t e h => (t.captureFirst_total e o).trans h) (fun _ _ h => (State.total_count_ne _ 1 hfold).trans h)
    (fun t e h => (t.bufferEntry_total e hfull).trans h)

/-- A FAULT that arrives while another is handled goes to the queue, while that has room (R494). -/
theorem faultArrives_busy {s : State} (ev : FaultEv) (h : s.flt.handling.isSome = true) : s.faultArrives ev =
    if s.flt.queue.length < 8 then { s with flt := { s.flt with queue := s.flt.queue ++ [ev] } }
    else ((s.setSQ 19 6).logEvent .warn 19 0x29 0xFF (BitVec.ofNat 64 (ev.source * 256 + ev.code))).count 0x9854 1 :=
  if_neg fun ⟨hnone, _⟩ => by rw [Option.isNone_iff_eq_none.mp hnone] at h; exact Bool.noConfusion h

/-- A FAULT that finds another in handling and room joins the queue (R494). -/
theorem raise_fault_queued (s : State) (src code : Nat) (booth : Byte) (data : Nat) (hbusy : s.flt.handling.isSome = true)
    (hroom : s.flt.queue.length < 8) : (s.raise .fault src code booth data).flt.handling = s.flt.handling ∧
      (s.raise .fault src code booth data).flt.queue = s.flt.queue ++ [{ source := src, code, booth, data := BitVec.ofNat 64 data }] := by
  have hlog := logEvent_sameHandling s .fault src code booth (BitVec.ofNat 64 data)
  unfold State.raise
  dsimp only
  generalize s.logEvent .fault src code booth (BitVec.ofNat 64 data) = u at hlog
  rw [faultArrives_busy (s := { u with flt := { u.flt with faultsSince := u.flt.faultsSince + 1 } }) _ (hlog.handling ▸ hbusy),
    if_pos (hlog.queue ▸ hroom)]
  exact ⟨hlog.handling, congrArg (· ++ _) hlog.queue⟩

/-- A FAULT that finds the queue full is logged, shown as FQ_OVF, enters the WARN and is counted (R494). -/
theorem raise_fault_full (s : State) (src code : Nat) (booth : Byte) (data : Nat) (hbusy : s.flt.handling.isSome = true)
    (hroom : 8 ≤ s.flt.queue.length) : (s.raise .fault src code booth data).flt.handling = s.flt.handling ∧
      (s.raise .fault src code booth data).flt.queue = s.flt.queue ∧ (s.raise .fault src code booth data).sq 19 6 = true ∧
      ∀ o ∈ [0x9844, 0x9848, 0x9854], (s.raise .fault src code booth data).total o = s.total o + 1 := by
  have hlog := logEvent_sameHandling s .fault src code booth (BitVec.ofNat 64 data)
  have hclass : (s.logEvent .fault src code booth (BitVec.ofNat 64 data)).total 0x9848 = s.total 0x9848 + 1 := s.logEvent_total ..
  have hother := fun o => s.logEvent_total_ne .fault src code booth (BitVec.ofNat 64 data) (o := o)
  unfold State.raise
  dsimp only
  generalize s.logEvent .fault src code booth (BitVec.ofNat 64 data) = u at hlog hclass hother
  rw [faultArrives_busy (s := { u with flt := { u.flt with faultsSince := u.flt.faultsSince + 1 } }) _ (hlog.handling ▸ hbusy),
    if_neg (Nat.not_lt.mpr (hlog.queue ▸ hroom))]
  generalize hw : (({ u with flt := { u.flt with faultsSince := u.flt.faultsSince + 1 } }).setSQ 19 6) = w
  have hstand : SameHandling s w := hw ▸ hlog.trans ⟨rfl, rfl, rfl, rfl, rfl⟩
  have hsq : w.sq 19 6 = true := hw ▸ State.sq_setSQ_self _ 19 6
  have htotal : ∀ o, w.total o = u.total o := fun o => hw ▸ rfl
  have hwarn := hstand.trans (logEvent_sameHandling w .warn 19 0x29 0xFF (BitVec.ofNat 64 (src * 256 + code)))
  have hshown := ((LogOnly.refl w).logEvent .warn 19 0x29 0xFF (BitVec.ofNat 64 (src * 256 + code))).sq 19 6 hsq
  have hwclass : (w.logEvent .warn 19 0x29 0xFF (BitVec.ofNat 64 (src * 256 + code))).total 0x9844 = w.total 0x9844 + 1 := w.logEvent_total ..
  have hwother := fun o => w.logEvent_total_ne .warn 19 0x29 0xFF (BitVec.ofNat 64 (src * 256 + code)) (o := o)
  generalize w.logEvent .warn 19 0x29 0xFF (BitVec.ofNat 64 (src * 256 + code)) = x at hwarn hshown hwclass hwother
  refine ⟨hwarn.handling, hwarn.queue, hshown, fun o ho => ?_⟩
  simp only [List.mem_cons, List.not_mem_nil, or_false] at ho
  obtain rfl | rfl | rfl := ho
  · rw [State.total_count_ne _ _ (by decide), hwclass, htotal, hother _ (by decide) (by decide) (by decide)]
  · rw [State.total_count_ne _ _ (by decide), hwother _ (by decide) (by decide) (by decide), htotal, hclass]
  · rw [State.total_count, hwother _ (by decide) (by decide) (by decide), htotal, hother _ (by decide) (by decide) (by decide)]

/-- An event within the ranges of its fields arrives as it is (R492). -/
theorem FaultEv.arrives {e : FaultEv} (hsource : e.source < 32) (hcode : e.code < 64) :
    ({ source := e.source % 32, code := e.code % 64, booth := e.booth, data := BitVec.ofNat 64 e.data.toNat } : FaultEv) = e := by
  rw [Nat.mod_eq_of_lt hsource, Nat.mod_eq_of_lt hcode, BitVec.ofNat_toNat, BitVec.setWidth_eq]

section
variable {s : State} (hup : s.up = true) {e : FaultEv} (hsource : e.source < 32) (hcode : e.code < 64)

/-- A FAULT's arrival ends as its raise left it, but for the domain's health and the line (R492). -/
theorem faultArrival_ends (hup : s.up = true) (e : FaultEv) : Reaches (exec (.faultHandling (some e)) s)
    (Ended (s.draw.raise .fault (e.source % 32) (e.code % 64) e.booth e.data.toNat)) :=
  live_ends (f := fun s => faultHandling (some e) s) hup rfl (raise_nest s.draw .fault _ _ _ _ (by decide))

include hup hsource hcode in
theorem faultHandling_taken (hcalm : s.calm = true) (hidle : s.flt.handling = none) :
    Reaches (exec (.faultHandling (some e)) s) fun t => t.flt.handling = some e := by
  obtain ⟨htaken, -⟩ := raise_fault_idle s.draw (e.source % 32) (e.code % 64) e.booth e.data.toNat hcalm hidle
  rw [FaultEv.arrives hsource hcode] at htaken
  exact (faultArrival_ends hup e).imp fun t ht => ht.flt ▸ htaken

include hup hsource hcode in
theorem faultHandling_queued (hbusy : s.flt.handling.isSome = true) (hroom : s.flt.queue.length < 8) :
    Reaches (exec (.faultHandling (some e)) s) fun t => t.flt.handling = s.flt.handling ∧ t.flt.queue = s.flt.queue ++ [e] := by
  have hjoins := raise_fault_queued s.draw (e.source % 32) (e.code % 64) e.booth e.data.toNat hbusy hroom
  rw [FaultEv.arrives hsource hcode] at hjoins
  exact (faultArrival_ends hup e).imp fun t ht => ht.flt ▸ hjoins

include hup in
theorem faultHandling_full (e : FaultEv) (hbusy : s.flt.handling.isSome = true) (hroom : 8 ≤ s.flt.queue.length) :
    Reaches (exec (.faultHandling (some e)) s) fun t => t.flt.handling = s.flt.handling ∧ t.flt.queue = s.flt.queue ∧
      t.total 0x9848 = s.total 0x9848 + 1 ∧ t.sq 19 6 = true ∧ t.total 0x9844 = s.total 0x9844 + 1 ∧
      t.total 0x9854 = s.total 0x9854 + 1 := by
  obtain ⟨hhandling, hqueue, hsq, htotal⟩ := raise_fault_full s.draw (e.source % 32) (e.code % 64) e.booth e.data.toNat hbusy hroom
  refine (faultArrival_ends hup e).imp fun t ht => ?_
  have hcount : ∀ o ∈ [0x9844, 0x9848, 0x9854], 0x69FC ≠ o → t.total o = s.total o + 1 := fun o ho hne =>
    (ht.total o hne).trans (htotal o ho)
  rw [ht.flt]
  exact ⟨hhandling, hqueue, hcount _ (by decide) (by decide), (ht.sq 19 6 (by simp)).trans hsq, hcount _ (by decide) (by decide),
    hcount _ (by decide) (by decide)⟩

/-- The end of a handling leaves the queue's head in handling (R494). -/
theorem faultHandling_none {s : State} (h : s.flt.critical = none) : (faultHandling none s).flt.handling = s.flt.queue.head? ∧
    (faultHandling none s).flt.queue = s.flt.queue.tail ∧ (faultHandling none s).flt.nest = s.flt.nest := by
  unfold faultHandling
  dsimp only
  rw [h, if_neg (by decide)]
  cases s.flt.queue with
  | nil => exact ⟨rfl, rfl, rfl⟩
  | cons e l => exact ⟨rfl, rfl, rfl⟩

include hup in
theorem faultHandling_ends (hcalm : s.calm = true) :
    Reaches (exec (.faultHandling none) s) fun t => t.flt.handling = s.flt.queue.head? ∧ t.flt.queue = s.flt.queue.tail := by
  obtain ⟨hhandling, hqueue, hnest⟩ := faultHandling_none (s := s.draw) (Option.isNone_iff_eq_none.mp hcalm)
  exact (live_ends (f := fun s => faultHandling none s) hup rfl hnest).imp fun t ht => ht.flt ▸ ⟨hhandling, hqueue⟩

/-- A CRITICAL that finds none in handling suspends the FAULT that is handled (R495). -/
theorem raise_critical_suspends (s : State) (src code : Nat) (booth : Byte) (data : Nat) (h : s.calm = true) :
    (s.raise .critical src code booth data).flt.suspended = s.flt.handling.isSome ∧
      (s.raise .critical src code booth data).flt.handling = s.flt.handling := by
  have hlog := logEvent_sameHandling s .critical src code booth (BitVec.ofNat 64 data)
  have hnone : (s.logEvent .critical src code booth (BitVec.ofNat 64 data)).flt.critical.isNone = true := hlog.critical ▸ h
  unfold State.raise State.criticalArrives
  dsimp only
  rw [if_pos hnone]
  exact ⟨congrArg Option.isSome hlog.handling, hlog.handling⟩

include hup hsource hcode in
/-- A CRITICAL suspends the handling in progress (R495). -/
theorem criticalHandling_suspends (hcalm : s.calm = true) : Reaches (exec (.criticalHandling (some e)) s) fun t =>
    t.flt.critical = some e ∧ t.flt.suspended = s.flt.handling.isSome ∧ t.flt.handling = s.flt.handling := by
  obtain ⟨hcritical, hnest, -⟩ := raise_critical_calm s.draw (e.source % 32) (e.code % 64) e.booth e.data.toNat hcalm
  have hsuspends := raise_critical_suspends s.draw (e.source % 32) (e.code % 64) e.booth e.data.toNat hcalm
  rw [FaultEv.arrives hsource hcode] at hcritical
  exact (live_ends (f := fun s => criticalHandling (some e) s) hup rfl hnest).imp fun t ht => ht.flt ▸ ⟨hcritical, hsuspends⟩

include hup in
/-- Its end lets the suspended FAULT resume (R495). -/
theorem criticalHandling_ends (hcritical : s.flt.critical.isSome = true) (hbusy : s.flt.handling.isSome = true) :
    Reaches (exec (.criticalHandling none) s) fun t =>
      t.flt.critical = none ∧ t.flt.suspended = false ∧ t.flt.handling = s.flt.handling := by
  have hrun : criticalHandling none s.draw = { s.draw with flt := { s.flt with critical := none, suspended := false } } := by
    unfold criticalHandling
    exact (if_neg (ne_true_of_eq_false (Option.isNone_eq_false_iff.mpr hcritical))).trans (if_pos hbusy)
  refine (live_ends (f := fun s => criticalHandling none s) hup hrun rfl).imp fun t ht => ?_
  rw [ht.flt]
  exact ⟨rfl, rfl, rfl⟩

end

end Sys2Proof.Machine
open Sys2Proof.Machine

/-- Settles O11, from what the arrival of an event and the end of a handling make of the handling and its queue. -/
theorem handlingOrder : Obligations.HandlingOrder :=
  ⟨fun _ hup hcalm => ⟨fun _ hsource hcode hidle => faultHandling_taken hup hsource hcode hcalm hidle,
      fun _ hsource hcode hbusy hroom => faultHandling_queued hup hsource hcode hbusy hroom,
      fun e _ _ hbusy hroom => faultHandling_full hup e hbusy hroom, faultHandling_ends hup hcalm,
      fun _ hsource hcode => criticalHandling_suspends hup hsource hcode hcalm⟩,
    fun _ hup hcritical hbusy => criticalHandling_ends hup hcritical hbusy⟩

end

section
/-! SUPPORT. Chapter 19: the faults and the log by command, and the restart of control (O60). -/
namespace Sys2Proof.Machine

section
variable {s : State} {h : Hdr} (hlord : s.landlord h = true)

/-! ### Faults and the log (R501, R504) -/

/-- The data of FAULT_READ (R504). -/
def State.faultData (s : State) : List Byte :=
  leBytes 4 s.fltFirst.toNat ++ leBytes 4 0 ++ leBytes 8 ((s.flt.first.map (·.rev)).getD 0) ++
    leBytes 8 ((s.flt.first.map fun (x : LogEnt) => x.data.toNat).getD 0) ++
    (List.range 4).flatMap (fun k => leBytes 4 (s.total (0x9840 + 4 * k))) ++ leBytes 4 s.fltQueue.toNat

theorem State.faultData_length (s : State) : s.faultData.length = 44 := by
  unfold State.faultData
  simp [List.length_flatMap]

/-- The data of LOG_READ (R504). -/
def State.logData (s : State) (first : W32) (n : Nat) : List Byte :=
  let es := (s.logList.filter fun e => decide (first.toNat ≤ e.seq)).take n
  leBytes 2 es.length ++ List.replicate 6 0 ++ es.flatMap fun e => bytesOf e.words

theorem LogEnt.bytes_length (e : LogEnt) : (bytesOf e.words).length = 32 := by simp [bytesOf, LogEnt.words]

theorem State.logData_length_le (s : State) (first : W32) (n : Nat) : (s.logData first n).length ≤ 8 + 32 * n := by
  unfold State.logData
  extract_lets es
  have hes : es.length ≤ n := List.length_take_le ..
  have hbytes : (es.flatMap fun e => bytesOf e.words).length = 32 * es.length := by
    simp [List.length_flatMap, LogEnt.bytes_length, Nat.mul_comm]
  rw [List.length_append, List.length_append, leBytes_length, List.length_replicate, hbytes]
  omega

theorem Taken.flt {v : State} (hv : Taken s h v) : v.flt = s.flt := by
  obtain ⟨_, _, _, _, e⟩ := hv.same; rw [e]; rfl

include hlord in
theorem faultRead_reaches (ha : s.admits h 44) : Reaches (exec (.faultRead h) s) fun t => s.answered t h 0x0E01 0 s.faultData := by
  refine ok_serves_at (f := fun s => cmdFaultRead h s) (fl := 0) (da := s.faultData) rfl ha
    { denied := congrArg (!·) hlord, bad := rfl, changes := nofun } s.faultData_length.le fun v hat hv => ⟨v, ?_, hv.path, fun t hans _ => hans⟩
  have hcounts : (List.range 4).flatMap (fun k => leBytes 4 (v.total (0x9840 + 4 * k))) =
      (List.range 4).flatMap (fun k => leBytes 4 (s.total (0x9840 + 4 * k))) :=
    congrArg List.flatten (List.map_congr_left fun k _ => congrArg (leBytes 4) (hat ▸ accept_total s h _ (by omega)))
  have hdata : v.faultData = s.faultData := by
    unfold State.faultData State.fltFirst State.fltQueue
    rw [hcounts, hv.flt]
  exact congrArg (fun da => okRes da v) hdata

include hlord in
theorem logRead_reaches {first : W32} {n : Nat} (hpos : 1 ≤ n) (hmax : n ≤ 64) (ha : s.admits h (8 + 32 * n)) :
    Reaches (exec (.logRead h first n) s) fun t => s.answered t h 0x0E02 0 (s.logData first n) := by
  refine ok_serves (f := fun s => cmdLogRead h first n s) (fl := 0) (da := s.logData first n) rfl ha
    { denied := congrArg (!·) hlord, bad := if_neg (by omega), changes := nofun } (s.logData_length_le first n) fun v hv =>
    ⟨v, ?_, hv.path, fun t hans _ => hans⟩
  have hdata : v.logData first n = s.logData first n := by
    unfold State.logData State.logList
    rw [hv.flt]
  exact congrArg (fun da => okRes da v) hdata

include hlord in
/-- The stream stopped, with the sequence of the next entry (R501). -/
theorem logStream_stops {first : W32} (ha : s.admits h 4) : Reaches (exec (.logStream h 0 first) s) fun t =>
    s.answered t h 0x0E03 0 (leBytes 4 (s.flt.logSeq + 1)) ∧ t.flt.stream = none := by
  refine ok_serves (f := fun s => cmdLogStream h 0 first s) (fl := 0) (da := leBytes 4 (s.flt.logSeq + 1)) rfl ha
    { denied := congrArg (!·) hlord, bad := rfl, changes := nofun } (leBytes_length ..).le fun v hv =>
    ⟨{ v with flt := { v.flt with stream := none } }, ?_, ?_, fun t hans ht => ⟨hans, ?_⟩⟩
  · rw [← hv.flt]; rfl
  · exact ⟨hv.path.queues, hv.path.resp, hv.path.slots, hv.path.qEn, hv.path.expected, hv.path.nest⟩
  · rw [ht.flt]

/-! ### The restart of control (R489, R504) -/

/-- What R384 judges of a restart of control. -/
def State.restartSpec (s : State) (h : Hdr) : CmdSpec :=
  { opcode := 0x0E04, maxData := 8, denied := s.notBooth0 h, bad := none, refuse := s.restartRefused 0 0 }

include hlord in
theorem restart_turnedDown {d : Nat} (ha : s.admits h 8) (hrefuse : s.restartRefused 0 0 = some d) :
    Reaches (exec (.ctrlRestart h 0 0) s) fun t => s.turnedDown t h 0x0E04 0 0x0E d [] ∧ t.sys = s.sys :=
  (refused_reaches (f := fun s => cmdCtrlRestart h 0 0 s) (c := s.draw.restartSpec h) rfl ha
    { denied := congrArg (!·) hlord, bad := rfl, changes := nofun } hrefuse).imp fun _ ⟨hdown, hkept⟩ => ⟨hdown, hkept.sys⟩

/-- A restart finds its scope at work, or a thermal stop, or nothing against it (R504). -/
theorem restartRefused_running (hrun : s.running = true) : s.restartRefused 0 0 = some 1 := by
  unfold State.restartRefused
  rw [show s.sys.run = .running from of_decide_eq_true hrun]
  rfl

theorem restartRefused_stopped (hstop : s.sys.run = .stopped) (hovr : s.crsl.ovrDue = false) : s.restartRefused 0 0 =
    if s.sys.thermalHold then some 2 else if s.restartPending then some 3 else none := by
  unfold State.restartRefused
  rw [hstop, hovr]
  rfl

/-- A snapshot begins with the partition's registers alone changed (R148). -/
theorem PathKept.snapshot {u : State} (k : PathKept s u h) : PathKept s u.snapshot h := by
  unfold State.snapshot
  extract_lets c _ t
  exact (k.of_same (v := t) rfl rfl rfl rfl).setReg _ (by decide)

include hlord in
theorem restart_waits (ha : s.admits h 8) (hclear : s.restartRefused 0 0 = none) :
    Reaches (exec (.ctrlRestart h 0 0) s) fun t => s.inFlightFor t h 0x0E04 8 (.restart (s.rev + 100)) ∧ t.sys = s.sys := by
  refine later_waits (f := fun s => cmdCtrlRestart h 0 0 s) (c := s.draw.restartSpec h) (w := .restart (s.rev + 100)) rfl ha
    { denied := congrArg (!·) hlord, bad := rfl, changes := nofun, refuse := hclear } fun v hv =>
    ⟨if v.prg.ckpt.writing.isSome then v else v.snapshot, ?_, ?_, ?_, fun t hwait ht => ⟨hwait, ht.sys.trans ?_⟩⟩
  · rw [← hv.rev]; rfl
  · split
    · exact hv.path
    · exact hv.path.snapshot
  · exact (apply_ite State.crsl _ _ _).trans ((ite_self _).trans hv.crsl)
  · have hsys : v.sys = s.sys := hv.unitsKept.sys
    exact (apply_ite State.sys _ _ _).trans ((ite_self _).trans hsys)

end

end Sys2Proof.Machine
open Sys2Proof.Machine

/-- Settles O60, from the data each read gives and what R504 holds against a restart. -/
theorem logCommands : Obligations.LogCommands := by
  intro s h hlord
  refine ⟨faultRead_reaches hlord, fun first n => logRead_reaches hlord, fun first => logStream_stops hlord, ?_, ?_,
    fun ha hrun => restart_turnedDown hlord ha (restartRefused_running hrun)⟩
  · intro ha hstop hovr hhot
    exact restart_turnedDown hlord ha ((restartRefused_stopped hstop hovr).trans (if_pos hhot))
  · intro ha hstop hovr hcool hnone
    refine restart_waits hlord ha ((restartRefused_stopped hstop hovr).trans ?_)
    rw [hcool, hnone]
    rfl

end
